-- ==== Sys2Proof/Word.lean ====
section
/-!
DEFINITION. The word types of the block and its plainest arithmetic.
Multi-byte values are little-endian and bit 0 is the least significant bit (R4, spec/00_scope.md).
-/

namespace Sys2Proof

/-- One byte. -/
abbrev Byte := BitVec 8
/-- A 16-bit value: node numbers, fault codes, short dictionary entries. -/
abbrev U16 := BitVec 16
/-- A 32-bit value: attendance counters, chart epochs. -/
abbrev U32 := BitVec 32
/-- A 64-bit value: command words, dictionary payloads. -/
abbrev U64 := BitVec 64

/-- A finite map from numbers: pairs with strictly rising keys; what an absent key stands for is said where a map is
read (`Map.get` takes the default). -/
abbrev FMap (α : Type) := List (Nat × α)

/-- Bits [lo+w-1 : lo] of a number (R4). -/
def bits (x lo w : Nat) : Nat := (x >>> lo) % 2 ^ w

/-- Bit i of a number (R4). -/
def bit (x i : Nat) : Bool := (x >>> i) % 2 == 1

/-- A truth value as the bit it is written as. -/
def bnat (b : Bool) : Nat := if b then 1 else 0

/-- Bits [lo+w-1 : lo] of x replaced by v. -/
def putBits (x lo w v : Nat) : Nat :=
  x - (bits x lo w) * 2 ^ lo + (v % 2 ^ w) * 2 ^ lo

/-- Quotient rounded up. -/
def ceilDiv (a b : Nat) : Nat := (a + b - 1) / b

end Sys2Proof
end

