-- ==== Sys2Proof/Codes.lean ====
section
/-!
DEFINITION. The fault codes of Table 18-7 (R7, R459, spec/18_reset_and_reliability.md): the closed list of every
code the block reports. Their 16-bit values are in Sys2Proof/Machine/Codes.lean.
-/

namespace Sys2Proof

/-- The codes of Table 18-7; no other code exists (R459). -/
inductive FC where
  /-- 0x0000 FC_OK, class S; R7. -/
  | ok
  /-- 0x0001 FC_RESERVED_NONZERO, class R, F; R6. -/
  | reservedNonzero
  /-- 0x0002 FC_VALUE_RANGE, class R; R295, R371. -/
  | valueRange
  /-- 0x0003 FC_ACCESS_DENIED, class R; R74, R324, R369. -/
  | accessDenied
  /-- 0x0004 FC_ADDR_UNMAPPED, class R, F; R20. -/
  | addrUnmapped
  /-- 0x0005 FC_UNIT_ABSENT, class R; R13. -/
  | unitAbsent
  /-- 0x0006 FC_PREEMPTED, class R; R9, R372. -/
  | preempted
  /-- 0x0007 FC_TARGET_RESET, class F; R451. -/
  | targetReset
  /-- 0x0008 FC_DATA_POISONED, class R, F, S; R441, R442. -/
  | dataPoisoned
  /-- 0x0009 FC_ECC_UNCORRECTABLE, class E, X; R184, R406, Table 18-2. -/
  | eccUncorrectable
  /-- 0x000A FC_ASSIST_UNAVAILABLE, class R, F; R71, R375, R446. -/
  | assistUnavailable
  /-- 0x000B FC_ASSIST_TIMEOUT, class F; R95. -/
  | assistTimeout
  /-- 0x000C FC_ASSIST_INVALID, class R, F; R95, R267. -/
  | assistInvalid
  /-- 0x000D FC_NODE_UNREACHABLE, class F, R; R294, R361, R374. -/
  | nodeUnreachable
  /-- 0x0101 FC_CHART_LIVE, class R; R26, R55. -/
  | chartLive
  /-- 0x0102 FC_CHART_MALFORMED, class R, F; R25, R38. -/
  | chartMalformed
  /-- 0x0103 FC_CHART_DEPTH, class R; R62. -/
  | chartDepth
  /-- 0x0104 FC_CHART_EPOCH, class F; R59, R201. -/
  | chartEpoch
  /-- 0x0105 FC_CHART_REMOTE_WRITE, class F; R41. -/
  | chartRemoteWrite
  /-- 0x0106 FC_SLOT_UNMAPPED, class F; R38, R41. -/
  | slotUnmapped
  /-- 0x0107 FC_FRAME_EXHAUSTED, class R, E; R60, R68. -/
  | frameExhausted
  /-- 0x0108 FC_NODE_EXHAUSTED, class R, E; R60. -/
  | nodeExhausted
  /-- 0x0109 FC_SHARE_FULL, class R; R48. -/
  | shareFull
  /-- 0x010A FC_SHARE_UNDERFLOW, class R; R50. -/
  | shareUnderflow
  /-- 0x010B FC_ATTACH_RANGE, class R; R48. -/
  | attachRange
  /-- 0x010C FC_REMAP_RANGE, class R; R62, R70. -/
  | remapRange
  /-- 0x010D FC_DRAFT_RANGE, class R; R45, R81. -/
  | draftRange
  /-- 0x010E FC_EDIT_QUEUE_FULL, class R; R56. -/
  | editQueueFull
  /-- 0x010F FC_EDIT_CANCELLED, class S; R63. -/
  | editCancelled
  /-- 0x0110 FC_EVICT_NO_ROOM, class E; R68. -/
  | evictNoRoom
  /-- 0x0111 FC_PAGE_OVERFLOW, class R, S; R32, R388. -/
  | pageOverflow
  /-- 0x0201 FC_SEQ_INVALID, class R; R56, R81, R246. -/
  | seqInvalid
  /-- 0x0202 FC_SEQ_BUSY, class R; R81. -/
  | seqBusy
  /-- 0x0203 FC_SEQ_STATE, class R; R81. -/
  | seqState
  /-- 0x0204 FC_SCHED_CONFIG, class R; R73, R85, R94. -/
  | schedConfig
  /-- 0x0205 FC_REP_INVALID, class R; R81. -/
  | repInvalid
  /-- 0x0206 FC_REP_IN_USE, class R; R92. -/
  | repInUse
  /-- 0x0207 FC_REP_MALFORMED, class R; R92. -/
  | repMalformed
  /-- 0x0208 FC_TENANT_INVALID, class R; R81. -/
  | tenantInvalid
  /-- 0x0209 FC_PRECISION_ESCALATED, class E; R93. -/
  | precisionEscalated
  /-- 0x0301 FC_FORMAT_UNSUPPORTED, class R; R98, R114. -/
  | formatUnsupported
  /-- 0x0302 FC_FORMAT_PAIRING, class R; R115, R116. -/
  | formatPairing
  /-- 0x0303 FC_TILE_SHAPE, class R; R122, R134. -/
  | tileShape
  /-- 0x0304 FC_ACC_NO_SPILL, class R; R138, R173. -/
  | accNoSpill
  /-- 0x0305 FC_ARRAY_CHECKSUM, class E; R142. -/
  | arrayChecksum
  /-- 0x0306 FC_SFU_FUNCTION, class R; R149. -/
  | sfuFunction
  /-- 0x0307 FC_SFU_TABLE_CRC, class S, E; R161. -/
  | sfuTableCrc
  /-- 0x0308 FC_SFU_TABLE_SEAM, class S, E; R161. -/
  | sfuTableSeam
  /-- 0x0309 FC_SFU_TABLE_BUSY, class R; R163. -/
  | sfuTableBusy
  /-- 0x0401 FC_SCRATCH_RANGE, class R, F; R175, R181. -/
  | scratchRange
  /-- 0x0402 FC_TT_NO_SLOT, class R; R174. -/
  | ttNoSlot
  /-- 0x0403 FC_SCHED_HAZARD, class E; R177. -/
  | schedHazard
  /-- 0x0404 FC_WEIGHT_REFETCH_FAIL, class E; R186. -/
  | weightRefetchFail
  /-- 0x0405 FC_STREAM_PROGRAM, class R; R197, R202. -/
  | streamProgram
  /-- 0x0406 FC_RING_ABSENT, class R; R210. -/
  | ringAbsent
  /-- 0x0407 FC_LESSON_CHAIN, class R; R219, R229. -/
  | lessonChain
  /-- 0x0408 FC_FUSE_ROW_DEFERRED, class R; R231. -/
  | fuseRowDeferred
  /-- 0x0409 FC_RESIDENT_DENIED, class R; R238. -/
  | residentDenied
  /-- 0x040A FC_ROWMAP_INVALID, class R; R246. -/
  | rowmapInvalid
  /-- 0x040B FC_ATTEND_CONFIG, class R; R253, R255. -/
  | attendConfig
  /-- 0x040C FC_ATTEND_SPLIT_MISMATCH, class F; R262. -/
  | attendSplitMismatch
  /-- 0x040D FC_BWD_CONFIG, class R; R274. -/
  | bwdConfig
  /-- 0x0501 FC_WINDOW_CLOSED, class R, F; R305, R311. -/
  | windowClosed
  /-- 0x0502 FC_WINDOW_DENIED, class R, F; R301, R305. -/
  | windowDenied
  /-- 0x0503 FC_WINDOW_BUSY, class R; R303, R313. -/
  | windowBusy
  /-- 0x0504 FC_WINDOW_OVERLAP, class R; R304. -/
  | windowOverlap
  /-- 0x0505 FC_CMD_SLOT, class R; R318. -/
  | cmdSlot
  /-- 0x0506 FC_CMD_WINDOW_FULL, class R; R318. -/
  | cmdWindowFull
  /-- 0x0601 FC_SYNC_UNDERFLOW, class R, F; R325. -/
  | syncUnderflow
  /-- 0x0602 FC_SYNC_OVERFLOW, class R, F, E; R325, R339. -/
  | syncOverflow
  /-- 0x0603 FC_RC_BUSY, class R; R343. -/
  | rcBusy
  /-- 0x0604 FC_RC_TIMEOUT, class E; R342. -/
  | rcTimeout
  /-- 0x0605 FC_SYNC_MANUAL, class E; R345. -/
  | syncManual
  /-- 0x0701 FC_LINK_DOWN, class E; R365. -/
  | linkDown
  /-- 0x0702 FC_LINK_ROLE, class E; R350. -/
  | linkRole
  /-- 0x0703 FC_FORM_DEGRADED, class E; R352. -/
  | formDegraded
  /-- 0x0704 FC_MEMBER_LOST, class E; R366. -/
  | memberLost
  /-- 0x0705 FC_HEAD_LOST, class E; R366. -/
  | headLost
  /-- 0x0706 FC_ENUM_DUPLICATE, class S; R352. -/
  | enumDuplicate
  /-- 0x0707 FC_ENUM_TOPOLOGY, class S; R352. -/
  | enumTopology
  /-- 0x0708 FC_ENUM_BUSY, class S; R352. -/
  | enumBusy
  /-- 0x0801 FC_DICT_NO_ENTRY, class R; R371. -/
  | dictNoEntry
  /-- 0x0802 FC_DICT_TYPE, class R; R371. -/
  | dictType
  /-- 0x0803 FC_AUTH_REQUIRED, class R; R371. -/
  | authRequired
  /-- 0x0804 FC_AUTH_KEY, class R; R380, R383. -/
  | authKey
  /-- 0x0805 FC_AUTH_FAILED, class R, S; R352, R380. -/
  | authFailed
  /-- 0x0806 FC_AUTH_REPLAY, class R; R380. -/
  | authReplay
  /-- 0x0807 FC_AUTH_TABLE_FULL, class R; R380. -/
  | authTableFull
  /-- 0x0808 FC_OVL_INVALID, class R; R387. -/
  | ovlInvalid
  /-- 0x0809 FC_OVL_IN_USE, class R; R388. -/
  | ovlInUse
  /-- 0x080A FC_OVL_STORE_FULL, class R; R388. -/
  | ovlStoreFull
  /-- 0x080B FC_OVL_BUSY, class R; R388. -/
  | ovlBusy
  /-- 0x080C FC_OVL_ABSENT, class S, E; R388. -/
  | ovlAbsent
  /-- 0x0901 FC_CLOCK_LOSS, class E, X; R395. -/
  | clockLoss
  /-- 0x0902 FC_MC_DOWN, class E, F; R408. -/
  | mcDown
  /-- 0x0903 FC_POISON_DIR_FULL, class E; R407. -/
  | poisonDirFull
  /-- 0x0904 FC_PG_CAL_FAILED, class E; R422. -/
  | pgCalFailed
  /-- 0x0905 FC_PG_TLM_INVALID, class E; R421. -/
  | pgTlmInvalid
  /-- 0x0906 FC_ALERT_STUCK, class E; R432. -/
  | alertStuck
  /-- 0x0907 FC_ALERT_CHATTER, class E; R433. -/
  | alertChatter
  /-- 0x0908 FC_OP_TIMEOUT, class E; R434. -/
  | opTimeout
  /-- 0x0909 FC_QUIESCE_TIMEOUT, class S, E; Core and cluster reset. -/
  | quiesceTimeout
  /-- 0x090A FC_RESET_BUSY, class R; Core and cluster reset. -/
  | resetBusy
  /-- 0x090B FC_FW_INVALID, class S, E, R; The Control Complex. -/
  | fwInvalid
  /-- 0x090C FC_FW_BUSY, class R; The Control Complex. -/
  | fwBusy
  /-- 0x090D FC_CC_WATCHDOG, class E, X; The Control Complex. -/
  | ccWatchdog
  deriving DecidableEq, Repr

end Sys2Proof
end

