-- ==== Sys2Proof/Syntax.lean ====
section
/-!
DEFINITION. The commands of the block: one constructor of `Instr` per row of spec/opcode_table.json, with the row's
operands. A row is either a command an agent sends (a write of a command entry, a remote memory operation, a command
descriptor, a bus transfer), a stream instruction, or an event of a pin, a timer or an engine.
-/

namespace Sys2Proof

/-! ## Operands of dictionary requests -/

/-- Where a dictionary request enters (R372): the Host Port, the Management Port, Gaith Link port n, or the Control
Complex acting for itself. -/
inductive DictSrc where
  | host
  | mgmt
  | link (port : Fin 24)
  | cc
  deriving DecidableEq, Repr

/-- The authentication trailer of Table 15-11 (R380); `res` is the value of its reserved bytes 0x03 to 0x07, `tag` the
eight tag bytes read as a big-endian number, the order the CMAC output gives them. -/
structure Trailer where
  sender : U16
  slot : BitVec 8
  res : BitVec 40 := 0
  counter : U64
  tag : U64
  deriving DecidableEq, Repr

/-- What the block's GETs of one range of another node returned while a command was carried out: the first global
address, the code, the bytes and one mark per 16-byte word. Memory of other nodes is outside the block, so the command
carries it. -/
structure Fetched where
  addr : U64
  code : FC := .ok
  data : List Byte := []
  poison : List Bool := []
  deriving DecidableEq, Repr

/-- One port record that enumeration reads over a directed route (R350, R351). -/
structure PortRec where
  port : Nat
  peerId : U64
  peerPort : Nat
  role : Nat
  deriving DecidableEq, Repr

/-- What the top head's firmware learns of one other block during enumeration: its identity, its port records and the
code with which it answered ENUM_ASSIGN (R351, R352). -/
structure EnumPeer where
  identity : U64
  ports : List PortRec
  assignCode : FC := .ok
  deriving DecidableEq, Repr

/-- What a wait-for graph needs of a block beside its Report Card (R469): the counters that issued or untaken commands
name, as (context 8c + x, node, counter 256c + n); what contexts hold, as (context, awaited kind 3 to 5); walks of
Lessons over sequences with HELD = 1, as (sequence, context); contexts with a Lesson of the step in flight; members that have not sent STEP_DONE; whether the
block has ended its step. -/
structure CardFacts where
  produces : List (Nat × Nat × Nat) := []
  holds : List (Nat × Nat) := []
  walks : List (Nat × Nat) := []
  inFlight : List Nat := []
  missing : List Nat := []
  ended : Bool := true
  deriving DecidableEq, Repr

/-- A Report Card that another block of the Form delivered for a wait-for graph (R468), with what firmware reads beside it;
no card when the block did not answer or has no REPORT_BASE. -/
structure RemoteCard where
  node : U16
  card : Option (List Byte)
  facts : CardFacts := { }
  deriving DecidableEq, Repr

/-- What a request to the dictionary carries beside its entry and payload (Table 15-7, R372): the source, the number
of the 10 ns tick in which it is served, transaction number, destination node, TENANT field (`none`: TENANT_EN = 0),
trailer, whether the frame is damaged (its length, version, CRC or a reserved header field fails check 1 of Table 15-4), and
what other blocks give the block while it serves the request: bytes its GETs return (an image at a global address), port
records for an enumeration, cards for a wait-for graph. -/
structure Hdr where
  src : DictSrc
  tick : Nat := 0
  tid : U16 := 0
  dest : U16 := 0
  tenant : Option (BitVec 12) := none
  trailer : Option Trailer := none
  damaged : Bool := false
  fetched : List Fetched := []
  peers : List EnumPeer := []
  cards : List RemoteCard := []
  deriving DecidableEq, Repr

/-! ## Operands of remote memory operations -/

/-- Element type of ADD and MAX (ATYPE of Table 12-8). -/
inductive AType where
  | u32
  | u64
  | i32
  | i64
  | f32
  deriving DecidableEq, Repr

/-- Predicate of CMPCNT (PRED of Table 12-8). -/
inductive Pred where
  | eq
  | ne
  | ltu
  | geu
  deriving DecidableEq, Repr

/-- Who sends a request from inside the block (R299), for the stream order, the epoch stamp and the fault of R327. -/
inductive Issuer where
  /-- SE stream s of a core; the context is the one that bound it -/
  | stream (core : Fin 32) (ctx : Fin 8) (s : Fin 16)
  /-- the remote-operation stream of a context -/
  | remoteOp (core : Fin 32) (ctx : Fin 8)
  /-- a Control Complex core, with the tenant its firmware names -/
  | ccCore (n : Fin 16)
  /-- the block's completion writer -/
  | writer
  deriving DecidableEq, Repr

/-- How a request reaches the block: from inside, where no Hall Pass checks it (R19, R472), or as an arrival at the
Host Port or a Gaith Link port with the source node, stream (STREAM of Table 14-4) and stream sequence number that
R361 orders, the window epoch and the requester's unit epoch. -/
inductive Origin where
  | inside (who : Issuer)
  | arrival (node : U16) (stream : U16) (sseq : U16) (wepoch : BitVec 8) (uepoch : U32)
  deriving DecidableEq, Repr

/-- A remote memory operation as it is presented (Table 12-1, Table 12-8, Table 14-4). `cycle` is the ck_core cycle in
which a counter operation reaches its Sync Unit (R326); `poison` holds one mark per 16-byte word of `data`. `tag` names the
requester's own item: the command number of a remote operation command, and for a completion word one more than the
block-wide number of the context it reports to (0: none). -/
structure Req where
  origin : Origin
  tenant : BitVec 12 := 0
  target : U64
  len : Nat
  data : List Byte := []
  poison : List Bool := []
  atype : AType := .u32
  fetch : Bool := false
  operand : U64 := 0
  elem : BitVec 3 := 0
  pred : Pred := .eq
  value : BitVec 128 := 0
  mask : BitVec 128 := 0
  ctr : BitVec 8 := 0
  ctrCore : BitVec 5 := 0
  cycle : Nat := 0
  tag : Nat := 0
  deriving DecidableEq, Repr

/-! ## Operands of commands taken from command windows -/

/-- The source of an edit command (R59): the agent whose CPUT wrote its command slot. `internal` is hardware-mode
batch formation or an eviction job, whose edits no context took (R301). -/
inductive EditSrc where
  | cc (core : Fin 16)
  | host
  | link (node : U16)
  | ctx (core : Fin 32) (ctx : Fin 8)
  | internal
  deriving DecidableEq, Repr

/-- Where a command's completion word goes: COMPL_ADDR (0 = none) and the counter fixed at its taking (R301, R313);
`none` for a command that no context took. -/
structure Compl where
  addr : U64 := 0
  ctr : Option (BitVec 5 × BitVec 8) := none
  deriving DecidableEq, Repr

/-- Fields that every chart edit command carries (Table 2-8). -/
structure EditHdr where
  src : EditSrc
  seq : BitVec 18
  compl : Compl := { }
  fetched : List Fetched := []
  deriving DecidableEq, Repr

/-- Fields that every sequence command carries (Table 2-8 with SEQ_OP, R81): the block-wide context number that
submitted it, the sequence and the completion. -/
structure SeqHdr where
  ctx : BitVec 8
  seq : BitVec 18
  compl : Compl := { }
  fetched : List Fetched := []
  deriving DecidableEq, Repr

/-! ## Operands of links and Forms -/

/-- A 272-byte flit of R356: header of Table 14-3, 256 payload bytes and the CRC word; `phyErr` is the PHY's mark or a
broken half pair (R409). -/
structure Flit where
  header : BitVec 96
  payload : List Byte
  crc : U32
  phyErr : Bool := false
  deriving DecidableEq, Repr

/-- What ENUM_ASSIGN carries (R351 step 6): the node number, for each level the range and head node, and the route
table as (entry number, Table 14-2 word). `members` lists, for each level this block heads, the other members' heads: the
manual leaves open how a head learns them (notes/assumptions/14.md). -/
structure Assignment where
  node : U16
  levels : List (U16 × U16 × U16)
  routes : List (Nat × U64)
  members : List (List U16) := []
  blocks : U16 := 0
  deriving DecidableEq, Repr

/-- The unit that RST_CMD names (Table 18-5). -/
inductive RstUnit where
  | core
  | cluster
  | cc
  | block
  | reserved (v : Fin 12)
  deriving DecidableEq, Repr

/-- The increases a member's aggregates had since the previous run (R464): lessons, tokens, the stall cycles of the seven
causes, and the blocks that they cover. -/
structure MemberAgg where
  node : U16
  lessons : Nat
  tokens : Nat
  stalls : List Nat
  blocks : Nat := 1
  deriving DecidableEq, Repr

/-- The commands of the block, one constructor per row of spec/opcode_table.json. A dictionary request carries its frame's
fields in `h`, a command of a window its descriptor `d` and number `num`, an edit or sequence command its header and operand
words (A to D of Table 2-9 and Table 3-3); `fs` is what the block reads of other nodes while it carries the command out. -/
inductive Instr where
  /-- EXTEND (R61): Chart edit that maps every chart page needed for slots below n, copying shared or remote pages and
    growing depth as needed. -/
  | extend (h : EditHdr) (a : U64)
  /-- ATTACH (R48): Chart edit that maps the first s slots of a source sequence into an empty target chart as shared
    pages. -/
  | attach (h : EditHdr) (src : BitVec 18) (b : U64)
  /-- COW (R49): Chart edit that copies a shared or remote slot page into private frames of the shadow chart. -/
  | cow (h : EditHdr) (a : U64)
  /-- GROW (R62): Chart edit that adds root levels to a chart up to the named depth. -/
  | grow (h : EditHdr) (a : U64)
  /-- SET_ENTRY (R61): Chart edit that writes one leaf entry into the shadow chart, freeing or releasing what it
    replaces at commit. -/
  | setEntry (h : EditHdr) (a b : U64)
  /-- REMAP (R62): Chart edit that replaces a range of slot pages with new entries and moves later entries down. -/
  | remap (h : EditHdr) (a b c : U64)
  /-- TRUNCATE (R61): Chart edit that frees slot pages at or beyond s and resets the lengths, draft state and next
    position. -/
  | truncate (h : EditHdr) (a : U64)
  /-- RELEASE (R61): Chart edit that frees every private frame and node, releases every sharer bit and cancels the
    eviction job. -/
  | release (h : EditHdr)
  /-- DRAFT_COMMIT (R45): Verdict that accepts k drafts, committed with the epoch commit at the next boundary. -/
  | draftCommit (h : EditHdr) (a : U64)
  /-- DRAFT_ROLLBACK (R45): Verdict that rejects all pending drafts. -/
  | draftRollback (h : EditHdr)
  /-- EVICT (R66): Chart edit that starts an eviction job for a sequence at once. -/
  | evict (h : EditHdr) (a : U64)
  /-- FORCE_RELEASE (R59): Control Complex edit that releases a chart without waiting for walkers, bumping the epoch
    at once. -/
  | forceRelease (h : EditHdr)
  /-- FORCE_RELEASE_FREE (R59): Frames and nodes of a forced release are freed once every walker stamped with the old
    epoch has stopped. -/
  | forceReleaseFree (seq : BitVec 18)
  /-- HELD_COMMIT (R58): A held sequence commits its pending edits when WALKERS returns to 0. -/
  | heldCommit (seq : BitVec 18)
  /-- EVICT_JOB_DONE (R67): An eviction job finishes scoring and copying survivors and issues its REMAP or ends with a
    code. -/
  | evictJobDone (seq : BitVec 18)
  /-- SHARED_FRAME_INVALIDATED (R190): A freed shared frame returns to the free bitmap after its lines are invalidated
    in all four Commons. -/
  | sharedFrameInvalidated (part : Fin 16) (frame : Nat)
  /-- ADMIT (R81): Sequence command that places a free descriptor in QUEUED with its tenant, repertoire, partition and
    budget. -/
  | admitSeq (h : SeqHdr) (a b c d : U64)
  /-- APPEND (R81): Sequence command that submits ordinary and draft tokens for a sequence. -/
  | append (h : SeqHdr) (a b c : U64)
  /-- SUSPEND (R81): Sequence command that stops a sequence after the running step. -/
  | suspend (h : SeqHdr)
  /-- RESUME (R81): Sequence command that returns a suspended or faulted sequence to READY or IDLE. -/
  | resume (h : SeqHdr)
  /-- RETIRE (R81): Sequence command that moves a sequence to RETIRING and queues a RELEASE edit. -/
  | retire (h : SeqHdr)
  /-- REP_LOAD (R92): Sequence command that replaces a repertoire entry from a 256-byte record. -/
  | repLoad (h : SeqHdr) (a b : U64)
  /-- ESC_CLEAR (R81): Sequence command that clears escalation bits of a repertoire entry. -/
  | escClear (h : SeqHdr) (a b : U64)
  /-- STEP_BOUNDARY (R22): When a step's Lessons, stores and split combines are done, the scheduler commits edits,
    applies overlays and escalations, samples counters and forms the next batch. -/
  | stepBoundary (fs : List Fetched)
  /-- STEP_RETRY (R91): After an empty step, any command counter increment makes the scheduler repeat actions 4 and 5.
    -/
  | stepRetry (fs : List Fetched)
  /-- FILL (R180): Memory-side command that writes VALUE into every word of a scratchpad range. -/
  | fill (core : Fin 32) (ctx : Fin 8) (num : U32) (d : BitVec 1024)
  /-- COPY (R180): Memory-side command that moves bytes between scratchpad ranges as if all were read first. -/
  | copy (core : Fin 32) (ctx : Fin 8) (num : U32) (d : BitVec 1024)
  /-- MS_CMPCNT (R180): Memory-side command that counts masked elements of a scratchpad range satisfying a predicate.
    -/
  | msCmpcnt (core : Fin 32) (ctx : Fin 8) (num : U32) (d : BitVec 1024)
  /-- PUT (R295): Remote memory operation that writes data at a target range. -/
  | put (r : Req)
  /-- GET (R295): Remote memory operation that reads data from a target range. -/
  | get (r : Req)
  /-- CPUT (R301): Counted put that writes data and then increments one counter. -/
  | cput (r : Req)
  /-- ADD (R296): Atomic add on a 4- or 8-byte target, optionally returning the old value. -/
  | add (r : Req)
  /-- MAX (R297): Atomic max on a 4- or 8-byte target, optionally returning the old value. -/
  | max (r : Req)
  /-- CMPCNT (R295): Remote operation that counts masked elements of a target range satisfying a predicate. -/
  | cmpcnt (r : Req)
  /-- SU_QUEUE_APPLY (R326): A counter operation waiting in the Sync Unit queue is applied. -/
  | suQueueApply (core : Fin 32) (cycle : Nat)
  /-- COUNTED_INCREMENT (R300): A counted put's increment becomes visible once its data and earlier writes of its
    stream have landed. -/
  | countedIncrement (n : Nat)
  /-- REMOTE_OPERATION_COMMAND (R315): Class 0x05 command that issues one remote memory operation on the context's
    remote-operation stream. -/
  | remoteOperationCommand (core : Fin 32) (ctx : Fin 8) (num : U32) (d : BitVec 1024)
  /-- REPLY (R302): A reply to a remote request arrives and is used, or discarded on an epoch mismatch. -/
  | reply (num : Nat) (code : FC) (data : List Byte) (poison : List Bool)
  /-- REQUEST_TIMEOUT (R294): A request with no reply within RMO_TIMEOUT completes with FC_NODE_UNREACHABLE. -/
  | requestTimeout (num : Nat)
  /-- SEQ_GAP_TIMEOUT (R361): The target declares a missing stream sequence number lost after RMO_TIMEOUT and admits
    the held requests. -/
  | seqGapTimeout (node stream : U16)
  /-- COMMAND_COUNTED (R317): CTX_CMD_COUNT advances when the bytes of the next command have landed in its slot. -/
  | commandCounted (core : Fin 32) (ctx : Fin 8)
  /-- CMD_TAKE (R319): A context takes its next counted command and routes it by class. -/
  | cmdTake (core : Fin 32) (ctx : Fin 8) (fs : List Fetched)
  /-- LESSON (R224): A chain Lesson is validated and issued on its core. -/
  | lesson (core : Fin 32) (ctx : Fin 8) (num : U32) (d : BitVec 1024) (fs : List Fetched)
  /-- ATTEND (R243): An Attend Lesson computes attention for a sequence group over its walked pages. -/
  | attend (core : Fin 32) (ctx : Fin 8) (num : U32) (d : BitVec 1024) (fs : List Fetched)
  /-- RING_LOAD (R240): A weight-load Lesson places a layer slice in the ring region as a weight fill. -/
  | ringLoad (core : Fin 32) (ctx : Fin 8) (num : U32) (d : BitVec 1024) (fs : List Fetched)
  /-- ACT_GRAD (R281): Backward Lesson that multiplies the incoming gradient by an activation derivative. -/
  | actGrad (core : Fin 32) (ctx : Fin 8) (num : U32) (d : BitVec 1024) (fs : List Fetched)
  /-- GATE_GRAD (R281): Backward Lesson that forms the gradients of a gated activation. -/
  | gateGrad (core : Fin 32) (ctx : Fin 8) (num : U32) (d : BitVec 1024) (fs : List Fetched)
  /-- NORM_GRAD (R283): Backward Lesson that forms the input gradient of a normalise stage. -/
  | normGrad (core : Fin 32) (ctx : Fin 8) (num : U32) (d : BitVec 1024) (fs : List Fetched)
  /-- ATT_GRAD (R284): Backward Attend Lesson that forms dQ over the walked pages. -/
  | attGrad (core : Fin 32) (ctx : Fin 8) (num : U32) (d : BitVec 1024) (fs : List Fetched)
  /-- UPDATE (R287): Backward Lesson that applies an Adam-style update to adapter masters and stages serving copies.
    -/
  | update (core : Fin 32) (ctx : Fin 8) (num : U32) (d : BitVec 1024) (fs : List Fetched)
  /-- TILE_RELEASE (R123): A drained array tile passes its checks and becomes visible to the consuming stage. -/
  | tileRelease (core : Fin 32) (vArray : Bool) (bad : BitVec 4)
  /-- SECOND_SWEEP (R232): When an M-tile has passed row statistics, the deferred normalise runs over its held block.
    -/
  | secondSweep (core : Fin 32) (lesson m : Nat)
  /-- SPLIT_COMBINE (R237): Unit 0 combines a split heavy stage's tile once every unit counter has reached it. -/
  | splitCombine (core : Fin 32) (lesson : Nat)
  /-- ATTEND_COMBINE (R262): Unit 0 of a split Attend checks and combines the partial records of a head once all
    counters reach it. -/
  | attendCombine (core : Fin 32) (lesson : Nat)
  /-- LESSON_RETIRE (R235): A Lesson whose stages, stores and combines are done retires and reports completion. -/
  | lessonRetire (core : Fin 32) (lesson : Nat)
  /-- CONTEXT_SWITCH (R331): An array is taken from a context blocked for CTX_SWITCH_DELAY cycles and given to a ready
    context. -/
  | contextSwitch (core : Fin 32) (vArray : Bool) (x y : Fin 8) (steps : Nat)
  /-- RECESS_ENTRY (R335): A core whose contexts have all waited for RECESS_DELAY cycles enters Recess and hands over
    its allotment. -/
  | recessEntry (core : Fin 32)
  /-- STREAM_ARM (R196): An arm record binds a stream, loads or re-arms its program and starts it. -/
  | streamArm (core : Fin 32) (lesson stage : Nat)
  /-- END (R199): Stream instruction that ends the program. -/
  | endProgram (core : Fin 32) (stream : Fin 16)
  /-- LOOP (R200): Stream instruction that opens a counted loop level. -/
  | loop (core : Fin 32) (stream : Fin 16)
  /-- ENDL (R200): Stream instruction that closes or iterates the innermost loop level. -/
  | endl (core : Fin 32) (stream : Fin 16)
  /-- HLOOP (R200): Stream instruction that opens a loop level walked in Hilbert order. -/
  | hloop (core : Fin 32) (stream : Fin 16)
  /-- SETA (R199): Stream instruction that sets an address register from a base register plus offset. -/
  | seta (core : Fin 32) (stream : Fin 16)
  /-- ADDA (R199): Stream instruction that adds a stride to an address register. -/
  | adda (core : Fin 32) (stream : Fin 16)
  /-- SETD (R199): Stream instruction that sets the scratchpad offset register D. -/
  | setd (core : Fin 32) (stream : Fin 16)
  /-- WALK (R201): Stream instruction that translates a slot page through the Chart Walker into an address register.
    -/
  | walk (core : Fin 32) (stream : Fin 16)
  /-- EMIT (R203): Stream instruction that moves LEN bytes between an address and a destination. -/
  | emit (core : Fin 32) (stream : Fin 16)
  /-- MARK (R204): Stream instruction that increments a counter once every earlier EMIT has landed. -/
  | mark (core : Fin 32) (stream : Fin 16)
  /-- WAIT (R199): Stream instruction that waits until a counter holds at least N. -/
  | wait (core : Fin 32) (stream : Fin 16)
  /-- STREAM_END (R204): A stream that reached END ends once every delivery has landed, incrementing DONE_CTR if
    enabled. -/
  | streamEnd (core : Fin 32) (stream : Fin 16)
  /-- MULTICAST_REQUEST (R193): A cluster read with a core mask is delivered to every named core. -/
  | multicastRequest (core : Fin 32) (ctx : Fin 8) (stream : Fin 16) (mask : BitVec 8) (addr : U64)
      (len : BitVec 13) (off : BitVec 24) (ctr : BitVec 8) (weight cache : Bool)
  /-- MULTICAST_LANDED (R193): After a multicast request's last line lands on a core, its named counter increments
    there. -/
  | multicastLanded (n : Nat)
  /-- RING_PASS (R211): A heavy stage using a layer's slice starts a pass that sends it to the successor's spare. -/
  | ringPass (core : Fin 32) (lesson : Nat)
  /-- RING_PASS_COMPLETE (R211): A pass completes when the send is acknowledged, the arrival landed and the using
    stage retired. -/
  | ringPassComplete (core : Fin 32) (rep : BitVec 12) (layer : BitVec 8)
  /-- WEIGHT_REFETCH (R186): A damaged weight line is refetched from HOME and the read retried, or the line is
    poisoned. -/
  | weightRefetch (core : Fin 32) (line : BitVec 16)
  /-- SCRUB_VISIT (R187): The scrubber checks one weight line every SP_SCRUB_INTERVAL cycles. -/
  | scrubVisit (core : Fin 32)
  /-- COMMONS_INVALIDATE (R190): Writing 1 increments COMMONS_EPOCH so that older lines read as misses. -/
  | commonsInvalidate (h : Hdr) (cluster : Fin 4)
  /-- SFU_LOAD_IMAGE (R161): SFU_LOAD_CMD 1 or 2 starts loading an evaluator or derivative table from scratchpad. -/
  | sfuLoadImage (h : Hdr) (core : Fin 32) (table : Fin 2)
  /-- SFU_LOAD_FACTORY (R161): SFU_LOAD_CMD 3 or 4 starts loading a factory table from ROM. -/
  | sfuLoadFactory (h : Hdr) (core : Fin 32) (table : Fin 2)
  /-- SFU_LOAD_COMPLETE (R161): A table load finishes copying and checking, swapping banks or discarding the shadow.
    -/
  | sfuLoadComplete (core : Fin 32) (table : Fin 2)
  /-- ASSIST_ANSWER (R95): The Control Complex answers an assist request, and the answer is checked and applied. -/
  | assistAnswer (num : U32) (code : FC) (data : List Byte) (fs : List Fetched)
  /-- FN_ASSIST_ANSWER (R97): The host writes the answer of a forwarded assist request. -/
  | fnAssistAnswer (h : Hdr) (num : U32) (len16 code : U16)
  /-- ASSIST_TIMEOUT (R95): An assist request unanswered after FN_ASSIST_TIMEOUT ends with FC_ASSIST_TIMEOUT. -/
  | assistTimeout (num : U32) (fs : List Fetched)
  /-- HP_OPEN (R304): HP_CMD 1 opens a Hall Pass with a new epoch. -/
  | hpOpen (h : Hdr)
  /-- HP_CLOSE (R306): HP_CMD 2 moves an open Hall Pass to DRAINING. -/
  | hpClose (h : Hdr)
  /-- HP_DRAINED (R306): A draining Hall Pass becomes CLOSED when HP_INFLIGHT reaches 0. -/
  | hpDrained (p : BitVec 10)
  /-- RC_ARM (R337): A 16-byte PUT of a Roll Call arm record arms or withdraws a core for a generation. -/
  | rcArm (core : Fin 32) (ctx : Fin 8) (stream w : Fin 16) (record : BitVec 128)
  /-- RC_CC_ARRIVE (R338): The Control Complex arrives on a wire for the generation written. -/
  | rcCcArrive (h : Hdr) (w : Fin 16) (gen : BitVec 8)
  /-- RC_EXTERNAL_ARRIVE (R338): The external participant arrives when rc_arrive stays high for the minimum width. -/
  | rcExternalArrive (w : Fin 16) (cycles : Nat)
  /-- RC_COMPLETE (R339): A wire completes 37 cycles after the last arrival, updating counters and advancing RC_GEN.
    -/
  | rcComplete (w : Fin 16)
  /-- RC_TIMEOUT (R342): A generation incomplete after RC_TIMEOUT raises an event and writes a Report Card. -/
  | rcTimeout (w : Fin 16)
  /-- SYNC_ARRIVE (R340): A head receives a member's ARRIVE message for a wire and generation. -/
  | syncArrive (w : Fin 16) (gen : BitVec 8) (node : U16)
  /-- SYNC_RELEASE (R340): A member receives RELEASE, passes it on and completes the wire. -/
  | syncRelease (w : Fin 16) (gen : BitVec 8)
  /-- STEP_DONE (R363): A head receives a member's report that it has ended a step. -/
  | stepDone (node : U16) (step : U64) (empty : Bool) (fs : List Fetched)
  /-- STEP_GO (R363): A block receives STEP_GO and performs the step boundary actions. -/
  | stepGo (step : U64) (empty : Bool) (fs : List Fetched)
  /-- WAKE (R363): The top head receives WAKE after all-empty steps and sends STEP_GO again. -/
  | wake (fs : List Fetched)
  /-- HEARTBEAT (R363): A head or member receives a HEARTBEAT message. -/
  | heartbeat (node : U16)
  /-- HEARTBEAT_TIMER (R363): Every 100 µs a block sends HEARTBEAT to its head and members. -/
  | heartbeatTimer
  /-- MEMBER_LOST (R366): A head declares a member lost after FORM_LOSS_TIMEOUT without heartbeat and broadcasts
    MEMBER_LOST. -/
  | memberLost (node : U16) (fs : List Fetched)
  /-- MEMBER_LOST_MESSAGE (R366): A block receives MEMBER_LOST and invalidates routes into the lost range. -/
  | memberLostMessage (lo hi : U16) (fs : List Fetched)
  /-- HEAD_LOST (R366): A block hearing no heartbeat from its head for FORM_LOSS_TIMEOUT raises FC_HEAD_LOST and
    holds. -/
  | headLost
  /-- REPORT_CMD (R344): Writing 1 requests a Report Card capture. -/
  | reportCmd (h : Hdr)
  /-- REPORT_CARD_LANDED (R344): A captured Report Card finishes landing, or is abandoned on a failed write. -/
  | reportCardLanded
  /-- SYNC_SET_COUNTER (R345): Manual set KIND 0 gives a counter a new value. -/
  | syncSetCounter (h : Hdr) (core : BitVec 5) (counter : BitVec 8) (value : U32)
  /-- SYNC_SET_FLAG (R345): Manual set KIND 1 sets or clears an engine flag. -/
  | syncSetFlag (h : Hdr) (core : BitVec 5) (flag : BitVec 8) (value : U32)
  /-- SYNC_SET_WIRE (R345): Manual set KIND 2 completes a Roll Call wire on this block. -/
  | syncSetWire (h : Hdr) (core : BitVec 5) (wire : BitVec 8) (value : U32)
  /-- HELLO (R350): A port receives its peer's HELLO and records identity, port and role. -/
  | hello (port : Fin 24) (identity : U64) (peerPort role : BitVec 8) (req rsp sync mgmt : Nat)
  /-- ENUM_START (R351): ENUM_CMD 1 on the top head starts enumeration of the Form. -/
  | enumStart (h : Hdr)
  /-- ENUM_RELEASE (R352): ENUM_CMD 2 releases every node number. -/
  | enumRelease (h : Hdr)
  /-- ENUM_ASSIGN (R351): A block receives its node number, ranges, heads and route table. -/
  | enumAssign (a : Assignment) (tagOk : Bool)
  /-- ENUM_COMMIT (R351): A block receives the commit and opens its data and sync channels. -/
  | enumCommit
  /-- FLIT_RECEIVE (R358): A port receives a flit, checks CRC and sequence, handles acks and NAKs, and accepts or
    discards it. -/
  | flitReceive (port : Fin 24) (f : Flit)
  /-- LINK_ACK_TIMER (R358): A receiver acknowledges unacknowledged flits at least every 100 ns. -/
  | linkAckTimer (port : Fin 24)
  /-- LINK_DOWN (R365): A port goes down after too many replays or 10 µs without a valid flit, moving traffic to
    alternates. -/
  | linkDown (port : Fin 24) (phyUp : Bool)
  /-- LINK_UP (R365): gl_phy_up rises, the port starts HELLO and later returns its routes from ALT. -/
  | linkUp (port : Fin 24)
  /-- QMFN_READ (R373): A QMFN READ frame returns an entry's value. -/
  | qmfnRead (h : Hdr) (index : U16) (sub : BitVec 8) (payload : List Byte)
  /-- DICT_WRITE (R371): A write to a dictionary entry with no behaviour of its own is checked and applied in its
    tick. -/
  | dictWrite (h : Hdr) (index : U16) (sub : BitVec 8) (payload : List Byte)
  /-- EVENT_POLL (R378): A privileged EVENT_POLL frame returns event records from a sequence number. -/
  | eventPoll (h : Hdr) (payload : List Byte)
  /-- QMFN_FWD_TIMEOUT (R374): A forwarded frame without response within QMFN_FWD_TIMEOUT is answered with
    FC_NODE_UNREACHABLE. -/
  | qmfnFwdTimeout (id : Nat)
  /-- I3C_PRIVATE_WRITE (R376): The controller sends a QMFN request frame as one I3C private write. -/
  | i3cPrivateWrite (addr : BitVec 7) (bytes : List Byte) (env : Hdr)
  /-- I3C_PRIVATE_READ (R376): The controller reads the pending response by one I3C private read. -/
  | i3cPrivateRead (addr : BitVec 7)
  /-- ENTDAA (R377): Broadcast CCC that assigns a dynamic address. -/
  | entdaa (addr : BitVec 7)
  /-- SETDASA (R377): Direct CCC that assigns the dynamic address from the static address. -/
  | setdasa (static addr : BitVec 7)
  /-- SETNEWDA (R377): Direct CCC that changes the dynamic address. -/
  | setnewda (addr new : BitVec 7)
  /-- RSTDAA (R377): Broadcast CCC that resets the dynamic address. -/
  | rstdaa
  /-- GETPID (R377): Direct CCC that returns the provisional ID. -/
  | getpid (addr : BitVec 7)
  /-- GETBCR (R377): Direct CCC that returns BCR. -/
  | getbcr (addr : BitVec 7)
  /-- GETDCR (R377): Direct CCC that returns DCR. -/
  | getdcr (addr : BitVec 7)
  /-- GETSTATUS (R377): Direct CCC that returns target status. -/
  | getstatus (addr : BitVec 7)
  /-- GETMWL (R377): Direct CCC that returns the maximum write length. -/
  | getmwl (addr : BitVec 7)
  /-- GETMRL (R377): Direct CCC that returns the maximum read length. -/
  | getmrl (addr : BitVec 7)
  /-- SETMWL (R377): CCC that sets the maximum write length, NACKed below 308. -/
  | setmwl (addr : Option (BitVec 7)) (len : U16)
  /-- SETMRL (R377): CCC that sets the maximum read length, NACKed below 308. -/
  | setmrl (addr : Option (BitVec 7)) (len : U16)
  /-- ENEC (R377): CCC that enables in-band interrupts. -/
  | enec (addr : Option (BitVec 7)) (events : Byte)
  /-- DISEC (R377): CCC that disables in-band interrupts. -/
  | disec (addr : Option (BitVec 7)) (events : Byte)
  /-- KEY_WRAPPED (R382): Write that unwraps and loads a slot's current key. -/
  | keyWrapped (h : Hdr) (key : List Byte)
  /-- KEY_NEXT_WRAPPED (R384): Write that unwraps and loads a slot's next key. -/
  | keyNextWrapped (h : Hdr) (key : List Byte)
  /-- KEY_ZEROISE (R382): Writing 1 clears a slot's keys and permissions. -/
  | keyZeroise (h : Hdr)
  /-- KEY_ROTATION (R384): When uptime reaches KEY_ROTATE_AT, a slot's next key replaces its current key. -/
  | keyRotation (slot : Fin 16)
  /-- OVL_LOAD (R388): OVL_CMD LOAD copies and validates an overlay image into the store. -/
  | ovlLoad (h : Hdr) (number : U16)
  /-- OVL_UNLOAD (R388): OVL_CMD UNLOAD removes an overlay from the store. -/
  | ovlUnload (h : Hdr) (number : U16)
  /-- SET_MODE (R388): OVL_CMD SET_MODE queues replacement of the active mode overlay for action 2. -/
  | setMode (h : Hdr) (number : U16)
  /-- OVL_ACTIVATE (R388): OVL_CMD ACTIVATE queues activation of a model overlay for action 2. -/
  | ovlActivate (h : Hdr) (number : U16)
  /-- OVL_DEACTIVATE (R388): OVL_CMD DEACTIVATE queues removal of a model overlay for action 2. -/
  | ovlDeactivate (h : Hdr) (number : U16)
  /-- BASE_APPLY (R389): BASE_CMD 1 validates and applies a base image. -/
  | baseApply (h : Hdr)
  /-- BASE_SAVE (R389): BASE_CMD 2 writes an image of every RWS base value to BASE_ADDR. -/
  | baseSave (h : Hdr)
  /-- HOST_MWR (R321): A host memory write is mapped through an aperture as a PUT or CPUT. -/
  | hostMwr (off : BitVec 40) (data : List Byte) (poison : List Bool)
  /-- HOST_MRD (R321): A host memory read is mapped to a GET and completed. -/
  | hostMrd (tag : BitVec 14) (rid : U16) (off : BitVec 40) (len : Nat)
  /-- HOST_FADD (R321): A host FetchAdd is mapped to an ADD with FETCH. -/
  | hostFadd (tag : BitVec 14) (rid : U16) (off : BitVec 40) (fa64 : Bool) (len : Nat) (operand : U64)
      (poison : List Bool)
  /-- HOST_ATOMIC_OTHER (R400): A host Swap or CAS, or a reserved kind, is answered with CPL_UR. -/
  | hostAtomicOther (tag : BitVec 14) (rid : U16)
  /-- HP_LINK_DOWN (R401): hp_link_up falls and host-bound traffic, frames and interrupts are refused or discarded. -/
  | hpLinkDown
  /-- MCC_UP (R405): mc_phy_ready rises and the MCC programs the stack and comes up. -/
  | mccUp (n : Fin 24)
  /-- MCC_DOWN (R408): An MCC goes down on training timeout, bad stack, PHY error or clock loss. -/
  | mccDown (n : Fin 24) (cause : Fin 4)
  /-- MC_TEMP_READ (R405): Every 1 ms the MCC reads the stack temperature. -/
  | mcTempRead (n : Fin 24) (temp : BitVec 8)
  /-- CLOCK_LOSS (R395): A clock without edges for 1 µs is declared lost and handled by its kind. -/
  | clockLoss (k : Fin 64)
  /-- CLOCK_RETURN (R395): A lost clock returns and sets its CK_PRESENT bit again. -/
  | clockReturn (k : Fin 64)
  /-- PERIOD_BOUNDARY (R424): Every 250 ns the Governor updates calibration, targets, budget, hold and allotments. -/
  | periodBoundary (events : List Nat)
  /-- TELEMETRY_SAMPLE (R419): A rail telemetry sample arrives on pg_tlm. -/
  | telemetrySample (rail : Fin 4) (cur : U16) (v : BitVec 12) (err : Bool)
  /-- TELEMETRY_INVALID (R412): A rail's telemetry becomes invalid after 1 µs without a good sample. -/
  | telemetryInvalid (rail : Fin 4)
  /-- ALERT_ASSERT (R431): pg_alert_n passes its filter low and clips the array budget. -/
  | alertAssert (cycles : Nat)
  /-- ALERT_DEASSERT (R431): pg_alert_n deasserts and the budget returns to the normal rule. -/
  | alertDeassert (held : Bool)
  /-- ALERT_STUCK (R432): An alert held low for 10 ms drives the block to the minimum operating point. -/
  | alertStuck
  /-- ALERT_CHATTER (R433): Too many alert edges within 1 ms raise FC_ALERT_CHATTER. -/
  | alertChatter (edges : Nat)
  /-- PG_OP_SELECT (R434): Authenticated write that requests a change of operating point at the next boundary. -/
  | pgOpSelect (h : Hdr) (point : BitVec 8)
  /-- CK_HOLD_ACK (R394): ck_hold_ack rises and falls, and the block resumes at the new operating point. -/
  | ckHoldAck (fs : List Fetched)
  /-- OP_TIMEOUT (R434): An operating point change unacknowledged after 10 ms raises FC_OP_TIMEOUT. -/
  | opTimeout
  /-- BLOCK_RESET (R445): rst_block_n passes its filter and the block resets, then releases its domains in order. -/
  | blockReset (cycles : Nat)
  /-- SCRATCHPAD_CLEAR_DONE (R445): The scratchpad clear completes after 12,288 cycles and cores take commands. -/
  | scratchpadClearDone
  /-- BOOT_ROM_READY (R446): The boot ROM service becomes ready with every MCC up or down, and RST_PHASE becomes 3. -/
  | bootRomReady
  /-- QUIESCE_RESET (R450): RST_CMD op 1 resets a unit once it is quiet. -/
  | quiesceReset (h : Hdr) (unit : RstUnit) (index : BitVec 6)
  /-- FORCE_RESET (R451): RST_CMD op 2 resets a unit at once, faulting its work. -/
  | forceReset (h : Hdr) (unit : RstUnit) (index : BitVec 6)
  /-- GATE (R450): RST_CMD op 3 resets a unit once quiet and holds it in reset. -/
  | gate (h : Hdr) (unit : RstUnit) (index : BitVec 6)
  /-- UNGATE (R449): RST_CMD op 4 releases a gated unit. -/
  | ungate (h : Hdr) (unit : RstUnit) (index : BitVec 6)
  /-- UNIT_QUIET (R450): A unit waiting for quiet becomes quiet and its reset begins. -/
  | unitQuiet (cluster : Bool) (index : Fin 32)
  /-- QUIESCE_TIMEOUT (R450): A unit not quiet within RST_QUIESCE_TIMEOUT is not reset and placement resumes. -/
  | quiesceTimeout (cluster : Bool) (index : Fin 32)
  /-- CORE_RELEASE (R452): A reset core is released 12,352 cycles after its reset began. -/
  | coreRelease (core : Fin 32)
  /-- CTX_RESUME (R439): CTX_CTL 1 releases a faulted context to take its next command. -/
  | ctxResume (h : Hdr) (core : Fin 32) (ctx : Fin 8)
  /-- CTX_SKIP (R439): CTX_CTL 2 discards untaken commands and releases a faulted context. -/
  | ctxSkip (h : Hdr) (core : Fin 32) (ctx : Fin 8)
  /-- FW_STAGE (R456): FW_CMD 1 reads and verifies a firmware image into the staging region. -/
  | fwStage (h : Hdr)
  /-- FW_ACTIVATE (R457): FW_CMD 2 swaps in the staged image and restarts the Control Complex. -/
  | fwActivate (h : Hdr)
  /-- FW_READY (R454): Restarted firmware reports ready and RST_PHASE becomes 4. -/
  | fwReady
  /-- CC_RESTART_TIMEOUT (R457): Firmware not ready within 1 s of a restart is swapped back or makes the block request
    reset. -/
  | ccRestartTimeout
  /-- CC_WATCHDOG (R455): A Control Complex watchdog expiry starts a Control Complex reset or is fatal. -/
  | ccWatchdog
  /-- WFG_BLOCK (R468): WFG_CMD 1 starts assembly of a wait-for graph for this block. -/
  | wfgBlock (h : Hdr)
  /-- WFG_FORM (R468): WFG_CMD 2 on a head starts assembly of a wait-for graph for its Form. -/
  | wfgForm (h : Hdr)
  /-- WFG_DONE (R470): The assembled graph is written to WFG_BASE and WFG_STATUS set. -/
  | wfgDone (cards : List RemoteCard)
  /-- TRACE_CTL (R465): Authenticated write that enables or disables trace capture. -/
  | traceCtl (h : Hdr) (value : Byte)
  /-- AGG_RUN (R463): Every 1 ms counter aggregation samples source counters and updates aggregates. -/
  | aggRun (members : List MemberAgg)
  /-- HP_LINK_UP (R401): hp_link_up rises, HP_STATE becomes link up, and host-bound PUTs, host QMFN frames and
    interrupts are served again. -/
  | hpLinkUp
  /-- QMFN_RESPONSE (R374): A QMFN response frame arrives at the block that forwarded the request, or whose firmware
    awaits it, and is relayed or consumed. -/
  | qmfnResponse (id : Nat) (frame : List Byte)
  /-- FW_STAGE_COMPLETE (R456): A firmware STAGE finishes reading and verifying its image and sets FW_STATUS to FC_OK
    or FC_FW_INVALID. -/
  | fwStageComplete (fs : List Fetched)
  /-- MSU_COMMAND_END (R182): The MSU ends a memory-side command, sends its completion word and starts the next
    memory-side command of the core. -/
  | msuCommandEnd (core : Fin 32)
  deriving DecidableEq, Repr

end Sys2Proof
end

