-- ==== Sys2Proof/Decode.lean ====
section
/-!
DEFINITION. Commands spelled by words. The rows of spec/opcode_table.json give no bits: a command reaches the block as an
event, a bus transfer or a descriptor, whose layouts the commands' own meanings read. So no word of the table spells one.
-/

namespace Sys2Proof

/-- The command that a word of `nbits` bits spells by the table's bits: none, since no row gives bits.
DESIGN CHOICE (notes/assumptions/9.md). -/
def decodeTableWord (_nbits _w : Nat) : Option Instr := none

end Sys2Proof
end

