-- ==== Sys2Proof/Machine/Maps.lean ====
section
/-!
DEFINITION. Reading and updating finite maps: lists of pairs with strictly rising keys.
-/

namespace Sys2Proof

/-- The value at a key, or the default where the map lists none. -/
def Map.get {α : Type} (m : FMap α) (k : Nat) (d : α) : α :=
  match m with
  | [] => d
  | (k', v) :: r => if k' = k then v else Map.get r k d

/-- The value at a key, if the map lists one. -/
def Map.get? {α : Type} (m : FMap α) (k : Nat) : Option α :=
  match m with
  | [] => none
  | (k', v) :: r => if k' = k then some v else Map.get? r k

/-- The map with a value at a key, in key order. -/
def Map.put {α : Type} (m : FMap α) (k : Nat) (v : α) : FMap α :=
  match m with
  | [] => [(k, v)]
  | (k', v') :: r =>
    if k < k' then (k, v) :: (k', v') :: r
    else if k' = k then (k, v) :: r
    else (k', v') :: Map.put r k v

/-- The map without a key. -/
def Map.erase {α : Type} (m : FMap α) (k : Nat) : FMap α := m.filter (fun p => p.1 != k)

/-- The map with the value at a key changed by a function. -/
def Map.upd {α : Type} (m : FMap α) (k : Nat) (d : α) (f : α → α) : FMap α :=
  Map.put m k (f (Map.get m k d))

/-- The keys of the map. -/
def Map.keys {α : Type} (m : FMap α) : List Nat := m.map Prod.fst

/-- Whether the map lists the key. -/
def Map.has {α : Type} (m : FMap α) (k : Nat) : Bool := (Map.get? m k).isSome

/-- A number inserted into a strictly rising list. -/
def insertNat (k : Nat) (l : List Nat) : List Nat :=
  match l with
  | [] => [k]
  | x :: r => if k < x then k :: x :: r else if k = x then x :: r else x :: insertNat k r

/-- The numbers 0 to n − 1 in order; a short name for folds over units. -/
def upto (n : Nat) : List Nat := List.range n

/-- The first element that a function answers for. -/
def firstSome {α β : Type} (l : List α) (f : α → Option β) : Option β :=
  match l with
  | [] => none
  | x :: r => match f x with
    | some y => some y
    | none => firstSome r f

end Sys2Proof
end

