-- ==== Sys2Proof/Machine/Bytes.lean ====
section
/-!
DEFINITION. Byte strings: little-endian numbers (R4), CRC-32 of the links (R357) and CRC-32C of frames, overlays and
weight lines (R185, R373).
-/

namespace Sys2Proof

/-- The number that bytes hold, least significant byte first (R4). -/
def leNat (bs : List Byte) : Nat :=
  match bs with
  | [] => 0
  | b :: r => b.toNat + 256 * leNat r

/-- n bytes of a number, least significant byte first (R4). -/
def natLe (n v : Nat) : List Byte :=
  match n with
  | 0 => []
  | k + 1 => BitVec.ofNat 8 v :: natLe k (v / 256)

/-- n zero bytes. -/
def zeros (n : Nat) : List Byte := List.replicate n 0

/-- n bytes from offset o; bytes beyond the end read as zero. -/
def slice (bs : List Byte) (o n : Nat) : List Byte :=
  let t := (bs.drop o).take n
  t ++ zeros (n - t.length)

/-- The number held in n bytes from offset o. -/
def fieldAt (bs : List Byte) (o n : Nat) : Nat := leNat (slice bs o n)

/-- The bytes padded with zeros, or cut, to a length. -/
def fit (bs : List Byte) (n : Nat) : List Byte := slice bs 0 n

/-- One step of a reflected 32-bit CRC with a reflected polynomial. -/
def crcBit (poly x : Nat) : Nat := if x % 2 = 1 then (x / 2) ^^^ poly else x / 2

/-- A reflected 32-bit CRC over one byte. -/
def crcByte (poly x : Nat) (b : Byte) : Nat :=
  let y := x ^^^ b.toNat
  crcBit poly (crcBit poly (crcBit poly (crcBit poly (crcBit poly (crcBit poly (crcBit poly (crcBit poly y)))))))

/-- A reflected CRC over bytes in increasing offset, initial value and final XOR 0xFFFF_FFFF. -/
def crcOf (poly : Nat) (bs : List Byte) : Nat := (bs.foldl (crcByte poly) 0xFFFFFFFF) ^^^ 0xFFFFFFFF

/-- CRC-32, polynomial 0x04C1_1DB7 (R357). -/
def crc32 (bs : List Byte) : Nat := crcOf 0xEDB88320 bs

/-- CRC-32C, polynomial 0x1EDC_6F41 (R185). -/
def crc32c (bs : List Byte) : Nat := crcOf 0x82F63B78 bs

/-- Whether bytes are valid UTF-8 (Table 15-1, STR). -/
def utf8Ok (fuel : Nat) (bs : List Byte) : Bool :=
  match fuel with
  | 0 => bs.isEmpty
  | f + 1 =>
    match bs with
    | [] => true
    | b :: r =>
      let x := b.toNat
      let cont := fun (n : Nat) => r.length ≥ n && (r.take n).all (fun c => c.toNat / 64 == 2)
      let second := match r with
        | [] => 0
        | c :: _ => c.toNat
      if x < 0x80 then utf8Ok f r
      else if 0xC2 ≤ x && x ≤ 0xDF then cont 1 && utf8Ok f (r.drop 1)
      else if 0xE0 ≤ x && x ≤ 0xEF then
        cont 2 && (x != 0xE0 || second ≥ 0xA0) && (x != 0xED || second < 0xA0) && utf8Ok f (r.drop 2)
      else if 0xF0 ≤ x && x ≤ 0xF4 then
        cont 3 && (x != 0xF0 || second ≥ 0x90) && (x != 0xF4 || second < 0x90) && utf8Ok f (r.drop 3)
      else false

end Sys2Proof
end

