-- ==== Sys2Proof/Machine/Crypto.lean ====
section
/-!
DEFINITION. AES-128, its CMAC (NIST SP 800-38B, R380) and AES Key Wrap (NIST SP 800-38F KW, R382). The manual names
these standards and does not print them: PRESUMED, notes/assumptions/6.md. A block is 16 bytes in the order the
standards write them; a key is a number whose most significant byte is the first byte.
-/

namespace Sys2Proof

/-- Multiplication by x in GF(2^8) with the AES polynomial. -/
def xtime (a : Nat) : Nat := if a ≥ 128 then ((a * 2) ^^^ 0x11B) % 256 else a * 2

/-- Multiplication in GF(2^8), by the bits of the second factor. -/
def gmul (n a b : Nat) : Nat :=
  match n with
  | 0 => 0
  | k + 1 => (if b % 2 = 1 then a else 0) ^^^ gmul k (xtime a) (b / 2)

/-- The S-box as one number: byte a of it is the substitute of a. -/
def sboxTable : Nat :=
  0x16bb54b00f2d99416842e6bf0d89a18cdf2855cee9871e9b948ed9691198f8e19e1dc186b95735610ef6034866b53e708a8bbd4b1f74dde8c6b4a61c2e2578ba08ae7a65eaf4566ca94ed58d6d37c8e779e4959162acd3c25c2406490a3a32e0db0b5ede14b8ee4688902a22dc4f816073195d643d7ea7c41744975fec130ccdd2f3ff1021dab6bcf5389d928f40a351a89f3c507f02f94585334d43fbaaefd0cf584c4a39becb6a5bb1fc20ed00d153842fe329b3d63b52a05a6e1b1a2c830975b227ebe28012079a059618c323c7041531d871f1e5a534ccf73f362693fdb7c072a49cafa2d4adf04759fa7dc982ca76abd7fe2b670130c56f6bf27b777c63

/-- The S-box. -/
def sbox (a : Nat) : Nat := (sboxTable >>> (8 * a)) % 256

/-- The inverse S-box as one number: byte a of it is the byte whose substitute is a. -/
def invSboxTable : Nat :=
  0x7d0c2155631469e126d677ba7e042b17619953833cbbebc8b0f52aae4d3be0a0ef9cc9939f7ae52d0d4ab519a97f51605fec8027591012b131c7078833a8dd1ff45acd78fec0db9a2079d2c64b3e56fc1bbe18aa0e62b76f89c5291d711af1476edf751ce837f9e28535ade72274ac9673e6b4f0cecff297eadc674f4111913a6b8a130103bdafc1020f3fca8f1e2cd00645b3b80558e4f70ad3bc8c00abd890849d8da75746155edab9edfd5048706c92b6655dcc5ca4d41698688664f6f87225d18b6d49a25b76b224d92866a12e084ec3fa420b954cee3d23c2a632947b54cbe9dec444438e3487ff2f9b8239e37cfbd7f3819ea340bf38a53630d56a0952

/-- The inverse S-box. -/
def invSbox (a : Nat) : Nat := (invSboxTable >>> (8 * a)) % 256

/-- XOR of two byte lists. -/
def xorBytes (a b : List Nat) : List Nat := List.zipWith (· ^^^ ·) a b

/-- n bytes of a number, most significant first. -/
def natBe (n v : Nat) : List Nat :=
  match n with
  | 0 => []
  | k + 1 => (v / 256 ^ k) % 256 :: natBe k v

/-- The number that bytes hold, most significant first. -/
def beNat (bs : List Nat) : Nat := bs.foldl (fun a b => a * 256 + b) 0

/-- AES-128 key schedule: the round keys from the previous one, `n` rounds left. -/
def roundKeys (n : Nat) (rcon : Nat) (k : List Nat) : List (List Nat) :=
  match n with
  | 0 => [k]
  | m + 1 =>
    let w := fun i => (k.drop (4 * i)).take 4
    let last := w 3
    let g := (last.drop 1 ++ last.take 1).map sbox
    let g := match g with
      | [] => []
      | x :: r => (x ^^^ rcon) :: r
    let w0 := xorBytes (w 0) g
    let w1 := xorBytes (w 1) w0
    let w2 := xorBytes (w 2) w1
    let w3 := xorBytes (w 3) w2
    k :: roundKeys m (xtime rcon) (w0 ++ w1 ++ w2 ++ w3)

/-- ShiftRows on a state in column order. -/
def shiftRows (s : List Nat) : List Nat :=
  [0, 5, 10, 15, 4, 9, 14, 3, 8, 13, 2, 7, 12, 1, 6, 11].map (fun i => s.getD i 0)

/-- Inverse ShiftRows. -/
def invShiftRows (s : List Nat) : List Nat :=
  [0, 13, 10, 7, 4, 1, 14, 11, 8, 5, 2, 15, 12, 9, 6, 3].map (fun i => s.getD i 0)

/-- One column through a circulant MixColumns matrix. -/
def mixCol (m0 m1 m2 m3 : Nat) (c : List Nat) : List Nat :=
  let g := fun i => c.getD i 0
  let row := fun (a b d e : Nat) => gmul 8 (g 0) a ^^^ gmul 8 (g 1) b ^^^ gmul 8 (g 2) d ^^^ gmul 8 (g 3) e
  [row m0 m1 m2 m3, row m3 m0 m1 m2, row m2 m3 m0 m1, row m1 m2 m3 m0]

/-- MixColumns over the four columns. -/
def mixCols (m0 m1 m2 m3 : Nat) (s : List Nat) : List Nat :=
  (List.range 4).flatMap (fun i => mixCol m0 m1 m2 m3 ((s.drop (4 * i)).take 4))

/-- The middle rounds of AES encryption; the last round key closes it. -/
def aesRounds (keys : List (List Nat)) (s : List Nat) : List Nat :=
  match keys with
  | [] => s
  | [k] => xorBytes (shiftRows (s.map sbox)) k
  | k :: r => aesRounds r (xorBytes (mixCols 2 3 1 1 (shiftRows (s.map sbox))) k)

/-- AES-128 encryption of one block under a key.
PRESUMED (notes/assumptions/6.md). -/
def aesEnc (key : BitVec 128) (blk : List Nat) : List Nat :=
  match roundKeys 10 1 (natBe 16 key.toNat) with
  | [] => blk
  | k :: r => aesRounds r (xorBytes blk k)

/-- The rounds of AES decryption. -/
def aesInvRounds (keys : List (List Nat)) (s : List Nat) : List Nat :=
  match keys with
  | [] => s
  | [k] => xorBytes ((invShiftRows s).map invSbox) k
  | k :: r => aesInvRounds r (mixCols 14 11 13 9 (xorBytes ((invShiftRows s).map invSbox) k))

/-- AES-128 decryption of one block under a key. -/
def aesDec (key : BitVec 128) (blk : List Nat) : List Nat :=
  match (roundKeys 10 1 (natBe 16 key.toNat)).reverse with
  | [] => blk
  | k :: r => aesInvRounds r (xorBytes blk k)

/-- Doubling in GF(2^128) for the CMAC subkeys. -/
def dbl128 (x : Nat) : Nat :=
  if x ≥ 2 ^ 127 then ((x * 2) % 2 ^ 128) ^^^ 0x87 else x * 2

/-- CMAC chain over whole blocks before the last one. -/
def cmacChain (key : BitVec 128) (fuel : Nat) (x : List Nat) (m : List Nat) (k1 k2 : Nat) : List Nat :=
  match fuel with
  | 0 => x
  | f + 1 =>
    if m.length > 16 then cmacChain key f (aesEnc key (xorBytes x (m.take 16))) (m.drop 16) k1 k2
    else if m.length = 16 then aesEnc key (xorBytes x (xorBytes m (natBe 16 k1)))
    else
      let p := m ++ [0x80] ++ List.replicate (15 - m.length) 0
      aesEnc key (xorBytes x (xorBytes p (natBe 16 k2)))

/-- AES-128 CMAC truncated to its 64 most significant bits, as a big-endian number (R380, R456). -/
def cmac64 (key : BitVec 128) (m : List Byte) : Nat :=
  let k1 := dbl128 (beNat (aesEnc key (List.replicate 16 0)))
  let k2 := dbl128 k1
  let t := cmacChain key (m.length / 16 + 1) (List.replicate 16 0) (m.map BitVec.toNat) k1 k2
  beNat (t.take 8)

/-- Check value of a key: the first three bytes of the encryption of the zero block, read as a U24 (R382; the byte
order is little-endian under R4). -/
def keyCheck (key : BitVec 128) : Nat :=
  match aesEnc key (List.replicate 16 0) with
  | a :: b :: c :: _ => a + 256 * b + 65536 * c
  | _ => 0

/-- Inverse key wrap of a 24-byte value: the steps t = 12 down to 1 on (A, R1, R2). -/
def unwrapSteps (kek : BitVec 128) (t a r1 r2 : Nat) : Nat × Nat × Nat :=
  match t with
  | 0 => (a, r1, r2)
  | k + 1 =>
    let r := if k % 2 = 1 then r2 else r1
    let b := beNat (aesDec kek (natBe 8 (a ^^^ (k + 1)) ++ natBe 8 r))
    let a' := b / 2 ^ 64
    let r' := b % 2 ^ 64
    if k % 2 = 1 then unwrapSteps kek k a' r1 r' else unwrapSteps kek k a' r' r2

/-- AES Key Wrap inverse: the 128-bit key, or none on an integrity failure (R382). -/
def unwrapKey (kek : BitVec 128) (w : List Byte) : Option (BitVec 128) :=
  let ns := w.map BitVec.toNat
  let (a, r1, r2) := unwrapSteps kek 12 (beNat (ns.take 8)) (beNat ((ns.drop 8).take 8)) (beNat ((ns.drop 16).take 8))
  if a = 0xA6A6A6A6A6A6A6A6 then some (BitVec.ofNat 128 (r1 * 2 ^ 64 + r2)) else none

end Sys2Proof
end

