-- ==== Sys2Proof/Machine/Codes.lean ====
section
/-!
DEFINITION. The numeric values of the fault codes (Table 18-7, R459).
-/

namespace Sys2Proof

/-- The 16-bit value of a code, Table 18-7. -/
def FC.value : FC → Nat
  | .ok => 0x0000
  | .reservedNonzero => 0x0001
  | .valueRange => 0x0002
  | .accessDenied => 0x0003
  | .addrUnmapped => 0x0004
  | .unitAbsent => 0x0005
  | .preempted => 0x0006
  | .targetReset => 0x0007
  | .dataPoisoned => 0x0008
  | .eccUncorrectable => 0x0009
  | .assistUnavailable => 0x000A
  | .assistTimeout => 0x000B
  | .assistInvalid => 0x000C
  | .nodeUnreachable => 0x000D
  | .chartLive => 0x0101
  | .chartMalformed => 0x0102
  | .chartDepth => 0x0103
  | .chartEpoch => 0x0104
  | .chartRemoteWrite => 0x0105
  | .slotUnmapped => 0x0106
  | .frameExhausted => 0x0107
  | .nodeExhausted => 0x0108
  | .shareFull => 0x0109
  | .shareUnderflow => 0x010A
  | .attachRange => 0x010B
  | .remapRange => 0x010C
  | .draftRange => 0x010D
  | .editQueueFull => 0x010E
  | .editCancelled => 0x010F
  | .evictNoRoom => 0x0110
  | .pageOverflow => 0x0111
  | .seqInvalid => 0x0201
  | .seqBusy => 0x0202
  | .seqState => 0x0203
  | .schedConfig => 0x0204
  | .repInvalid => 0x0205
  | .repInUse => 0x0206
  | .repMalformed => 0x0207
  | .tenantInvalid => 0x0208
  | .precisionEscalated => 0x0209
  | .formatUnsupported => 0x0301
  | .formatPairing => 0x0302
  | .tileShape => 0x0303
  | .accNoSpill => 0x0304
  | .arrayChecksum => 0x0305
  | .sfuFunction => 0x0306
  | .sfuTableCrc => 0x0307
  | .sfuTableSeam => 0x0308
  | .sfuTableBusy => 0x0309
  | .scratchRange => 0x0401
  | .ttNoSlot => 0x0402
  | .schedHazard => 0x0403
  | .weightRefetchFail => 0x0404
  | .streamProgram => 0x0405
  | .ringAbsent => 0x0406
  | .lessonChain => 0x0407
  | .fuseRowDeferred => 0x0408
  | .residentDenied => 0x0409
  | .rowmapInvalid => 0x040A
  | .attendConfig => 0x040B
  | .attendSplitMismatch => 0x040C
  | .bwdConfig => 0x040D
  | .windowClosed => 0x0501
  | .windowDenied => 0x0502
  | .windowBusy => 0x0503
  | .windowOverlap => 0x0504
  | .cmdSlot => 0x0505
  | .cmdWindowFull => 0x0506
  | .syncUnderflow => 0x0601
  | .syncOverflow => 0x0602
  | .rcBusy => 0x0603
  | .rcTimeout => 0x0604
  | .syncManual => 0x0605
  | .linkDown => 0x0701
  | .linkRole => 0x0702
  | .formDegraded => 0x0703
  | .memberLost => 0x0704
  | .headLost => 0x0705
  | .enumDuplicate => 0x0706
  | .enumTopology => 0x0707
  | .enumBusy => 0x0708
  | .dictNoEntry => 0x0801
  | .dictType => 0x0802
  | .authRequired => 0x0803
  | .authKey => 0x0804
  | .authFailed => 0x0805
  | .authReplay => 0x0806
  | .authTableFull => 0x0807
  | .ovlInvalid => 0x0808
  | .ovlInUse => 0x0809
  | .ovlStoreFull => 0x080A
  | .ovlBusy => 0x080B
  | .ovlAbsent => 0x080C
  | .clockLoss => 0x0901
  | .mcDown => 0x0902
  | .poisonDirFull => 0x0903
  | .pgCalFailed => 0x0904
  | .pgTlmInvalid => 0x0905
  | .alertStuck => 0x0906
  | .alertChatter => 0x0907
  | .opTimeout => 0x0908
  | .quiesceTimeout => 0x0909
  | .resetBusy => 0x090A
  | .fwInvalid => 0x090B
  | .fwBusy => 0x090C
  | .ccWatchdog => 0x090D

/-- Every code, in the order of Table 18-7. -/
def FC.all : List FC :=
  [.ok, .reservedNonzero, .valueRange, .accessDenied, .addrUnmapped, .unitAbsent,
   .preempted, .targetReset, .dataPoisoned, .eccUncorrectable, .assistUnavailable, .assistTimeout,
   .assistInvalid, .nodeUnreachable, .chartLive, .chartMalformed, .chartDepth, .chartEpoch,
   .chartRemoteWrite, .slotUnmapped, .frameExhausted, .nodeExhausted, .shareFull, .shareUnderflow,
   .attachRange, .remapRange, .draftRange, .editQueueFull, .editCancelled, .evictNoRoom,
   .pageOverflow, .seqInvalid, .seqBusy, .seqState, .schedConfig, .repInvalid,
   .repInUse, .repMalformed, .tenantInvalid, .precisionEscalated, .formatUnsupported, .formatPairing,
   .tileShape, .accNoSpill, .arrayChecksum, .sfuFunction, .sfuTableCrc, .sfuTableSeam,
   .sfuTableBusy, .scratchRange, .ttNoSlot, .schedHazard, .weightRefetchFail, .streamProgram,
   .ringAbsent, .lessonChain, .fuseRowDeferred, .residentDenied, .rowmapInvalid, .attendConfig,
   .attendSplitMismatch, .bwdConfig, .windowClosed, .windowDenied, .windowBusy, .windowOverlap,
   .cmdSlot, .cmdWindowFull, .syncUnderflow, .syncOverflow, .rcBusy, .rcTimeout,
   .syncManual, .linkDown, .linkRole, .formDegraded, .memberLost, .headLost,
   .enumDuplicate, .enumTopology, .enumBusy, .dictNoEntry, .dictType, .authRequired,
   .authKey, .authFailed, .authReplay, .authTableFull, .ovlInvalid, .ovlInUse,
   .ovlStoreFull, .ovlBusy, .ovlAbsent, .clockLoss, .mcDown, .poisonDirFull,
   .pgCalFailed, .pgTlmInvalid, .alertStuck, .alertChatter, .opTimeout, .quiesceTimeout,
   .resetBusy, .fwInvalid, .fwBusy, .ccWatchdog]

/-- The code a 16-bit value names; values the table does not list name none (R459). -/
def FC.ofValue? (v : Nat) : Option FC := FC.all.find? (fun c => c.value == v)

end Sys2Proof
end

