-- ==== Sys2Proof/Config.lean ====
section
/-!
DEFINITION. The free values: constants with no body for what the spec leaves open. Nothing can evaluate them; a statement
that holds, holds for every value. The counter that some of them are applied to is the field `free` of the state.
-/

namespace Sys2Proof

/-- A value that the spec leaves open at one moment, by the state's counter (notes/assumptions/2.md). -/
opaque Config.freeValue : Nat → BitVec 64

/-- What the entropy source draws for ID_BOOT_NONCE (Table 15-6), by the state's counter: one of the 2^64 − 1 values it
may give (notes/assumptions/2.md). -/
opaque Config.nonceDraw : Nat → Fin 18446744073709551615

/-- A new boot nonce (Table 15-6): any value but 0. -/
def Config.bootNonce (n : Nat) : BitVec 64 := BitVec.ofNat 64 ((Config.nonceDraw n).val + 1)

/-- Byte o of an image of SFU table t: the factory image held in ROM (R164) where it meets what the spec demands of one; the
spec gives its layout and properties, not its bytes (notes/assumptions/3.md). -/
opaque Config.factoryTable : Nat → Nat → BitVec 8

/-- Segment s of the Gaith-1 table, held in ROM (R165): EXP2 for table 0, LOG2 for table 1, an entry in the layout of Table
6-4 (notes/assumptions/3.md). -/
opaque Config.gaithSeg : Nat → Nat → BitVec 128

/-- Segment s of the factory cosine table in ROM (R252), an entry in the layout of Table 6-4. -/
opaque Config.cosineRom : Nat → BitVec 128

/-- Attend rows per token of a model, the query heads per KV head by which R90 multiplies a sequence's rows, by repertoire
entry: no record the spec lays out holds it (notes/assumptions/4.md). -/
opaque Config.foldRows : Nat → BitVec 8

/-- Bytes of the output row region of a sequence that OUT_ADDR begins (R75, R79); no rule gives its size
(notes/assumptions/84.md). -/
opaque Config.outRegion : Nat → BitVec 64

/-- Place of a loaded overlay among the 1,024 of the overlay store in the Control Complex L2, by its number; firmware reserves
the part that holds them (R386, notes/assumptions/92.md). -/
opaque Config.overlayPlace : Nat → Fin 1024

/-- Manufacturer identity of JEDEC that bits [11:1] of an IEEE 1149.1 IDCODE hold; R413 does not give it. -/
opaque Config.jtagMaker : BitVec 11

/-- Bits of the instruction register of the test access port, at least the two that IEEE 1149.1 demands; R413 does not give
their number (notes/assumptions/93.md). -/
opaque Config.tapLength : Fin 62

/-- The instruction code of IDCODE (notes/assumptions/93.md). -/
opaque Config.tapIdcode : BitVec 64

/-- ID_IDENTITY as fused (R349): each block has its own (notes/assumptions/1.md). -/
opaque Config.identity : BitVec 64

/-- ID_STEPPING as fused (R13). -/
opaque Config.stepping : BitVec 16

/-- The fused device key, key slot 0 (R382). -/
opaque Config.deviceKey : BitVec 128

end Sys2Proof
end

