-- ==== Sys2Proof/Machine/State.lean ====
section
/-!
DEFINITION. The state of the block: every register, table, buffer, counter, mode and signal the spec gives it, the
queue of commands that wait, and the state after reset. Plain data throughout. A map (`FMap`) that lists no pair for a
key stands for that key's reset value; each field's docstring names the rule of spec/ that gives it.
-/

namespace Sys2Proof.Machine

open Sys2Proof

/-! ## Sequences and charts (chapters 2 and 3) -/

/-- Sequence states of Table 3-2 (R77). -/
inductive SeqState where
  | free
  | queued
  | idle
  | ready
  | verdictWait
  | suspended
  | faulted
  | retiring
  deriving DecidableEq, Repr

/-- A sequence descriptor, Table 3-1 (R75). `chartRoot` and `shadowRoot` are the node's block-local address; 0 stands
for an empty chart that holds no node yet. -/
structure Desc where
  verdict : Bool := false
  evictActive : Bool := false
  held : Bool := false
  shadowDepth : Nat := 0
  chartDepth : Nat := 0
  partition : Nat := 0
  repertoire : Nat := 0
  tenant : Nat := 0
  cls : Nat := 0
  state : SeqState := .free
  shadowRoot : Nat := 0
  chartRoot : Nat := 0
  epoch : U32 := 0
  walkers : Nat := 0
  draftLen : Nat := 0
  committedLen : Nat := 0
  nextPos : Nat := 0
  draftAccept : Nat := 0
  appendLen : Nat := 0
  pageBudget : Nat := 0
  privateFrames : Nat := 0
  remappedPages : Nat := 0
  pendingTokens : Nat := 0
  tokenBuf : Nat := 0
  outAddr : Nat := 0
  lastStep : Nat := 0
  pendingDrafts : Nat := 0
  context : Nat := 0
  lastFc : FC := .ok
  user : Nat := 0
  deriving DecidableEq, Repr

/-- A partition in force (R25 to R27, R47): its range, the frames allocated (by frame number), the cursor and the
256-bit sharer map of each shared frame (absent: all zeros). -/
structure Part where
  base : Nat
  size : Nat
  log2 : Nat
  cursor : Nat := 0
  alloc : List Nat := []
  share : FMap (BitVec 256) := []
  deriving DecidableEq, Repr

/-- The operation of a chart edit command (Table 2-9). `unknown` is an EDIT_OP outside the table (R62). -/
inductive EditOp where
  | extend (n : Nat)
  | attach (srcSeq : Nat) (slots : Nat)
  | cow (sp : Nat)
  | grow (depth : Nat)
  | setEntry (page : Nat) (entry : Nat)
  | remap (p0 nOld nNew : Nat) (entries : List Nat) (addr : Nat)
  | truncate (slots : Nat)
  | release
  | draftCommit (k : Nat)
  | draftRollback
  | evict (target : Nat)
  | forceRelease
  deriving DecidableEq, Repr

/-- An edit that holds a place of the edit queue until it reports (R56, R63). `applied` is set once it has changed the
shadow; an edit of an assisted block waits for its answer first (R71). -/
structure EditEntry where
  id : Nat
  hdr : EditHdr
  op : EditOp
  applied : Bool := false
  deriving DecidableEq, Repr

/-- What the pending edits of one sequence hold until its commit (R54, R58): lengths the edits set outright (TRUNCATE,
RELEASE, ATTACH: COMMITTED_LEN and NEXT_POS), and the frames, nodes and sharer bits they have claimed. -/
structure SeqPend where
  setLen : Option (Nat × Nat) := none
  frames : List (Nat × Nat) := []
  nodes : List Nat := []
  bitsClaimed : List (Nat × Nat × Nat) := []
  dirty : Bool := false
  release : Bool := false
  deriving DecidableEq, Repr

/-- A running eviction job (R66, R67): the captured length C, the target in frames, the epoch of its walk, whether a
SET_ENTRY has touched its range, and whether firmware performs it (R71). -/
structure EvictJob where
  captured : Nat
  target : Nat
  epoch : U32
  broken : Bool := false
  assisted : Bool := false
  deriving DecidableEq, Repr

/-- Frames, nodes and sharer bits of a forced release, freed when the last walker of the old epoch stops (R59). -/
structure ForcedFree where
  seq : Nat
  epoch : U32
  frames : List (Nat × Nat)
  nodes : List Nat
  bits : List (Nat × Nat × Nat)
  deriving DecidableEq, Repr

/-- What holds a walk (R42, R57). -/
inductive WalkOwner where
  | lesson (core : Nat) (id : Nat)
  | evict
  deriving DecidableEq, Repr

/-- A walk in flight with the epoch it captured (R57). -/
structure Walk where
  seq : Nat
  epoch : U32
  owner : WalkOwner
  deriving DecidableEq, Repr

/-- A line of a Chart Walker's translation cache (R39). -/
structure TcLine where
  seq : Nat
  epoch : U32
  page : Nat
  entry : Nat
  deriving DecidableEq, Repr

/-- Tenant configuration (R83, TENANT entries of Table 3-4). -/
structure Tenant where
  cls : Nat := 0
  maxSeq : Nat := 262144
  tokenShare : Nat := 0
  frameQuota : Nat := 0
  deriving DecidableEq, Repr

/-- A placed sequence of the current batch (R88). -/
structure Placed where
  seq : Nat
  appends : Nat
  drafts : Nat
  deriving DecidableEq, Repr

/-- A sequence group of the current step (R90), whether it faulted (R79), and whether it is one of the groups that an oversized
prefill forms of its own. -/
structure Group where
  rep : Nat
  cluster : Nat
  core : Nat
  members : List (Nat × Nat)
  rows : Nat
  faulted : Bool := false
  own : Bool := false
  deriving DecidableEq, Repr

/-- The operation of a sequence command (Table 3-3). -/
inductive SeqOp where
  | admitSeq (rep tenant part : Nat) (outAddr : Nat) (budget : Nat) (user : Nat)
  | append (n m : Nat) (buf : Nat)
  | suspend
  | resume
  | retire
  | repLoad (entry : Nat) (addr : Nat)
  | escClear (entry layer : Nat)
  /-- a SEQ_OP outside Table 3-3 or a reserved bit set (R81, R6) -/
  | reserved
  deriving DecidableEq, Repr

/-- A sequence command taken from a window and waiting for action 5 (R80, R319); `num` is its command number. -/
structure WaitingSeqCmd where
  hdr : SeqHdr
  num : U32
  op : SeqOp
  deriving DecidableEq, Repr

/-- Serving copies that a retired update Lesson has staged (R288): core, staging offset, bytes of the
first and of the transposed copy, their addresses. -/
structure Serving where
  core : Nat
  off : Nat
  len : Nat
  addr : Nat
  addrT : Nat
  lenT : Nat := 0
  deriving DecidableEq, Repr

/-- The step scheduler (R22, R86 to R91): step number, whether a step has begun since reset, whether the current step
is open and non-empty, the batch, its groups, the ADMIT order, the taken sequence commands, the sampled counters, the
saturation sums per (repertoire entry × 128 + layer), the sequences withheld (R68, R60), whether STEP_DONE was sent,
whether action 5 waits for an assisted batch (R95), the serving copies to write in action
2 (R288), the answers that wait for the next boundary, whether the last batch formation left the step empty (R91), and the
sequences whose descriptors the on-chip cache holds (R76). -/
structure Sched where
  step : Nat := 0
  begun : Bool := false
  running : Bool := false
  batch : List Placed := []
  groups : List Group := []
  admitOrder : List Nat := []
  cmds : List WaitingSeqCmd := []
  sampled : FMap U32 := []
  sat : FMap Nat := []
  noRoom : List Nat := []
  exhausted : List Nat := []
  doneSent : Bool := false
  membersDone : List (Nat × Bool) := []
  batchWait : Bool := false
  goPending : Bool := false
  serving : List Serving := []
  admitAnswers : List Nat := []
  escalateAnswers : List (Nat × Nat) := []
  empty : Bool := false
  descCache : List Nat := []
  deriving DecidableEq, Repr

/-! ## Assists (R94 to R97) -/

/-- A function of Table 3-8, by its sub-index. -/
inductive Fn where
  | admission
  | batch
  | eviction
  | chartWalk
  | chartEdit
  | compaction
  | pageSelect
  | escalation
  | waitGraph
  | keyRotation
  | counterAgg
  deriving DecidableEq, Repr

/-- Who waits for an assist answer (R95). -/
inductive AssistFor where
  | admission
  | batch
  | evict (seq : Nat)
  | walk (core lesson : Nat) (seq : Nat) (epoch : U32) (page : Nat)
  | edit (id : Nat)
  | select (core lesson : Nat)
  | escalate (rep layer : Nat)
  | waitGraph (v : Nat)
  | keySlot (k : Nat)
  | agg
  deriving DecidableEq, Repr

/-- An assist request in its function's queue: request number, function, requester, the mode that raised it, whether
the Control Complex has taken it, its place in the host ring and its arguments (R95, R97). -/
structure Assist where
  num : Nat
  fn : Fn
  who : AssistFor
  toHost : Bool
  place : Option Nat := none
  arg0 : Nat := 0
  arg1 : Nat := 0
  arg : List Byte := []
  deriving DecidableEq, Repr

/-! ## Requests, Hall Passes and windows (chapter 12) -/

/-- State of a Hall Pass (Table 12-2). -/
inductive PassState where
  | closed
  | opened
  | draining
  deriving DecidableEq, Repr

/-- A Hall Pass (R303): HP_BASE, HP_SIZE, HP_SOURCE, HP_RIGHTS, state, epoch, operations accepted and not yet
performed, operations accepted since reset, uptime of the last OPEN (R308). -/
structure Pass where
  base : Nat := 0
  size : Nat := 0
  source : Nat := 0
  rights : Nat := 0
  state : PassState := .closed
  epoch : BitVec 8 := 0
  inflight : Nat := 0
  arrivals : Nat := 0
  lastOpen : Option Nat := none
  deriving DecidableEq, Repr

/-- An entry of the remote window table (Table 12-7, R311). -/
structure Rwt where
  base : Nat := 0
  size : Nat := 0
  attr : Nat := 0
  hostOff : Nat := 0
  deriving DecidableEq, Repr

/-- A CPUT's increment that waits until its data and the earlier writes of its stream have landed (R300), with the
pass whose HP_INFLIGHT it holds (R306). -/
structure PendIncr where
  core : Nat
  ctr : Nat
  pass : Option Nat
  origin : Origin
  tag : Nat := 0
  cycle : Nat := 0
  tenant : Nat := 0
  deriving DecidableEq, Repr

/-- What a reply of another node is for (R294, R302). -/
inductive ReplyFor where
  /-- a remote operation command of a context: command number, LOCAL, FETCH or GET -/
  | remoteOp (core ctx : Nat) (num : U32)
  /-- an EMIT of a stream: destination row data is delivered when it arrives -/
  | stream (core : Nat) (s : Nat)
  /-- a completion word or other posted write: nothing waits -/
  | posted
  /-- a request that Control Complex firmware issued -/
  | firmware
  /-- a host transaction: kind (0 write, 1 read, 2 and 3 FetchAdd of 4 and 8 bytes), TAG and RID as one number -/
  | host (tag : Nat)
  deriving DecidableEq, Repr

/-- A request sent to another node and not yet answered (R294, R302): its number, operation code, the request, the
stamped unit epoch and the unit (core 0-31, cluster 32-35, Control Complex 36). -/
structure OutReq where
  num : Nat
  opCode : Nat
  req : Req
  unit : Nat
  uepoch : U32
  node : Nat
  who : ReplyFor
  deriving DecidableEq, Repr

/-- A request held at the target for a missing predecessor (R361). -/
structure HeldReq where
  sseq : U16
  opCode : Nat
  req : Req
  deriving DecidableEq, Repr

/-- A tracked (source node, STREAM) pair, most recently used last (R361): the next SSEQ to be admitted, whether the number
before it was declared lost, and the requests held. -/
structure Pair where
  node : U16
  stream : U16
  nextSeq : U16
  held : List HeldReq := []
  deriving DecidableEq, Repr

/-! ## Scratchpad, memory-side unit and Commons (chapter 7) -/

/-- The hidden tag of a weight line (R185): the CRC-32C and HOME; a line with no entry has W = 0. -/
structure WTag where
  crc : Nat
  home : Nat
  deriving DecidableEq, Repr

/-- A place of a core's scoreboard (R176): the context, the command number, the read and write ranges as (first row,
row count). -/
structure SbPlace where
  ctx : Nat
  num : U32
  reads : List (Nat × Nat)
  writes : List (Nat × Nat)
  deriving DecidableEq, Repr

/-- A memory-side command (Table 7-5) of a context, with its completion. -/
structure MsuCmd where
  ctx : Nat
  num : U32
  op : Nat
  dst : Nat := 0
  src : Nat := 0
  len : Nat
  elem : Nat := 0
  pred : Pred := .eq
  value : BitVec 128 := 0
  mask : BitVec 128 := 0
  trap : Bool := false
  compl : Compl := { }
  deriving DecidableEq, Repr

/-- The memory-side command that runs, with the code and count its completion word will carry (R182). -/
structure MsuRun where
  cmd : MsuCmd
  code : FC
  count : Nat
  deriving DecidableEq, Repr

/-- A cached line of a Commons (R188): tag (line address), the epoch stamped at fill, its way, its 256 bytes, and the
stored syndrome of its words, absent: 0 (R192). The lines of a set are kept least recently used first. -/
structure CLine where
  line : Nat
  epoch : U32
  way : Nat
  data : List Byte
  syn : FMap Nat := []
  deriving DecidableEq, Repr

/-- The Commons of a cluster (R188 to R192): cached lines by set, the pinned ways in force, the cluster's unit epoch,
COMMONS_EPOCH, whether the cluster is gated or in reset. -/
structure Cluster where
  lines : FMap (List CLine) := []
  pinWays : Nat := 0
  commonsEpoch : U32 := 0
  epoch : U32 := 0
  gated : Bool := false
  inReset : Bool := false
  deriving DecidableEq, Repr

/-- A command taken from a window that waits to issue (R176, R329): its number, its 128 bytes as a number, its
completion, whether its wrong marking has been reported (R177). -/
structure WaitCmd where
  num : U32
  desc : BitVec 1024
  compl : Compl
  hazard : Bool := false
  deriving DecidableEq, Repr

/-- A multicast delivery whose last line has not landed (R193): the core it came from, the core it lands on, the counter. -/
structure Mcast where
  id : Nat
  src : Nat := 0
  core : Nat
  ctr : Nat
  deriving DecidableEq, Repr

/-! ## Synchronisation (chapter 13) -/

/-- Context states of Table 13-3 (R330). -/
inductive CtxState where
  | idle
  | running
  | blocked
  | switched
  | faulted
  deriving DecidableEq, Repr

/-- What an issued command of a context is (R319). -/
inductive IssuedKind where
  | lesson (id : Nat)
  | msu
  | remoteOp
  deriving DecidableEq, Repr

/-- A command a context has issued and that has not ended (R313, R439). -/
structure Issued where
  num : U32
  kind : IssuedKind
  compl : Compl
  trap : Bool := false
  rop : Option (Nat × Nat × Nat) := none
  deriving DecidableEq, Repr

/-- A hardware context (R317, R319, R330): CTX_CMD_COUNT, the accept count, CTX_CMD_DONE, the state, CTX_TENANT, the
source recorded for each slot (R59), the commands landed and not yet counted with the pass each came through, a taken
command that waits to issue, the commands issued and not ended, the code of the last fault, the CTX_CTL write that waits
for them (R439; 0: none), the ck_core cycle in which the state began. -/
structure Ctx where
  count : U32 := 0
  accept : U32 := 0
  done : U32 := 0
  state : CtxState := .idle
  tenant : Nat := 0
  slotSrc : FMap EditSrc := []
  landed : List (U32 × Option Nat) := []
  waiting : Option WaitCmd := none
  issued : List Issued := []
  lastFault : FC := .ok
  ctl : Nat := 0
  stateSince : Nat := 0
  deriving DecidableEq, Repr

/-- An armed Roll Call record of a core (Table 13-6). -/
structure Arm where
  target : U32 := 0
  arriveCtr : Nat := 0
  doneCtr : Nat := 0
  armed : Bool := false
  gen : BitVec 8 := 0
  deriving DecidableEq, Repr

/-- A Roll Call wire (R337 to R342): generation, whether a generation is armed and since when, participants arrived,
whether the armed generation has timed out, members whose ARRIVE reached this head, whether ARRIVE was sent. -/
structure Wire where
  gen : BitVec 8 := 0
  armed : Bool := false
  armedAt : Nat := 0
  arrived : BitVec 34 := 0
  timedOut : Bool := false
  members : List Nat := []
  sent : Bool := false
  released : Bool := false
  deriving DecidableEq, Repr

/-- A counter operation that waits in a Sync Unit's queue (R326). -/
structure SuOp where
  ctr : Nat
  dec : Bool
  operand : Nat
  fetch : Bool
  origin : Origin
  tenant : Nat := 0
  pass : Option Nat := none
  tag : Nat := 0
  cycle : Nat := 0
  kind : Nat := 4
  deriving DecidableEq, Repr

/-- Owner of an engine flag (R329, Table 13-9): context, producing engine, consuming engine, consuming stage place. -/
structure FlagOwner where
  ctx : Nat
  lesson : Nat
  producer : Nat
  consumer : Nat
  stage : Nat
  deriving DecidableEq, Repr

/-- A Report Card in progress: its trigger, the address it goes to, the bytes captured at T_cap and the sequences whose
descriptors are read after it (R344). -/
structure CardJob where
  trigger : FC
  base : Nat
  bytes : List Byte
  seqs : List Nat
  deriving DecidableEq, Repr

/-! ## Links and Forms (chapter 14) -/

/-- LINK_STATE of a port (Table 14-7). -/
inductive LinkState where
  | down
  | training
  | up
  | heldDown
  deriving DecidableEq, Repr

/-- A Gaith Link port (R350, R356 to R359, R365, R409): state, the recorded peer, its own role in force (none: the reset
value of LINK_ROLE), next SEQ to send, next SEQ expected,
the unacknowledged flits, the count accepted and not acknowledged, whether a NAK is outstanding, the consecutive
replays and the SEQ they start at, transmit credits, received flits of unfinished packets, flits that wait to leave and
credits to return, each per class, the places since the last MGMT flit and whether the last data flit was a reply, signals. -/
structure Port where
  state : LinkState := .down
  peerId : U64 := 0
  peerPort : Nat := 0
  peerRole : Nat := 0
  known : Bool := false
  role : Option Nat := none
  txSeq : BitVec 12 := 0
  rxNext : BitVec 12 := 0
  replay : List Flit := []
  unacked : Nat := 0
  nakSent : Bool := false
  replays : Nat := 0
  replaySeq : BitVec 12 := 0
  credits : FMap Nat := []
  rx : FMap (List Flit) := []
  tx : FMap (List Flit) := []
  due : FMap Nat := []
  sinceMgmt : Nat := 0
  lastRsp : Bool := false
  enable : Bool := false
  phyUp : Bool := false
  deriving DecidableEq, Repr

/-- The block's place in a Form (R347 to R355, R363, R366): node number, whether enumeration has committed, the
assignment awaiting its commit, the route table, whether this block serves the host (the top head's place), the lost
ranges and whether the head is lost. -/
structure Form where
  node : U16 := 0
  committed : Bool := false
  staged : Option Assignment := none
  levels : List (U16 × U16 × U16) := []
  routes : FMap U64 := []
  lost : List (Nat × Nat) := []
  headLost : Bool := false
  beats : List (Nat × Nat) := []
  members : FMap (List Nat) := []
  upPending : List Nat := []
  deriving DecidableEq, Repr

/-! ## Dictionary, QMFN, keys, overlays (chapter 15) -/

/-- When a write that passed its checks takes effect (R371). -/
inductive When where
  | boundary
  | modeBoundary
  | period
  deriving DecidableEq, Repr

/-- A dictionary write that waits for its moment; `sel` is the selector value for a selected entry. -/
structure DictPend where
  key : Nat
  sel : Nat
  value : Nat
  at_ : When
  deriving DecidableEq, Repr

/-- A key slot (R382, R384). -/
structure KeySlot where
  cur : Option (BitVec 128) := none
  next : Option (BitVec 128) := none
  perm : Nat := 0
  rotateAt : Nat := 0
  deriving DecidableEq, Repr

/-- The Management Port (R376, R377): dynamic address, limits, IBI enable, the response not yet read, the interrupts
withheld, whether a 0x02 interrupt is outstanding, the last record returned to it. -/
structure I3c where
  dyn : Nat := 0
  mwl : Nat := 320
  mrl : Nat := 320
  ibi : Bool := true
  resp : Option (List Byte) := none
  respIbiHeld : Bool := false
  evtOutstanding : Bool := false
  evtIbiHeld : Bool := false
  polled : Nat := 0
  deriving DecidableEq, Repr

/-- An event record (Table 15-9). -/
structure Event where
  seq : Nat
  code : FC
  kind : Nat
  index : Nat
  arg : Nat
  time : Nat
  deriving DecidableEq, Repr

/-- A pending overlay command (R388): OVL_CMD code 3, 4 or 5 and the overlay number. -/
structure OvlCmd where
  op : Nat
  num : Nat
  deriving DecidableEq, Repr

/-- Overlays (R386 to R388): the store (image bytes by number), the active mode overlay, the active model overlays,
the pending list, a validated base image that waits for action 2. -/
structure Ovl where
  store : FMap (List Byte) := []
  mode : Nat := 0xFFFF
  models : List Nat := []
  pending : List OvlCmd := []
  base : Option (List Byte) := none
  deriving DecidableEq, Repr

/-- A QMFN request frame by its fields (Table 15-7): header and trailer, OP, INDEX, SUB and payload. -/
structure Frame where
  hdr : Hdr
  op : Nat
  index : Nat
  sub : Nat
  payload : List Byte
  deriving DecidableEq, Repr

/-- A frame this block forwarded or its firmware sent, awaiting its response (R374). -/
structure Fwd where
  id : Nat
  src : DictSrc
  frame : Frame
  deriving DecidableEq, Repr

/-! ## Ports, clocks and power (chapters 16 and 17) -/

/-- MC_STATE (Table 16-13). -/
inductive MccState where
  | off
  | initialising
  | up
  | down
  deriving DecidableEq, Repr

/-- A Memory Channel Controller (R404 to R408): state, last temperature, poison directory (line number of 256 bytes of
channel address → mask of marked words). -/
structure Mcc where
  state : MccState := .off
  temp : Nat := 0
  dir : FMap Nat := []
  deriving DecidableEq, Repr

/-- A rail of the Power Governor (R418 to R423): κ, the state of Table 17-3 and the one to restore, the disagreement
and agreement counts, telemetry validity, the good samples in a row, the samples of the period, the last sample, and
I, E, M of the last period. -/
structure Rail where
  kappa : Rat := 1
  state : Nat := 0
  prior : Nat := 0
  disagree : Nat := 0
  agree : Nat := 0
  tlmValid : Bool := true
  good : Nat := 0
  samples : List (Nat × Nat) := []
  last : Option (Nat × Nat) := none
  iGov : Rat := 0
  iEst : Rat := 0
  iMeas : Rat := 0
  sum : Rat := 0
  target : Rat := 0
  deriving DecidableEq, Repr

/-- The Power Governor (R417 to R434). -/
structure Gov where
  rails : FMap Rail := []
  period : Nat := 0
  f : Rat := 1
  history : List Rat := []
  b : Nat := 512
  bUnclipped : Nat := 512
  hold : Bool := false
  holdRail : FMap Nat := []
  pointer : Nat := 0
  lastRem : Nat := 0
  allot : FMap Nat := []
  alert : Bool := false
  alertPin : Bool := false
  stuck : Bool := false
  chatter : Bool := false
  opPending : Option Nat := none
  opWaiting : Option Nat := none
  opTimedOut : Bool := false
  opActive : Nat := 0
  ckHold : Bool := false
  ilimN : Nat := 0xF
  deriving DecidableEq, Repr

/-! ## Reset and firmware (chapter 18) -/

/-- A reset command that waits for quiet or runs (R450 to R453): OP, UNIT, INDEX. -/
structure RstJob where
  op : Nat
  unit : Nat
  index : Nat
  value : Nat
  running : Bool := false
  deriving DecidableEq, Repr

/-- What one of the 16 cores of the Control Complex runs (R446, R454): nothing yet, the boot ROM, a firmware image that is not yet
ready, firmware. -/
inductive CcRun where
  | held
  | bootRom
  | starting
  | firmware
  deriving DecidableEq, Repr

/-- The mesh fabric (R18, Table 18-2): the toggle of each stop output, by stop number 6y + x, and the bits of the 137-bit words of
the next payload that arrive flipped, by word. -/
structure Fab where
  toggles : FMap Bool := []
  flips : FMap Nat := []
  deriving DecidableEq, Repr

/-- State of the test access port's controller (IEEE 1149.1). -/
inductive TapState where
  | testLogicReset
  | runTestIdle
  | selectDr
  | captureDr
  | shiftDr
  | exit1Dr
  | pauseDr
  | exit2Dr
  | updateDr
  | selectIr
  | captureIr
  | shiftIr
  | exit1Ir
  | pauseIr
  | exit2Ir
  | updateIr
  deriving DecidableEq, Repr

/-- The test access port (R413): controller state, the instruction in force (IDCODE, or BYPASS), the shift paths with the bit
nearest `tst_tdo` first. -/
structure Tap where
  state : TapState := .testLogicReset
  idcode : Bool := true
  ir : List Bool := []
  dr : List Bool := []
  deriving DecidableEq, Repr

/-- The Control Complex (R15, R444, R454 to R457): what its 16 cores run, the bytes of its L2 outside the regions that the other
fields hold, the flipped bits of the stored 137-bit words of the L2 by word (R183), epoch, active and staged firmware images, the slot that authenticated
a STAGE in progress, whether an activation or restart runs, whether a watchdog expiry has had its restart end (and when),
whether a restart that an expiry caused runs. -/
structure Cc where
  epoch : U32 := 0
  active : List Byte := []
  staged : List Byte := []
  staging : Option Nat := none
  activating : Bool := false
  restarting : Bool := false
  wdtWindow : Bool := false
  wdtRestart : Bool := false
  restartEnd : Nat := 0
  harts : List CcRun := List.replicate 16 .held
  l2 : FMap Byte := []
  l2Flips : FMap Nat := []
  deriving DecidableEq, Repr

/-! ## Debug (chapter 19) -/

/-- The trace buffer (R465 to R467). -/
structure Trace where
  state : Nat := 0
  wrap : Bool := false
  written : Nat := 0
  period : Nat := 0
  inPeriod : Nat := 0
  post : Nat := 0
  deriving DecidableEq, Repr

/-- An output of the block at its ports. -/
inductive Output where
  /-- MWR on hp_tx (R401) -/
  | hostMwr (addr : Nat) (data : List Byte) (poison : List Bool)
  /-- CPL on hp_tx (R400) -/
  | hostCpl (tag rid : Nat) (data : List Byte) (poison : List Bool)
  /-- CPL_UR on hp_tx (R400) -/
  | hostCplUr (tag rid : Nat)
  /-- a QMFN response frame to a source (R373) -/
  | qmfn (to_ : DictSrc) (frame : List Byte)
  /-- a QMFN request frame forwarded to another node (R374) -/
  | qmfnFwd (id : Nat) (dest : Nat) (frame : List Byte)
  /-- an interrupt message with hp_irq_vec (Table 16-6) -/
  | irq (vec : Nat)
  /-- an in-band interrupt with its mandatory byte (R376) -/
  | ibi (byte : Nat)
  /-- data of an I3C read; empty: ended at the first byte (R376, R377) -/
  | i3cData (data : List Byte)
  /-- ACK or NACK of an I3C command code (R377) -/
  | i3cAck (ok : Bool)
  /-- the reply to a request: target, tenant and operation of the request, code, data with marks (R302) -/
  | reply (origin : Origin) (target tenant opCode : Nat) (code : FC) (data : List Byte) (poison : List Bool)
  /-- a request sent to another node through a port (R311, R354, R360) -/
  | linkReq (port : Nat) (num : Nat) (opCode : Nat) (req : Req)
  /-- a request for another node that this block passes on through a port (R354) -/
  | relay (port : Nat) (opCode : Nat) (req : Req)
  /-- a sync message (Table 14-6): destination node, TYPE, LEVEL, WIRE_FLAGS, GEN, NODE, NODE_HIGH, ARG -/
  | sync (dest : Nat) (type level flags gen node high arg : Nat)
  /-- HELLO on a port: identity, role and the receive credits of each class (R350, R359) -/
  | hello (port : Nat) (identity : U64) (role : Nat) (credits : List Nat)
  /-- ENUM_ASSIGN to the block of an identity (R351) -/
  | enumAssign (identity : U64) (a : Assignment)
  /-- ENUM_COMMIT or the release of numbers, along the Form tree -/
  | enumCommit (commit : Bool)
  /-- a flit sent on a port (R356) -/
  | flit (port : Nat) (f : Flit)
  /-- rc_release[w] high for 16 cycles (R339) -/
  | rcRelease (w : Nat)
  /-- mc<nn>_init_req raised (R405) -/
  | initReq (n : Nat)
  /-- a card or aggregate requested from another block (R464, R468) -/
  | mgmtAsk (node : Nat) (what : Nat)
  deriving DecidableEq, Repr

/-! ## Streams, Lessons, tables and the ring (chapters 6, 8 to 11) -/

/-- A byte with its poison mark, on its way through an engine. -/
abbrev MByte := Byte × Bool

/-- A loop level of a stream (R200); x and y strides of a Hilbert level, the stride of a plain one in `sx`. -/
structure Loop where
  body : Nat
  count : Nat
  areg : Nat
  sx : Int
  sy : Int
  saved : Nat
  idx : Nat
  hilbert : Bool
  deriving DecidableEq, Repr

/-- A part of a remote EMIT that is not yet answered: request number, offset in the EMIT, its data once it has come. -/
structure EmitPart where
  num : Nat
  off : Nat
  data : Option (List MByte)
  deriving DecidableEq, Repr

/-- A stream of a core (R195, R196): bound to a stage of a Lesson by an arm record; program, registers, loop stack with
the innermost level first; the extent and epoch of its walk; whether END is reached; parts of a remote EMIT in flight
with their data; acknowledges outstanding; the program kept parked with its tag (R197); leaf entry and slot page of each
of its WALKs, latest first. -/
structure Stream where
  bound : Bool := false
  lesson : Nat := 0
  stage : Nat := 0
  arm : BitVec 512 := 0
  prog : List (BitVec 128) := []
  pc : Nat := 0
  a : List Nat := [0, 0, 0, 0]
  b : List Nat := [0, 0, 0, 0]
  d : Nat := 0
  loops : List Loop := []
  extent : Nat := 0
  epoch : U32 := 0
  ended : Bool := false
  parts : List EmitPart := []
  acks : Nat := 0
  parked : Option (BitVec 16 × List (BitVec 128)) := none
  pages : List (Nat × Nat) := []
  deriving DecidableEq, Repr

/-- A stage of an issued Lesson: its kind code, its 32-byte record, its arm record where it names one (R217, R218). -/
structure Stage where
  kind : Nat
  word : BitVec 256
  arm : BitVec 512 := 0
  deriving DecidableEq, Repr

/-- Row statistics in progress (R227): S, Q as binary32 words, tiles seen, poison. -/
structure RowStat where
  s : Nat := 0
  q : Nat := 0
  tiles : Nat := 0
  poison : Bool := false
  deriving DecidableEq, Repr

/-- A row-map entry of an Attend with the walk it holds (R246, R249): the pages left in its list. -/
structure AttEntry where
  seq : Nat
  first : Nat
  ntok : Nat
  qpos : Nat
  bitmap : Nat
  bitmapLen : Nat
  epoch : U32
  extent : Nat
  pages : List Nat
  deriving DecidableEq, Repr

/-- A row of an Attend for one head (R256): m and l as binary32 words, the partition totals of its d output elements
with their poison, and the poison of the row. -/
structure AttRow where
  m : Nat := 0xFF800000
  l : Nat := 0
  tot : List (List (Nat × Bool)) := []
  poison : Bool := false
  deriving DecidableEq, Repr

/-- One step of the page order of R250: entry, head index, pages (two when NT_M1 = 511), and whether it belongs to the
statistics walk of an attention gradient (R285), and whether it is an entry's page selection (R266). -/
structure AttStep where
  entry : Nat
  head : Nat
  pages : List Nat
  stats : Bool := false
  select : Bool := false
  deriving DecidableEq, Repr

/-- A tile that a rotary stage keeps until the whole rows of its row block have come (R253): stage, row block, place along
the row, production index, whether it is the last of its block, and its elements. -/
structure RotTile where
  stage : Nat
  blk : Nat
  col : Nat
  idx : Nat
  last : Bool
  rows : List (List (Nat × Bool))
  deriving DecidableEq, Repr

/-- A running Attend or attention gradient: entries, the steps not yet run, rows by head × 512 + row, importance masses
by page × 256 + slot of the current window, heads drained and combined, entries whose page selection awaits an assist, D of
each group row (R286). -/
structure AttRun where
  entries : List AttEntry
  steps : List AttStep
  rows : FMap AttRow := []
  mass : FMap (Nat × Bool) := []
  drained : Nat := 0
  combined : Nat := 0
  waiting : List Nat := []
  dvals : List (Nat × Bool) := []
  deriving DecidableEq, Repr

/-- A Lesson in flight (R224 to R236): its context, command number, descriptor and completion; its stages after
escalation; whether it runs escalated and takes derivatives fused; arm records not yet bound (stage numbers); tiles of
its first and second heavy stage released; operand and chain-source bytes by queue; output bytes by store stage;
statistics by 16 × row + stage; elements of a source chain done, by source stage; saturations; SFU banks each stage's
operation reads; tiles combined, by heavy record index; tiles in the drain buffer for a split combine (place, tile
number, elements); tiles that each stage has taken, and those that a rotary stage keeps; the K-steps and cells of a tile that came back from an image, by heavy record index (R137); Attend progress; bytes of other nodes it reads; sequences its row map names; the offset at which a
weight load began its slice. -/
structure LessonRun where
  ctx : Nat
  num : U32
  desc : BitVec 1024
  compl : Compl
  stages : List Stage
  escalated : Bool := false
  fusedDeriv : Bool := false
  arms : List Nat := []
  t0 : Nat := 0
  t1 : Nat := 0
  bufs : FMap (List MByte) := []
  outs : FMap (List MByte) := []
  stats : FMap RowStat := []
  swept : List Nat := []
  done : FMap Nat := []
  sat : Nat := 0
  banks : FMap Nat := []
  combined : FMap Nat := []
  tiles : List (Nat × Nat × List (List (Nat × Bool))) := []
  passed : FMap Nat := []
  rotHeld : List RotTile := []
  resumed : FMap (Nat × List (Nat × Bool)) := []
  att : Option AttRun := none
  fetched : List Fetched := []
  seqs : List Nat := []
  ringStart : Option Nat := none
  deriving DecidableEq, Repr

/-- A loading SFU table (R161): from the factory ROM or from a scratchpad row. -/
structure SfuLoad where
  factory : Bool
  row : Nat
  deriving DecidableEq, Repr

/-- An entry of a core's ring table (R209 to R212): the layer's buffer, the slice it holds, its bytes, format and side
channel, and the stream that loaded it. -/
structure RingEnt where
  rep : Nat
  layer : Nat
  buf : Nat
  slice : Nat
  len : Nat
  fmt : Nat
  side : Bool
  stream : Nat := 0
  deriving DecidableEq, Repr

/-- An open pass of a layer on a core (R211): the Lesson and the stage that use the slice, whether the pass has begun here (an arrival
may come first), whether the send went out, the arrival. -/
structure RingPass where
  rep : Nat
  layer : Nat
  lesson : Nat
  stage : Nat := 0
  begun : Bool := true
  sent : Bool := false
  arrived : Option RingEnt := none
  deriving DecidableEq, Repr

/-- A tile image held while its context is switched out (R332): array, context, Lesson, whether it lies in accumulator
memory, the K-steps entered (R334), and the words of an image in accumulator memory with their marks (R137, R138). -/
structure HeldTile where
  array : Nat
  ctx : Nat
  lesson : Nat
  inMem : Bool
  steps : Nat := 0
  image : List (Nat × Bool) := []
  deriving DecidableEq, Repr

/-! ## A core -/

/-- One core (R10 to R12). -/
structure Core where
  /-- unit epoch (R444) -/
  epoch : U32 := 0
  /-- held in reset by GATE (R450) -/
  gated : Bool := false
  /-- a reset has begun and the core is not yet released (R452) -/
  inReset : Bool := false
  /-- the scratchpad clear of R445 or R452 has not completed -/
  clearing : Bool := false
  /-- contexts 0-7 (R330) -/
  ctxs : FMap Ctx := []
  /-- attendance counters 0-255 (R324) -/
  counters : FMap U32 := []
  /-- engine flags 0-63 (R329) -/
  flags : BitVec 64 := 0
  /-- owners of the flags taken (R329) -/
  flagOwner : FMap FlagOwner := []
  /-- Roll Call arm records (R337) -/
  arms : FMap Arm := []
  /-- streams stopped at a WAIT: stream → (counter, N) (R328) -/
  waits : FMap (Nat × Nat) := []
  /-- combine waits: (Lesson, counter, value) (R237, R262) -/
  combineWaits : List (Nat × Nat × Nat) := []
  /-- Sync Unit operation queue (R326), oldest first -/
  suQ : List SuOp := []
  /-- ck_core cycle of the last counter operation and operations applied in it (R326) -/
  suCycle : Nat := 0
  suCount : Nat := 0
  /-- toggle of repeated ties at the Sync Unit (R9) -/
  suToggle : Bool := false
  /-- in Recess (R335) -/
  recess : Bool := false
  /-- consecutive cycles in which no context ran (R335) -/
  quietCycles : Nat := 0
  /-- scoreboard (R176) -/
  scoreboard : List SbPlace := []
  /-- memory-side unit: the running command and those issued behind it (R179) -/
  msu : Option MsuRun := none
  msuQ : List MsuCmd := []
  /-- TT_CYCLE (R169) -/
  ttCycle : Nat := 0
  /-- scrubber position: next byte offset to visit (R187) -/
  scrubAt : Nat := 0
  /-- Chart Walker translation cache, oldest first (R39) -/
  tcache : List TcLine := []
  /-- streams 0-15 (R195) -/
  streams : FMap Stream := []
  /-- Lessons in flight, by number in issue order -/
  lessons : FMap LessonRun := []
  nextLesson : Nat := 0
  /-- SFU table images by 2 × table + bank; absent: the factory table (R164) -/
  sfuBanks : FMap (List Byte) := []
  /-- active bank of each table, bit t for table t -/
  sfuActive : Nat := 0
  /-- table loads that have not ended, by table -/
  sfuLoads : FMap SfuLoad := []
  /-- ring table, spare buffer and open passes (R209, R211) -/
  ring : List RingEnt := []
  ringSpare : Nat := 0
  ringPasses : List RingPass := []
  /-- tiles switched out of the arrays (R332) -/
  heldTiles : List HeldTile := []
  /-- the Lesson that a context switch gave array 0 (S) or 1 (V) to (R331) -/
  holder : FMap Nat := []
  deriving DecidableEq, Repr

/-! ## The block -/

/-- Fused identity (R13, R349, R382): never changes. -/
structure Fuses where
  coreMask : BitVec 32
  identity : U64
  stepping : U16
  deviceKey : BitVec 128
  deriving DecidableEq, Repr

/-- The object dictionary's stored values (R368 to R372, R385). Keys are index × 256 + sub-index, an absent key holds
the entry's default. -/
structure Dict where
  /-- effective values of writable entries -/
  eff : FMap Nat := []
  /-- base values of RWS entries, where they differ from the default -/
  base : FMap Nat := []
  /-- counters and status values that the block writes -/
  cnt : FMap Nat := []
  /-- writes that wait for their moment -/
  pend : List DictPend := []
  /-- the tick being served and the (key, source rank) writes that applied in it -/
  tick : Nat := 0
  writes : List (Nat × Nat) := []
  deriving DecidableEq, Repr

/-- Charts: partitions, node pool, descriptor table and everything the edit protocol holds (chapters 2 and 3). -/
structure Charts where
  parts : FMap Part := []
  nodeBase : Nat := 0
  nodeSize : Nat := 0
  nodesAlloc : List Nat := []
  nodesLive : List Nat := []
  descBase : Nat := 0
  seqs : FMap Desc := []
  editQ : List EditEntry := []
  nextEdit : Nat := 0
  pend : FMap SeqPend := []
  jobs : FMap EvictJob := []
  jobWait : List (Nat × Nat) := []
  jobAgain : List (Nat × Nat) := []
  forced : List ForcedFree := []
  walks : List Walk := []
  sharedInv : List (Nat × Nat) := []
  released : List Nat := []
  tenants : FMap Tenant := []
  deriving DecidableEq, Repr

/-- Remote memory operations: Hall Passes, refusal log, remote window table, increments and requests in flight
(chapter 12, R361); `sseq` holds the next stream sequence number per STREAM × 65,536 + node. -/
structure Remote where
  passes : FMap Pass := []
  log : FMap (List Byte) := []
  rwt : FMap Rwt := []
  incrs : List PendIncr := []
  pairs : List Pair := []
  out : List OutReq := []
  nextReq : Nat := 0
  sseq : FMap U16 := []
  deriving DecidableEq, Repr

/-- Management: QMFN, I3C, events, keys, overlays, frames held and forwarded (chapter 15), assist requests in their queues and
those that stall before a full one (R95). -/
structure Mgmt where
  i3c : I3c := { }
  events : FMap Event := []
  nextEvent : Nat := 0
  polledAny : Nat := 0
  frames : List Frame := []
  fwds : List Fwd := []
  nextFwd : Nat := 0
  keys : FMap KeySlot := []
  authRecs : FMap Nat := []
  nonce : U64
  ovl : Ovl := { }
  assists : List Assist := []
  nextAssist : Nat := 0
  stalled : List Assist := []
  deriving DecidableEq, Repr

/-- Ports, clocks, power and reset (chapters 16 to 18); `linkSeen` counts the outputs whose packets have been handed to the
link ports, `discards` the replies and walked lines discarded on an epoch mismatch (R8), `mcFlips` the bits of a 137-bit word that
arrive flipped at a memory controller with the next write of it, by address / 16 (R406). -/
structure Sys where
  mccs : FMap Mcc := []
  hpUp : Bool := false
  ckPresent : U64 := 0
  gov : Gov := { }
  cc : Cc := { }
  rstJobs : List RstJob := []
  phase : Nat := 1
  rstReqN : Bool := true
  rstCause : FC := .ok
  rstFiltered : Nat := 0
  issueStopped : Bool := false
  held : Bool := false
  rateActive : Nat := 8000
  uptime : Nat := 0
  coreCycles : Nat := 0
  mgmtCycles : Nat := 0
  cards : List CardJob := []
  cardWait : List (FC × Nat) := []
  trace : Trace := { }
  wfg : Option Nat := none
  wfgSets : Nat := 0
  linkSeen : Nat := 0
  aggPrev : FMap Nat := []
  discards : Nat := 0
  fab : Fab := { }
  mcFlips : FMap Nat := []
  tap : Tap := { }
  deriving DecidableEq, Repr

/-- The state of one block. -/
structure State where
  /-- commands that wait, first in first out -/
  pending : List Instr := []
  /-- fused values -/
  fuses : Fuses
  /-- bytes of HBM, scratchpads, pinned Commons ways and command windows by block-local address (R19); an unlisted
  byte reads 0 -/
  mem : FMap Byte := []
  /-- stored syndrome of a scratchpad or pinned word, by word address / 16; absent: 0; 0x1FF is the poison mark (R183,
  R184) -/
  syn : FMap Nat := []
  /-- on-die ECC status that the stack reports for a 32-byte burst half, kept for each 16-byte word of it that has not been
  written since, by address / 16 (R404, R406) -/
  sev : FMap Nat := []
  /-- tags of weight lines, by line address / 256 (R185) -/
  wtags : FMap WTag := []
  dict : Dict := { }
  charts : Charts := { }
  sched : Sched := { }
  remote : Remote := { }
  cores : FMap Core := []
  clusters : FMap Cluster := []
  wires : FMap Wire := []
  mcasts : List Mcast := []
  ports : FMap Port := []
  form : Form := { }
  mgmt : Mgmt
  sys : Sys := { }
  /-- outputs at the ports, oldest first -/
  outbox : List Output := []
  /-- counter of free values the model has consumed (the model's own field) -/
  free : Nat := 0
  deriving DecidableEq, Repr

/-- Bits of CK_PRESENT that name a clock (Table 16-15). -/
def clockBits : U64 := 0x00FFFFFFFFFFFF1F

/-- The block as `rst_block_n` rises (R398, R445, Table 18-3): every register at its reset value, `ck_hold` high, the
scratchpads of the cores still to be cleared, memory with nothing listed.
DESIGN CHOICE (notes/assumptions/8.md). -/
def State.fresh (fuses : Fuses) (nonce : U64) : State :=
  { fuses := fuses
    mgmt := { nonce := nonce }
    cores := (List.range 32).map (fun c => (c, { clearing := true }))
    sys := { ckPresent := clockBits, gov := { ckHold := true } } }

/-- The block right after reset: phase 1, no command waiting. What is fused is open: the core mask is all ones (a DESIGN
CHOICE, notes/assumptions/1.md), identity, stepping and device key are constants with no value, and ID_BOOT_NONCE is the first
draw. -/
def State.reset : State :=
  { State.fresh
      { coreMask := 0xFFFFFFFF, identity := Config.identity, stepping := Config.stepping, deviceKey := Config.deviceKey }
      (Config.bootNonce 0) with free := 1 }

/-- Why a command ends in a fault: the spec gives every command of this block an effect, so there is no reason. -/
inductive Fault where
  deriving DecidableEq, Repr

/-- Why the model refuses a command. -/
inductive Refusal where
  /-- the command has no meaning in the model yet; raised by the dispatch; safe -/
  | notModelled (mnemonic : String)
  deriving DecidableEq, Repr

end Sys2Proof.Machine
end

