-- ==== Sys2Proof/Machine/Entries.lean ====
section
/-!
DEFINITION. The object dictionary's entries (R368): every entry of Tables 2-1, 3-4, 3-8, 3-12, 4-6, 5-10, 6-12, 7-8,
7-9, 8-8, 10-11, 11-6, 12-2, 12-7, 13-11, 13-12, 14-7, 15-6, 15-12, 15-15, 16-13 to 16-15, 17-6, 18-6, 19-2 to 19-4,
19-6 and 19-9, with its index, sub-index, type, access right, default and stated range.
-/

namespace Sys2Proof.Machine

open Sys2Proof

/-- The names of the entries. -/
inductive Name where
  | idVendor
  | idPart
  | idStepping
  | dictVersion
  | idFwVersion
  | idCoreEnableMask
  | idIdentity
  | idNode
  | idDeviceKcv
  | idBootNonce
  | idUptimeUs
  | i3cStaticAddr
  | i3cPid
  | i3cDynAddr
  | qmfnFramesIn
  | qmfnFrameErrors
  | qmfnRespLost
  | qmfnFwdTimeout
  | evtNextSeq
  | evtDropped
  | hpState
  | hpUrCount
  | hpPoisonIn
  | fnModeAdmission
  | fnModeBatch
  | fnModeEviction
  | fnModeChartWalk
  | fnModeChartEdit
  | fnModeCompaction
  | fnModePageSelect
  | fnModeEscalation
  | fnModeWaitGraph
  | fnModeKeyRotation
  | fnModeCounterAgg
  | fnAssistTimeout
  | fnHostRing
  | fnHostArg
  | fnHostArgSize
  | fnAnswerBase
  | fnAnswerSize
  | fnAssistAnswer
  | rcMask
  | rcScope
  | rcTimeout
  | rcGen
  | rcArrived
  | rcCcArrive
  | rcSpurious
  | rcTimeouts
  | rcLate
  | ccEpoch
  | ccWdtTimeout
  | ccWdtExpiries
  | ccL2Ce
  | ccL2Ue
  | fabEccCe
  | fabEccUe
  | rstCmd
  | rstStatus
  | rstQuiesceTimeout
  | rstPhase
  | rstReqCause
  | fwImageAddr
  | fwCmd
  | fwStatus
  | fwStagedVersion
  | commonsPinWays
  | commonsEpoch
  | commonsInvalidate
  | commonsHits
  | commonsMisses
  | commonsEccRefills
  | mcastRequests
  | ringBaseRow
  | ringSliceRows
  | ringLayers
  | ringPasses
  | ringCrcFaults
  | clusterEpoch
  | coreSatCount
  | coreFmtErrCount
  | sCksumEnable
  | sCksumTol
  | sCksumFaults
  | sBallastCycles
  | sSpillSwaps
  | sTiles
  | vCksumEnable
  | vCksumTol
  | vCksumFaults
  | vBallastCycles
  | vSpillSwaps
  | vTiles
  | sfuLoadRow
  | sfuLoadCmd
  | sfuLoadStatus
  | sfuActiveBank
  | sfuTable0Crc
  | sfuTable1Crc
  | sfuLoadWaits
  | sfuResults
  | ttSlotMap
  | ttHazardMode
  | ttHazards
  | sbWaitCycles
  | spScrubInterval
  | spScrubPasses
  | spEccCe
  | spEccUe
  | spWeightLines
  | spWeightRefetch
  | spWeightRefetchFail
  | stallCycles
  | seStreamsBound
  | seProgramLoads
  | seRearms
  | seLinesIn
  | seLinesOut
  | sePoisonLines
  | attPages
  | attRescales
  | attEmptyRows
  | attImpUpdates
  | attImpDrops
  | attPagesSkipped
  | attSelectRuns
  | bwdLessons
  | bwdDerivTable
  | bwdDerivFused
  | bwdUpdates
  | ctxTenant
  | ctxCmplCtr
  | ctxCmdCount
  | ctxCmdDone
  | ctxSaveRow
  | ctxState
  | ctxSwitchDelay
  | recessDelay
  | ctxSwitches
  | recessEntries
  | recessCycles
  | syncUnderflows
  | syncOverflows
  | flagWaits
  | suQueueCycles
  | pgCoreAllot
  | pgCoreCappedCycles
  | coreEpoch
  | ctxCtl
  | coreCycles
  | coreLessons
  | engBusyCycles
  | mcState
  | mcStackTemp
  | mcOdeccCorrected
  | mcOdeccUncorr
  | mcPathCe
  | mcPoisonLines
  | mcRfmIssued
  | mcPhyErrors
  | mcPoisonLostAddr
  | mcDataRate
  | mcRateActive
  | mcRefreshMode
  | mcUpMask
  | formLevels
  | formLossTimeout
  | enumCmd
  | enumStatus
  | enumBlocks
  | formSeqLost
  | linkRole
  | formHead
  | formRange
  | routeSelect
  | routeEntry
  | linkState
  | linkPeerId
  | linkPeerPort
  | linkRetryMax
  | linkCrcErrors
  | linkReplays
  | linkFlitsTx
  | linkFlitsRx
  | linkFlitsLost
  | linkDowns
  | schedDescBase
  | schedStep
  | schedTokenBudget
  | schedMaxBatch
  | schedPrefillChunk
  | schedPrefillMin
  | schedPrefillShare
  | schedAgeLimit
  | schedAdmitMax
  | schedMaxDrafts
  | schedEscDefault
  | schedSeqActive
  | schedQueued
  | schedGroupRows
  | repBase
  | repCount
  | tenantSelect
  | tenantClass
  | tenantMaxSeq
  | tenantTokenShare
  | tenantFrameQuota
  | tenantSeqCount
  | tenantFramesHeld
  | chartPartCount
  | chartNodeBase
  | chartNodeSize
  | chartNodesFree
  | chartEditQueueFree
  | seqSelect
  | seqPageBudget
  | seqEpoch
  | seqCommittedLen
  | seqDraftLen
  | seqChartDepth
  | seqPrivateFrames
  | seqNextPos
  | partBase
  | partSize
  | partFrameLog2
  | partFramesFree
  | evictSink
  | evictWindow
  | evictThresholdMin
  | evictMargin
  | evictDecay
  | evictJobsMax
  | pgIlim
  | pgStatic
  | pgCoef
  | pgKappa
  | pgRailState
  | pgIGov
  | pgIEst
  | pgIMeas
  | pgDeratePct
  | pgDisagreePct
  | pgPwrLimit
  | pgBMin
  | pgAlertLevel
  | pgAlertChatter
  | pgB
  | pgSustFactor
  | pgOpSelect
  | pgOpActive
  | pgPowerW
  | pgOpFreq
  | pgHoldPeriods
  | pgCalFails
  | pgCalRecoveries
  | pgLentLevels
  | pgAlertPeriods
  | pgLimitedPeriods
  | ckPresent
  | ckLossEvents
  | rstFiltered
  | alertFiltered
  | rcFiltered
  | keySelect
  | keyWrapped
  | keyPerm
  | keyState
  | keyNextWrapped
  | keyRotateAt
  | keyKcv
  | keyZeroise
  | authFailures
  | authReplays
  | authPairsUsed
  | hpSelect
  | hpBase
  | hpSize
  | hpSource
  | hpRights
  | hpCmd
  | hpPassState
  | hpEpoch
  | hpInflight
  | hpArrivals
  | rwtSelect
  | rwtTargetBase
  | rwtSize
  | rwtAttr
  | rwtHostOff
  | hpRefusals
  | hpLog
  | rmoTimeout
  | hpReopenMin
  | aggRuns
  | aggLastUs
  | blkStallCycles
  | blkBusyCycles
  | blkLessons
  | blkTokens
  | formAggBlocks
  | formLessons
  | formTokens
  | formStallCycles
  | tntSelect
  | tntTokens
  | tntSteps
  | tntLessons
  | tntHbmBytes
  | tntRefusals
  | tntFramesPeak
  | tntStallCycles
  | reportBase
  | reportCmd
  | reportCount
  | reportTrigger
  | reportSize
  | syncSet
  | syncSets
  | wfgBase
  | wfgSize
  | wfgCmd
  | wfgStatus
  | wfgCount
  | traceBase
  | traceSize
  | traceCtl
  | traceCores
  | traceTypes
  | traceTenant
  | traceStallMin
  | traceTrigger
  | tracePost
  | traceState
  | traceRecords
  | traceDrops
  | ovlCmd
  | ovlLoadAddr
  | ovlModeActive
  | ovlModelsActive
  | ovlStatus
  | ovlPending
  | ovlLoaded
  | ovlSelect
  | ovlState
  | ovlVersion
  | baseAddr
  | baseCmd
  | baseStatus
  | baseLength
  deriving DecidableEq, Repr

/-- Entry types of Table 15-1; `bytes n` holds n raw bytes. -/
inductive EType where
  | u8
  | u16
  | u32
  | u64
  | f32
  | str
  | bytes (n : Nat)
  deriving DecidableEq, Repr

/-- Access rights of Table 15-2. -/
inductive Access where
  | ro
  | rw
  | wo
  | rws
  | aw
  | prv
  deriving DecidableEq, Repr

/-- The unit an entry belongs to (R370): its index gives the instance. -/
inductive EUnit where
  | block
  | core
  | cluster
  | mcc
  | port
  | wire
  | part
  deriving DecidableEq, Repr

/-- One entry (R368): index of instance 0, index stride and instances, first sub-index and array length, type, access,
default, the stated range `lo` to `hi` in multiples of `mul`, the reserved bits, the code of a value out of range, the
authentication class of Table 15-10, the counter set of Table 19-1 (0 none, 1 per-core, 2 per-tenant, 3 block-global,
4 Form-global), the moment a write takes effect, whether it is a selector or addressed through one. -/
structure Entry where
  name : Name
  idx : Nat
  stride : Nat := 1
  n : Nat := 1
  sub : Nat
  len : Nat := 1
  typ : EType
  acc : Access
  dflt : Nat := 0
  lo : Nat := 0
  hi : Nat
  mul : Nat := 1
  res : Nat := 0
  err : FC := .valueRange
  cls : Nat := 255
  ctr : Nat := 0
  at_ : Option When := none
  unit : EUnit := .block
  selector : Bool := false
  selected : Bool := false
  noRead : Bool := false
  deriving DecidableEq, Repr

/-- Entries of indices 0x1000 to 0x1FFF. -/
def entriesIdentity : List Entry := [
  { name := .idVendor, idx := 0x1000, sub := 1, typ := .str, acc := .ro, hi := 0x0 },
  { name := .idPart, idx := 0x1000, sub := 2, typ := .str, acc := .ro, hi := 0x0 },
  { name := .idStepping, idx := 0x1000, sub := 3, typ := .u16, acc := .ro, hi := 0xFFFF },
  { name := .dictVersion, idx := 0x1000, sub := 4, typ := .u16, acc := .ro, dflt := 0x200, hi := 0xFFFF },
  { name := .idFwVersion, idx := 0x1000, sub := 5, typ := .u32, acc := .ro, hi := 0xFFFFFFFF },
  { name := .idCoreEnableMask, idx := 0x1010, sub := 1, typ := .u32, acc := .ro, hi := 0xFFFFFFFF },
  { name := .idIdentity, idx := 0x1010, sub := 2, typ := .u64, acc := .ro, hi := 0xFFFFFFFFFFFFFFFF },
  { name := .idNode, idx := 0x1010, sub := 3, typ := .u16, acc := .ro, hi := 0xFFFF },
  { name := .idDeviceKcv, idx := 0x1010, sub := 4, typ := .u32, acc := .ro, hi := 0xFFFFFFFF },
  { name := .idBootNonce, idx := 0x1010, sub := 5, typ := .u64, acc := .ro, hi := 0xFFFFFFFFFFFFFFFF },
  { name := .idUptimeUs, idx := 0x1010, sub := 6, typ := .u64, acc := .ro, hi := 0xFFFFFFFFFFFFFFFF },
  { name := .i3cStaticAddr, idx := 0x1100, sub := 1, typ := .u8, acc := .rws, dflt := 0x3A, lo := 8, hi := 0x77 },
  { name := .i3cPid, idx := 0x1100, sub := 2, typ := .u64, acc := .ro, hi := 0xFFFFFFFFFFFFFFFF },
  { name := .i3cDynAddr, idx := 0x1100, sub := 3, typ := .u8, acc := .ro, hi := 0xFF },
  { name := .qmfnFramesIn, idx := 0x1100, sub := 4, typ := .u64, acc := .ro, hi := 0xFFFFFFFFFFFFFFFF },
  { name := .qmfnFrameErrors, idx := 0x1100, sub := 5, typ := .u32, acc := .ro, hi := 0xFFFFFFFF },
  { name := .qmfnRespLost, idx := 0x1100, sub := 6, typ := .u32, acc := .ro, hi := 0xFFFFFFFF },
  { name := .qmfnFwdTimeout, idx := 0x1100, sub := 7, typ := .u32, acc := .rw, dflt := 0x7D0, lo := 100, hi := 0xF4240 },
  { name := .evtNextSeq, idx := 0x1200, sub := 1, typ := .u32, acc := .prv, hi := 0xFFFFFFFF, ctr := 3 },
  { name := .evtDropped, idx := 0x1200, sub := 2, typ := .u32, acc := .prv, hi := 0xFFFFFFFF, ctr := 3 },
  { name := .hpState, idx := 0x1300, sub := 1, typ := .u8, acc := .ro, hi := 0xFF },
  { name := .hpUrCount, idx := 0x1300, sub := 2, typ := .u32, acc := .prv, hi := 0xFFFFFFFF, ctr := 3 },
  { name := .hpPoisonIn, idx := 0x1300, sub := 3, typ := .u32, acc := .prv, hi := 0xFFFFFFFF, ctr := 3 }]

/-- Entries of indices 0x2000 to 0x2FFF. -/
def entriesConfig : List Entry := [
  { name := .fnModeAdmission, idx := 0x2100, sub := 1, typ := .u8, acc := .rws, hi := 0x2, err := .schedConfig, at_ := some .modeBoundary },
  { name := .fnModeBatch, idx := 0x2100, sub := 2, typ := .u8, acc := .rws, hi := 0x2, err := .schedConfig, at_ := some .modeBoundary },
  { name := .fnModeEviction, idx := 0x2100, sub := 3, typ := .u8, acc := .rws, hi := 0x2, err := .schedConfig, at_ := some .modeBoundary },
  { name := .fnModeChartWalk, idx := 0x2100, sub := 4, typ := .u8, acc := .rws, hi := 0x2, err := .schedConfig, at_ := some .modeBoundary },
  { name := .fnModeChartEdit, idx := 0x2100, sub := 5, typ := .u8, acc := .rws, hi := 0x2, err := .schedConfig, at_ := some .modeBoundary },
  { name := .fnModeCompaction, idx := 0x2100, sub := 6, typ := .u8, acc := .rws, hi := 0x2, err := .schedConfig, at_ := some .modeBoundary },
  { name := .fnModePageSelect, idx := 0x2100, sub := 7, typ := .u8, acc := .rws, hi := 0x2, err := .schedConfig, at_ := some .modeBoundary },
  { name := .fnModeEscalation, idx := 0x2100, sub := 8, typ := .u8, acc := .rws, hi := 0x2, err := .schedConfig, at_ := some .modeBoundary },
  { name := .fnModeWaitGraph, idx := 0x2100, sub := 9, typ := .u8, acc := .rws, dflt := 0x1, hi := 0x2, err := .schedConfig, at_ := some .modeBoundary },
  { name := .fnModeKeyRotation, idx := 0x2100, sub := 10, typ := .u8, acc := .aw, hi := 0x2, cls := 2, err := .schedConfig, at_ := some .modeBoundary },
  { name := .fnModeCounterAgg, idx := 0x2100, sub := 11, typ := .u8, acc := .rws, hi := 0x2, err := .schedConfig, at_ := some .modeBoundary },
  { name := .fnAssistTimeout, idx := 0x2101, sub := 1, typ := .u32, acc := .rw, dflt := 0x2710, hi := 0xFFFFFFFF },
  { name := .fnHostRing, idx := 0x2101, sub := 2, typ := .u64, acc := .rws, hi := 0xFFFFFFFFFFFFFFFF, mul := 4096 },
  { name := .fnHostArg, idx := 0x2101, sub := 3, typ := .u64, acc := .rws, hi := 0xFFFFFFFFFFFFFFFF, mul := 4096 },
  { name := .fnHostArgSize, idx := 0x2101, sub := 4, typ := .u32, acc := .rws, dflt := 0x1000000, lo := 65536, hi := 0x4000000, mul := 4096 },
  { name := .fnAnswerBase, idx := 0x2101, sub := 5, typ := .u64, acc := .rws, hi := 0xFFFFFFFFFFFFFFFF, mul := 4096 },
  { name := .fnAnswerSize, idx := 0x2101, sub := 6, typ := .u32, acc := .rws, dflt := 0x100000, lo := 65536, hi := 0x100000, mul := 4096 },
  { name := .fnAssistAnswer, idx := 0x2101, sub := 7, typ := .u64, acc := .wo, hi := 0xFFFFFFFFFFFFFFFF },
  { name := .rcMask, idx := 0x2200, sub := 1, stride := 0x1, n := 16, typ := .u64, acc := .rws, hi := 0xFFFFFFFFFFFFFFFF, res := 0xFFFFFFFC00000000, unit := .wire },
  { name := .rcScope, idx := 0x2200, sub := 2, stride := 0x1, n := 16, typ := .u8, acc := .rws, hi := 0x7, unit := .wire },
  { name := .rcTimeout, idx := 0x2200, sub := 3, stride := 0x1, n := 16, typ := .u32, acc := .rw, dflt := 0x2710, hi := 0xFFFFFFFF, unit := .wire },
  { name := .rcGen, idx := 0x2200, sub := 4, stride := 0x1, n := 16, typ := .u8, acc := .ro, hi := 0xFF, unit := .wire },
  { name := .rcArrived, idx := 0x2200, sub := 5, stride := 0x1, n := 16, typ := .u64, acc := .ro, hi := 0xFFFFFFFFFFFFFFFF, unit := .wire },
  { name := .rcCcArrive, idx := 0x2200, sub := 6, stride := 0x1, n := 16, typ := .u8, acc := .wo, hi := 0xFF, unit := .wire },
  { name := .rcSpurious, idx := 0x2200, sub := 7, stride := 0x1, n := 16, typ := .u32, acc := .prv, hi := 0xFFFFFFFF, ctr := 3, unit := .wire },
  { name := .rcTimeouts, idx := 0x2200, sub := 8, stride := 0x1, n := 16, typ := .u32, acc := .prv, hi := 0xFFFFFFFF, ctr := 3, unit := .wire },
  { name := .rcLate, idx := 0x2200, sub := 9, stride := 0x1, n := 16, typ := .u32, acc := .prv, hi := 0xFFFFFFFF, ctr := 3, unit := .wire },
  { name := .ccEpoch, idx := 0x2300, sub := 1, typ := .u32, acc := .ro, hi := 0xFFFFFFFF },
  { name := .ccWdtTimeout, idx := 0x2300, sub := 2, typ := .u32, acc := .rw, dflt := 0x64, lo := 10, hi := 0x2710 },
  { name := .ccWdtExpiries, idx := 0x2300, sub := 3, typ := .u32, acc := .prv, hi := 0xFFFFFFFF, ctr := 3 },
  { name := .ccL2Ce, idx := 0x2300, sub := 4, typ := .u32, acc := .prv, hi := 0xFFFFFFFF, ctr := 3 },
  { name := .ccL2Ue, idx := 0x2300, sub := 5, typ := .u32, acc := .prv, hi := 0xFFFFFFFF, ctr := 3 },
  { name := .fabEccCe, idx := 0x2300, sub := 6, typ := .u32, acc := .prv, hi := 0xFFFFFFFF, ctr := 3 },
  { name := .fabEccUe, idx := 0x2300, sub := 7, typ := .u32, acc := .prv, hi := 0xFFFFFFFF, ctr := 3 },
  { name := .rstCmd, idx := 0x2310, sub := 1, typ := .u32, acc := .aw, hi := 0xFFFFFFFF, res := 0xFFC0F000, cls := 1 },
  { name := .rstStatus, idx := 0x2310, sub := 2, typ := .u16, acc := .ro, hi := 0xFFFF },
  { name := .rstQuiesceTimeout, idx := 0x2310, sub := 3, typ := .u32, acc := .rw, dflt := 0x2710, lo := 100, hi := 0xF4240 },
  { name := .rstPhase, idx := 0x2310, sub := 4, typ := .u8, acc := .ro, dflt := 0x1, hi := 0xFF },
  { name := .rstReqCause, idx := 0x2310, sub := 5, typ := .u16, acc := .ro, hi := 0xFFFF },
  { name := .fwImageAddr, idx := 0x2320, sub := 1, typ := .u64, acc := .aw, hi := 0xFFFFFFFFFFFFFFFF, cls := 3 },
  { name := .fwCmd, idx := 0x2320, sub := 2, typ := .u8, acc := .aw, lo := 1, hi := 0x2, cls := 3 },
  { name := .fwStatus, idx := 0x2320, sub := 3, typ := .u16, acc := .ro, hi := 0xFFFF },
  { name := .fwStagedVersion, idx := 0x2320, sub := 4, typ := .u32, acc := .ro, hi := 0xFFFFFFFF }]

/-- Entries of indices 0x3000 to 0x3FFF. -/
def entriesCluster : List Entry := [
  { name := .commonsPinWays, idx := 0x3020, sub := 1, stride := 0x100, n := 4, typ := .u8, acc := .rws, hi := 0x10, at_ := some .boundary, unit := .cluster },
  { name := .commonsEpoch, idx := 0x3020, sub := 2, stride := 0x100, n := 4, typ := .u32, acc := .ro, hi := 0xFFFFFFFF, unit := .cluster },
  { name := .commonsInvalidate, idx := 0x3020, sub := 3, stride := 0x100, n := 4, typ := .u8, acc := .wo, lo := 1, hi := 0x1, unit := .cluster },
  { name := .commonsHits, idx := 0x3020, sub := 4, stride := 0x100, n := 4, typ := .u64, acc := .prv, hi := 0xFFFFFFFFFFFFFFFF, ctr := 3, unit := .cluster },
  { name := .commonsMisses, idx := 0x3020, sub := 5, stride := 0x100, n := 4, typ := .u64, acc := .prv, hi := 0xFFFFFFFFFFFFFFFF, ctr := 3, unit := .cluster },
  { name := .commonsEccRefills, idx := 0x3020, sub := 6, stride := 0x100, n := 4, typ := .u32, acc := .prv, hi := 0xFFFFFFFF, ctr := 3, unit := .cluster },
  { name := .mcastRequests, idx := 0x3020, sub := 7, stride := 0x100, n := 4, typ := .u64, acc := .prv, hi := 0xFFFFFFFFFFFFFFFF, ctr := 3, unit := .cluster },
  { name := .ringBaseRow, idx := 0x3030, sub := 1, stride := 0x100, n := 4, typ := .u16, acc := .rws, hi := 0x2FFF, at_ := some .boundary, unit := .cluster },
  { name := .ringSliceRows, idx := 0x3030, sub := 2, stride := 0x100, n := 4, typ := .u16, acc := .rws, hi := 0xFFFF, at_ := some .boundary, unit := .cluster },
  { name := .ringLayers, idx := 0x3030, sub := 3, stride := 0x100, n := 4, typ := .u8, acc := .rws, hi := 0x80, at_ := some .boundary, unit := .cluster },
  { name := .ringPasses, idx := 0x3030, sub := 4, stride := 0x100, n := 4, typ := .u64, acc := .prv, hi := 0xFFFFFFFFFFFFFFFF, ctr := 3, unit := .cluster },
  { name := .ringCrcFaults, idx := 0x3030, sub := 5, stride := 0x100, n := 4, typ := .u32, acc := .prv, hi := 0xFFFFFFFF, ctr := 3, unit := .cluster },
  { name := .clusterEpoch, idx := 0x3040, sub := 1, stride := 0x100, n := 4, typ := .u32, acc := .ro, hi := 0xFFFFFFFF, unit := .cluster }]

/-- Entries of indices 0x4000 to 0x401F. -/
def entriesCoreA : List Entry := [
  { name := .coreSatCount, idx := 0x4018, sub := 1, stride := 0x40, n := 32, len := 16, typ := .u32, acc := .ro, hi := 0xFFFFFFFF, ctr := 1, unit := .core },
  { name := .coreFmtErrCount, idx := 0x4019, sub := 1, stride := 0x40, n := 32, len := 16, typ := .u32, acc := .ro, hi := 0xFFFFFFFF, ctr := 1, unit := .core },
  { name := .sCksumEnable, idx := 0x401A, sub := 1, stride := 0x40, n := 32, typ := .u8, acc := .rw, dflt := 0x1, hi := 0x1, unit := .core },
  { name := .sCksumTol, idx := 0x401A, sub := 2, stride := 0x40, n := 32, typ := .u8, acc := .rw, dflt := 0xA, lo := 6, hi := 0x14, unit := .core },
  { name := .sCksumFaults, idx := 0x401A, sub := 3, stride := 0x40, n := 32, typ := .u32, acc := .ro, hi := 0xFFFFFFFF, ctr := 1, unit := .core },
  { name := .sBallastCycles, idx := 0x401A, sub := 4, stride := 0x40, n := 32, typ := .u64, acc := .ro, hi := 0xFFFFFFFFFFFFFFFF, ctr := 1, unit := .core },
  { name := .sSpillSwaps, idx := 0x401A, sub := 5, stride := 0x40, n := 32, typ := .u32, acc := .ro, hi := 0xFFFFFFFF, ctr := 1, unit := .core },
  { name := .sTiles, idx := 0x401A, sub := 6, stride := 0x40, n := 32, typ := .u64, acc := .ro, hi := 0xFFFFFFFFFFFFFFFF, ctr := 1, unit := .core },
  { name := .vCksumEnable, idx := 0x401B, sub := 1, stride := 0x40, n := 32, typ := .u8, acc := .rw, dflt := 0x1, hi := 0x1, unit := .core },
  { name := .vCksumTol, idx := 0x401B, sub := 2, stride := 0x40, n := 32, typ := .u8, acc := .rw, dflt := 0xA, lo := 6, hi := 0x14, unit := .core },
  { name := .vCksumFaults, idx := 0x401B, sub := 3, stride := 0x40, n := 32, typ := .u32, acc := .ro, hi := 0xFFFFFFFF, ctr := 1, unit := .core },
  { name := .vBallastCycles, idx := 0x401B, sub := 4, stride := 0x40, n := 32, typ := .u64, acc := .ro, hi := 0xFFFFFFFFFFFFFFFF, ctr := 1, unit := .core },
  { name := .vSpillSwaps, idx := 0x401B, sub := 5, stride := 0x40, n := 32, typ := .u32, acc := .ro, hi := 0xFFFFFFFF, ctr := 1, unit := .core },
  { name := .vTiles, idx := 0x401B, sub := 6, stride := 0x40, n := 32, typ := .u64, acc := .ro, hi := 0xFFFFFFFFFFFFFFFF, ctr := 1, unit := .core },
  { name := .sfuLoadRow, idx := 0x401C, sub := 1, stride := 0x40, n := 32, typ := .u16, acc := .rw, hi := 0x2FFF, unit := .core },
  { name := .sfuLoadCmd, idx := 0x401C, sub := 2, stride := 0x40, n := 32, typ := .u8, acc := .wo, lo := 1, hi := 0x4, unit := .core },
  { name := .sfuLoadStatus, idx := 0x401C, sub := 3, stride := 0x40, n := 32, typ := .u16, acc := .ro, hi := 0xFFFF, unit := .core },
  { name := .sfuActiveBank, idx := 0x401C, sub := 4, stride := 0x40, n := 32, typ := .u8, acc := .ro, hi := 0xFF, unit := .core },
  { name := .sfuTable0Crc, idx := 0x401C, sub := 5, stride := 0x40, n := 32, typ := .u32, acc := .ro, hi := 0xFFFFFFFF, unit := .core },
  { name := .sfuTable1Crc, idx := 0x401C, sub := 6, stride := 0x40, n := 32, typ := .u32, acc := .ro, hi := 0xFFFFFFFF, unit := .core },
  { name := .sfuLoadWaits, idx := 0x401C, sub := 7, stride := 0x40, n := 32, typ := .u32, acc := .ro, hi := 0xFFFFFFFF, ctr := 1, unit := .core },
  { name := .sfuResults, idx := 0x401C, sub := 8, stride := 0x40, n := 32, typ := .u64, acc := .ro, hi := 0xFFFFFFFFFFFFFFFF, ctr := 1, unit := .core },
  { name := .ttSlotMap, idx := 0x401D, sub := 1, stride := 0x40, n := 32, typ := .u32, acc := .rws, dflt := 0xF6205420, hi := 0xFFFFFFFF, at_ := some .boundary, unit := .core },
  { name := .ttHazardMode, idx := 0x401D, sub := 2, stride := 0x40, n := 32, typ := .u8, acc := .rw, hi := 0x2, unit := .core },
  { name := .ttHazards, idx := 0x401D, sub := 3, stride := 0x40, n := 32, typ := .u32, acc := .ro, hi := 0xFFFFFFFF, ctr := 1, unit := .core },
  { name := .sbWaitCycles, idx := 0x401D, sub := 4, stride := 0x40, n := 32, typ := .u64, acc := .ro, hi := 0xFFFFFFFFFFFFFFFF, ctr := 1, unit := .core },
  { name := .spScrubInterval, idx := 0x401E, sub := 1, stride := 0x40, n := 32, typ := .u16, acc := .rw, dflt := 0x40, lo := 16, hi := 0xFFFF, unit := .core },
  { name := .spScrubPasses, idx := 0x401E, sub := 2, stride := 0x40, n := 32, typ := .u32, acc := .ro, hi := 0xFFFFFFFF, ctr := 1, unit := .core },
  { name := .spEccCe, idx := 0x401E, sub := 3, stride := 0x40, n := 32, typ := .u32, acc := .ro, hi := 0xFFFFFFFF, ctr := 1, unit := .core },
  { name := .spEccUe, idx := 0x401E, sub := 4, stride := 0x40, n := 32, typ := .u32, acc := .ro, hi := 0xFFFFFFFF, ctr := 1, unit := .core },
  { name := .spWeightLines, idx := 0x401E, sub := 5, stride := 0x40, n := 32, typ := .u32, acc := .ro, hi := 0xFFFFFFFF, ctr := 1, unit := .core },
  { name := .spWeightRefetch, idx := 0x401E, sub := 6, stride := 0x40, n := 32, typ := .u32, acc := .ro, hi := 0xFFFFFFFF, ctr := 1, unit := .core },
  { name := .spWeightRefetchFail, idx := 0x401E, sub := 7, stride := 0x40, n := 32, typ := .u32, acc := .ro, hi := 0xFFFFFFFF, ctr := 1, unit := .core },
  { name := .stallCycles, idx := 0x401F, sub := 1, stride := 0x40, n := 32, len := 49, typ := .u64, acc := .ro, hi := 0xFFFFFFFFFFFFFFFF, ctr := 1, unit := .core }]

/-- Entries of indices 0x4020 to 0x4FFF. -/
def entriesCoreB : List Entry := [
  { name := .seStreamsBound, idx := 0x4020, sub := 1, stride := 0x40, n := 32, typ := .u16, acc := .ro, hi := 0xFFFF, ctr := 1, unit := .core },
  { name := .seProgramLoads, idx := 0x4020, sub := 2, stride := 0x40, n := 32, typ := .u32, acc := .ro, hi := 0xFFFFFFFF, ctr := 1, unit := .core },
  { name := .seRearms, idx := 0x4020, sub := 3, stride := 0x40, n := 32, typ := .u32, acc := .ro, hi := 0xFFFFFFFF, ctr := 1, unit := .core },
  { name := .seLinesIn, idx := 0x4020, sub := 4, stride := 0x40, n := 32, typ := .u64, acc := .ro, hi := 0xFFFFFFFFFFFFFFFF, ctr := 1, unit := .core },
  { name := .seLinesOut, idx := 0x4020, sub := 5, stride := 0x40, n := 32, typ := .u64, acc := .ro, hi := 0xFFFFFFFFFFFFFFFF, ctr := 1, unit := .core },
  { name := .sePoisonLines, idx := 0x4020, sub := 6, stride := 0x40, n := 32, typ := .u32, acc := .ro, hi := 0xFFFFFFFF, ctr := 1, unit := .core },
  { name := .attPages, idx := 0x4021, sub := 1, stride := 0x40, n := 32, typ := .u64, acc := .ro, hi := 0xFFFFFFFFFFFFFFFF, ctr := 1, unit := .core },
  { name := .attRescales, idx := 0x4021, sub := 2, stride := 0x40, n := 32, typ := .u64, acc := .ro, hi := 0xFFFFFFFFFFFFFFFF, ctr := 1, unit := .core },
  { name := .attEmptyRows, idx := 0x4021, sub := 3, stride := 0x40, n := 32, typ := .u32, acc := .ro, hi := 0xFFFFFFFF, ctr := 1, unit := .core },
  { name := .attImpUpdates, idx := 0x4021, sub := 4, stride := 0x40, n := 32, typ := .u64, acc := .ro, hi := 0xFFFFFFFFFFFFFFFF, ctr := 1, unit := .core },
  { name := .attImpDrops, idx := 0x4021, sub := 5, stride := 0x40, n := 32, typ := .u32, acc := .ro, hi := 0xFFFFFFFF, ctr := 1, unit := .core },
  { name := .attPagesSkipped, idx := 0x4021, sub := 6, stride := 0x40, n := 32, typ := .u64, acc := .ro, hi := 0xFFFFFFFFFFFFFFFF, ctr := 1, unit := .core },
  { name := .attSelectRuns, idx := 0x4021, sub := 7, stride := 0x40, n := 32, typ := .u32, acc := .ro, hi := 0xFFFFFFFF, ctr := 1, unit := .core },
  { name := .bwdLessons, idx := 0x4022, sub := 1, stride := 0x40, n := 32, typ := .u64, acc := .ro, hi := 0xFFFFFFFFFFFFFFFF, ctr := 1, unit := .core },
  { name := .bwdDerivTable, idx := 0x4022, sub := 2, stride := 0x40, n := 32, typ := .u64, acc := .ro, hi := 0xFFFFFFFFFFFFFFFF, ctr := 1, unit := .core },
  { name := .bwdDerivFused, idx := 0x4022, sub := 3, stride := 0x40, n := 32, typ := .u64, acc := .ro, hi := 0xFFFFFFFFFFFFFFFF, ctr := 1, unit := .core },
  { name := .bwdUpdates, idx := 0x4022, sub := 4, stride := 0x40, n := 32, typ := .u32, acc := .ro, hi := 0xFFFFFFFF, ctr := 1, unit := .core },
  { name := .ctxTenant, idx := 0x4023, sub := 1, stride := 0x40, n := 32, len := 8, typ := .u16, acc := .aw, hi := 0xFFFF, res := 0xF000, cls := 0, unit := .core },
  { name := .ctxCmplCtr, idx := 0x4024, sub := 1, stride := 0x40, n := 32, len := 8, typ := .u16, acc := .rw, hi := 0xFFFF, res := 0xE000, unit := .core },
  { name := .ctxCmdCount, idx := 0x4025, sub := 1, stride := 0x40, n := 32, len := 8, typ := .u32, acc := .ro, hi := 0xFFFFFFFF, unit := .core },
  { name := .ctxCmdDone, idx := 0x4026, sub := 1, stride := 0x40, n := 32, len := 8, typ := .u32, acc := .ro, hi := 0xFFFFFFFF, unit := .core },
  { name := .ctxSaveRow, idx := 0x4027, sub := 1, stride := 0x40, n := 32, len := 8, typ := .u16, acc := .rw, dflt := 0xFFFF, hi := 0xFFFF, unit := .core },
  { name := .ctxState, idx := 0x4028, sub := 1, stride := 0x40, n := 32, typ := .u32, acc := .ro, hi := 0xFFFFFFFF, unit := .core },
  { name := .ctxSwitchDelay, idx := 0x4028, sub := 2, stride := 0x40, n := 32, typ := .u16, acc := .rw, dflt := 0x200, lo := 64, hi := 0xFFFF, unit := .core },
  { name := .recessDelay, idx := 0x4028, sub := 3, stride := 0x40, n := 32, typ := .u16, acc := .rw, dflt := 0x100, lo := 16, hi := 0xFFFF, unit := .core },
  { name := .ctxSwitches, idx := 0x4028, sub := 4, stride := 0x40, n := 32, typ := .u32, acc := .ro, hi := 0xFFFFFFFF, ctr := 1, unit := .core },
  { name := .recessEntries, idx := 0x4028, sub := 5, stride := 0x40, n := 32, typ := .u32, acc := .ro, hi := 0xFFFFFFFF, ctr := 1, unit := .core },
  { name := .recessCycles, idx := 0x4028, sub := 6, stride := 0x40, n := 32, typ := .u64, acc := .ro, hi := 0xFFFFFFFFFFFFFFFF, ctr := 1, unit := .core },
  { name := .syncUnderflows, idx := 0x4028, sub := 7, stride := 0x40, n := 32, typ := .u32, acc := .ro, hi := 0xFFFFFFFF, ctr := 1, unit := .core },
  { name := .syncOverflows, idx := 0x4028, sub := 8, stride := 0x40, n := 32, typ := .u32, acc := .ro, hi := 0xFFFFFFFF, ctr := 1, unit := .core },
  { name := .flagWaits, idx := 0x4028, sub := 9, stride := 0x40, n := 32, typ := .u64, acc := .ro, hi := 0xFFFFFFFFFFFFFFFF, ctr := 1, unit := .core },
  { name := .suQueueCycles, idx := 0x4028, sub := 10, stride := 0x40, n := 32, typ := .u64, acc := .ro, hi := 0xFFFFFFFFFFFFFFFF, ctr := 1, unit := .core },
  { name := .pgCoreAllot, idx := 0x4029, sub := 1, stride := 0x40, n := 32, typ := .u8, acc := .ro, dflt := 0x10, hi := 0xFF, ctr := 1, unit := .core },
  { name := .pgCoreCappedCycles, idx := 0x4029, sub := 2, stride := 0x40, n := 32, typ := .u64, acc := .ro, hi := 0xFFFFFFFFFFFFFFFF, ctr := 1, unit := .core },
  { name := .coreEpoch, idx := 0x402A, sub := 1, stride := 0x40, n := 32, typ := .u32, acc := .ro, hi := 0xFFFFFFFF, unit := .core },
  { name := .ctxCtl, idx := 0x402B, sub := 1, stride := 0x40, n := 32, len := 8, typ := .u8, acc := .aw, lo := 1, hi := 0x2, cls := 1, unit := .core },
  { name := .coreCycles, idx := 0x402C, sub := 1, stride := 0x40, n := 32, typ := .u64, acc := .ro, hi := 0xFFFFFFFFFFFFFFFF, ctr := 1, unit := .core },
  { name := .coreLessons, idx := 0x402C, sub := 2, stride := 0x40, n := 32, typ := .u64, acc := .ro, hi := 0xFFFFFFFFFFFFFFFF, ctr := 1, unit := .core },
  { name := .engBusyCycles, idx := 0x402D, sub := 1, stride := 0x40, n := 32, len := 7, typ := .u64, acc := .ro, hi := 0xFFFFFFFFFFFFFFFF, ctr := 1, unit := .core }]

/-- Entries of indices 0x6000 to 0x6FFF. -/
def entriesLinks : List Entry := [
  { name := .mcState, idx := 0x6000, sub := 1, stride := 0x40, n := 24, typ := .u8, acc := .ro, hi := 0xFF, unit := .mcc },
  { name := .mcStackTemp, idx := 0x6000, sub := 2, stride := 0x40, n := 24, typ := .u8, acc := .ro, hi := 0xFF, unit := .mcc },
  { name := .mcOdeccCorrected, idx := 0x6000, sub := 3, stride := 0x40, n := 24, typ := .u64, acc := .prv, hi := 0xFFFFFFFFFFFFFFFF, ctr := 3, unit := .mcc },
  { name := .mcOdeccUncorr, idx := 0x6000, sub := 4, stride := 0x40, n := 24, typ := .u32, acc := .prv, hi := 0xFFFFFFFF, ctr := 3, unit := .mcc },
  { name := .mcPathCe, idx := 0x6000, sub := 5, stride := 0x40, n := 24, typ := .u32, acc := .prv, hi := 0xFFFFFFFF, ctr := 3, unit := .mcc },
  { name := .mcPoisonLines, idx := 0x6000, sub := 6, stride := 0x40, n := 24, typ := .u16, acc := .prv, hi := 0xFFFF, ctr := 3, unit := .mcc },
  { name := .mcRfmIssued, idx := 0x6000, sub := 7, stride := 0x40, n := 24, typ := .u64, acc := .prv, hi := 0xFFFFFFFFFFFFFFFF, ctr := 3, unit := .mcc },
  { name := .mcPhyErrors, idx := 0x6000, sub := 8, stride := 0x40, n := 24, typ := .u32, acc := .prv, hi := 0xFFFFFFFF, ctr := 3, unit := .mcc },
  { name := .mcPoisonLostAddr, idx := 0x6000, sub := 9, stride := 0x40, n := 24, typ := .u64, acc := .prv, hi := 0xFFFFFFFFFFFFFFFF, ctr := 3, unit := .mcc },
  { name := .mcDataRate, idx := 0x6600, sub := 1, typ := .u16, acc := .rws, dflt := 0x1F40, lo := 6400, hi := 0x1F40, mul := 400 },
  { name := .mcRateActive, idx := 0x6600, sub := 2, typ := .u16, acc := .ro, dflt := 0x1F40, hi := 0xFFFF },
  { name := .mcRefreshMode, idx := 0x6600, sub := 3, typ := .u8, acc := .rws, hi := 0x1 },
  { name := .mcUpMask, idx := 0x6600, sub := 4, typ := .u32, acc := .ro, hi := 0xFFFFFFFF },
  { name := .formLevels, idx := 0x6800, sub := 1, typ := .u8, acc := .ro, hi := 0xFF },
  { name := .formLossTimeout, idx := 0x6800, sub := 2, typ := .u32, acc := .rw, dflt := 0x3E8, lo := 300, hi := 0xF4240 },
  { name := .enumCmd, idx := 0x6800, sub := 3, typ := .u8, acc := .aw, lo := 1, hi := 0x2, cls := 6 },
  { name := .enumStatus, idx := 0x6800, sub := 4, typ := .u16, acc := .ro, hi := 0xFFFF },
  { name := .enumBlocks, idx := 0x6800, sub := 5, typ := .u16, acc := .ro, hi := 0xFFFF },
  { name := .formSeqLost, idx := 0x6800, sub := 6, typ := .u32, acc := .prv, hi := 0xFFFFFFFF, ctr := 3 },
  { name := .linkRole, idx := 0x6801, sub := 1, len := 24, typ := .u8, acc := .rws, hi := 0xFF },
  { name := .formHead, idx := 0x6802, sub := 1, len := 4, typ := .u16, acc := .ro, hi := 0xFFFF },
  { name := .formRange, idx := 0x6803, sub := 1, len := 4, typ := .u32, acc := .ro, hi := 0xFFFFFFFF },
  { name := .routeSelect, idx := 0x6810, sub := 1, typ := .u8, acc := .rw, hi := 0xFF, selector := true },
  { name := .routeEntry, idx := 0x6810, sub := 2, typ := .u64, acc := .aw, hi := 0xFFFFFFFFFFFFFFFF, res := 0xE000000, cls := 6, selected := true },
  { name := .linkState, idx := 0x6840, sub := 1, stride := 0x1, n := 24, typ := .u8, acc := .ro, hi := 0xFF, unit := .port },
  { name := .linkPeerId, idx := 0x6840, sub := 2, stride := 0x1, n := 24, typ := .u64, acc := .ro, hi := 0xFFFFFFFFFFFFFFFF, unit := .port },
  { name := .linkPeerPort, idx := 0x6840, sub := 3, stride := 0x1, n := 24, typ := .u8, acc := .ro, hi := 0xFF, unit := .port },
  { name := .linkRetryMax, idx := 0x6840, sub := 4, stride := 0x1, n := 24, typ := .u8, acc := .rw, dflt := 0x10, lo := 1, hi := 0xFF, unit := .port },
  { name := .linkCrcErrors, idx := 0x6840, sub := 5, stride := 0x1, n := 24, typ := .u32, acc := .prv, hi := 0xFFFFFFFF, ctr := 3, unit := .port },
  { name := .linkReplays, idx := 0x6840, sub := 6, stride := 0x1, n := 24, typ := .u32, acc := .prv, hi := 0xFFFFFFFF, ctr := 3, unit := .port },
  { name := .linkFlitsTx, idx := 0x6840, sub := 7, stride := 0x1, n := 24, typ := .u64, acc := .prv, hi := 0xFFFFFFFFFFFFFFFF, ctr := 3, unit := .port },
  { name := .linkFlitsRx, idx := 0x6840, sub := 8, stride := 0x1, n := 24, typ := .u64, acc := .prv, hi := 0xFFFFFFFFFFFFFFFF, ctr := 3, unit := .port },
  { name := .linkFlitsLost, idx := 0x6840, sub := 9, stride := 0x1, n := 24, typ := .u32, acc := .prv, hi := 0xFFFFFFFF, ctr := 3, unit := .port },
  { name := .linkDowns, idx := 0x6840, sub := 10, stride := 0x1, n := 24, typ := .u32, acc := .prv, hi := 0xFFFFFFFF, ctr := 3, unit := .port }]

/-- Entries of indices 0x7000 to 0x7FFF. -/
def entriesSched : List Entry := [
  { name := .schedDescBase, idx := 0x7000, sub := 1, typ := .u64, acc := .rws, hi := 0xFFFFFFFFFFFFFFFF, err := .schedConfig },
  { name := .schedStep, idx := 0x7000, sub := 2, typ := .u64, acc := .ro, hi := 0xFFFFFFFFFFFFFFFF },
  { name := .schedTokenBudget, idx := 0x7000, sub := 3, typ := .u32, acc := .rw, dflt := 0x2000, lo := 256, hi := 0x10000, err := .schedConfig, at_ := some .boundary },
  { name := .schedMaxBatch, idx := 0x7000, sub := 4, typ := .u16, acc := .rw, dflt := 0x1000, lo := 1, hi := 0x2000, err := .schedConfig, at_ := some .boundary },
  { name := .schedPrefillChunk, idx := 0x7000, sub := 5, typ := .u32, acc := .rw, dflt := 0x800, lo := 64, hi := 0x10000, mul := 64, err := .schedConfig, at_ := some .boundary },
  { name := .schedPrefillMin, idx := 0x7000, sub := 6, typ := .u16, acc := .rw, dflt := 0x100, hi := 0xFFFF, err := .schedConfig, at_ := some .boundary },
  { name := .schedPrefillShare, idx := 0x7000, sub := 7, typ := .u8, acc := .rw, dflt := 0x19, hi := 0x64, err := .schedConfig, at_ := some .boundary },
  { name := .schedAgeLimit, idx := 0x7000, sub := 8, typ := .u16, acc := .rw, dflt := 0x20, hi := 0xFFFF, err := .schedConfig, at_ := some .boundary },
  { name := .schedAdmitMax, idx := 0x7000, sub := 9, typ := .u16, acc := .rw, dflt := 0x100, hi := 0xFFFF, err := .schedConfig, at_ := some .boundary },
  { name := .schedMaxDrafts, idx := 0x7000, sub := 10, typ := .u8, acc := .rw, dflt := 0x8, hi := 0x1F, err := .schedConfig, at_ := some .boundary },
  { name := .schedEscDefault, idx := 0x7000, sub := 11, typ := .u32, acc := .rw, dflt := 0x1000, hi := 0xFFFFFFFF, err := .schedConfig, at_ := some .boundary },
  { name := .schedSeqActive, idx := 0x7000, sub := 12, typ := .u32, acc := .ro, hi := 0xFFFFFFFF },
  { name := .schedQueued, idx := 0x7000, sub := 13, typ := .u32, acc := .ro, hi := 0xFFFFFFFF },
  { name := .schedGroupRows, idx := 0x7000, sub := 14, typ := .u16, acc := .rw, dflt := 0x100, lo := 16, hi := 0x100, mul := 16, err := .schedConfig, at_ := some .boundary },
  { name := .repBase, idx := 0x7040, sub := 1, typ := .u64, acc := .rws, hi := 0xFFFFFFFFFFFFFFFF, mul := 1048576, err := .schedConfig },
  { name := .repCount, idx := 0x7040, sub := 2, typ := .u16, acc := .rws, hi := 0x1000, err := .schedConfig },
  { name := .tenantSelect, idx := 0x7080, sub := 1, typ := .u16, acc := .rw, hi := 0xFFF, err := .schedConfig, selector := true },
  { name := .tenantClass, idx := 0x7080, sub := 2, typ := .u8, acc := .rw, hi := 0x2, err := .schedConfig, at_ := some .boundary, selected := true },
  { name := .tenantMaxSeq, idx := 0x7080, sub := 3, typ := .u32, acc := .rw, dflt := 0x40000, hi := 0xFFFFFFFF, err := .schedConfig, at_ := some .boundary, selected := true },
  { name := .tenantTokenShare, idx := 0x7080, sub := 4, typ := .u16, acc := .rw, hi := 0xFFFF, err := .schedConfig, at_ := some .boundary, selected := true },
  { name := .tenantFrameQuota, idx := 0x7080, sub := 5, typ := .u32, acc := .rw, hi := 0xFFFFFFFF, err := .schedConfig, at_ := some .boundary, selected := true },
  { name := .tenantSeqCount, idx := 0x7080, sub := 6, typ := .u32, acc := .ro, hi := 0xFFFFFFFF, selected := true },
  { name := .tenantFramesHeld, idx := 0x7080, sub := 7, typ := .u32, acc := .ro, hi := 0xFFFFFFFF, selected := true },
  { name := .chartPartCount, idx := 0x7800, sub := 1, typ := .u8, acc := .rws, hi := 0x10 },
  { name := .chartNodeBase, idx := 0x7800, sub := 2, typ := .u64, acc := .rws, hi := 0xFFFFFFFFFFFFFFFF, mul := 4096, err := .chartMalformed },
  { name := .chartNodeSize, idx := 0x7800, sub := 3, typ := .u64, acc := .rws, hi := 0xFFFFFFFFFFFFFFFF, mul := 4096, err := .chartMalformed },
  { name := .chartNodesFree, idx := 0x7800, sub := 4, typ := .u32, acc := .ro, hi := 0xFFFFFFFF },
  { name := .chartEditQueueFree, idx := 0x7800, sub := 5, typ := .u16, acc := .ro, dflt := 0x1000, hi := 0xFFFF },
  { name := .seqSelect, idx := 0x7810, sub := 1, typ := .u32, acc := .rw, hi := 0x3FFFF, selector := true },
  { name := .seqPageBudget, idx := 0x7810, sub := 2, typ := .u32, acc := .rw, hi := 0xFFFFFFFF, at_ := some .boundary, selected := true },
  { name := .seqEpoch, idx := 0x7810, sub := 3, typ := .u32, acc := .ro, hi := 0xFFFFFFFF, selected := true },
  { name := .seqCommittedLen, idx := 0x7810, sub := 4, typ := .u64, acc := .ro, hi := 0xFFFFFFFFFFFFFFFF, selected := true },
  { name := .seqDraftLen, idx := 0x7810, sub := 5, typ := .u16, acc := .ro, hi := 0xFFFF, selected := true },
  { name := .seqChartDepth, idx := 0x7810, sub := 6, typ := .u8, acc := .ro, hi := 0xFF, selected := true },
  { name := .seqPrivateFrames, idx := 0x7810, sub := 7, typ := .u32, acc := .ro, hi := 0xFFFFFFFF, selected := true },
  { name := .seqNextPos, idx := 0x7810, sub := 8, typ := .u64, acc := .ro, hi := 0xFFFFFFFFFFFFFFFF, selected := true },
  { name := .partBase, idx := 0x7820, sub := 1, stride := 0x1, n := 16, typ := .u64, acc := .rws, hi := 0xFFFFFFFFFFFFFFFF, err := .chartMalformed, unit := .part },
  { name := .partSize, idx := 0x7820, sub := 2, stride := 0x1, n := 16, typ := .u64, acc := .rws, hi := 0xFFFFFFFFFFFFFFFF, err := .chartMalformed, unit := .part },
  { name := .partFrameLog2, idx := 0x7820, sub := 3, stride := 0x1, n := 16, typ := .u8, acc := .rws, dflt := 0x15, lo := 16, hi := 0x16, unit := .part },
  { name := .partFramesFree, idx := 0x7820, sub := 4, stride := 0x1, n := 16, typ := .u32, acc := .ro, hi := 0xFFFFFFFF, unit := .part },
  { name := .evictSink, idx := 0x7840, sub := 1, typ := .u16, acc := .rw, dflt := 0x4, hi := 0xFFFF },
  { name := .evictWindow, idx := 0x7840, sub := 2, typ := .u32, acc := .rw, dflt := 0x800, hi := 0xFFFFFFFF },
  { name := .evictThresholdMin, idx := 0x7840, sub := 3, typ := .u16, acc := .rw, dflt := 0x4000, hi := 0xFFFF },
  { name := .evictMargin, idx := 0x7840, sub := 4, typ := .u8, acc := .rw, dflt := 0x2, hi := 0xFF },
  { name := .evictDecay, idx := 0x7840, sub := 5, typ := .u16, acc := .rw, dflt := 0x400, hi := 0xFFFF },
  { name := .evictJobsMax, idx := 0x7840, sub := 6, typ := .u8, acc := .rw, dflt := 0x40, lo := 1, hi := 0x40 }]

/-- Entries of indices 0x8000 to 0x8FFF. -/
def entriesPower : List Entry := [
  { name := .pgIlim, idx := 0x8000, sub := 1, len := 4, typ := .u16, acc := .rws, hi := 0xFFFF, at_ := some .period },
  { name := .pgStatic, idx := 0x8001, sub := 1, len := 4, typ := .f32, acc := .rws, hi := 0xFFFFFFFF, at_ := some .period },
  { name := .pgCoef, idx := 0x8002, sub := 1, len := 11, typ := .f32, acc := .rws, hi := 0xFFFFFFFF, at_ := some .period },
  { name := .pgKappa, idx := 0x8003, sub := 1, len := 4, typ := .f32, acc := .ro, hi := 0xFFFFFFFF },
  { name := .pgRailState, idx := 0x8004, sub := 1, len := 4, typ := .u8, acc := .ro, hi := 0xFF },
  { name := .pgIGov, idx := 0x8005, sub := 1, len := 4, typ := .f32, acc := .prv, hi := 0xFFFFFFFF, ctr := 3 },
  { name := .pgIEst, idx := 0x8006, sub := 1, len := 4, typ := .f32, acc := .prv, hi := 0xFFFFFFFF, ctr := 3 },
  { name := .pgIMeas, idx := 0x8007, sub := 1, len := 4, typ := .f32, acc := .prv, hi := 0xFFFFFFFF, ctr := 3 },
  { name := .pgDeratePct, idx := 0x8010, sub := 1, typ := .u8, acc := .rws, dflt := 0xA, hi := 0x32, at_ := some .period },
  { name := .pgDisagreePct, idx := 0x8010, sub := 2, typ := .u8, acc := .rws, dflt := 0xF, lo := 5, hi := 0x32, at_ := some .period },
  { name := .pgPwrLimit, idx := 0x8010, sub := 3, typ := .u16, acc := .rws, dflt := 0x640, lo := 400, hi := 0x7D0, at_ := some .period },
  { name := .pgBMin, idx := 0x8010, sub := 4, typ := .u16, acc := .rws, dflt := 0x40, hi := 0x200, at_ := some .period },
  { name := .pgAlertLevel, idx := 0x8010, sub := 5, typ := .u16, acc := .rws, dflt := 0x80, hi := 0x200, at_ := some .period },
  { name := .pgAlertChatter, idx := 0x8010, sub := 6, typ := .u16, acc := .rws, dflt := 0x40, lo := 4, hi := 0x3E8, at_ := some .period },
  { name := .pgB, idx := 0x8010, sub := 7, typ := .u16, acc := .prv, dflt := 0x200, hi := 0xFFFF, ctr := 3 },
  { name := .pgSustFactor, idx := 0x8010, sub := 8, typ := .f32, acc := .prv, hi := 0xFFFFFFFF, ctr := 3 },
  { name := .pgOpSelect, idx := 0x8010, sub := 9, typ := .u8, acc := .aw, hi := 0x3, cls := 1 },
  { name := .pgOpActive, idx := 0x8010, sub := 10, typ := .u8, acc := .ro, hi := 0xFF },
  { name := .pgPowerW, idx := 0x8010, sub := 11, typ := .f32, acc := .prv, hi := 0xFFFFFFFF, ctr := 3 },
  { name := .pgOpFreq, idx := 0x8011, sub := 1, len := 4, typ := .u64, acc := .rws, hi := 0xFFFFFFFFFFFFFFFF, res := 0xFFFF000000000000, at_ := some .period },
  { name := .pgHoldPeriods, idx := 0x8020, sub := 1, typ := .u64, acc := .prv, hi := 0xFFFFFFFFFFFFFFFF, ctr := 3 },
  { name := .pgCalFails, idx := 0x8020, sub := 2, typ := .u32, acc := .prv, hi := 0xFFFFFFFF, ctr := 3 },
  { name := .pgCalRecoveries, idx := 0x8020, sub := 3, typ := .u32, acc := .prv, hi := 0xFFFFFFFF, ctr := 3 },
  { name := .pgLentLevels, idx := 0x8020, sub := 4, typ := .u64, acc := .prv, hi := 0xFFFFFFFFFFFFFFFF, ctr := 3 },
  { name := .pgAlertPeriods, idx := 0x8020, sub := 5, typ := .u64, acc := .prv, hi := 0xFFFFFFFFFFFFFFFF, ctr := 3 },
  { name := .pgLimitedPeriods, idx := 0x8021, sub := 1, len := 4, typ := .u64, acc := .prv, hi := 0xFFFFFFFFFFFFFFFF, ctr := 3 },
  { name := .ckPresent, idx := 0x8F00, sub := 1, typ := .u64, acc := .ro, hi := 0xFFFFFFFFFFFFFFFF },
  { name := .ckLossEvents, idx := 0x8F00, sub := 2, typ := .u32, acc := .prv, hi := 0xFFFFFFFF, ctr := 3 },
  { name := .rstFiltered, idx := 0x8F00, sub := 3, typ := .u32, acc := .ro, hi := 0xFFFFFFFF },
  { name := .alertFiltered, idx := 0x8F00, sub := 4, typ := .u32, acc := .prv, hi := 0xFFFFFFFF, ctr := 3 },
  { name := .rcFiltered, idx := 0x8F00, sub := 5, typ := .u32, acc := .prv, hi := 0xFFFFFFFF, ctr := 3 }]

/-- Entries of indices 0x9000 to 0x9FFF. -/
def entriesSecurity : List Entry := [
  { name := .keySelect, idx := 0x9000, sub := 1, typ := .u8, acc := .rw, dflt := 0x1, lo := 1, hi := 0xF, selector := true },
  { name := .keyWrapped, idx := 0x9000, sub := 2, typ := (.bytes 24), acc := .aw, hi := 0x0, cls := 2, selected := true, noRead := true },
  { name := .keyPerm, idx := 0x9000, sub := 3, typ := .u16, acc := .aw, hi := 0xFFFF, res := 0xFF00, cls := 2, selected := true },
  { name := .keyState, idx := 0x9000, sub := 4, typ := .u8, acc := .ro, hi := 0xFF, selected := true },
  { name := .keyNextWrapped, idx := 0x9000, sub := 5, typ := (.bytes 24), acc := .aw, hi := 0x0, cls := 2, selected := true, noRead := true },
  { name := .keyRotateAt, idx := 0x9000, sub := 6, typ := .u64, acc := .aw, hi := 0xFFFFFFFFFFFFFFFF, cls := 2, selected := true },
  { name := .keyKcv, idx := 0x9000, sub := 7, typ := .u32, acc := .ro, hi := 0xFFFFFFFF, selected := true },
  { name := .keyZeroise, idx := 0x9000, sub := 8, typ := .u8, acc := .aw, lo := 1, hi := 0x1, cls := 2, selected := true },
  { name := .authFailures, idx := 0x9010, sub := 1, typ := .u32, acc := .prv, hi := 0xFFFFFFFF, ctr := 3 },
  { name := .authReplays, idx := 0x9010, sub := 2, typ := .u32, acc := .prv, hi := 0xFFFFFFFF, ctr := 3 },
  { name := .authPairsUsed, idx := 0x9010, sub := 3, typ := .u16, acc := .prv, hi := 0xFFFF, ctr := 3 },
  { name := .hpSelect, idx := 0x9100, sub := 1, typ := .u16, acc := .rw, hi := 0x3FF, selector := true },
  { name := .hpBase, idx := 0x9100, sub := 2, typ := .u64, acc := .aw, hi := 0xFFFFFFFFFFFFFFFF, cls := 0, selected := true },
  { name := .hpSize, idx := 0x9100, sub := 3, typ := .u64, acc := .aw, hi := 0xFFFFFFFFFFFFFFFF, cls := 0, selected := true },
  { name := .hpSource, idx := 0x9100, sub := 4, typ := .u64, acc := .aw, hi := 0xFFFFFFFFFFFFFFFF, res := 0xFFFEF000, cls := 0, selected := true },
  { name := .hpRights, idx := 0x9100, sub := 5, typ := .u64, acc := .aw, hi := 0xFFFFFFFFFFFFFFFF, res := 0xFFFFFFFFE0000040, cls := 0, selected := true },
  { name := .hpCmd, idx := 0x9100, sub := 6, typ := .u8, acc := .aw, lo := 1, hi := 0x2, cls := 0, selected := true },
  { name := .hpPassState, idx := 0x9100, sub := 7, typ := .u8, acc := .ro, hi := 0xFF, selected := true },
  { name := .hpEpoch, idx := 0x9100, sub := 8, typ := .u8, acc := .ro, hi := 0xFF, selected := true },
  { name := .hpInflight, idx := 0x9100, sub := 9, typ := .u32, acc := .ro, hi := 0xFFFFFFFF, selected := true },
  { name := .hpArrivals, idx := 0x9100, sub := 10, typ := .u64, acc := .prv, hi := 0xFFFFFFFFFFFFFFFF, ctr := 3, selected := true },
  { name := .rwtSelect, idx := 0x9140, sub := 1, typ := .u8, acc := .rw, hi := 0xFF, selector := true },
  { name := .rwtTargetBase, idx := 0x9140, sub := 2, typ := .u64, acc := .aw, hi := 0xFFFFFFFFFFFFFFFF, mul := 4096, cls := 0, selected := true },
  { name := .rwtSize, idx := 0x9140, sub := 3, typ := .u64, acc := .aw, hi := 0xFFFFFFFFFFFFFFFF, mul := 4096, cls := 0, selected := true },
  { name := .rwtAttr, idx := 0x9140, sub := 4, typ := .u64, acc := .aw, hi := 0xFFFFFFFFFFFFFFFF, res := 0xFFFFFFFFC000FF00, cls := 0, selected := true },
  { name := .rwtHostOff, idx := 0x9140, sub := 5, typ := .u64, acc := .aw, hi := 0xFFFFFFFFFFFFFFFF, mul := 4096, cls := 0, selected := true },
  { name := .hpRefusals, idx := 0x9180, sub := 1, typ := .u64, acc := .prv, hi := 0xFFFFFFFFFFFFFFFF, ctr := 3 },
  { name := .hpLog, idx := 0x9181, sub := 1, len := 64, typ := (.bytes 32), acc := .prv, hi := 0x0, ctr := 3 },
  { name := .rmoTimeout, idx := 0x91C0, sub := 1, typ := .u32, acc := .rw, dflt := 0x3E8, lo := 10, hi := 0xF4240 },
  { name := .hpReopenMin, idx := 0x91C0, sub := 2, typ := .u32, acc := .rw, dflt := 0x64, lo := 10, hi := 0x186A0 }]

/-- Entries of indices 0xA000 to 0xFFFF. -/
def entriesDebug : List Entry := [
  { name := .aggRuns, idx := 0xA000, sub := 1, typ := .u32, acc := .prv, hi := 0xFFFFFFFF, ctr := 3 },
  { name := .aggLastUs, idx := 0xA000, sub := 2, typ := .u64, acc := .prv, hi := 0xFFFFFFFFFFFFFFFF, ctr := 3 },
  { name := .blkStallCycles, idx := 0xA010, sub := 1, len := 49, typ := .u64, acc := .prv, hi := 0xFFFFFFFFFFFFFFFF, ctr := 3 },
  { name := .blkBusyCycles, idx := 0xA011, sub := 1, len := 7, typ := .u64, acc := .prv, hi := 0xFFFFFFFFFFFFFFFF, ctr := 3 },
  { name := .blkLessons, idx := 0xA012, sub := 1, typ := .u64, acc := .prv, hi := 0xFFFFFFFFFFFFFFFF, ctr := 3 },
  { name := .blkTokens, idx := 0xA012, sub := 2, typ := .u64, acc := .prv, hi := 0xFFFFFFFFFFFFFFFF, ctr := 3 },
  { name := .formAggBlocks, idx := 0xA040, sub := 1, typ := .u16, acc := .prv, hi := 0xFFFF, ctr := 4 },
  { name := .formLessons, idx := 0xA040, sub := 2, typ := .u64, acc := .prv, hi := 0xFFFFFFFFFFFFFFFF, ctr := 4 },
  { name := .formTokens, idx := 0xA040, sub := 3, typ := .u64, acc := .prv, hi := 0xFFFFFFFFFFFFFFFF, ctr := 4 },
  { name := .formStallCycles, idx := 0xA041, sub := 1, len := 7, typ := .u64, acc := .prv, hi := 0xFFFFFFFFFFFFFFFF, ctr := 4 },
  { name := .tntSelect, idx := 0xA100, sub := 1, typ := .u16, acc := .rw, hi := 0xFFF, selector := true },
  { name := .tntTokens, idx := 0xA100, sub := 2, typ := .u64, acc := .ro, hi := 0xFFFFFFFFFFFFFFFF, ctr := 2, selected := true },
  { name := .tntSteps, idx := 0xA100, sub := 3, typ := .u64, acc := .ro, hi := 0xFFFFFFFFFFFFFFFF, ctr := 2, selected := true },
  { name := .tntLessons, idx := 0xA100, sub := 4, typ := .u64, acc := .ro, hi := 0xFFFFFFFFFFFFFFFF, ctr := 2, selected := true },
  { name := .tntHbmBytes, idx := 0xA100, sub := 5, typ := .u64, acc := .ro, hi := 0xFFFFFFFFFFFFFFFF, ctr := 2, selected := true },
  { name := .tntRefusals, idx := 0xA100, sub := 6, typ := .u32, acc := .ro, hi := 0xFFFFFFFF, ctr := 2, selected := true },
  { name := .tntFramesPeak, idx := 0xA100, sub := 7, typ := .u32, acc := .ro, hi := 0xFFFFFFFF, ctr := 2, selected := true },
  { name := .tntStallCycles, idx := 0xA101, sub := 1, len := 7, typ := .u64, acc := .ro, hi := 0xFFFFFFFFFFFFFFFF, ctr := 2, selected := true },
  { name := .reportBase, idx := 0xB010, sub := 1, typ := .u64, acc := .rws, hi := 0xFFFFFFFFFFFFFFFF, mul := 4096 },
  { name := .reportCmd, idx := 0xB010, sub := 2, typ := .u8, acc := .wo, lo := 1, hi := 0x1 },
  { name := .reportCount, idx := 0xB010, sub := 3, typ := .u32, acc := .ro, hi := 0xFFFFFFFF },
  { name := .reportTrigger, idx := 0xB010, sub := 4, typ := .u16, acc := .ro, hi := 0xFFFF },
  { name := .reportSize, idx := 0xB010, sub := 5, typ := .u32, acc := .ro, hi := 0xFFFFFFFF },
  { name := .syncSet, idx := 0xB020, sub := 1, typ := .u64, acc := .aw, hi := 0xFFFFFFFFFFFFFFFF, res := 0xFFFF00, cls := 5 },
  { name := .syncSets, idx := 0xB020, sub := 2, typ := .u32, acc := .prv, hi := 0xFFFFFFFF, ctr := 3 },
  { name := .wfgBase, idx := 0xB030, sub := 1, typ := .u64, acc := .rws, hi := 0xFFFFFFFFFFFFFFFF, mul := 4096 },
  { name := .wfgSize, idx := 0xB030, sub := 2, typ := .u64, acc := .rws, hi := 0xFFFFFFFFFFFFFFFF },
  { name := .wfgCmd, idx := 0xB030, sub := 3, typ := .u8, acc := .aw, lo := 1, hi := 0x2, cls := 5 },
  { name := .wfgStatus, idx := 0xB030, sub := 4, typ := .u16, acc := .ro, hi := 0xFFFF },
  { name := .wfgCount, idx := 0xB030, sub := 5, typ := .u32, acc := .ro, hi := 0xFFFFFFFF },
  { name := .traceBase, idx := 0xB040, sub := 1, typ := .u64, acc := .rws, hi := 0xFFFFFFFFFFFFFFFF },
  { name := .traceSize, idx := 0xB040, sub := 2, typ := .u64, acc := .rws, hi := 0xFFFFFFFFFFFFFFFF },
  { name := .traceCtl, idx := 0xB040, sub := 3, typ := .u8, acc := .aw, hi := 0xFF, res := 0xFC, cls := 5 },
  { name := .traceCores, idx := 0xB040, sub := 4, typ := .u32, acc := .rw, dflt := 0xFFFFFFFF, hi := 0xFFFFFFFF, at_ := some .period },
  { name := .traceTypes, idx := 0xB040, sub := 5, typ := .u16, acc := .rw, dflt := 0x1FE, hi := 0xFFFF, at_ := some .period },
  { name := .traceTenant, idx := 0xB040, sub := 6, typ := .u16, acc := .rw, dflt := 0x1000, hi := 0xFFFF, res := 0xE000, at_ := some .period },
  { name := .traceStallMin, idx := 0xB040, sub := 7, typ := .u16, acc := .rw, dflt := 0x400, lo := 16, hi := 0xFFFF, at_ := some .period },
  { name := .traceTrigger, idx := 0xB040, sub := 8, typ := .u16, acc := .rw, hi := 0xFFFF, at_ := some .period },
  { name := .tracePost, idx := 0xB040, sub := 9, typ := .u32, acc := .rw, dflt := 0x1000, hi := 0xFFFFFFFF, at_ := some .period },
  { name := .traceState, idx := 0xB040, sub := 10, typ := .u8, acc := .ro, hi := 0xFF },
  { name := .traceRecords, idx := 0xB040, sub := 11, typ := .u64, acc := .prv, hi := 0xFFFFFFFFFFFFFFFF, ctr := 3 },
  { name := .traceDrops, idx := 0xB040, sub := 12, typ := .u32, acc := .prv, hi := 0xFFFFFFFF, ctr := 3 },
  { name := .ovlCmd, idx := 0xC000, sub := 1, typ := .u32, acc := .aw, hi := 0xFFFFFFFF, res := 0xFF000000, cls := 4 },
  { name := .ovlLoadAddr, idx := 0xC000, sub := 2, typ := .u64, acc := .aw, hi := 0xFFFFFFFFFFFFFFFF, cls := 4 },
  { name := .ovlModeActive, idx := 0xC000, sub := 3, typ := .u16, acc := .ro, dflt := 0xFFFF, hi := 0xFFFF },
  { name := .ovlModelsActive, idx := 0xC000, sub := 4, typ := .u16, acc := .ro, hi := 0xFFFF },
  { name := .ovlStatus, idx := 0xC000, sub := 5, typ := .u16, acc := .ro, hi := 0xFFFF },
  { name := .ovlPending, idx := 0xC000, sub := 6, typ := .u8, acc := .ro, hi := 0xFF },
  { name := .ovlLoaded, idx := 0xC000, sub := 7, typ := .u16, acc := .ro, hi := 0xFFFF },
  { name := .ovlSelect, idx := 0xC001, sub := 1, typ := .u16, acc := .rw, hi := 0xFFFF, selector := true },
  { name := .ovlState, idx := 0xC001, sub := 2, typ := .u8, acc := .ro, hi := 0xFF, selected := true },
  { name := .ovlVersion, idx := 0xC001, sub := 3, typ := .u32, acc := .ro, hi := 0xFFFFFFFF, selected := true },
  { name := .baseAddr, idx := 0xC010, sub := 1, typ := .u64, acc := .aw, hi := 0xFFFFFFFFFFFFFFFF, cls := 4 },
  { name := .baseCmd, idx := 0xC010, sub := 2, typ := .u8, acc := .aw, lo := 1, hi := 0x2, cls := 4 },
  { name := .baseStatus, idx := 0xC010, sub := 3, typ := .u16, acc := .ro, hi := 0xFFFF },
  { name := .baseLength, idx := 0xC010, sub := 4, typ := .u32, acc := .ro, hi := 0xFFFFFFFF }]

/-- Every entry of the dictionary. -/
def entryTable : List Entry :=
  entriesIdentity ++ entriesConfig ++ entriesCluster ++ entriesCoreA ++ entriesCoreB ++ entriesLinks ++ entriesSched ++ entriesPower ++ entriesSecurity ++ entriesDebug

/-- The key of an entry: index × 256 + sub-index. -/
def ekey (index sub : Nat) : Nat := index * 256 + sub

/-- Index and sub-index of an entry's instance 0. -/
def Name.loc : Name → Nat × Nat
  | .idVendor => (0x1000, 1)
  | .idPart => (0x1000, 2)
  | .idStepping => (0x1000, 3)
  | .dictVersion => (0x1000, 4)
  | .idFwVersion => (0x1000, 5)
  | .idCoreEnableMask => (0x1010, 1)
  | .idIdentity => (0x1010, 2)
  | .idNode => (0x1010, 3)
  | .idDeviceKcv => (0x1010, 4)
  | .idBootNonce => (0x1010, 5)
  | .idUptimeUs => (0x1010, 6)
  | .i3cStaticAddr => (0x1100, 1)
  | .i3cPid => (0x1100, 2)
  | .i3cDynAddr => (0x1100, 3)
  | .qmfnFramesIn => (0x1100, 4)
  | .qmfnFrameErrors => (0x1100, 5)
  | .qmfnRespLost => (0x1100, 6)
  | .qmfnFwdTimeout => (0x1100, 7)
  | .evtNextSeq => (0x1200, 1)
  | .evtDropped => (0x1200, 2)
  | .hpState => (0x1300, 1)
  | .hpUrCount => (0x1300, 2)
  | .hpPoisonIn => (0x1300, 3)
  | .fnModeAdmission => (0x2100, 1)
  | .fnModeBatch => (0x2100, 2)
  | .fnModeEviction => (0x2100, 3)
  | .fnModeChartWalk => (0x2100, 4)
  | .fnModeChartEdit => (0x2100, 5)
  | .fnModeCompaction => (0x2100, 6)
  | .fnModePageSelect => (0x2100, 7)
  | .fnModeEscalation => (0x2100, 8)
  | .fnModeWaitGraph => (0x2100, 9)
  | .fnModeKeyRotation => (0x2100, 10)
  | .fnModeCounterAgg => (0x2100, 11)
  | .fnAssistTimeout => (0x2101, 1)
  | .fnHostRing => (0x2101, 2)
  | .fnHostArg => (0x2101, 3)
  | .fnHostArgSize => (0x2101, 4)
  | .fnAnswerBase => (0x2101, 5)
  | .fnAnswerSize => (0x2101, 6)
  | .fnAssistAnswer => (0x2101, 7)
  | .rcMask => (0x2200, 1)
  | .rcScope => (0x2200, 2)
  | .rcTimeout => (0x2200, 3)
  | .rcGen => (0x2200, 4)
  | .rcArrived => (0x2200, 5)
  | .rcCcArrive => (0x2200, 6)
  | .rcSpurious => (0x2200, 7)
  | .rcTimeouts => (0x2200, 8)
  | .rcLate => (0x2200, 9)
  | .ccEpoch => (0x2300, 1)
  | .ccWdtTimeout => (0x2300, 2)
  | .ccWdtExpiries => (0x2300, 3)
  | .ccL2Ce => (0x2300, 4)
  | .ccL2Ue => (0x2300, 5)
  | .fabEccCe => (0x2300, 6)
  | .fabEccUe => (0x2300, 7)
  | .rstCmd => (0x2310, 1)
  | .rstStatus => (0x2310, 2)
  | .rstQuiesceTimeout => (0x2310, 3)
  | .rstPhase => (0x2310, 4)
  | .rstReqCause => (0x2310, 5)
  | .fwImageAddr => (0x2320, 1)
  | .fwCmd => (0x2320, 2)
  | .fwStatus => (0x2320, 3)
  | .fwStagedVersion => (0x2320, 4)
  | .commonsPinWays => (0x3020, 1)
  | .commonsEpoch => (0x3020, 2)
  | .commonsInvalidate => (0x3020, 3)
  | .commonsHits => (0x3020, 4)
  | .commonsMisses => (0x3020, 5)
  | .commonsEccRefills => (0x3020, 6)
  | .mcastRequests => (0x3020, 7)
  | .ringBaseRow => (0x3030, 1)
  | .ringSliceRows => (0x3030, 2)
  | .ringLayers => (0x3030, 3)
  | .ringPasses => (0x3030, 4)
  | .ringCrcFaults => (0x3030, 5)
  | .clusterEpoch => (0x3040, 1)
  | .coreSatCount => (0x4018, 1)
  | .coreFmtErrCount => (0x4019, 1)
  | .sCksumEnable => (0x401A, 1)
  | .sCksumTol => (0x401A, 2)
  | .sCksumFaults => (0x401A, 3)
  | .sBallastCycles => (0x401A, 4)
  | .sSpillSwaps => (0x401A, 5)
  | .sTiles => (0x401A, 6)
  | .vCksumEnable => (0x401B, 1)
  | .vCksumTol => (0x401B, 2)
  | .vCksumFaults => (0x401B, 3)
  | .vBallastCycles => (0x401B, 4)
  | .vSpillSwaps => (0x401B, 5)
  | .vTiles => (0x401B, 6)
  | .sfuLoadRow => (0x401C, 1)
  | .sfuLoadCmd => (0x401C, 2)
  | .sfuLoadStatus => (0x401C, 3)
  | .sfuActiveBank => (0x401C, 4)
  | .sfuTable0Crc => (0x401C, 5)
  | .sfuTable1Crc => (0x401C, 6)
  | .sfuLoadWaits => (0x401C, 7)
  | .sfuResults => (0x401C, 8)
  | .ttSlotMap => (0x401D, 1)
  | .ttHazardMode => (0x401D, 2)
  | .ttHazards => (0x401D, 3)
  | .sbWaitCycles => (0x401D, 4)
  | .spScrubInterval => (0x401E, 1)
  | .spScrubPasses => (0x401E, 2)
  | .spEccCe => (0x401E, 3)
  | .spEccUe => (0x401E, 4)
  | .spWeightLines => (0x401E, 5)
  | .spWeightRefetch => (0x401E, 6)
  | .spWeightRefetchFail => (0x401E, 7)
  | .stallCycles => (0x401F, 1)
  | .seStreamsBound => (0x4020, 1)
  | .seProgramLoads => (0x4020, 2)
  | .seRearms => (0x4020, 3)
  | .seLinesIn => (0x4020, 4)
  | .seLinesOut => (0x4020, 5)
  | .sePoisonLines => (0x4020, 6)
  | .attPages => (0x4021, 1)
  | .attRescales => (0x4021, 2)
  | .attEmptyRows => (0x4021, 3)
  | .attImpUpdates => (0x4021, 4)
  | .attImpDrops => (0x4021, 5)
  | .attPagesSkipped => (0x4021, 6)
  | .attSelectRuns => (0x4021, 7)
  | .bwdLessons => (0x4022, 1)
  | .bwdDerivTable => (0x4022, 2)
  | .bwdDerivFused => (0x4022, 3)
  | .bwdUpdates => (0x4022, 4)
  | .ctxTenant => (0x4023, 1)
  | .ctxCmplCtr => (0x4024, 1)
  | .ctxCmdCount => (0x4025, 1)
  | .ctxCmdDone => (0x4026, 1)
  | .ctxSaveRow => (0x4027, 1)
  | .ctxState => (0x4028, 1)
  | .ctxSwitchDelay => (0x4028, 2)
  | .recessDelay => (0x4028, 3)
  | .ctxSwitches => (0x4028, 4)
  | .recessEntries => (0x4028, 5)
  | .recessCycles => (0x4028, 6)
  | .syncUnderflows => (0x4028, 7)
  | .syncOverflows => (0x4028, 8)
  | .flagWaits => (0x4028, 9)
  | .suQueueCycles => (0x4028, 10)
  | .pgCoreAllot => (0x4029, 1)
  | .pgCoreCappedCycles => (0x4029, 2)
  | .coreEpoch => (0x402A, 1)
  | .ctxCtl => (0x402B, 1)
  | .coreCycles => (0x402C, 1)
  | .coreLessons => (0x402C, 2)
  | .engBusyCycles => (0x402D, 1)
  | .mcState => (0x6000, 1)
  | .mcStackTemp => (0x6000, 2)
  | .mcOdeccCorrected => (0x6000, 3)
  | .mcOdeccUncorr => (0x6000, 4)
  | .mcPathCe => (0x6000, 5)
  | .mcPoisonLines => (0x6000, 6)
  | .mcRfmIssued => (0x6000, 7)
  | .mcPhyErrors => (0x6000, 8)
  | .mcPoisonLostAddr => (0x6000, 9)
  | .mcDataRate => (0x6600, 1)
  | .mcRateActive => (0x6600, 2)
  | .mcRefreshMode => (0x6600, 3)
  | .mcUpMask => (0x6600, 4)
  | .formLevels => (0x6800, 1)
  | .formLossTimeout => (0x6800, 2)
  | .enumCmd => (0x6800, 3)
  | .enumStatus => (0x6800, 4)
  | .enumBlocks => (0x6800, 5)
  | .formSeqLost => (0x6800, 6)
  | .linkRole => (0x6801, 1)
  | .formHead => (0x6802, 1)
  | .formRange => (0x6803, 1)
  | .routeSelect => (0x6810, 1)
  | .routeEntry => (0x6810, 2)
  | .linkState => (0x6840, 1)
  | .linkPeerId => (0x6840, 2)
  | .linkPeerPort => (0x6840, 3)
  | .linkRetryMax => (0x6840, 4)
  | .linkCrcErrors => (0x6840, 5)
  | .linkReplays => (0x6840, 6)
  | .linkFlitsTx => (0x6840, 7)
  | .linkFlitsRx => (0x6840, 8)
  | .linkFlitsLost => (0x6840, 9)
  | .linkDowns => (0x6840, 10)
  | .schedDescBase => (0x7000, 1)
  | .schedStep => (0x7000, 2)
  | .schedTokenBudget => (0x7000, 3)
  | .schedMaxBatch => (0x7000, 4)
  | .schedPrefillChunk => (0x7000, 5)
  | .schedPrefillMin => (0x7000, 6)
  | .schedPrefillShare => (0x7000, 7)
  | .schedAgeLimit => (0x7000, 8)
  | .schedAdmitMax => (0x7000, 9)
  | .schedMaxDrafts => (0x7000, 10)
  | .schedEscDefault => (0x7000, 11)
  | .schedSeqActive => (0x7000, 12)
  | .schedQueued => (0x7000, 13)
  | .schedGroupRows => (0x7000, 14)
  | .repBase => (0x7040, 1)
  | .repCount => (0x7040, 2)
  | .tenantSelect => (0x7080, 1)
  | .tenantClass => (0x7080, 2)
  | .tenantMaxSeq => (0x7080, 3)
  | .tenantTokenShare => (0x7080, 4)
  | .tenantFrameQuota => (0x7080, 5)
  | .tenantSeqCount => (0x7080, 6)
  | .tenantFramesHeld => (0x7080, 7)
  | .chartPartCount => (0x7800, 1)
  | .chartNodeBase => (0x7800, 2)
  | .chartNodeSize => (0x7800, 3)
  | .chartNodesFree => (0x7800, 4)
  | .chartEditQueueFree => (0x7800, 5)
  | .seqSelect => (0x7810, 1)
  | .seqPageBudget => (0x7810, 2)
  | .seqEpoch => (0x7810, 3)
  | .seqCommittedLen => (0x7810, 4)
  | .seqDraftLen => (0x7810, 5)
  | .seqChartDepth => (0x7810, 6)
  | .seqPrivateFrames => (0x7810, 7)
  | .seqNextPos => (0x7810, 8)
  | .partBase => (0x7820, 1)
  | .partSize => (0x7820, 2)
  | .partFrameLog2 => (0x7820, 3)
  | .partFramesFree => (0x7820, 4)
  | .evictSink => (0x7840, 1)
  | .evictWindow => (0x7840, 2)
  | .evictThresholdMin => (0x7840, 3)
  | .evictMargin => (0x7840, 4)
  | .evictDecay => (0x7840, 5)
  | .evictJobsMax => (0x7840, 6)
  | .pgIlim => (0x8000, 1)
  | .pgStatic => (0x8001, 1)
  | .pgCoef => (0x8002, 1)
  | .pgKappa => (0x8003, 1)
  | .pgRailState => (0x8004, 1)
  | .pgIGov => (0x8005, 1)
  | .pgIEst => (0x8006, 1)
  | .pgIMeas => (0x8007, 1)
  | .pgDeratePct => (0x8010, 1)
  | .pgDisagreePct => (0x8010, 2)
  | .pgPwrLimit => (0x8010, 3)
  | .pgBMin => (0x8010, 4)
  | .pgAlertLevel => (0x8010, 5)
  | .pgAlertChatter => (0x8010, 6)
  | .pgB => (0x8010, 7)
  | .pgSustFactor => (0x8010, 8)
  | .pgOpSelect => (0x8010, 9)
  | .pgOpActive => (0x8010, 10)
  | .pgPowerW => (0x8010, 11)
  | .pgOpFreq => (0x8011, 1)
  | .pgHoldPeriods => (0x8020, 1)
  | .pgCalFails => (0x8020, 2)
  | .pgCalRecoveries => (0x8020, 3)
  | .pgLentLevels => (0x8020, 4)
  | .pgAlertPeriods => (0x8020, 5)
  | .pgLimitedPeriods => (0x8021, 1)
  | .ckPresent => (0x8F00, 1)
  | .ckLossEvents => (0x8F00, 2)
  | .rstFiltered => (0x8F00, 3)
  | .alertFiltered => (0x8F00, 4)
  | .rcFiltered => (0x8F00, 5)
  | .keySelect => (0x9000, 1)
  | .keyWrapped => (0x9000, 2)
  | .keyPerm => (0x9000, 3)
  | .keyState => (0x9000, 4)
  | .keyNextWrapped => (0x9000, 5)
  | .keyRotateAt => (0x9000, 6)
  | .keyKcv => (0x9000, 7)
  | .keyZeroise => (0x9000, 8)
  | .authFailures => (0x9010, 1)
  | .authReplays => (0x9010, 2)
  | .authPairsUsed => (0x9010, 3)
  | .hpSelect => (0x9100, 1)
  | .hpBase => (0x9100, 2)
  | .hpSize => (0x9100, 3)
  | .hpSource => (0x9100, 4)
  | .hpRights => (0x9100, 5)
  | .hpCmd => (0x9100, 6)
  | .hpPassState => (0x9100, 7)
  | .hpEpoch => (0x9100, 8)
  | .hpInflight => (0x9100, 9)
  | .hpArrivals => (0x9100, 10)
  | .rwtSelect => (0x9140, 1)
  | .rwtTargetBase => (0x9140, 2)
  | .rwtSize => (0x9140, 3)
  | .rwtAttr => (0x9140, 4)
  | .rwtHostOff => (0x9140, 5)
  | .hpRefusals => (0x9180, 1)
  | .hpLog => (0x9181, 1)
  | .rmoTimeout => (0x91C0, 1)
  | .hpReopenMin => (0x91C0, 2)
  | .aggRuns => (0xA000, 1)
  | .aggLastUs => (0xA000, 2)
  | .blkStallCycles => (0xA010, 1)
  | .blkBusyCycles => (0xA011, 1)
  | .blkLessons => (0xA012, 1)
  | .blkTokens => (0xA012, 2)
  | .formAggBlocks => (0xA040, 1)
  | .formLessons => (0xA040, 2)
  | .formTokens => (0xA040, 3)
  | .formStallCycles => (0xA041, 1)
  | .tntSelect => (0xA100, 1)
  | .tntTokens => (0xA100, 2)
  | .tntSteps => (0xA100, 3)
  | .tntLessons => (0xA100, 4)
  | .tntHbmBytes => (0xA100, 5)
  | .tntRefusals => (0xA100, 6)
  | .tntFramesPeak => (0xA100, 7)
  | .tntStallCycles => (0xA101, 1)
  | .reportBase => (0xB010, 1)
  | .reportCmd => (0xB010, 2)
  | .reportCount => (0xB010, 3)
  | .reportTrigger => (0xB010, 4)
  | .reportSize => (0xB010, 5)
  | .syncSet => (0xB020, 1)
  | .syncSets => (0xB020, 2)
  | .wfgBase => (0xB030, 1)
  | .wfgSize => (0xB030, 2)
  | .wfgCmd => (0xB030, 3)
  | .wfgStatus => (0xB030, 4)
  | .wfgCount => (0xB030, 5)
  | .traceBase => (0xB040, 1)
  | .traceSize => (0xB040, 2)
  | .traceCtl => (0xB040, 3)
  | .traceCores => (0xB040, 4)
  | .traceTypes => (0xB040, 5)
  | .traceTenant => (0xB040, 6)
  | .traceStallMin => (0xB040, 7)
  | .traceTrigger => (0xB040, 8)
  | .tracePost => (0xB040, 9)
  | .traceState => (0xB040, 10)
  | .traceRecords => (0xB040, 11)
  | .traceDrops => (0xB040, 12)
  | .ovlCmd => (0xC000, 1)
  | .ovlLoadAddr => (0xC000, 2)
  | .ovlModeActive => (0xC000, 3)
  | .ovlModelsActive => (0xC000, 4)
  | .ovlStatus => (0xC000, 5)
  | .ovlPending => (0xC000, 6)
  | .ovlLoaded => (0xC000, 7)
  | .ovlSelect => (0xC001, 1)
  | .ovlState => (0xC001, 2)
  | .ovlVersion => (0xC001, 3)
  | .baseAddr => (0xC010, 1)
  | .baseCmd => (0xC010, 2)
  | .baseStatus => (0xC010, 3)
  | .baseLength => (0xC010, 4)

/-- Index stride between the instances of an entry's unit. -/
def Name.stride : Name → Nat
  | .commonsPinWays => 0x100
  | .commonsEpoch => 0x100
  | .commonsInvalidate => 0x100
  | .commonsHits => 0x100
  | .commonsMisses => 0x100
  | .commonsEccRefills => 0x100
  | .mcastRequests => 0x100
  | .ringBaseRow => 0x100
  | .ringSliceRows => 0x100
  | .ringLayers => 0x100
  | .ringPasses => 0x100
  | .ringCrcFaults => 0x100
  | .clusterEpoch => 0x100
  | .coreSatCount => 0x40
  | .coreFmtErrCount => 0x40
  | .sCksumEnable => 0x40
  | .sCksumTol => 0x40
  | .sCksumFaults => 0x40
  | .sBallastCycles => 0x40
  | .sSpillSwaps => 0x40
  | .sTiles => 0x40
  | .vCksumEnable => 0x40
  | .vCksumTol => 0x40
  | .vCksumFaults => 0x40
  | .vBallastCycles => 0x40
  | .vSpillSwaps => 0x40
  | .vTiles => 0x40
  | .sfuLoadRow => 0x40
  | .sfuLoadCmd => 0x40
  | .sfuLoadStatus => 0x40
  | .sfuActiveBank => 0x40
  | .sfuTable0Crc => 0x40
  | .sfuTable1Crc => 0x40
  | .sfuLoadWaits => 0x40
  | .sfuResults => 0x40
  | .ttSlotMap => 0x40
  | .ttHazardMode => 0x40
  | .ttHazards => 0x40
  | .sbWaitCycles => 0x40
  | .spScrubInterval => 0x40
  | .spScrubPasses => 0x40
  | .spEccCe => 0x40
  | .spEccUe => 0x40
  | .spWeightLines => 0x40
  | .spWeightRefetch => 0x40
  | .spWeightRefetchFail => 0x40
  | .stallCycles => 0x40
  | .seStreamsBound => 0x40
  | .seProgramLoads => 0x40
  | .seRearms => 0x40
  | .seLinesIn => 0x40
  | .seLinesOut => 0x40
  | .sePoisonLines => 0x40
  | .attPages => 0x40
  | .attRescales => 0x40
  | .attEmptyRows => 0x40
  | .attImpUpdates => 0x40
  | .attImpDrops => 0x40
  | .attPagesSkipped => 0x40
  | .attSelectRuns => 0x40
  | .bwdLessons => 0x40
  | .bwdDerivTable => 0x40
  | .bwdDerivFused => 0x40
  | .bwdUpdates => 0x40
  | .ctxTenant => 0x40
  | .ctxCmplCtr => 0x40
  | .ctxCmdCount => 0x40
  | .ctxCmdDone => 0x40
  | .ctxSaveRow => 0x40
  | .ctxState => 0x40
  | .ctxSwitchDelay => 0x40
  | .recessDelay => 0x40
  | .ctxSwitches => 0x40
  | .recessEntries => 0x40
  | .recessCycles => 0x40
  | .syncUnderflows => 0x40
  | .syncOverflows => 0x40
  | .flagWaits => 0x40
  | .suQueueCycles => 0x40
  | .pgCoreAllot => 0x40
  | .pgCoreCappedCycles => 0x40
  | .coreEpoch => 0x40
  | .ctxCtl => 0x40
  | .coreCycles => 0x40
  | .coreLessons => 0x40
  | .engBusyCycles => 0x40
  | .mcState => 0x40
  | .mcStackTemp => 0x40
  | .mcOdeccCorrected => 0x40
  | .mcOdeccUncorr => 0x40
  | .mcPathCe => 0x40
  | .mcPoisonLines => 0x40
  | .mcRfmIssued => 0x40
  | .mcPhyErrors => 0x40
  | .mcPoisonLostAddr => 0x40
  | _ => 1

/-- The key of an entry for unit instance u and array position k. -/
def Name.key (n : Name) (u : Nat := 0) (k : Nat := 0) : Nat :=
  ekey (n.loc.1 + n.stride * u) (n.loc.2 + k)

/-- Whether an index is an instance of the entry's index. -/
def Entry.covers (e : Entry) (index : Nat) : Bool :=
  e.idx ≤ index && (index - e.idx) % e.stride == 0 && (index - e.idx) / e.stride < e.n

/-- The entry at an index and sub-index, with its unit instance and array position. -/
def findEntry (index sub : Nat) : Option (Entry × Nat × Nat) :=
  match entryTable.find? (fun e => e.covers index && e.sub ≤ sub && sub < e.sub + e.len) with
  | some e => some (e, (index - e.idx) / e.stride, sub - e.sub)
  | none => none

/-- The highest sub-index that an index uses, 0 where no entry has the index (R368). -/
def highestSub (index : Nat) : Nat :=
  entryTable.foldl (fun m e => if e.covers index then max m (e.sub + e.len - 1) else m) 0

/-- Defaults that differ along an array: LINK_ROLE (Table 14-7), PG_ILIM, PG_STATIC, PG_COEF and PG_OP_FREQ
(Tables 17-2, 17-4, 17-6); F32 values as binary32 words. -/
def arrayDefault (n : Name) (k : Nat) : Option Nat :=
  match n with
  | .linkRole => some (if k < 15 then 1 else 2)
  | .pgIlim => some ([1450, 900, 150, 200].getD k 0)
  | .pgStatic => some ([0x43160000, 0x43480000, 0x41C80000, 0x41A00000].getD k 0)
  | .pgCoef => some ([0x4019999A, 0x40400000, 0x40533333, 0x402CCCCD, 0x3D9FBE77, 0x3F07AE14, 0x3E9EB852, 0x3F1EB852, 0x40066666, 0x3E99999A, 0x40266666].getD k 0)
  | .pgOpFreq => some ([0x96005DC03AC, 0x83405140320, 0x64003E80258, 0x4B002EE012C].getD k 0)
  | _ => none

/-- An entry's default. -/
def Entry.default (e : Entry) (k : Nat) : Nat := (arrayDefault e.name k).getD e.dflt

/-- The default of the entry at a key. -/
def keyDefault (key : Nat) : Nat :=
  match findEntry (key / 256) (key % 256) with
  | some (e, _, k) => e.default k
  | none => 0

/-- Bytes of a value of the type; a string has no fixed size. -/
def EType.size : EType → Nat
  | .u8 => 1
  | .u16 => 2
  | .u32 => 4
  | .u64 => 8
  | .f32 => 4
  | .str => 0
  | .bytes n => n

/-- All-ones value of a counter of the type, where it stops (R461). -/
def EType.ones (t : EType) : Nat := 2 ^ (8 * t.size) - 1

end Sys2Proof.Machine
end

