-- ==== Sys2Proof/Machine/Ops.lean ====
section
/-!
DEFINITION. Shared operations on the state: units, dictionary values, counters, the address map, memory with its poison
marks and error code, events and trace.
-/

namespace Sys2Proof.Machine

open Sys2Proof

/-! ## Units -/

/-- Core c. -/
def State.core (s : State) (c : Nat) : Core := Map.get s.cores c { }

/-- Core c changed. -/
def State.updCore (s : State) (c : Nat) (f : Core → Core) : State :=
  { s with cores := Map.upd s.cores c { } f }

/-- Context x of core c. -/
def State.ctx (s : State) (c x : Nat) : Ctx := Map.get (s.core c).ctxs x { }

/-- Context x of core c changed. -/
def State.updCtx (s : State) (c x : Nat) (f : Ctx → Ctx) : State :=
  s.updCore c (fun k => { k with ctxs := Map.upd k.ctxs x { } f })

/-- Cluster k. -/
def State.cluster (s : State) (k : Nat) : Cluster := Map.get s.clusters k { }

/-- Cluster k changed. -/
def State.updCluster (s : State) (k : Nat) (f : Cluster → Cluster) : State :=
  { s with clusters := Map.upd s.clusters k { } f }

/-- Roll Call wire w. -/
def State.wire (s : State) (w : Nat) : Wire := Map.get s.wires w { }

/-- Wire w changed. -/
def State.updWire (s : State) (w : Nat) (f : Wire → Wire) : State :=
  { s with wires := Map.upd s.wires w { } f }

/-- Memory channel controller n. -/
def State.mcc (s : State) (n : Nat) : Mcc := Map.get s.sys.mccs n { }

/-- MCC n changed. -/
def State.updMcc (s : State) (n : Nat) (f : Mcc → Mcc) : State :=
  { s with sys := { s.sys with mccs := Map.upd s.sys.mccs n { } f } }

/-- Link port n. -/
def State.port (s : State) (n : Nat) : Port := Map.get s.ports n { }

/-- Link port n changed. -/
def State.updPort (s : State) (n : Nat) (f : Port → Port) : State :=
  { s with ports := Map.upd s.ports n { } f }

/-- Hall Pass n. -/
def State.pass (s : State) (n : Nat) : Pass := Map.get s.remote.passes n { }

/-- Hall Pass n changed. -/
def State.updPass (s : State) (n : Nat) (f : Pass → Pass) : State :=
  { s with remote := { s.remote with passes := Map.upd s.remote.passes n { } f } }

/-- Descriptor of sequence n. -/
def State.desc (s : State) (n : Nat) : Desc := Map.get s.charts.seqs n { }

/-- Descriptor of sequence n changed. -/
def State.updDesc (s : State) (n : Nat) (f : Desc → Desc) : State :=
  { s with charts := { s.charts with seqs := Map.upd s.charts.seqs n { } f } }

/-- A core that the fuse enables (R13). -/
def State.coreFused (s : State) (c : Nat) : Bool := c < 32 && s.fuses.coreMask.getLsbD c

/-- A core that exists for accesses: enabled by fuse and neither it nor its cluster gated (R13, R450). -/
def State.corePresent (s : State) (c : Nat) : Bool :=
  s.coreFused c && !(s.core c).gated && !(s.cluster (c / 8)).gated

/-- A cluster that exists: some core enabled, and not gated (R13, R450). -/
def State.clusterPresent (s : State) (k : Nat) : Bool :=
  (List.range 8).any (fun i => s.coreFused (8 * k + i)) && !(s.cluster k).gated

/-- The enabled cores in increasing number. -/
def State.presentCores (s : State) : List Nat := (List.range 32).filter s.corePresent

/-- An output at the ports.
DESIGN CHOICE (notes/assumptions/76.md). -/
def State.emit (s : State) (o : Output) : State := { s with outbox := s.outbox ++ [o] }

/-! ## Dictionary values and counters -/

/-- Effective value of an entry for unit u and array position k (R385). -/
def State.ent (s : State) (n : Name) (u : Nat := 0) (k : Nat := 0) : Nat :=
  match Map.get? s.dict.eff (n.key u k) with
  | some v => v
  | none => keyDefault (n.key u k)

/-- Effective value of an entry set. -/
def State.setEnt (s : State) (n : Name) (v : Nat) (u : Nat := 0) (k : Nat := 0) : State :=
  { s with dict := { s.dict with eff := Map.put s.dict.eff (n.key u k) v } }

/-- A counter or status value that the block writes. -/
def State.cnt (s : State) (n : Name) (u : Nat := 0) (k : Nat := 0) : Nat :=
  match Map.get? s.dict.cnt (n.key u k) with
  | some v => v
  | none => keyDefault (n.key u k)

/-- A counter or status value set. -/
def State.setCnt (s : State) (n : Name) (v : Nat) (u : Nat := 0) (k : Nat := 0) : State :=
  { s with dict := { s.dict with cnt := Map.put s.dict.cnt (n.key u k) v } }

/-- All-ones value of the entry at a key (R461). -/
def keyOnes (key : Nat) : Nat :=
  match findEntry (key / 256) (key % 256) with
  | some (e, _, _) => e.typ.ones
  | none => 0xFFFFFFFFFFFFFFFF

/-- A counter increments by its event count and stops at its all-ones value (R461). -/
def State.bump (s : State) (n : Name) (u : Nat := 0) (k : Nat := 0) (by_ : Nat := 1) : State :=
  s.setCnt n (min (s.cnt n u k + by_) (keyOnes (n.key u k))) u k

/-- Per-tenant counter t of entry n, position k: kept under the entry's key shifted by the tenant (Table 19-3). -/
def tenantKey (n : Name) (t : Nat) (k : Nat := 0) : Nat := (t + 1) * 2 ^ 24 + n.key 0 k

/-- A per-tenant counter (Table 19-3). -/
def State.tnt (s : State) (n : Name) (t : Nat) (k : Nat := 0) : Nat := Map.get s.dict.cnt (tenantKey n t k) 0

/-- A per-tenant counter increments (R461, Table 19-3). -/
def State.bumpTnt (s : State) (n : Name) (t : Nat) (k : Nat := 0) (by_ : Nat := 1) : State :=
  { s with dict := { s.dict with
      cnt := Map.put s.dict.cnt (tenantKey n t k) (min (s.tnt n t k + by_) (keyOnes (n.key 0 k))) } }

/-! ## Address map (R19 to R21, R191, R324) -/

/-- What serves a block-local address (Table 1-6). -/
inductive Region where
  | hbm
  | scratch (core : Nat)
  | commons (cluster : Nat)
  | counters (core : Nat)
  | window (core ctx : Nat)
  | none
  deriving DecidableEq, Repr

/-- End of the HBM range (Table 1-6). -/
def hbmEnd : Nat := 0x024000000000
/-- Base of the scratchpads (Table 1-6). -/
def scratchBase : Nat := 0xFF0000000000
/-- Base of the Commons windows (Table 1-6). -/
def commonsBase : Nat := 0xFF0040000000
/-- Base of the counter blocks (Table 1-6). -/
def counterBase : Nat := 0xFF0080000000
/-- Base of the command windows (Table 1-6). -/
def windowBase : Nat := 0xFF00C0000000
/-- Bytes of a scratchpad (R167). -/
def scratchSize : Nat := 0xC00000

/-- Whether an offset of a counter block is listed (Table 13-2). -/
def counterOffsetOk (o : Nat) : Bool :=
  o < 0x400 || (0x1000 ≤ o && o < 0x1400) || (0x2000 ≤ o && o < 0x2008) || (0x3000 ≤ o && o < 0x3100)

/-- The region of an address and the first address after the mapped bytes that follow it in one piece (R20, R191,
R324). Every base is a multiple of its range, so an offset is a remainder. -/
def regionOf (s : State) (a : Nat) : Region × Nat :=
  if a < hbmEnd then (.hbm, hbmEnd)
  else if scratchBase ≤ a && a < scratchBase + 0x20000000 then
    let o := a % 0x20000000
    if o % 0x1000000 < scratchSize then (.scratch (o / 0x1000000), a - o % 0x1000000 + scratchSize) else (.none, a)
  else if commonsBase ≤ a && a < commonsBase + 0x8000000 then
    let o := a % 0x8000000
    let k := o / 0x2000000
    let pinned := (s.cluster k).pinWays * 0x200000
    if o % 0x2000000 < pinned then (.commons k, a - o % 0x2000000 + pinned) else (.none, a)
  else if counterBase ≤ a && a < counterBase + 0x200000 then
    let o := a % 0x10000
    if counterOffsetOk o then
      (.counters (a % 0x200000 / 0x10000),
        a - o + (if o < 0x400 then 0x400 else if o < 0x1400 then 0x1400 else if o < 0x2008 then 0x2008 else 0x3100))
    else (.none, a)
  else if windowBase ≤ a && a < windowBase + 0x100000 then
    let i := a % 0x100000 / 0x1000
    (.window (i / 8) (i % 8), windowBase + 0x100000)
  else (.none, a)

/-- The address-map check of R20 and R13 on the bytes [a, a + n): unmapped bytes first, then a unit that is disabled or
gated. -/
def mapCheck (s : State) (a n : Nat) : FC :=
  match regionOf s a with
  | (.none, _) => .addrUnmapped
  | (.hbm, e) => if a + n ≤ e then .ok else .addrUnmapped
  | (.scratch c, e) => if a + n > e then .addrUnmapped else if s.corePresent c then .ok else .unitAbsent
  | (.commons k, e) => if a + n > e then .addrUnmapped else if s.clusterPresent k then .ok else .unitAbsent
  | (.counters c, e) => if a + n > e then .addrUnmapped else if s.corePresent c then .ok else .unitAbsent
  | (.window c _, e) => if a + n > e then .addrUnmapped else if s.corePresent c then .ok else .unitAbsent

/-- The MCC that serves an HBM address, and its channel address (R21). -/
def mccOf (a : Nat) : Nat × Nat :=
  let q := a / 0x9000000000
  let o := a % 0x9000000000
  (6 * q + (o / 4096) % 6, ((o / 4096) / 6) * 4096 + o % 4096)

/-- The block-local address of a channel address of MCC n (inverse of R21). -/
def mccAddr (n ch : Nat) : Nat :=
  (n / 6) * 0x9000000000 + ((ch / 4096) * 6 + n % 6) * 4096 + ch % 4096

/-- Whether some byte of [a, a + n) in HBM is served by an MCC that is down (R408). -/
def mcDown (s : State) (a n : Nat) : Bool :=
  a < hbmEnd && n != 0 &&
  (List.range (min 24 ((a + n - 1) / 4096 - a / 4096 + 1))).any
    (fun i => (s.mcc (mccOf (a / 4096 * 4096 + 4096 * i)).1).state == .down)

/-! ## Bytes of memory -/

/-- One stored byte; an unlisted byte reads 0.
DESIGN CHOICE (notes/assumptions/7.md). -/
def memByte (m : FMap Byte) (a : Nat) : Byte := Map.get m a 0

/-- One byte stored, in the canonical form: the value an unlisted byte reads as is not listed. -/
def memSet (m : FMap Byte) (a : Nat) (b : Byte) : FMap Byte :=
  if b = 0 then Map.erase m a else Map.put m a b

/-- Bytes stored from an address on. -/
def memSetAll (m : FMap Byte) (a : Nat) (bs : List Byte) : FMap Byte :=
  match bs with
  | [] => m
  | b :: r => memSetAll (memSet m a b) (a + 1) r

/-- The canonical form of memory: addresses strictly rising and no entry equal to what an unlisted byte reads as. -/
def Memory.wf (m : FMap Byte) : Bool :=
  match m with
  | [] => true
  | (k, b) :: r => b != 0 && r.all (fun p => k < p.1) && Memory.wf r

/-- Bytes stored from an address on, with no other effect. -/
def State.poke (s : State) (a : Nat) (bs : List Byte) : State := { s with mem := memSetAll s.mem a bs }

/-! ## The descriptor table in memory (R73 to R76) -/

/-- STATE values of Table 3-2. -/
def SeqState.code : SeqState → Nat
  | .free => 0
  | .queued => 1
  | .idle => 2
  | .ready => 3
  | .verdictWait => 4
  | .suspended => 5
  | .faulted => 6
  | .retiring => 7

/-- STATE from its value; the reserved values read as FREE. -/
def SeqState.ofCode (v : Nat) : SeqState :=
  [SeqState.free, .queued, .idle, .ready, .verdictWait, .suspended, .faulted, .retiring].getD v .free

/-- The sixteen words of a descriptor (Table 3-1). -/
def Desc.words (d : Desc) : List Nat :=
  [ bnat d.verdict * 2 ^ 60 + bnat d.evictActive * 2 ^ 59 + bnat d.held * 2 ^ 58 + d.shadowDepth * 2 ^ 55
      + d.chartDepth * 2 ^ 52 + d.partition * 2 ^ 48 + d.repertoire * 2 ^ 32 + d.tenant * 2 ^ 16 + d.cls * 2 ^ 4
      + d.state.code,
    (d.shadowRoot / 4096) * 2 ^ 32 + d.chartRoot / 4096,
    d.epoch.toNat * 2 ^ 32 + d.walkers * 2 ^ 16 + d.draftLen,
    d.committedLen,
    d.nextPos,
    d.draftAccept * 2 ^ 32 + d.appendLen,
    d.pageBudget * 2 ^ 32 + d.privateFrames,
    d.remappedPages * 2 ^ 32 + d.pendingTokens,
    d.tokenBuf,
    d.outAddr,
    d.lastStep * 2 ^ 32 + d.pendingDrafts * 2 ^ 16 + d.context * 2 ^ 8,
    d.lastFc.value * 2 ^ 32,
    d.user, 0, 0, 0]

/-- The 128 bytes of a descriptor (R75, R4). -/
def Desc.bytes (d : Desc) : List Byte := d.words.flatMap (natLe 8)

/-- The descriptor that 128 bytes hold: a store of the Control Complex into the table (R74). -/
def Desc.ofBytes (bs : List Byte) : Desc :=
  let w := fun i => fieldAt bs (8 * i) 8
  { verdict := bit (w 0) 60, evictActive := bit (w 0) 59, held := bit (w 0) 58, shadowDepth := bits (w 0) 55 3,
    chartDepth := bits (w 0) 52 3, partition := bits (w 0) 48 4, repertoire := bits (w 0) 32 16,
    tenant := bits (w 0) 16 16, cls := bits (w 0) 4 2, state := .ofCode (bits (w 0) 0 4),
    shadowRoot := bits (w 1) 32 30 * 4096, chartRoot := bits (w 1) 0 30 * 4096, epoch := BitVec.ofNat 32 (w 2 / 2 ^ 32),
    walkers := bits (w 2) 16 16, draftLen := bits (w 2) 0 16, committedLen := bits (w 3) 0 48,
    nextPos := bits (w 4) 0 48, draftAccept := bits (w 5) 32 16, appendLen := bits (w 5) 0 32,
    pageBudget := bits (w 6) 32 32, privateFrames := bits (w 6) 0 32, remappedPages := bits (w 7) 32 32,
    pendingTokens := bits (w 7) 0 32, tokenBuf := w 8, outAddr := w 9, lastStep := bits (w 10) 32 32,
    pendingDrafts := bits (w 10) 16 16, context := bits (w 10) 8 8,
    lastFc := (FC.ofValue? (bits (w 11) 32 16)).getD .ok, user := w 12 }

/-- Bytes of the descriptor table (R73). -/
def descTableSize : Nat := 0x2000000

/-- Whether [a, a + n) meets the descriptor table (R73). -/
def inDescTable (s : State) (a n : Nat) : Bool :=
  a < s.charts.descBase + descTableSize && s.charts.descBase < a + n

/-! ## The tables of a partition in memory (R27, R47) -/

/-- Frames of a partition. -/
def Part.frames (p : Part) : Nat := p.size / 2 ^ p.log2
/-- Frames that hold the Share Count Table and the free bitmap (R27). -/
def Part.reserved (p : Part) : Nat := ((257 * p.frames + 7) / 8 + 2 ^ p.log2 - 1) / 2 ^ p.log2
/-- Bytes of the Share Count Table and of the free bitmap after it (R27). -/
def Part.tableBytes (p : Part) : Nat := 32 * p.frames + (p.frames + 7) / 8

/-- Byte o of the tables: 32 bytes of sharer map for each frame, then one bit for each frame, set while it is free (R26,
R27, R47).
DESIGN CHOICE (notes/assumptions/44.md). -/
def Part.tableByte (p : Part) (o : Nat) : Byte :=
  if o < 32 * p.frames then BitVec.ofNat 8 ((Map.get p.share (o / 32) 0).toNat / 2 ^ (8 * (o % 32)))
  else
    let f := 8 * (o - 32 * p.frames)
    BitVec.ofNat 8 ((List.range 8).foldl (fun x i =>
      if p.reserved ≤ f + i && f + i < p.frames && !p.alloc.contains (f + i) then x + 2 ^ i else x) 0)

/-- The tables with byte o stored. -/
def Part.setTableByte (p : Part) (o : Nat) (b : Byte) : Part :=
  if o < 32 * p.frames then
    let m := (Map.get p.share (o / 32) 0).toNat
    let k := 2 ^ (8 * (o % 32))
    let m' := BitVec.ofNat 256 (m - m / k % 256 * k + b.toNat * k)
    { p with share := if m' = 0 then Map.erase p.share (o / 32) else Map.put p.share (o / 32) m' }
  else
    let f := 8 * (o - 32 * p.frames)
    (List.range 8).foldl (fun (p : Part) i =>
      if p.reserved ≤ f + i && f + i < p.frames then
        { p with alloc := if b.getLsbD i then p.alloc.filter (· != f + i) else insertNat (f + i) p.alloc }
      else p) p

/-- The partition whose tables hold an address. -/
def partTable (s : State) (a : Nat) : Option (Nat × Part) :=
  s.charts.parts.find? (fun q => q.2.base ≤ a && a < q.2.base + q.2.tableBytes)

/-- Whether [a, a + n) meets the tables of a partition. -/
def inPartTables (s : State) (a n : Nat) : Bool :=
  s.charts.parts.any (fun q => a < q.2.base + q.2.tableBytes && q.2.base < a + n)

/-- One byte as a read sees it: a byte of the descriptor table is that of the descriptor in force (R76), a byte of a
partition's tables that of the table in force (R27). -/
def State.byte (s : State) (a : Nat) : Byte :=
  if s.charts.descBase ≤ a && a < s.charts.descBase + descTableSize then
    let o := a - s.charts.descBase
    (s.desc (o / 128)).bytes.getD (o % 128) 0
  else
    match partTable s a with
    | some q => q.2.tableByte (a - q.2.base)
    | none => memByte s.mem a

/-- n bytes from an address as a read sees them. -/
def State.bytes (s : State) (a n : Nat) : List Byte := (List.range n).map (fun i => s.byte (a + i))

/-- The little-endian number in n bytes of memory (R4). -/
def State.num (s : State) (a n : Nat) : Nat := leNat (s.bytes a n)

/-- One byte stored into the tables of a partition, or into memory. -/
def State.storeByte (s : State) (a : Nat) (b : Byte) : State :=
  match partTable s a with
  | some q => { s with charts := { s.charts with
      parts := Map.put s.charts.parts q.1 (q.2.setTableByte (a - q.2.base) b) } }
  | none => s.poke a [b]

/-- A store of bytes without checks or marks: into memory, into a descriptor where the bytes lie in the descriptor table, or
into the tables of a partition. -/
def State.store (s : State) (a : Nat) (bs : List Byte) : State :=
  if inDescTable s a bs.length then
    let first := (a - s.charts.descBase) / 128
    let last := (a + bs.length - 1 - s.charts.descBase) / 128
    (List.range (last - first + 1)).foldl (fun s i =>
      let n := first + i
      let b0 := s.charts.descBase + 128 * n
      let old := (s.desc n).bytes
      let new := (List.range 128).map (fun j =>
        if a ≤ b0 + j && b0 + j < a + bs.length then bs.getD (b0 + j - a) 0 else old.getD j 0)
      s.updDesc n (fun _ => Desc.ofBytes new)) s
  else if inPartTables s a bs.length then
    (List.range bs.length).foldl (fun s i => s.storeByte (a + i) (bs.getD i 0)) s
  else s.poke a bs

/-! ## Trace and events -/

/-- Fields of a trace record beside its time stamp (Table 19-5); `core` is the core it is tied to, `tenant` its
tenant. -/
structure TraceArgs where
  unit : Nat
  core : Option Nat := none
  ctx : Nat := 0xFF
  engine : Nat := 0xFF
  code : FC := .ok
  tenant : Nat := 0
  arg0 : Nat := 0
  arg1 : Nat := 0
  arg2 : Nat := 0
  deriving DecidableEq, Repr

/-- Whether the filters pass an event of a type (R466). -/
def traceWanted (s : State) (type : Nat) (a : TraceArgs) : Bool :=
  (s.sys.trace.state == 1 || s.sys.trace.state == 2) && bit (s.ent .traceTypes) type &&
  (match a.core with
   | some c => bit (s.ent .traceCores) c
   | none => true) &&
  (bit (s.ent .traceTenant) 12 || bits (s.ent .traceTenant) 0 12 == a.tenant)

/-- One record counted against TRACE_POST; the trace stops when none is left (R467). -/
def tracePost (t : Trace) : Trace :=
  if t.state = 2 then { t with post := t.post - 1, state := if t.post ≤ 1 then 3 else 2 } else t

/-- A trace record is produced: written to the ring, or dropped beyond 16 in one 250 ns period (R465, R466).
DEDUCED (notes/assumptions/72.md). -/
def State.trace (s : State) (type : Nat) (a : TraceArgs) : State :=
  if !traceWanted s type a then s
  else
    let t := s.sys.trace
    let t := if t.period = s.sys.gov.period then t else { t with period := s.sys.gov.period, inPeriod := 0 }
    let to_ := s.ent .traceBase + 32 * (t.written % max 1 (s.ent .traceSize / 32))
    if t.inPeriod ≥ 16 || inDescTable s to_ 32 || s.charts.nodesLive.any (fun x => x < to_ + 32 && to_ < x + 4096) then
      ({ s with sys := { s.sys with trace := tracePost t } }).bump .traceDrops
    else
      let size := s.ent .traceSize
      let ring := max 1 (size / 32)
      let rcd := natLe 8 (s.sys.mgmtCycles * 256) ++ natLe 1 type ++ natLe 1 a.unit ++ natLe 1 a.ctx ++ natLe 1 a.engine
        ++ natLe 2 a.code.value ++ natLe 2 (a.tenant % 4096) ++ natLe 4 a.arg0 ++ natLe 4 a.arg1 ++ natLe 8 a.arg2
      let t' := tracePost { t with inPeriod := t.inPeriod + 1, written := t.written + 1 }
      let t' := if !t.wrap && t'.written ≥ ring then { t' with state := 3 } else t'
      (({ s with sys := { s.sys with trace := t' } }).store to_ rcd).bump
        .traceRecords

/-- A reply or a line is discarded because its epoch is superseded, and counted (R8). -/
def State.discard (s : State) : State := { s with sys := { s.sys with discards := s.sys.discards + 1 } }

/-- An interrupt request to the host, discarded while the host link is down (R401, Table 16-6). -/
def State.irq (s : State) (vec : Nat) : State := if s.sys.hpUp then s.emit (.irq vec) else s

/-- An in-band interrupt with byte 0x02 is raised, or withheld while IBIs are disabled, when a record lies beyond those
returned to the Management Port and none is outstanding (R376). -/
def State.eventIbi (s : State) : State :=
  let i := s.mgmt.i3c
  if i.evtOutstanding || s.mgmt.nextEvent ≤ i.polled then s
  else if i.ibi then
    ({ s with mgmt := { s.mgmt with i3c := { i with evtOutstanding := true, evtIbiHeld := false } } }).emit (.ibi 0x02)
  else { s with mgmt := { s.mgmt with i3c := { i with evtIbiHeld := true } } }

/-- An event is raised (R378, R471): a record in the ring of 256, the host interrupt, the in-band interrupt, the trace
record and the trace trigger (R467).
DEDUCED (notes/assumptions/77.md). -/
def State.raise (s : State) (code : FC) (kind : Nat := 0) (index : Nat := 0) (arg : Nat := 0) : State :=
  let n := s.mgmt.nextEvent
  let e : Event := { seq := n, code := code, kind := kind, index := index, arg := arg, time := s.sys.uptime }
  let lost := n ≥ 256 && n - 256 ≥ s.mgmt.polledAny
  let s := { s with mgmt := { s.mgmt with events := Map.put s.mgmt.events (n % 256) e, nextEvent := n + 1 } }
  let s := if lost then s.bump .evtDropped else s
  let s := (s.irq 0).eventIbi
  let unit := if kind = 1 then index else if kind = 4 then 40 + index else if kind = 5 then 32 else 33
  let s := s.trace 8 { unit := unit, core := if kind = 1 then some index else none, code := code, arg2 := arg }
  if s.sys.trace.state = 1 && s.ent .traceTrigger = code.value && code != .ok then
    let post := s.ent .tracePost
    { s with sys := { s.sys with trace := { s.sys.trace with state := if post = 0 then 3 else 2, post := post } } }
  else s

/-! ## HBM marks: on-die status and the poison directory (R406, R407) -/

/-- Whether an HBM word carries a poison mark on a read: a directory bit, or status 3 of its burst half. -/
def hbmMarked (s : State) (wa : Nat) : Bool :=
  let (n, ch) := mccOf wa
  bit (Map.get (s.mcc n).dir (ch / 256) 0) ((ch % 256) / 16) || Map.get s.sev (wa / 16) 0 == 3

/-- An HBM word enters the poison directory, or is lost when the directory is full (R407). -/
def hbmMark (s : State) (wa : Nat) : State :=
  let (n, ch) := mccOf wa
  let m := s.mcc n
  if Map.has m.dir (ch / 256) || m.dir.length < 4096 then
    (s.updMcc n (fun m => { m with dir := Map.upd m.dir (ch / 256) 0 (fun x => x ||| 2 ^ ((ch % 256) / 16)) }))
  else (s.raise .poisonDirFull 3 n (ch / 256)).setCnt .mcPoisonLostAddr wa n

/-- A clean write of a whole HBM word clears its bit and ends what the stack reported for it; an empty entry is freed
(R407). -/
def hbmClear (s : State) (wa : Nat) : State :=
  let s := { s with sev := Map.erase s.sev (wa / 16) }
  let (n, ch) := mccOf wa
  let x := Map.get (s.mcc n).dir (ch / 256) 0
  if bit x ((ch % 256) / 16) then
    let y := x - 2 ^ ((ch % 256) / 16)
    s.updMcc n (fun m => { m with dir := if y = 0 then Map.erase m.dir (ch / 256) else Map.put m.dir (ch / 256) y })
  else s

/-- The status that the stack reports for a burst half: the greater of its two words' (R406). -/
def halfStatus (s : State) (h : Nat) : Nat := max (Map.get s.sev (2 * h) 0) (Map.get s.sev (2 * h + 1) 0)

/-- A read of one 32-byte burst half acts on the stack's status (R406).
DEDUCED (notes/assumptions/25.md). -/
def hbmSettleHalf (s : State) (h : Nat) : State :=
  let (n, ch) := mccOf (32 * h)
  match halfStatus s h with
  | 0 => s
  | 3 =>
    let s := (s.bump .mcOdeccUncorr n).raise .eccUncorrectable 3 n (ch / 256)
    let t := if Map.get s.sev (2 * h) 0 = 3 then hbmMark s (32 * h) else s
    if Map.get s.sev (2 * h + 1) 0 = 3 then hbmMark t (32 * h + 16) else t
  | _ => s.bump .mcOdeccCorrected n

/-- A read of [a, a + n) of HBM acts on the status of each burst half it touches. -/
def hbmSettle (s : State) (a n : Nat) : State :=
  if s.sev.isEmpty || n = 0 then s
  else (List.range ((a + n - 1) / 32 - a / 32 + 1)).foldl (fun s i => hbmSettleHalf s (a / 32 + i)) s

/-- A write of [a, a + n) reads the HBM words that it writes in part (R407), and so acts on the status of their burst
halves. -/
def hbmPartial (s : State) (a n : Nat) : State :=
  if s.sev.isEmpty || n = 0 then s
  else
    let head := a % 16 != 0 || a % 16 + n < 16
    let s := if head then hbmSettleHalf s (a / 32) else s
    if (a + n) % 16 != 0 && !(head && (a + n - 1) / 32 == a / 32) then hbmSettleHalf s ((a + n - 1) / 32) else s

/-! ## The (137,128) code of the scratchpad and pinned words (R183 to R186) -/

/-- Number of set bits. -/
def popCount (n x : Nat) : Nat := match n with
  | 0 => 0
  | k + 1 => x % 2 + popCount k (x / 2)

/-- The columns of the data bits: 84 of weight 3, then the 44 smallest of weight 5 (R183). -/
def eccColumns : List Nat :=
  (List.range 512).filter (fun v => popCount 9 v = 3) ++ ((List.range 512).filter (fun v => popCount 9 v = 5)).take 44

/-- Check bits of a 128-bit word: c_i is the XOR of the d_j whose column has bit i (R183). -/
def eccCheck (d : Nat) : Nat :=
  (List.range 128).foldl (fun c j => if bit d j then c ^^^ eccColumns.getD j 0 else c) 0

/-- What a syndrome means (Table 7-7). -/
inductive Syndrome where
  | clean
  | dataBit (j : Nat)
  | checkBit (i : Nat)
  | poison
  | uncorrectable
  deriving DecidableEq, Repr

/-- Table 7-7.
DESIGN CHOICE (notes/assumptions/26.md). -/
def syndromeOf (x : Nat) : Syndrome :=
  if x = 0 then .clean
  else if x = 0x1FF then .poison
  else if popCount 9 x = 1 then .checkBit (Nat.log2 x)
  else if eccColumns.contains x then .dataBit (eccColumns.findIdx (· == x))
  else .uncorrectable

/-- The core whose scratchpad holds an address. -/
def scratchCore (a : Nat) : Nat := a % 0x20000000 / 0x1000000

/-- Whether an address is one of a scratchpad. -/
def isScratch (a : Nat) : Bool := scratchBase ≤ a && a < scratchBase + 0x20000000

/-- Two refetches of a weight line from HOME fail (R186): the MCC is down or returns poisoned data. -/
def homeFails (s : State) (home : Nat) : Bool :=
  mcDown s home 256 || (List.range 16).any (fun i => hbmMarked s (home + 16 * i))

/-- Marks or clears the stored syndrome of every word of a 256-byte line. -/
def setLineSyn (s : State) (line v : Nat) : State :=
  { s with syn := (List.range 16).foldl (fun m i =>
      if v = 0 then Map.erase m (line / 16 + i) else Map.put m (line / 16 + i) v) s.syn }

/-- A damaged weight line is refetched from HOME and rewritten as a weight fill, or poisoned after two failed
refetches (R186).
DEDUCED (notes/assumptions/66.md). -/
def refetchLine (s : State) (line : Nat) : State :=
  match Map.get? s.wtags (line / 256) with
  | none => s
  | some t =>
    let c := scratchCore line
    -- the second refetch of two in a row, where the first one fails
    let again := fun (s : State) => hbmSettle (s.bump .spWeightRefetch c) t.home 256
    let s := hbmSettle s t.home 256
    let s := if homeFails s t.home then again s else s
    if homeFails s t.home then
      let s := (s.bump .spWeightRefetch c).bump .spWeightRefetchFail c
      let s := setLineSyn { s with wtags := Map.erase s.wtags (line / 256) } line 0x1FF
      s.raise .weightRefetchFail 0 0 0
    else
      let data := s.bytes t.home 256
      let s := (setLineSyn (s.bump .spWeightRefetch c) line 0).poke line data
      { s with wtags := Map.put s.wtags (line / 256) { t with crc := crc32c data } }

/-- A read of one stored 16-byte word acts on its syndrome (R184, R186). -/
def settleWord (s : State) (wa : Nat) : State :=
  match syndromeOf (Map.get s.syn (wa / 16) 0) with
  | .clean => s
  | .poison => s
  | .checkBit _ =>
    let s := { s with syn := Map.erase s.syn (wa / 16) }
    if isScratch wa then s.bump .spEccCe (scratchCore wa) else s
  | .dataBit j =>
    let b := wa + j / 8
    let m := memSet s.mem b (memByte s.mem b ^^^ BitVec.ofNat 8 (2 ^ (j % 8)))
    let s := { s with syn := Map.erase s.syn (wa / 16), mem := m }
    if isScratch wa then s.bump .spEccCe (scratchCore wa) else s
  | .uncorrectable =>
    if isScratch wa && Map.has s.wtags (wa / 256) then refetchLine s (wa / 256 * 256)
    else
      let s := { s with syn := Map.put s.syn (wa / 16) 0x1FF }
      if isScratch wa then
        (s.bump .spEccUe (scratchCore wa)).raise .eccUncorrectable 1 (scratchCore wa)
          (wa % 0x1000000)
      else s.raise .eccUncorrectable

/-- A read of [a, a + n) of a scratchpad or pinned way acts on the syndromes of its words. -/
def sramSettle (s : State) (a n : Nat) : State :=
  if s.syn.isEmpty || n = 0 then s
  else (List.range ((a + n - 1) / 16 - a / 16 + 1)).foldl (fun s i => settleWord s (16 * (a / 16 + i))) s

/-- A write of [a, a + n) reads the words that it writes in part, and so acts on their syndromes; a word that it replaces whole
is not read (R184). -/
def sramPartial (s : State) (a n : Nat) : State :=
  if s.syn.isEmpty || n = 0 then s
  else
    let head := a % 16 != 0 || n < 16
    let s := if head then settleWord s (a / 16 * 16) else s
    if (a + n) % 16 != 0 && !(head && (a + n - 1) / 16 == a / 16) then settleWord s ((a + n - 1) / 16 * 16) else s

/-! ## Reads and writes with marks -/

/-- Whether the word of an address carries a poison mark. -/
def State.marked (s : State) (a : Nat) : Bool :=
  if a < hbmEnd then hbmMarked s (a / 16 * 16) else Map.get s.syn (a / 16) 0 == 0x1FF

/-- What reading [a, a + n) does to the state before the data is taken: status of HBM bursts, correction of stored
words. -/
def State.settle (s : State) (a n : Nat) : State := if a < hbmEnd then hbmSettle s a n else sramSettle s a n

/-- The marks of the 16-byte words that [a, a + n) touches, in increasing address. -/
def State.marks (s : State) (a n : Nat) : List Bool :=
  if n = 0 then [] else (List.range ((a + n - 1) / 16 - a / 16 + 1)).map (fun i => s.marked (16 * (a / 16 + i)))

/-- Whether any word of [a, a + n) is marked. -/
def State.anyMark (s : State) (a n : Nat) : Bool := (s.marks a n).any id

/-- A word written with or without a mark; `whole` tells whether all its 16 bytes are written (R184, R296, R407). -/
def setMark (s : State) (wa : Nat) (whole mark : Bool) : State :=
  if wa < hbmEnd then
    if mark then hbmMark s wa else if whole then hbmClear s wa else s
  else if mark then { s with syn := Map.put s.syn (wa / 16) 0x1FF }
  else if whole then { s with syn := Map.erase s.syn (wa / 16) }
  else s

/-- The marks of a write applied word by word. -/
def setMarks (s : State) (a n : Nat) (marks : List Bool) : State :=
  if n = 0 then s
  else (List.range ((a + n - 1) / 16 - a / 16 + 1)).foldl (fun s i =>
    let wa := 16 * (a / 16 + i)
    setMark s wa (a ≤ wa && wa + 16 ≤ a + n) (marks.getD i false)) s

/-- Lines of [a, a + n) leave a map of weight tags (R185: any other write clears W). -/
def clearTags (tags : FMap WTag) (a n : Nat) : FMap WTag :=
  if n = 0 then tags else tags.filter (fun p => !(a / 256 ≤ p.1 && p.1 ≤ (a + n - 1) / 256))

/-- A write by a cluster's own cores invalidates the copies in its Commons (R190). -/
def commonsInvalidate (s : State) (k a n : Nat) : State :=
  s.updCluster k (fun c => { c with lines := c.lines.map (fun p =>
    (p.1, p.2.filter (fun l => !(l.line < a + n && a < l.line + 256)))) })

/-- The memory controller checks write data on its way to the PHY: a single flipped bit is corrected and counted, an
uncorrectable word is written as it came and marked (R406, Table 18-2).
DESIGN CHOICE (notes/assumptions/92.md). -/
def mcPathWord (s : State) (wa : Nat) : State :=
  let x := Map.get s.sys.mcFlips (wa / 16) 0
  let s := { s with sys := { s.sys with mcFlips := Map.erase s.sys.mcFlips (wa / 16) } }
  match syndromeOf (eccCheck (x % 2 ^ 128) ^^^ (x / 2 ^ 128 % 512)) with
  | .clean => s
  | .poison => hbmMark s wa
  | .uncorrectable => hbmMark (s.store wa ((List.range 16).map (fun i =>
      s.byte (wa + i) ^^^ BitVec.ofNat 8 (x / 2 ^ (8 * i))))) wa
  | _ => s.bump .mcPathCe (mccOf wa).1

/-- The words of a write to HBM pass the memory controllers' check. -/
def mcPath (s : State) (a n : Nat) : State :=
  if s.sys.mcFlips.isEmpty || n = 0 then s
  else (List.range ((a + n - 1) / 16 - a / 16 + 1)).foldl (fun s i =>
    if Map.has s.sys.mcFlips (a / 16 + i) then mcPathWord s (16 * (a / 16 + i)) else s) s

/-- Bytes with their marks go to words whose read part, if any, is done; `by_` is the cluster whose cores write, if any. A
weight line written becomes ordinary data (R185). -/
def State.putBack (s : State) (a : Nat) (bs : List Byte) (marks : List Bool := []) (by_ : Option Nat := none) : State :=
  let s := setMarks (s.store a bs) a bs.length marks
  let s := if a < hbmEnd then mcPath s a bs.length else s
  let s := if isScratch a then { s with wtags := clearTags s.wtags a bs.length } else s
  match by_ with
  | some k => if a < hbmEnd then commonsInvalidate s k a bs.length else s
  | none => s

/-- A write of bytes with their marks. Words written in part are read first (R296, R407). -/
def State.write (s : State) (a : Nat) (bs : List Byte) (marks : List Bool := []) (by_ : Option Nat := none) : State :=
  let s := if a < hbmEnd then hbmPartial s a bs.length else sramPartial s a bs.length
  s.putBack a bs marks by_

/-- A read of [a, a + n): the state after it, the bytes and the marks. -/
def State.read (s : State) (a n : Nat) : State × List Byte × List Bool :=
  let s := s.settle a n
  (s, s.bytes a n, s.marks a n)

/-- Block-local address of a scratchpad offset of core c (R167). -/
def scratchAddr (c o : Nat) : Nat := scratchBase + c * 0x1000000 + o

/-- Address of slot i of the command window of context x of core c. -/
def slotAddr (c x i : Nat) : Nat := windowBase + (8 * c + x) * 0x1000 + 128 * i

end Sys2Proof.Machine
end

