-- ==== Sys2Proof/Machine/Sync.lean ====
section
/-!
DEFINITION. Attendance counters, contexts, Recess and Roll Call (chapter 13).
-/

namespace Sys2Proof.Machine

open Sys2Proof

/-! ## Contexts (R330, R438) -/

/-- Value of a context state (Table 13-3). -/
def CtxState.code : CtxState → Nat
  | .idle => 0
  | .running => 1
  | .blocked => 2
  | .switched => 3
  | .faulted => 4

/-- A context takes a state; a change is traced (Table 19-5, CTX_STATE). -/
def setCtxState (s : State) (c x : Nat) (st : CtxState) : State :=
  if (s.ctx c x).state = st then s
  else
    let s := s.updCtx c x (fun k => { k with state := st, stateSince := s.sys.coreCycles })
    s.trace 5 { unit := c, core := some c, ctx := x, tenant := (s.ctx c x).tenant, arg0 := st.code }

/-- Untaken commands of a context: CTX_CMD_COUNT − CTX_CMD_DONE modulo 2^32 (R319). -/
def Ctx.untaken (k : Ctx) : Nat := (k.count - k.done).toNat

/-- The state of a context that nothing holds: IDLE with no command in flight and none untaken, else RUNNING (R330). -/
def Ctx.free (k : Ctx) : CtxState :=
  if k.issued.isEmpty && k.waiting.isNone && k.untaken = 0 then .idle else .running

/-- Whether a Lesson in flight waits for a counter that does not hold yet: a stream of it stopped at a WAIT, or a combine
(R328). -/
def lessonWaits (k : Core) (id : Nat) : Bool :=
  k.waits.any (fun p => (Map.get k.streams p.1 { }).lesson == id && (Map.get k.streams p.1 { }).bound &&
    (Map.get k.counters p.2.1 0).toNat < p.2.2) ||
  k.combineWaits.any (fun p => p.1 == id && (Map.get k.counters p.2.1 0).toNat < p.2.2)

/-- Whether a context can only wait for counters (Table 13-3, BLOCKED): it has issued commands, all of them Lessons that
wait, and no further command that could issue. -/
def ctxBlocked (s : State) (c x : Nat) : Bool :=
  let k := s.ctx c x
  !k.issued.isEmpty && (k.waiting.isSome || k.untaken = 0) && k.issued.all (fun i => match i.kind with
    | .lesson id => lessonWaits (s.core c) id
    | _ => false)

/-- A context's state follows its commands (R330). A FAULTED context stays so until a CTX_CTL write releases it, once
every command it had issued has ended; SKIP discards the untaken commands (R439). -/
def ctxSettle (s : State) (c x : Nat) : State :=
  let k := s.ctx c x
  match k.state with
  | .faulted =>
    if k.ctl = 0 || !k.issued.isEmpty then s
    else
      let s := s.updCtx c x (fun k => { k with ctl := 0, done := if k.ctl = 2 then k.count else k.done })
      setCtxState s c x (s.ctx c x).free
  | st =>
    if ctxBlocked s c x then (if st = .switched then s else setCtxState s c x .blocked)
    else setCtxState s c x k.free

/-- Every context of a core follows its commands. -/
def settleAll (s : State) (c : Nat) : State :=
  (List.range 8).foldl (fun s x => if (s.ctx c x).issued.isEmpty then s else ctxSettle s c x) s

/-- A write of CTX_CTL (R439): 1 RESUME, 2 SKIP, only to a FAULTED context. -/
def writeCtxCtl (s : State) (c x v : Nat) : FC × State :=
  if (s.ctx c x).state = .faulted && (v = 1 || v = 2) then
    (.ok, ctxSettle (s.updCtx c x (fun k => { k with ctl := v })) c x)
  else (.valueRange, s)

/-- A context faults: it enters FAULTED, takes no further command, and the block writes one event with unit kind core,
the code and the context as argument (R438). -/
def faultCtx (s : State) (c x : Nat) (code : FC) : State :=
  let s := setCtxState (s.updCtx c x (fun k => { k with lastFault := code })) c x .faulted
  s.raise code 1 c x

/-! ## Recess (R335, R336) -/

/-- A core leaves Recess (R336). -/
def leaveRecess (s : State) (c : Nat) : State :=
  if (s.core c).recess then s.updCore c (fun k => { k with recess := false, quietCycles := 0 }) else s

/-- Whether a counter value satisfies a waiter of the core: a stream WAIT or a combine wait (R328). -/
def wakes (k : Core) (ctr : Nat) (v : Nat) : Bool :=
  k.waits.any (fun p => p.2.1 == ctr && p.2.2 ≤ v) || k.combineWaits.any (fun p => p.2.1 == ctr && p.2.2 ≤ v)

/-! ## Counters (R324, R325) -/

/-- Value of attendance counter n of core c. -/
def State.counter (s : State) (c n : Nat) : U32 := Map.get (s.core c).counters n 0

/-- A counter takes a value, and a waiter that it satisfies ends the core's Recess (R328, R336). -/
def setCounter (s : State) (c n : Nat) (v : U32) : State :=
  let s := s.updCore c (fun k => { k with counters := Map.put k.counters n v })
  let s := if wakes (s.core c) n v.toNat then leaveRecess s c else s
  settleAll s c

/-- The counter after an increment (R325): at most 0xFFFF_FFFF. -/
def incremented (v : U32) (by_ : Nat) : U32 := BitVec.ofNat 32 (min (v.toNat + by_) 0xFFFFFFFF)

/-- The counter after a decrement (R325): at least 0. -/
def decremented (v : U32) (by_ : Nat) : U32 := BitVec.ofNat 32 (v.toNat - by_)

/-- The code of a counter operation (R325): it is refused when it would pass either end. -/
def counterCode (v : U32) (dec : Bool) (by_ : Nat) : FC :=
  if dec then (if by_ > v.toNat then .syncUnderflow else .ok)
  else if v.toNat + by_ > 0xFFFFFFFF then .syncOverflow else .ok

/-! ## Roll Call (R337 to R342) -/

/-- RC_MASK of a wire: bits 0-31 cores, 32 Control Complex, 33 the external participant. -/
def rcMask (s : State) (w : Nat) : BitVec 34 := BitVec.ofNat 34 (s.ent .rcMask w)

/-- The level a wire's AND reaches: RC_SCOPE, or FORM_LEVELS when it is above it (Table 14-7). -/
def rcLevels (s : State) (w : Nat) : Nat := min (s.ent .rcScope w) (if s.form.committed then s.form.levels.length else 0)

/-- The highest level at or below k whose Form this block heads (R347). -/
def headLevel (s : State) (k : Nat) : Nat :=
  ((List.range (k + 1)).filter (fun j => j != 0 &&
    (List.range j).all (fun i => (s.form.levels.getD i (0, 0, 0)).2.2 == s.form.node))).foldl max 0

/-- Head node of the level-j Form around this block. -/
def headNode (s : State) (j : Nat) : Nat := (s.form.levels.getD (j - 1) (0, 0, 0)).2.2.toNat

/-- Whether a node lies in a lost range (R366). -/
def isLost (s : State) (n : Nat) : Bool := s.form.lost.any (fun r => r.1 ≤ n && n ≤ r.2)

/-- The members that this block waits for as head of a level (R340, R363): at level 1 the other nodes of its range, above
it the other members' heads. -/
def membersOf (s : State) (j : Nat) : List Nat :=
  if j = 1 then
    let r := s.form.levels.getD 0 (0, 0, 0)
    ((List.range (r.2.1.toNat + 1 - r.1.toNat)).map (· + r.1.toNat)).filter (· != s.form.node.toNat)
  else Map.get s.form.members j []

/-- Every member up to level j that is not lost has arrived on the wire (R340, R366). -/
def membersArrived (s : State) (w j : Nat) : Bool :=
  ((List.range j).flatMap (fun i => membersOf s (i + 1))).all
    (fun n => (s.wire w).members.contains n || isLost s n)

/-- A sync message is sent (Table 14-6). -/
def sendSync (s : State) (dest type level flags gen : Nat) (high arg : Nat := 0) : State :=
  s.emit (.sync dest type level flags gen s.form.node.toNat high arg)

/-- Every participant in RC_MASK has arrived (R338). -/
def localAnd (s : State) (w : Nat) : Bool := (s.wire w).arrived &&& rcMask s w == rcMask s w

/-- With a scope above 0, the block whose local AND and whose members' arrivals hold sends ARRIVE to the head one level
up, once per generation (R340). -/
def rcPropagate (s : State) (w : Nat) : State :=
  let k := rcLevels s w
  let j := headLevel s k
  if k = 0 || j = k || (s.wire w).sent || !localAnd s w || !membersArrived s w j then s
  else
    sendSync (s.updWire w (fun x => { x with sent := true })) (headNode s (j + 1)) 1 (j + 1) w (s.wire w).gen.toNat

/-- A generation is armed on the block from its first arm record or Control Complex arrival (R338). -/
def rcArmGen (s : State) (w : Nat) : State :=
  if (s.wire w).armed then s
  else s.updWire w (fun x => { x with armed := true, armedAt := s.sys.coreCycles, timedOut := false })

/-- A participant arrives on a wire (R338). -/
def rcArrive (s : State) (w bitNo : Nat) : State :=
  rcPropagate (s.updWire w (fun x => { x with arrived := x.arrived ||| (1#34 <<< bitNo) })) w

/-- An armed core arrives on every wire whose ARRIVE_CTR is at least TARGET (R338). -/
def rcCheck (s : State) (c : Nat) : State :=
  (List.range 16).foldl (fun s w =>
    let a := Map.get (s.core c).arms w { }
    if a.armed && a.gen == (s.wire w).gen && !(s.wire w).arrived.getLsbD c &&
        (rcMask s w).getLsbD c && a.target.toNat ≤ (s.counter c a.arriveCtr).toNat then
      rcArrive s w c
    else s) s

/-- A counter operation is applied (R325): the value found, the code, and the state after it, with arrivals that its
end value makes. -/
def counterApply (s : State) (c n : Nat) (dec : Bool) (by_ : Nat) : State × U32 × FC :=
  let v := s.counter c n
  let code := counterCode v dec by_
  let s := setCounter s c n (if dec then decremented v by_ else incremented v by_)
  let s := match code with
    | .syncUnderflow => s.bump .syncUnderflows c
    | .syncOverflow => s.bump .syncOverflows c
    | _ => s
  (rcCheck s c, v, code)

/-- Bits of a Roll Call arm record (Table 13-6). -/
def Arm.toNat (a : Arm) : Nat :=
  a.target.toNat * 2 ^ 96 + a.arriveCtr * 2 ^ 72 + a.doneCtr * 2 ^ 64 + bnat a.armed * 2 ^ 16 + a.gen.toNat

/-- The checks of an arm record write (R337): reserved bits, generation, mask, late withdrawal.
DEDUCED (notes/assumptions/69.md). -/
def armCheck (s : State) (c w : Nat) (v : Nat) : FC :=
  if bits v 80 16 != 0 || bits v 17 47 != 0 || bits v 8 8 != 0 then .reservedNonzero
  else if bits v 0 8 != (s.wire w).gen.toNat then .valueRange
  else if !(rcMask s w).getLsbD c then .valueRange
  else if !bit v 16 && (s.wire w).arrived.getLsbD c then .valueRange
  else .ok

/-- An arm record write that passed its checks (R337, R338). -/
def armWrite (s : State) (c w v : Nat) : State :=
  let a : Arm := { target := BitVec.ofNat 32 (bits v 96 32), arriveCtr := bits v 72 8, doneCtr := bits v 64 8,
                   armed := bit v 16, gen := BitVec.ofNat 8 (bits v 0 8) }
  let s := s.updCore c (fun k => { k with arms := Map.put k.arms w a })
  if a.armed then rcCheck (rcArmGen s w) c else s

/-- What completion does to one armed core (R339 steps 1 to 3): ARRIVE_CTR falls by TARGET, DONE_CTR increments, the
record is disarmed. A refused increment raises an event and faults no context. A core that the wire names leaves Recess
(R336). -/
def rcCompleteCore (s : State) (w c : Nat) : State :=
  let a := Map.get (s.core c).arms w { }
  if a.armed && a.gen == (s.wire w).gen then
    let s := setCounter s c a.arriveCtr (decremented (s.counter c a.arriveCtr) a.target.toNat)
    let v := s.counter c a.doneCtr
    let s := setCounter s c a.doneCtr (incremented v 1)
    let s := if counterCode v false 1 = .syncOverflow then
        (s.bump .syncOverflows c).raise .syncOverflow 1 c (w * 256 + a.doneCtr)
      else s
    leaveRecess (s.updCore c (fun k => { k with arms := Map.put k.arms w { a with armed := false } })) c
  else if (rcMask s w).getLsbD c then leaveRecess s c
  else s

/-- A wire completes on this block (R339): every armed core is updated, the external output pulses, RC_GEN increments.
Arrivals of the new generation are then evaluated. -/
def rcComplete (s : State) (w : Nat) : State :=
  let g := (s.wire w).gen
  let late := (s.wire w).timedOut
  let s := (List.range 32).foldl (fun s c => rcCompleteCore s w c) s
  let s := if (rcMask s w).getLsbD 33 then s.emit (.rcRelease w) else s
  let s := if late then s.bump .rcLate w else s
  let s := s.updWire w (fun x => { gen := x.gen + 1 })
  let s := s.trace 6 { unit := 33, arg0 := w, arg1 := g.toNat }
  let s := (List.range 32).foldl rcCheck s
  if rcMask s w == 0 then rcPropagate s w else s

/-- RELEASE goes to every member of the levels up to j (R340). -/
def rcSendRelease (s : State) (w j : Nat) : State :=
  (List.range j).foldl (fun s i =>
    (membersOf s (i + 1)).foldl (fun s n => sendSync s n 2 (i + 1) w (s.wire w).gen.toNat) s) s

/-- Whether the wire's AND is complete at this block: the local AND at scope 0, and at the head of its scope also every
member's ARRIVE (R339, R340). -/
def rcReady (s : State) (w : Nat) : Bool :=
  let k := rcLevels s w
  rcMask s w != 0 && localAnd s w && headLevel s k == k && membersArrived s w k ||
  rcMask s w == 0 && k != 0 && headLevel s k == k && membersArrived s w k && !(s.wire w).members.isEmpty

end Sys2Proof.Machine
end

