-- ==== Sys2Proof/Machine/Fabric.lean ====
section
/-!
DEFINITION. The mesh fabric (R16 to R18): agents, stops, paths, arbitration at a stop output, and the check of a payload at its
destination stop (Table 18-2).
-/

namespace Sys2Proof.Machine

open Sys2Proof

/-! ## Agents and stops (R16, Table 1-5) -/

/-- An agent of the fabric (Table 1-5). -/
inductive Agent where
  | cluster (k : Nat)
  | cc
  | host
  | mgmt
  | gov
  | mcc (n : Nat)
  | gl (n : Nat)
  deriving DecidableEq, Repr

/-- Fabric agent numbers (Table 1-5). -/
def Agent.number : Agent → Nat
  | .cluster k => k
  | .cc => 4
  | .host => 5
  | .mgmt => 6
  | .gov => 7
  | .mcc n => 8 + n
  | .gl n => 32 + n

/-- The stop that hosts MCC n, GL n and one crossbar port of cluster n / 6 (R16). -/
def unitStop (n : Nat) : Nat × Nat := (3 * (n / 6 % 2) + n % 3, 2 * (n / 12) + n % 6 / 3)

/-- The stops at which an agent attaches (R16). -/
def Agent.stops : Agent → List (Nat × Nat)
  | .cluster k => (List.range 6).map (fun p => unitStop (6 * k + p))
  | .cc => [(2, 1), (3, 2)]
  | .host => [(3, 1)]
  | .mgmt => [(2, 2)]
  | .gov => [(2, 2)]
  | .mcc n => [unitStop n]
  | .gl n => [unitStop n]

/-- Numbers from a to b in steps of one, without a. -/
def stepsTo (a b : Nat) : List Nat :=
  if a ≤ b then (List.range (b - a)).map (fun i => a + 1 + i) else (List.range (a - b)).map (fun i => a - 1 - i)

/-- The dimension-ordered path of a packet, first along x and then along y, without its first stop (R17). -/
def meshPath (a b : Nat × Nat) : List (Nat × Nat) :=
  (stepsTo a.1 b.1).map (fun x => (x, a.2)) ++ (stepsTo a.2 b.2).map (fun y => (b.1, y))

/-- The stops between which a packet travels: of the stops of two agents a pair with the shortest path, the first where
several are.
DESIGN CHOICE (notes/assumptions/91.md). -/
def fabricEnds (a b : Agent) : (Nat × Nat) × (Nat × Nat) :=
  let all := a.stops.flatMap (fun p => b.stops.map (fun q => (p, q)))
  all.foldl (fun best e => if (meshPath e.1 e.2).length < (meshPath best.1 best.2).length then e else best)
    (all.headD ((0, 0), (0, 0)))

/-- Unloaded latency of a packet in `ck_fab` cycles (Table 1-4). -/
def fabricLatency (a b : Agent) : Nat :=
  let e := fabricEnds a b
  6 + 2 * (meshPath e.1 e.2).length

/-! ## Arbitration (R9, R12, R18) -/

/-- Who asks for a resource: the age of its request, its engine or fabric agent number, and the stop whose output brings it, if
the fabric does. -/
structure Claim where
  age : Nat
  number : Nat
  stop : Option (Nat × Nat)
  deriving DecidableEq, Repr

/-- Whether two claims tie: they are equally old and of different agents. -/
def Claim.ties (a b : Claim) : Bool := a.age == b.age && a.number != b.number

/-- Whether the first of two claims goes first: the older one, then the lower number, or the higher one while the toggle is
set (R9, R18). -/
def Claim.wins (a b : Claim) (toggle : Bool) : Bool :=
  b.age < a.age || (a.ties b && (a.number < b.number) != toggle)

/-- The stop output at which two claims meet; none: they meet at the resource itself. -/
def Claim.meet (a b : Claim) : Option Nat :=
  match a.stop, b.stop with
  | some p, some q => if p = q then some (6 * p.2 + p.1) else none
  | _, _ => none

/-- The link port through which a node's packets come: that of its route entry. -/
def nodePort (s : State) (n : Nat) : Nat :=
  match firstSome s.form.routes (fun p =>
    let w := p.2.toNat
    if bit w 31 && bits w 32 16 ≤ n && n ≤ bits w 48 16 then some w else none) with
  | some w => bits w (5 * (n % (bits w 28 2 + 1))) 5
  | none => 0

/-- The fabric agent through which a request enters. The completion writer is taken as the Control Complex.
DESIGN CHOICE (notes/assumptions/91.md). -/
def originAgent (s : State) (o : Origin) : Agent :=
  match o with
  | .inside (.stream c _ _) => .cluster (c.val / 8)
  | .inside (.remoteOp c _) => .cluster (c.val / 8)
  | .inside _ => .cc
  | .arrival node _ _ _ _ => if node = 0xFFFF then .host else .gl (nodePort s node.toNat)

/-- The claim of a counter operation on the Sync Unit of core c: engines of the same cluster by their number (Table 1-2), what
the fabric brings by its latency and its agent.
DESIGN CHOICE (notes/assumptions/91.md). -/
def suClaim (s : State) (c : Nat) (op : SuOp) : Claim :=
  let far := fun (a : Agent) =>
    ({ age := fabricLatency a (.cluster (c / 8)), number := a.number,
       stop := some (fabricEnds a (.cluster (c / 8))).2 } : Claim)
  match op.origin with
  | .inside (.stream d _ _) =>
    if d.val / 8 = c / 8 then { age := 0, number := 4, stop := none } else far (.cluster (d.val / 8))
  | .inside (.remoteOp d _) =>
    if d.val / 8 = c / 8 then { age := 0, number := 6, stop := none } else far (.cluster (d.val / 8))
  | o => far (originAgent s o)

/-- The toggle of the place where two claims meet: a stop output, or the Sync Unit of core c. -/
def toggleAt (s : State) (c : Nat) (place : Option Nat) : Bool :=
  match place with
  | some k => Map.get s.sys.fab.toggles k false
  | none => (s.core c).suToggle

/-- The toggle of such a place changes after a tie. -/
def flipToggle (s : State) (c : Nat) (place : Option Nat) : State :=
  match place with
  | some k => { s with sys := { s.sys with fab := { s.sys.fab with
      toggles := Map.put s.sys.fab.toggles k (!Map.get s.sys.fab.toggles k false) } } }
  | none => s.updCore c (fun k => { k with suToggle := !k.suToggle })

/-- A counter operation enters the queue of a Sync Unit, before those of the same cycle whose claim it precedes (R9, R326). -/
def suEnqueue (s : State) (c : Nat) (op : SuOp) : State :=
  let q := (s.core c).suQ
  let me := suClaim s c op
  let early := q.takeWhile (fun p => p.cycle != op.cycle)
  let same := q.drop early.length
  let before := fun (p : SuOp) =>
    let it := suClaim s c p
    me.wins it (toggleAt s c (me.meet it))
  let i := (same.findIdx before)
  let tie := same.find? (fun p => me.ties (suClaim s c p))
  let s := s.updCore c (fun k => { k with suQ := early ++ same.take i ++ op :: same.drop i })
  match tie with
  | some p => flipToggle s c (me.meet (suClaim s c p))
  | none => s

/-! ## Payloads (R183, R443, Table 18-2) -/

/-- The syndrome of 137 bits of which the given ones are flipped (R183). -/
def flipSyndrome (x : Nat) : Syndrome := syndromeOf (eccCheck (x % 2 ^ 128) ^^^ (x / 2 ^ 128 % 512))

/-- The words of a payload as the destination stop hands them on: a single flipped bit is corrected, any other error leaves the
word as it came and marks it. -/
def fabricWords (flips : FMap Nat) (data : List Byte) (poison : List Bool) : List Byte × List Bool :=
  let lost := fun (i : Nat) => flipSyndrome (Map.get flips i 0) == .uncorrectable
  (data.zipIdx.map (fun p =>
      if lost (p.2 / 16) then p.1 ^^^ BitVec.ofNat 8 (Map.get flips (p.2 / 16) 0 / 2 ^ (8 * (p.2 % 16))) else p.1),
    (List.range (ceilDiv data.length 16)).map (fun i => poison.getD i false || lost i))

/-- A payload crosses the fabric from one agent to another and is checked at its destination stop (Table 18-2, R471).
DESIGN CHOICE (notes/assumptions/92.md). -/
def crossFabric (s : State) (src dst : Agent) (data : List Byte) (poison : List Bool) : State × List Byte × List Bool :=
  let flips := s.sys.fab.flips
  if src = dst || flips.isEmpty then (s, data, poison)
  else
    let hit := flips.filter (fun p => p.1 < ceilDiv data.length 16)
    let lost := (hit.filter (fun p => flipSyndrome p.2 == .uncorrectable)).length
    let fixed := (hit.filter (fun p => flipSyndrome p.2 != .uncorrectable && flipSyndrome p.2 != .clean)).length
    let s := { s with sys := { s.sys with fab := { s.sys.fab with flips := [] } } }
    let s := if fixed = 0 then s else s.bump .fabEccCe 0 0 fixed
    let s := (List.range lost).foldl (fun s _ =>
      (s.bump .fabEccUe).raise .eccUncorrectable 0 0 (src.number * 256 + dst.number)) s
    (s, fabricWords flips data poison)

/-- The fabric agent that serves a block-local address (Table 1-6). -/
def addressAgent (s : State) (a : Nat) : Agent :=
  match (regionOf s a).1 with
  | .hbm => .mcc (mccOf a).1
  | .scratch c => .cluster (c / 8)
  | .commons k => .cluster k
  | .counters c => .cluster (c / 8)
  | .window c _ => .cluster (c / 8)
  | .none => .cc

end Sys2Proof.Machine
end

