-- ==== Sys2Proof/Machine/Complex.lean ====
section
/-!
DEFINITION. The Control Complex: what its cores run, and its L2 with the code that protects it (R10, R15, R443, R447).
-/

namespace Sys2Proof.Machine

open Sys2Proof

/-- The Control Complex changed. -/
def State.updCc (s : State) (f : Cc → Cc) : State := { s with sys := { s.sys with cc := f s.sys.cc } }

/-- `rst_req_n` falls with a cause (R447). -/
def lowerReq (s : State) (cause : FC) : State :=
  { s with sys := { s.sys with rstReqN := false, rstCause := cause } }

/-- Every core of the Control Complex runs the same (R446, R454). -/
def ccRun (s : State) (r : CcRun) : State := s.updCc (fun c => { c with harts := c.harts.map (fun _ => r) })

/-- Byte offset in the L2 of the active firmware image, of the staged one and of overlay n.
DESIGN CHOICE (notes/assumptions/92.md). -/
def l2Active : Nat := 0
def l2Staged : Nat := 0x400000
def l2Overlay (n : Nat) : Nat := 0x800000 + 4096 * ((Config.overlayPlace n).toNat)

/-- A read of one L2 word acts on its flipped bits: a single one is corrected, any other error marks the word, and in the active
image requests a reset (Table 18-2, R447, R471). -/
def l2Word (s : State) (w : Nat) : State :=
  match flipSyndrome (Map.get s.sys.cc.l2Flips w 0) with
  | .clean => s
  | .poison => s
  | .uncorrectable =>
    let s := s.updCc (fun c => { c with l2Flips := Map.put c.l2Flips w (2 ^ 137 - 2 ^ 128) })
    let s := (s.bump .ccL2Ue).raise .eccUncorrectable 5 0 (16 * w)
    if l2Active ≤ 16 * w && 16 * w < l2Active + s.sys.cc.active.length then lowerReq s .eccUncorrectable else s
  | _ => (s.updCc (fun c => { c with l2Flips := Map.erase c.l2Flips w })).bump .ccL2Ce

/-- A read of n bytes of the L2 from an offset: the state after it, and whether a word of them is marked. -/
def l2Read (s : State) (o n : Nat) : State × Bool :=
  let ws := (s.sys.cc.l2Flips.filter (fun p => o ≤ 16 * p.1 && 16 * p.1 < o + n)).map Prod.fst
  let s := ws.foldl l2Word s
  (s, ws.any (fun w => Map.has s.sys.cc.l2Flips w))

/-- A write of n bytes of the L2 replaces its words. -/
def l2Written (s : State) (o n : Nat) : State :=
  s.updCc (fun c => { c with l2Flips := c.l2Flips.filter (fun p => !(o ≤ 16 * p.1 && 16 * p.1 < o + n)) })

/-- The staged and the active region change places, with what their words hold (R457). -/
def swapImages (c : Cc) : Cc :=
  { c with
    active := c.staged
    staged := c.active
    l2Flips := (c.l2Flips.filter (fun p => 0x40000 ≤ p.1 && p.1 < 0x80000)).map (fun p => (p.1 - 0x40000, p.2)) ++
      (c.l2Flips.filter (fun p => p.1 < 0x40000)).map (fun p => (p.1 + 0x40000, p.2)) ++
      c.l2Flips.filter (fun p => 0x80000 ≤ p.1) }

end Sys2Proof.Machine
end

