-- ==== Sys2Proof/Machine/Float.lean ====
section
/-!
DEFINITION. Floating-point values as exact signed dyadic numbers, and rounding to the formats of chapter 4 (R100, R109
to R112). Every engine's binary32 arithmetic is an exact operation followed by `rne32`.
-/

namespace Sys2Proof

/-- A value: NaN, a signed infinity, or a signed dyadic number ± m × 2^e (a zero keeps its sign). -/
inductive Fp where
  | nan
  | inf (neg : Bool)
  | fin (neg : Bool) (m : Nat) (e : Int)
  deriving DecidableEq, Repr

/-- Positive zero. -/
def Fp.zero : Fp := .fin false 0 0
/-- One. -/
def Fp.one : Fp := .fin false 1 0

/-- m × 2^sh rounded down to an integer. -/
def floorShift (m : Nat) (sh : Int) : Nat :=
  if sh ≥ 0 then m * 2 ^ sh.toNat
  else if (-sh).toNat > Nat.log2 m + 1 then 0 else m / 2 ^ (-sh).toNat

/-- m × 2^sh rounded to the nearest integer, ties to even (R109). -/
def rneShift (m : Nat) (sh : Int) : Nat :=
  if sh ≥ 0 then m * 2 ^ sh.toNat
  else
    let k := (-sh).toNat
    if k > Nat.log2 m + 2 then 0
    else
      let q := m / 2 ^ k
      let r := m % 2 ^ k
      let half := 2 ^ (k - 1)
      if r > half || (r == half && q % 2 == 1) then q + 1 else q

/-- floor(log2(m × 2^e)) for m > 0. -/
def magExp (m : Nat) (e : Int) : Int := e + Nat.log2 m

/-- A two's-complement reading of w bits. -/
def signedOf (w v : Nat) : Int := if v < 2 ^ (w - 1) then (v : Int) else (v : Int) - 2 ^ w

/-- Whether a value is a zero of either sign. -/
def Fp.isZero : Fp → Bool
  | .fin _ m _ => m == 0
  | _ => false

/-- Sign of a value. -/
def Fp.neg? : Fp → Bool
  | .nan => false
  | .inf s => s
  | .fin s _ _ => s

/-- The value with its sign turned. -/
def Fp.negate : Fp → Fp
  | .nan => .nan
  | .inf s => .inf (!s)
  | .fin s m e => .fin (!s) m e

/-- The magnitude. -/
def Fp.abs : Fp → Fp
  | .nan => .nan
  | .inf _ => .inf false
  | .fin _ m e => .fin false m e

/-- A signed integer times a power of two as a value; a zero result is +0. -/
def Fp.ofInt (z : Int) (e : Int) : Fp := .fin (z < 0) z.natAbs e

/-- The signed integer a finite value is at exponent q, exact when q is at most its exponent. -/
def Fp.toIntAt (neg : Bool) (m : Nat) (e q : Int) : Int :=
  let v : Int := (m * 2 ^ (e - q).toNat : Nat)
  if neg then -v else v

/-- Exact sum (R112): a sum that is exactly zero is +0, except −0 + −0. -/
def Fp.addX (a b : Fp) : Fp :=
  match a, b with
  | .nan, _ => .nan
  | _, .nan => .nan
  | .inf s, .inf t => if s == t then .inf s else .nan
  | .inf s, _ => .inf s
  | _, .inf t => .inf t
  | .fin s m e, .fin t n f =>
    if m = 0 && n = 0 then .fin (s && t) 0 0
    else
      let q := min e f
      let z := Fp.toIntAt s m e q + Fp.toIntAt t n f q
      .fin (z < 0) z.natAbs q

/-- Exact product. -/
def Fp.mulX (a b : Fp) : Fp :=
  match a, b with
  | .nan, _ => .nan
  | _, .nan => .nan
  | .inf s, .inf t => .inf (s != t)
  | .inf s, .fin t n _ => if n = 0 then .nan else .inf (s != t)
  | .fin s m _, .inf t => if m = 0 then .nan else .inf (s != t)
  | .fin s m e, .fin t n f => .fin (s != t) (m * n) (e + f)

/-- The value times 2^k. -/
def Fp.scale (a : Fp) (k : Int) : Fp :=
  match a with
  | .fin s m e => .fin s m (e + k)
  | x => x

/-- a < b for values that are not NaN. -/
def Fp.lt (a b : Fp) : Bool :=
  match a, b with
  | .nan, _ => false
  | _, .nan => false
  | .inf s, .inf t => s && !t
  | .inf s, _ => s
  | _, .inf t => !t
  | .fin s m e, .fin t n f =>
    let q := min e f
    Fp.toIntAt s m e q < Fp.toIntAt t n f q

/-- Equal as numbers (zeros of either sign are equal). -/
def Fp.eqv (a b : Fp) : Bool :=
  match a, b with
  | .nan, _ => false
  | _, .nan => false
  | .inf s, .inf t => s == t
  | .inf _, _ => false
  | _, .inf _ => false
  | .fin s m e, .fin t n f =>
    let q := min e f
    Fp.toIntAt s m e q == Fp.toIntAt t n f q

/-- The greater of two values; NaN when either is NaN, and +0 for a pair of +0 and −0 (R297). -/
def Fp.max (a b : Fp) : Fp :=
  match a, b with
  | .nan, _ => .nan
  | _, .nan => .nan
  | _, _ =>
    if a.isZero && b.isZero then .fin (a.neg? && b.neg?) 0 0
    else if a.lt b then b else a

/-- The least of two values; −0 is below +0. -/
def Fp.min (a b : Fp) : Fp := (Fp.max a.negate b.negate).negate

/-! ## Binary formats -/

/-- Decode sign, exponent and fraction fields with an IEEE bias; `ieee` tells whether the top exponent holds infinity
and NaN (R100). -/
def decodeBin (eb mb : Nat) (bias : Int) (ieee : Bool) (w : Nat) : Fp :=
  let s := bit w (eb + mb)
  let e := bits w mb eb
  let f := bits w 0 mb
  if ieee && e == 2 ^ eb - 1 then (if f = 0 then .inf s else .nan)
  else if e = 0 then .fin s f (1 - bias - mb)
  else .fin s (2 ^ mb + f) ((e : Int) - bias - mb)

/-- Result of rounding a magnitude to a binary format: exponent field and fraction as one number, the quantum count. -/
def packMag (mb : Nat) (bias : Int) (n : Nat) (q : Int) : Nat :=
  if n < 2 ^ mb then n
  else
    let (n, q) := if n ≥ 2 ^ (mb + 1) then (n / 2, q + 1) else (n, q)
    (q + mb + bias).toNat * 2 ^ mb + (n - 2 ^ mb)

/-- The quantum exponent of a magnitude in a format with mb fraction bits: of its binade, or of the subnormals. -/
def quantum (mb : Nat) (bias : Int) (m : Nat) (e : Int) : Int := Max.max (magExp m e - mb) (1 - bias - mb)

/-- Round to nearest even to an IEEE format with eb and mb bits: the code, and whether a finite value became infinite
(R109, R111, R113). The canonical NaN has the top fraction bit alone. -/
def encodeIeee (eb mb : Nat) (x : Fp) : Nat × Bool :=
  let bias : Int := 2 ^ (eb - 1) - 1
  let sgn := fun (s : Bool) => bnat s * 2 ^ (eb + mb)
  let top := (2 ^ eb - 1) * 2 ^ mb
  match x with
  | .nan => (top + 2 ^ (mb - 1), false)
  | .inf s => (sgn s + top, false)
  | .fin s m e =>
    if m = 0 then (sgn s, false)
    else
      let q := quantum mb bias m e
      let c := packMag mb bias (rneShift m (e - q)) q
      if c ≥ top then (sgn s + top, true) else (sgn s + c, false)

/-- The value of a binary32 word. -/
def f32 (w : Nat) : Fp := decodeBin 8 23 127 true w
/-- The binary32 word nearest a value, ties to even; NaN is the canonical 0x7FC0_0000. -/
def toF32 (x : Fp) : Nat := (encodeIeee 8 23 x).1
/-- The value of a binary16 word. -/
def f16 (w : Nat) : Fp := decodeBin 5 10 15 true w
/-- The value of a bfloat16 word. -/
def bf16 (w : Nat) : Fp := decodeBin 8 7 127 true w

/-- Rounding to binary32 (rne32), as a value. -/
def rne32 (x : Fp) : Fp := f32 (toF32 x)

/-- rne32(a + b). -/
def add32 (a b : Fp) : Fp := rne32 (a.addX b)
/-- rne32(a − b). -/
def sub32 (a b : Fp) : Fp := rne32 (a.addX b.negate)
/-- rne32(a × b). -/
def mul32 (a b : Fp) : Fp := rne32 (a.mulX b)
/-- rne32(a × b + c), one rounding. -/
def fma32 (a b c : Fp) : Fp := rne32 ((a.mulX b).addX c)

/-- Outward rounding to BF16: `up` toward +∞, else toward −∞ (R35). The sign of a zero result is kept. -/
def bf16Toward (up : Bool) (x : Fp) : Nat :=
  match x with
  | .nan => 0x7FC0
  | .inf s => bnat s * 0x8000 + 0x7F80
  | .fin s m e =>
    if m = 0 then bnat s * 0x8000
    else
      let q := quantum 7 127 m e
      let n := floorShift m (e - q)
      let exact := (Fp.fin false n q).eqv (.fin false m e)
      let n := if exact || (s == up) then n else n + 1
      let c := packMag 7 127 n q
      bnat s * 0x8000 + Min.min c 0x7F80

end Sys2Proof
end

