-- ==== Sys2Proof/Machine/Requests.lean ====
section
/-!
DEFINITION. Remote memory operations, Hall Passes at arrival, command windows at submission, the remote window table and
requests to other nodes (chapter 12, R324 to R327, R361).
-/

namespace Sys2Proof

/-- Bytes of an atomic target. -/
def AType.size : AType → Nat
  | .u64 => 8
  | .i64 => 8
  | _ => 4

/-- Block-local address of a request. -/
def Req.addr (r : Req) : Nat := r.target.toNat % 2 ^ 48

/-- Node of a request (R293). -/
def Req.node (r : Req) : Nat := r.target.toNat / 2 ^ 48

/-- Whether a predicate holds between two unsigned numbers. -/
def Pred.holds (p : Pred) (a b : Nat) : Bool :=
  match p with
  | .eq => a == b
  | .ne => a != b
  | .ltu => a < b
  | .geu => a ≥ b

/-- STREAM of a source (Table 14-4). -/
def Issuer.streamCode : Issuer → Nat
  | .stream c _ s => 16 * c.val + s.val
  | .remoteOp c x => 0x1000 + 8 * c.val + x.val
  | .ccCore n => 0x2000 + n.val
  | .writer => 0x4000

/-- The unit whose epoch a request carries: core c, or 36 for the Control Complex (R302). The completion writer stamps
the Control Complex's. -/
def Issuer.unit : Issuer → Nat
  | .stream c _ _ => c.val
  | .remoteOp c _ => c.val
  | _ => 36

/-- Cluster whose cores a request comes from, if it comes from inside (R190). -/
def Origin.cluster? : Origin → Option Nat
  | .inside (.stream c _ _) => some (c.val / 8)
  | .inside (.remoteOp c _) => some (c.val / 8)
  | _ => none

/-- An agent's record with the slot whose CPUT it sent (R59). -/
def Origin.editSrc : Origin → EditSrc
  | .inside (.ccCore n) => .cc n
  | .inside (.stream c x _) => .ctx c x
  | .inside (.remoteOp c x) => .ctx c x
  | .inside .writer => .internal
  | .arrival node _ _ _ _ => if node = 0xFFFF then .host else .link node

/-- The core and context behind a request from inside the block. -/
def Origin.context? : Origin → Option (Nat × Nat)
  | .inside (.stream c x _) => some (c.val, x.val)
  | .inside (.remoteOp c x) => some (c.val, x.val)
  | _ => none

end Sys2Proof

namespace Sys2Proof.Machine

open Sys2Proof

/-- Operations of Table 12-1. -/
inductive Kind where
  | put
  | get
  | cput
  | add
  | max
  | cmpcnt
  deriving DecidableEq, Repr

/-- Codes of Table 12-1. -/
def Kind.code : Kind → Nat
  | .put => 1
  | .get => 2
  | .cput => 3
  | .add => 4
  | .max => 5
  | .cmpcnt => 6

/-- The operation of a code. -/
def Kind.ofCode? (v : Nat) : Option Kind :=
  match v with
  | 1 => some .put
  | 2 => some .get
  | 3 => some .cput
  | 4 => some .add
  | 5 => some .max
  | 6 => some .cmpcnt
  | _ => none

/-- Bytes of the target range of a request. -/
def Kind.span (k : Kind) (r : Req) : Nat :=
  match k with
  | .add => r.atype.size
  | .max => r.atype.size
  | _ => r.len

/-- What a request is answered with: code, data with marks (R302). A CMPCNT answers with its 4-byte count. -/
structure Ans where
  code : FC := .ok
  data : List Byte := []
  poison : List Bool := []
  deriving DecidableEq, Repr

/-! ## Sizes, atomics and counts (R295 to R297, R180) -/

/-- Size and alignment of Table 12-1, and ADD of a signed type. -/
def sizeCode (k : Kind) (r : Req) : FC :=
  let a := r.addr
  let n := k.span r
  let ok := match k with
    | .add => a % n == 0 && r.atype != .i32 && r.atype != .i64
    | .max => a % n == 0
    | .cmpcnt => n % 16 == 0 && 16 ≤ n && n ≤ 4096 && a % 16 == 0 && r.elem.toNat ≤ 4
    | _ => (n == 8 && a % 8 == 0) || (n % 16 == 0 && 16 ≤ n && n ≤ 4096 && a % 16 == 0)
  if ok && a % 4096 + n ≤ 4096 then .ok else .valueRange

/-- The value an ADD or MAX leaves (Table 12-1, R297). -/
def atomicValue (isMax : Bool) (t : AType) (old v : Nat) : Nat :=
  let w := 8 * t.size
  let v := v % 2 ^ w
  if isMax then
    match t with
    | .f32 =>
      let a := f32 old
      let b := f32 v
      if a.isZero && b.isZero then (if old = 0 || v = 0 then 0 else old) else toF32 (Fp.max a b)
    | .i32 => if signedOf 32 old ≥ signedOf 32 v then old else v
    | .i64 => if signedOf 64 old ≥ signedOf 64 v then old else v
    | _ => Nat.max old v
  else
    match t with
    | .f32 => toF32 (add32 (f32 old) (f32 v))
    | _ => (old + v) % 2 ^ w

/-- Elements of one 16-byte word that count (R180). -/
def countWord (elem : Nat) (p : Pred) (value mask word : Nat) : Nat :=
  let w := 128 / 2 ^ elem
  ((List.range (2 ^ elem)).filter (fun i =>
    p.holds (bits (word &&& mask) (w * i) w) (bits (value &&& mask) (w * i) w))).length

/-- The count over the unmarked words of a range (R180, R181, R297). -/
def countWords (elem : Nat) (p : Pred) (value mask : Nat) (data : List Byte) (marks : List Bool) : Nat :=
  (List.range (data.length / 16)).foldl (fun n i =>
    if marks.getD i false then n else n + countWord elem p value mask (fieldAt data (16 * i) 16)) 0

/-! ## Nodes, routes and epochs (R293, R294, R302, R354) -/

/-- Whether a node number names this block. -/
def isLocal (s : State) (n : Nat) : Bool := s.form.node.toNat == n || n == 0

/-- The lowest-numbered valid route entry that covers a node outside every lost range, with its number. -/
def routeOf (s : State) (n : Nat) : Option (Nat × Nat) :=
  if isLost s n then none
  else firstSome s.form.routes (fun p =>
    let w := p.2.toNat
    if bit w 31 && bits w 32 16 ≤ n && n ≤ bits w 48 16 then some (p.1, w) else none)

/-- Where a packet for node n leaves: its route entry, the entry's port for n, and the port taken: that port, ALT while it
is down or has not returned from ALT, or none when both are down (R354, R365). -/
def egress (s : State) (n : Nat) : Option (Nat × Nat × Option Nat) :=
  match routeOf s n with
  | none => none
  | some (e, w) =>
    let p := bits w (5 * (n % (bits w 28 2 + 1))) 5
    let alt := bits w 20 5
    if (s.port p).state = .up && !s.form.upPending.contains p then some (e, p, some p)
    else if (s.port alt).state = .up then some (e, p, some alt)
    else some (e, p, none)

/-- The ports that a route entry names, without ALT (Table 14-2). -/
def entryPorts (w : Nat) : List Nat := (List.range (bits w 28 2 + 1)).map (fun i => bits w (5 * i) 5)

/-- Whether a route entry names a port. -/
def usesPort (w port : Nat) : Bool := (entryPorts w).contains port

/-- A route entry as the block holds it: ON_ALT tells whether a port of the entry is down (Table 14-2). -/
def withOnAlt (s : State) (e : U64) : U64 :=
  let w := e.toNat
  BitVec.ofNat 64 (putBits w 30 1 (bnat (bit w 31 && (entryPorts w).any (fun p => (s.port p).state != .up))))

/-- ON_ALT of a route entry is set (Table 14-2). -/
def setOnAlt (s : State) (e : Nat) : State :=
  { s with form := { s.form with
    routes := Map.upd s.form.routes e 0 (fun w => BitVec.ofNat 64 (putBits w.toNat 30 1 1)) } }

/-- A packet for node n leaves on its port, or on ALT with ON_ALT set, or is dropped when both are down (R354, R365). -/
def sendVia (s : State) (n : Nat) (mk : Nat → Output) : State :=
  match egress s n with
  | none => s
  | some (e, p, out) =>
    let s := if out == some p then s else setOnAlt s e
    match out with
    | some q => s.emit (mk q)
    | none => s.bump .linkFlitsLost p

/-- Current epoch of a unit: cores 0-31, clusters 32-35, Control Complex 36 (R444). -/
def unitEpoch (s : State) (u : Nat) : U32 :=
  if u < 32 then (s.core u).epoch else if u < 36 then (s.cluster (u - 32)).epoch else s.sys.cc.epoch

/-! ## Hall Passes at arrival (R305, R310) -/

/-- The pass of the given states that covers an address. -/
def passAt (s : State) (a : Nat) (sts : List PassState) : Option Nat :=
  firstSome s.remote.passes (fun p =>
    if sts.contains p.2.state && p.2.base ≤ a && a < p.2.base + p.2.size then some p.1 else none)

/-- The right of Table 12-4 that an operation needs, as its bit. -/
def Kind.right : Kind → Nat
  | .get => 0
  | .put => 1
  | .cput => 2
  | .add => 3
  | .max => 4
  | .cmpcnt => 5

/-- The checks of R318 on a write into a command window, in their order. -/
def slotCode (s : State) (c x : Nat) (k : Kind) (a n : Nat) : FC :=
  let q := s.ctx c x
  match k with
  | .get => .ok
  | .cput =>
    if (q.accept - q.done).toNat = 32 then .cmdWindowFull
    else if n != 128 || a % 128 != 0 || (a % 0x1000) / 128 != q.accept.toNat % 32 then .cmdSlot
    else .ok
  | _ => .windowDenied

/-- The region of the first byte of a range. -/
def regionAt (s : State) (a : Nat) : Region := (regionOf s a).1

/-- The arrival checks of Table 12-5: the code, and the pass that accepts. -/
def arrivalCode (s : State) (k : Kind) (r : Req) (node : Nat) (wepoch : BitVec 8) : FC × Nat :=
  let a := r.addr
  let n := k.span r
  match passAt s a [.opened] with
  | none => (.windowClosed, 0)
  | some p =>
    let h := s.pass p
    let mask := bits h.source 32 16
    let code : FC :=
      if wepoch != h.epoch then .windowClosed
      else if a + n > h.base + h.size then .windowDenied
      else if (node &&& mask) != (bits h.source 48 16 &&& mask) then .windowDenied
      else if !bit h.source 16 && r.tenant.toNat != bits h.source 0 12 then .windowDenied
      else if !bit h.rights k.right then .windowDenied
      else if k == .cput && !bit h.rights 7 && r.ctr.toNat ≥ bits h.rights 8 8 then .windowDenied
      else
        let slot : FC := match regionAt s a with
          | .window c x => slotCode s c x k a n
          | _ => .ok
        if slot != .ok then slot else sizeCode k r
    (code, p)

/-- A refusal is logged, counted and traced as HP_REFUSAL (R305, R310, R466, Tables 12-6 and 19-5).
DEDUCED (notes/assumptions/72.md). -/
def logRefusal (s : State) (a node tenant pass op wepoch : Nat) (code : FC) (len : Nat) (counted : Bool := true) :
    State :=
  let n := s.cnt .hpRefusals
  let r := natLe 8 a ++ natLe 2 node ++ natLe 2 (tenant % 4096) ++ natLe 2 pass ++ natLe 1 op ++ natLe 1 wepoch
    ++ natLe 2 code.value ++ zeros 2 ++ natLe 4 len ++ natLe 8 s.sched.step
  let s := { s with remote := { s.remote with log := Map.put s.remote.log (n % 64) r } }
  let s := (s.bump .hpRefusals).trace 9 { unit := 33, code := code, tenant := tenant % 4096, arg0 := pass, arg2 := a }
  if counted then s.bumpTnt .tntRefusals (tenant % 4096) else s

/-! ## Effects at the target -/

/-- The context that faults when a counter operation of a request is refused (R327); a completion word's is the context
whose command it reports. -/
def faultContext (o : Origin) (tag : Nat) : Option (Nat × Nat) :=
  match o with
  | .inside .writer => if tag = 0 then none else some ((tag - 1) / 8, (tag - 1) % 8)
  | _ => o.context?

/-- Checks of an accepted request that its region and state add: a unit under reset (R451), a live chart node (R55), the
descriptor table (R74), an MCC that is down (R408). -/
def effectCode (s : State) (k : Kind) (r : Req) : FC :=
  let a := r.addr
  let n := k.span r
  let cc := match r.origin with
    | .inside (.ccCore _) => true
    | _ => false
  let reset := match regionAt s a with
    | .scratch c => (s.core c).inReset
    | .counters c => (s.core c).inReset
    | .window c _ => (s.core c).inReset
    | .commons q => (s.cluster q).inReset
    | _ => false
  let writes := k == .put || k == .cput || k == .add || k == .max
  if reset then .targetReset
  else if writes && s.charts.nodesLive.any (fun x => x < a + n && a < x + 4096) then .chartLive
  else if writes && a < hbmEnd && inDescTable s a n && !cc then .accessDenied
  else if mcDown s a n then .mcDown
  else .ok

/-- Limits of R324 on an operation on a counter block. -/
def counterBlockCode (s : State) (c : Nat) (k : Kind) (r : Req) : FC :=
  let o := r.addr % 0x10000
  match k with
  | .get => .ok
  | .add => if o < 0x2000 && r.atype == .u32 then .ok else .accessDenied
  | .put =>
    let own := match r.origin with
      | .inside (.ccCore _) => true
      | .inside (.stream d _ _) => d.val == c
      | .inside (.remoteOp d _) => d.val == c
      | _ => false
    if o < 0x3000 || r.len != 16 || !own then .accessDenied
    else if r.poison.any id then .dataPoisoned
    else armCheck s c ((o - 0x3000) / 16) (leNat (fit r.data 16))
  | _ => .accessDenied

/-- n bytes of the counter block of core c from offset o (Table 13-2). -/
def counterBytes (s : State) (c o n : Nat) : List Byte :=
  (List.range n).map (fun i =>
    let p := o + i
    let v :=
      if p < 0x1400 then (s.counter c ((p % 0x1000) / 4)).toNat / 256 ^ (p % 4)
      else if p < 0x2008 then (s.core c).flags.toNat / 256 ^ (p - 0x2000)
      else (Map.get (s.core c).arms ((p - 0x3000) / 16) { }).toNat / 256 ^ (p % 16)
    BitVec.ofNat 8 v)

/-- A counter operation reaches the Sync Unit in a cycle: the first four of the cycle apply, the others wait in its
queue (R325, R326).
DEDUCED (notes/assumptions/68.md). -/
def suRequest (s : State) (c : Nat) (op : SuOp) : State × Option Ans :=
  let k := s.core c
  let used := if k.suCycle = op.cycle then k.suCount else 0
  if k.suQ.isEmpty && used < 4 then
    let s := s.updCore c (fun k => { k with suCycle := op.cycle, suCount := used + 1 })
    let (s, old, code) := counterApply s c op.ctr op.dec op.operand
    (s, some { code := code, data := if op.fetch then natLe 4 old.toNat else [] })
  else (suEnqueue s c op, none)

/-- An operation performed on plain bytes (R295 to R297). -/
def performData (s : State) (k : Kind) (r : Req) : State × Ans :=
  let a := r.addr
  let n := k.span r
  match k with
  | .get =>
    let (s, d, m) := s.read a n
    (s, { data := d, poison := m })
  | .cmpcnt =>
    let (s, d, m) := s.read a n
    let c := countWords r.elem.toNat r.pred r.value.toNat r.mask.toNat d m
    (s, { code := if m.any id then .dataPoisoned else .ok, data := natLe 4 c })
  | .put => (s.write a (fit r.data n) r.poison r.origin.cluster?, { })
  | .cput => (s.write a (fit r.data n) r.poison r.origin.cluster?, { })
  | _ =>
    let (s, d, m) := s.read a n
    if m.any id then (s, { code := .dataPoisoned })
    else
      let old := leNat d
      let s := s.putBack a (natLe n (atomicValue (k == .max) r.atype old r.operand.toNat)) [] r.origin.cluster?
      (s, { data := if r.fetch then d else [] })

/-- One operation accepted into a pass is performed (R306). -/
def passDone (s : State) (p : Option Nat) : State :=
  match p with
  | some n => s.updPass n (fun h => { h with inflight := h.inflight - 1 })
  | none => s

/-- One operation of a pass that is not yet performed (R305). -/
def passHold (s : State) (p : Option Nat) : State :=
  match p with
  | some n => s.updPass n (fun h => { h with inflight := h.inflight + 1 })
  | none => s

/-- An accepted request is performed. `ctr` is the counter that a CPUT increments (R301) and `pass` the Hall Pass it
came through. No answer yet: a CPUT's increment, or an ADD queued at its Sync Unit, is outstanding. -/
def performAt (s : State) (k : Kind) (r : Req) (ctr : Nat × Nat) (pass : Option Nat) : State × Option Ans :=
  let a := r.addr
  match effectCode s k r with
  | .ok =>
    match regionAt s a with
    | .window c x =>
      if k == .cput then
        let n := (s.ctx c x).accept
        let s := s.write a (fit r.data 128) r.poison
        let s := s.updCtx c x (fun q => { q with
          accept := q.accept + 1, slotSrc := Map.put q.slotSrc (n.toNat % 32) r.origin.editSrc,
          landed := q.landed ++ [(n, pass)] })
        (passHold s pass, some { })
      else
        let (s, d, m) := s.read a r.len
        (s, some { data := d, poison := m })
    | .counters c =>
      match counterBlockCode s c k r with
      | .ok =>
        let o := a % 0x10000
        match k with
        | .add =>
          let op : SuOp := { ctr := (o % 0x1000) / 4, dec := o ≥ 0x1000, operand := r.operand.toNat % 2 ^ 32,
                             fetch := r.fetch, origin := r.origin, tenant := r.tenant.toNat, pass := pass,
                             tag := r.tag, cycle := r.cycle }
          let (s, ans) := suRequest s c op
          (if ans.isNone then passHold s pass else s, ans)
        | .put => (armWrite s c ((o - 0x3000) / 16) (leNat (fit r.data 16)), some { })
        | _ => (s, some { data := counterBytes s c o r.len })
      | code => (s, some { code := code })
    | _ =>
      let (s, ans) := performData s k r
      if k == .cput && ans.code == .ok then
        let i : PendIncr := { core := ctr.1, ctr := ctr.2, pass := pass, origin := r.origin, tag := r.tag,
                              cycle := r.cycle, tenant := r.tenant.toNat }
        (passHold { s with remote := { s.remote with incrs := s.remote.incrs ++ [i] } } pass, none)
      else (s, some ans)
  | code => (s, some { code := code })

/-- An accepted request is performed, its data and those of its answer crossing the fabric between the requester and the
target (R17, Table 18-2). -/
def performVia (s : State) (k : Kind) (r : Req) (ctr : Nat × Nat) (pass : Option Nat) : State × Option Ans :=
  let src := originAgent s r.origin
  let dst := addressAgent s r.addr
  let put := k == .put || k == .cput
  let (s, d, m) := if put then crossFabric s src dst r.data r.poison else (s, r.data, r.poison)
  let (s, ans) := performAt s k { r with data := d, poison := m } ctr pass
  match ans with
  | none => (s, none)
  | some a =>
    let (s, d, m) := crossFabric s dst src a.data a.poison
    (s, some { a with data := d, poison := m })

/-! ## Requests from inside the block (R472) -/

/-- The checks of R472 in their order. -/
def insideCode (s : State) (k : Kind) (r : Req) : FC :=
  let a := r.addr
  let n := k.span r
  let m := mapCheck s a n
  let reg := regionAt s a
  let slot : FC := match reg with
    | .window c x => slotCode s c x k a n
    | _ => .ok
  let lim : FC := match reg with
    | .counters c => counterBlockCode s c k r
    | _ => .ok
  let inWindow := match reg with
    | .window _ _ => true
    | _ => false
  if m != .ok then m
  else if effectCode s k r == .targetReset then .targetReset
  else if slot != .ok then slot
  else if sizeCode k r != .ok then sizeCode k r
  else if lim != .ok then lim
  else if k == .cput && !inWindow && !s.corePresent r.ctrCore.toNat then .unitAbsent
  else .ok

/-- A local request from inside the block (R19, R472).
DEDUCED (notes/assumptions/80.md). -/
def serveInside (s : State) (k : Kind) (r : Req) : State × Option Ans :=
  match insideCode s k r with
  | .ok => performVia s k r (r.ctrCore.toNat, r.ctr.toNat) none
  | code => (s, some { code := code })

/-! ## Requests to other nodes (R294, R301, R311, R361) -/

/-- The window epoch of the lowest-numbered entry in use with HOST_AP = 0 that covers a global address (R311, R312). -/
def rwtStamp (s : State) (target : Nat) : Option (BitVec 8) :=
  firstSome s.remote.rwt (fun p =>
    let e := p.2
    if bit e.attr 16 && !bit e.attr 17 && e.size != 0 && e.base ≤ target && target < e.base + e.size then
      some (BitVec.ofNat 8 e.attr)
    else none)

/-- A request from inside to another node or to the host. An answer given here means that nothing was sent, or that the
request is complete. -/
def sendOut (s : State) (k : Kind) (r : Req) (iss : Issuer) (who : ReplyFor) : State × Option Ans :=
  let n := r.node
  if n = 0xFFFF then
    if (k != .put && k != .cput) || sizeCode k r != .ok then (s, some { code := .valueRange })
    else if !s.sys.hpUp then (s, some { code := .nodeUnreachable })
    else (s.emit (.hostMwr r.addr (fit r.data r.len) r.poison), some { })
  else if sizeCode k r != .ok then (s, some { code := .valueRange })
  else
    match routeOf s n with
    | none => (s, some { code := .nodeUnreachable })
    | some _ =>
      match rwtStamp s r.target.toNat with
      | none => (s, some { code := .windowClosed })
      | some we =>
        let key := iss.streamCode * 65536 + n
        let q := Map.get s.remote.sseq key 0
        let ue := unitEpoch s iss.unit
        let out : OutReq := { num := s.remote.nextReq, opCode := k.code, req := r, unit := iss.unit, uepoch := ue,
                              node := n, who := who }
        let sent := { r with origin := .arrival s.form.node (BitVec.ofNat 16 iss.streamCode) q we ue }
        let s := { s with remote := { s.remote with
          sseq := Map.put s.remote.sseq key (q + 1), nextReq := s.remote.nextReq + 1, out := s.remote.out ++ [out] } }
        (sendVia s n (fun p => .linkReq p out.num k.code sent), none)

/-! ## Completion words (R301, R313) -/

/-- A completion word is sent by the block's completion writer; `tag` names the context it reports to (Req.tag). What
becomes of the word is its writer's reply. -/
def sendCompletion (s : State) (c : Compl) (word : Nat) (tag : Nat) (tenant : Nat := 0) : State × Option Ans :=
  if c.addr = 0 then (s, some { })
  else
    let k : Kind := if c.ctr.isSome then .cput else .put
    let r : Req := { origin := .inside .writer, target := c.addr, len := 8, data := natLe 8 word, tag := tag,
                     tenant := BitVec.ofNat 12 tenant, ctr := (c.ctr.map Prod.snd).getD 0,
                     ctrCore := (c.ctr.map Prod.fst).getD 0 }
    if isLocal s r.node then serveInside s k r else sendOut s k r .writer .posted

/-- The completion word of a command of a context: the code in bits [15:0], a count in bits [63:32] (R63, R182, R316). -/
def completeCmd (s : State) (c x : Nat) (compl : Compl) (code : FC) (count : Nat) : State :=
  (sendCompletion s compl (count % 2 ^ 32 * 2 ^ 32 + code.value) (8 * c + x + 1) (s.ctx c x).tenant).1

/-! ## Remote operation commands at their end (R316, R442) -/

/-- A scoreboard place is given up (R176). -/
def sbRelease (s : State) (c x : Nat) (num : U32) : State :=
  s.updCore c (fun k => { k with scoreboard := k.scoreboard.filter (fun p => !(p.ctx == x && p.num == num)) })

/-- An issued command leaves the context's list. -/
def unissue (s : State) (c x : Nat) (num : U32) : State :=
  ctxSettle (s.updCtx c x (fun q => { q with issued := q.issued.filter (fun i => i.num != num) })) c x

/-- Writes the leading words of data at an offset of core c's own scratchpad. -/
def landLocal (s : State) (c off : Nat) (d : List Byte) (m : List Bool) : State :=
  s.write (scratchAddr c off) d m (some (c / 8))

/-- The reply of a remote operation command is used (R316): data lands at LOCAL, the completion word goes out, the
context faults when the code or the trap says so. -/
def ropEnd (s : State) (c x : Nat) (num : U32) (ans : Ans) : State :=
  match (s.ctx c x).issued.find? (fun i => i.num == num && i.kind == .remoteOp) with
  | none => s
  | some i =>
    let (op, loc, fetch) := i.rop.getD (0, 0, 0)
    let first := ans.poison.findIdx id
    let trapped := ans.code == .ok && op == 2 && i.trap && ans.poison.any id
    let s :=
      if ans.code != .ok then s
      else if op = 2 then
        if trapped then (if first = 0 then s else landLocal s c loc (ans.data.take (16 * first)) [])
        else landLocal s c loc ans.data ans.poison
      else if (op = 4 || op = 5) && fetch = 1 then landLocal s c loc (fit ans.data 16) []
      else s
    let code := if trapped then .dataPoisoned else ans.code
    let s := completeCmd s c x i.compl code (if op = 6 then leNat (ans.data.take 4) else 0)
    let s := unissue (sbRelease s c x num) c x num
    if code = .ok || (code = .dataPoisoned && !i.trap) then s else faultCtx s c x code

/-! ## Answers -/

/-- Target, tenant and operation of an arrival, kept as its tag until it is answered. -/
def headTag (k : Kind) (r : Req) : Nat := (r.target.toNat * 4096 + r.tenant.toNat) * 256 + k.code

/-- The reply to a request as it leaves the block; the tag of an arrival holds target, tenant and operation. -/
def replyOut (o : Origin) (tag : Nat) (ans : Ans) : Output :=
  match o with
  | .arrival _ _ _ _ _ => .reply o (tag / 2 ^ 20) (tag / 256 % 4096) (tag % 256) ans.code ans.data ans.poison
  | .inside _ => .reply o 0 0 0 ans.code ans.data ans.poison

/-- The tag of a host transaction: its kind, TAG and RID. -/
def hostTag (kind tag rid : Nat) : Nat := (kind * 2 ^ 14 + tag) * 2 ^ 16 + rid

/-- A host transaction is completed (R321, R400, R401): a write is posted, a read or FetchAdd gets its data or an
unsupported-request completion; while the host link is down the completion is discarded. -/
def hostAnswer (s : State) (tag : Nat) (ans : Ans) : State :=
  let kind := tag / 2 ^ 30
  let t := tag / 2 ^ 16 % 2 ^ 14
  let rid := tag % 2 ^ 16
  if kind = 0 || !s.sys.hpUp then s
  else if ans.code != .ok then (s.emit (.hostCplUr t rid)).bump .hpUrCount
  else if kind = 1 then s.emit (.hostCpl t rid ans.data ans.poison)
  else s.emit (.hostCpl t rid (fit ans.data (if kind = 2 then 4 else 8)) ans.poison)

/-- An answer goes to the requester. A counter operation refused under R325 faults the context behind it (R327). -/
def answer (s : State) (o : Origin) (tag : Nat) (ans : Ans) : State :=
  match o with
  | .arrival node _ _ _ _ => if node = 0xFFFF then hostAnswer s tag ans else s.emit (replyOut o tag ans)
  | .inside (.remoteOp c x) =>
    if (s.ctx c x).issued.any (fun i => i.num.toNat == tag && i.kind == .remoteOp) then
      ropEnd s c.val x.val (BitVec.ofNat 32 tag) ans
    else
      let s := s.emit (replyOut o tag ans)
      if ans.code = .syncOverflow || ans.code = .syncUnderflow then faultCtx s c x ans.code else s
  | .inside .writer =>
    if ans.code = .syncOverflow || ans.code = .syncUnderflow then
      match faultContext o tag with
      | some (c, x) => faultCtx s c x ans.code
      | none => s
    else s
  | .inside (.stream c x _) =>
    let s := s.emit (replyOut o tag ans)
    if ans.code = .syncOverflow || ans.code = .syncUnderflow then faultCtx s c x ans.code else s
  | .inside (.ccCore _) => s.emit (replyOut o tag ans)

/-- An answer, if there is one yet. -/
def answer? (s : State) (o : Origin) (tag : Nat) (ans : Option Ans) : State :=
  match ans with
  | some a => answer s o tag a
  | none => s

/-- Who takes the reply of a request that a row sends from inside. -/
def replyForOf (i : Issuer) (tag : Nat) : ReplyFor :=
  match i with
  | .stream c _ s => .stream c s
  | .remoteOp c x => .remoteOp c x (BitVec.ofNat 32 tag)
  | .ccCore _ => .firmware
  | .writer => .posted

/-- A request of an agent inside the block is issued and, as far as it is complete, answered (R294). -/
def issueInside (s : State) (k : Kind) (r : Req) (i : Issuer) : State :=
  if isLocal s r.node then
    let (s, ans) := serveInside s k r
    answer? s r.origin r.tag ans
  else
    let (s, ans) := sendOut s k r i (replyForOf i r.tag)
    answer? s r.origin r.tag ans

/-! ## Arrivals (R305, R361) -/

/-- An arrival is checked and performed or refused (R305). -/
def serveArrival (s : State) (k : Kind) (r : Req) (node : Nat) (wepoch : BitVec 8) : State × Option Ans :=
  let (code, p) := arrivalCode s k r node wepoch
  if code = .ok then
    let h := s.pass p
    let s := s.updPass p (fun h => { h with arrivals := h.arrivals + 1 })
    let m := mapCheck s r.addr (k.span r)
    if m = .ok then performVia s k r (bits h.rights 24 5, bits h.rights 16 8 + r.ctr.toNat) (some p)
    else (s, some { code := m })
  else
    let pn := (passAt s r.addr [.opened, .draining]).getD 0xFFFF
    (logRefusal s r.addr node r.tenant.toNat pn k.code wepoch.toNat code (k.span r), some { code := code })

/-- An admitted arrival is performed and answered. -/
def admitNow (s : State) (k : Kind) (r : Req) : State :=
  match r.origin with
  | .arrival node _ _ we _ =>
    let (s, ans) := serveArrival s k r node.toNat we
    answer? s r.origin r.tag ans
  | .inside _ => s

/-- Held requests of a pair that are next in order are admitted one after another (R361). -/
def drainHeld (fuel : Nat) (s : State) (node stream : U16) : State :=
  match fuel with
  | 0 => s
  | f + 1 =>
    match s.remote.pairs.find? (fun p => p.node == node && p.stream == stream) with
    | none => s
    | some p =>
      match p.held.find? (fun h => h.sseq == p.nextSeq) with
      | none => s
      | some h =>
        let p' := { p with nextSeq := p.nextSeq + 1, held := p.held.filter (fun g => g.sseq != h.sseq) }
        let s := { s with remote := { s.remote with
          pairs := s.remote.pairs.map (fun q => if q.node == node && q.stream == stream then p' else q) } }
        let s := match Kind.ofCode? h.opCode with
          | some k => admitNow s k h.req
          | none => s
        drainHeld f s node stream

/-- The tracked pairs with one moved to the most recently used end; beyond 8,192 the least recently used pair without a
gap is released (R361). -/
def touchPair (ps : List Pair) (p : Pair) : List Pair :=
  let others := ps.filter (fun q => !(q.node == p.node && q.stream == p.stream))
  let others := if others.length < 8192 then others
    else others.eraseIdx (others.findIdx (fun q => q.held.isEmpty))
  others ++ [p]

/-- A request arrives over a link or from the Host Port: admitted in its stream's order, held for a missing predecessor,
or discarded when its number was admitted or declared lost before (R361). A pair that is not tracked starts at the
number that arrives. -/
def arrive (s : State) (k : Kind) (r : Req) (node stream sseq : U16) : State :=
  let known := s.remote.pairs.find? (fun p => p.node == node && p.stream == stream)
  let p : Pair := known.getD { node := node, stream := stream, nextSeq := sseq }
  let ahead := sseq - p.nextSeq
  if ahead = 0 then
    let s := { s with remote := { s.remote with pairs := touchPair s.remote.pairs { p with nextSeq := sseq + 1 } } }
    drainHeld (p.held.length + 1) (admitNow s k r) node stream
  else if ahead.toNat < 0x8000 then
    let h : HeldReq := { sseq := sseq, opCode := k.code, req := r }
    let held := p.held.filter (fun g => g.sseq != sseq) ++ [h]
    { s with remote := { s.remote with pairs := touchPair s.remote.pairs { p with held := held } } }
  else s

/-- A request from another block reaches this one: its own, one for the host, or one to pass on (R293, R354). Before
enumeration it is dropped (R350). -/
def linkArrival (s : State) (k : Kind) (r : Req) (node stream sseq : U16) : State :=
  if !s.form.committed then s
  else if isLocal s r.node then arrive s k { r with tag := if node = 0xFFFF then r.tag else headTag k r } node stream sseq
  else if r.node = 0xFFFF then
    if (k == .put || k == .cput) && s.sys.hpUp then
      (s.emit (.hostMwr r.addr (fit r.data r.len) r.poison)).emit (replyOut r.origin (headTag k r) { })
    else s.emit (replyOut r.origin (headTag k r)
      { code := if k == .put || k == .cput then .nodeUnreachable else .valueRange })
  else sendVia s r.node (fun p => .relay p k.code r)

/-- A remote memory operation is presented to the block (R294). -/
def request (s : State) (k : Kind) (r : Req) : State :=
  match r.origin with
  | .inside i => issueInside s k r i
  | .arrival node stream sseq _ _ => linkArrival s k r node stream sseq

/-! ## The six operations as commands (Table 12-1) -/

/-- PUT (R295). -/
def execPut (r : Req) (s : State) : Host.Outcome State Fault Refusal := .next (request s .put r)

/-- GET (R295). -/
def execGet (r : Req) (s : State) : Host.Outcome State Fault Refusal := .next (request s .get r)

/-- CPUT (R295, R301). -/
def execCput (r : Req) (s : State) : Host.Outcome State Fault Refusal := .next (request s .cput r)

/-- ADD (R295 to R297, R325). -/
def execAdd (r : Req) (s : State) : Host.Outcome State Fault Refusal := .next (request s .add r)

/-- MAX (R295 to R297). -/
def execMax (r : Req) (s : State) : Host.Outcome State Fault Refusal := .next (request s .max r)

/-- CMPCNT as a remote memory operation (R295, R180). -/
def execCmpcnt (r : Req) (s : State) : Host.Outcome State Fault Refusal := .next (request s .cmpcnt r)

/-! ## Increments, counting, losses and replies -/

/-- COUNTED_INCREMENT (R300): the increment of the n-th outstanding CPUT becomes visible, and its requester is
answered. -/
def execCountedIncrement (n : Nat) (s : State) : Host.Outcome State Fault Refusal :=
  match s.remote.incrs[n]? with
  | none => .next s
  | some i =>
    let s := { s with remote := { s.remote with incrs := s.remote.incrs.eraseIdx n } }
    if (s.core i.core).inReset then .next (answer (passDone s i.pass) i.origin i.tag { code := .targetReset })
    else
      let op : SuOp := { ctr := i.ctr, dec := false, operand := 1, fetch := false, origin := i.origin,
                         tenant := i.tenant, pass := i.pass, tag := i.tag, cycle := i.cycle, kind := 3 }
      let (s, ans) := suRequest s i.core op
      .next (match ans with
        | some a => answer (passDone s i.pass) i.origin i.tag a
        | none => s)

/-- The queue of a Sync Unit has 64 places: the operation that was held before it enters when a place frees, and waits in the
queue from then on (R326). -/
def suAdmit (q : List SuOp) (cycle : Nat) : List SuOp := q.modify 63 (fun o => { o with cycle := cycle })

/-- SU_QUEUE_APPLY (R326): the oldest queued operation of a core applies in a cycle, if fewer than four have. -/
def execSuQueueApply (core : Fin 32) (cycle : Nat) (s : State) : Host.Outcome State Fault Refusal :=
  let k := s.core core
  let used := if k.suCycle = cycle then k.suCount else 0
  match k.suQ with
  | [] => .next s
  | op :: rest =>
    if used ≥ 4 then .next s
    else
      let s := s.updCore core (fun k => { k with suQ := suAdmit rest cycle, suCycle := cycle, suCount := used + 1 })
      let s := s.bump .suQueueCycles core 0 (cycle - op.cycle)
      let (s, old, code) := counterApply s core op.ctr op.dec op.operand
      .next (answer (passDone s op.pass) op.origin op.tag
        { code := code, data := if op.fetch then natLe 4 old.toNat else [] })

/-- COMMAND_COUNTED (R317): the command numbered CTX_CMD_COUNT is counted once its bytes have landed; the core leaves
Recess (R336). -/
def execCommandCounted (core : Fin 32) (ctx : Fin 8) (s : State) : Host.Outcome State Fault Refusal :=
  let q := s.ctx core ctx
  match q.landed.find? (fun p => p.1 == q.count) with
  | none => .next s
  | some (n, pass) =>
    let s := s.updCtx core ctx (fun q => { q with
      count := q.count + 1, landed := q.landed.filter (fun p => p.1 != n) })
    .next (ctxSettle (leaveRecess (passDone s pass) core) core ctx)

/-- A held CPUT whose predecessor was declared lost is performed as a PUT and answered with FC_NODE_UNREACHABLE
(R361). -/
def admitAfterLoss (s : State) (h : HeldReq) : State :=
  match Kind.ofCode? h.opCode, h.req.origin with
  | some .cput, .arrival node _ _ we _ =>
    let (s, ans) := serveArrival s .put h.req node.toNat we
    let code := match ans with
      | some a => if a.code = .ok then .nodeUnreachable else a.code
      | none => .nodeUnreachable
    answer s h.req.origin h.req.tag { code := code }
  | some k, _ => admitNow s k h.req
  | none, _ => s

/-- The held request with the least distance from a number. -/
def nearest (base : U16) (hs : List HeldReq) : Option HeldReq :=
  hs.foldl (fun best h => match best with
    | none => some h
    | some b => if (h.sseq - base).toNat < (b.sseq - base).toNat then some h else best) none

/-- SEQ_GAP_TIMEOUT (R361): the missing numbers before the first held request are declared lost, FORM_SEQ_LOST counts
them, and the held requests that now follow in order are admitted. -/
def execSeqGapTimeout (node stream : U16) (s : State) : Host.Outcome State Fault Refusal :=
  match s.remote.pairs.find? (fun p => p.node == node && p.stream == stream) with
  | none => .next s
  | some p =>
    match nearest p.nextSeq p.held with
    | none => .next s
    | some h =>
      let lost := (h.sseq - p.nextSeq).toNat
      let p' := { p with nextSeq := h.sseq + 1, held := p.held.filter (fun g => g.sseq != h.sseq) }
      let s := { s with remote := { s.remote with pairs := s.remote.pairs.map (fun (q : Pair) =>
        if q.node == node && q.stream == stream then p' else q) } }
      let s := s.bump .formSeqLost 0 0 lost
      .next (drainHeld (p'.held.length + 1) (admitAfterLoss s h) node stream)

end Sys2Proof.Machine
end

