-- ==== Sys2Proof/Machine/Scratchpad.lean ====
section
/-!
DEFINITION. Scratchpad ports and scoreboard, the memory-side unit, weight lines and their scrubber, the Commons and
multicast (chapter 7).
-/

namespace Sys2Proof.Machine

open Sys2Proof

/-! ## Ports and slots (R170, R171, R173) -/

/-- Owner of slot k of core c's Timetable under the map in force. -/
def slotOwner (s : State) (c k : Nat) : Nat := bits (s.ent .ttSlotMap c) (4 * k) 4

/-- Slots that a port code owns. -/
def portSlots (s : State) (c port : Nat) : Nat := ((List.range 8).filter (fun k => slotOwner s c k == port)).length

/-- Whether an open slot exists. -/
def hasOpenSlot (s : State) (c : Nat) : Bool := portSlots s c 0xF != 0

/-! ## Scoreboard (R175 to R177) -/

/-- Whether two row ranges (first row, rows) share a row. -/
def rowsMeet (a b : Nat × Nat) : Bool := a.1 < b.1 + b.2 && b.1 < a.1 + a.2

/-- The first row that some range of the first list shares with one of the second. -/
def firstShared (as bs : List (Nat × Nat)) : Option Nat :=
  (as.flatMap (fun a => (bs.filter (rowsMeet a)).map (fun b => Nat.max a.1 b.1))).foldl
    (fun m r => match m with
      | none => some r
      | some x => some (Nat.min x r)) none

/-- The first row in which a command's ranges conflict with those in flight (R176). -/
def sbConflict (s : State) (c : Nat) (reads writes : List (Nat × Nat)) : Option Nat :=
  let places := (s.core c).scoreboard
  let w := places.flatMap (fun p => p.writes)
  let r := places.flatMap (fun p => p.reads)
  match firstShared (reads ++ writes) w, firstShared writes r with
  | some x, some y => some (Nat.min x y)
  | some x, none => some x
  | none, y => y

/-- Whether all 16 places are held. -/
def sbFull (s : State) (c : Nat) : Bool := (s.core c).scoreboard.length ≥ 16

/-- Whether an unscheduled command may issue now. -/
def sbFree (s : State) (c : Nat) (reads writes : List (Nat × Nat)) : Bool :=
  !sbFull s c && (sbConflict s c reads writes).isNone

/-- A command takes a place. -/
def sbTake (s : State) (c x : Nat) (num : U32) (reads writes : List (Nat × Nat)) : State :=
  s.updCore c (fun k => { k with
    scoreboard := k.scoreboard ++ [{ ctx := x, num := num, reads := reads, writes := writes }] })

/-- The rows that n bytes from a scratchpad offset cover. -/
def rowsOf (off n : Nat) : List (Nat × Nat) :=
  if n = 0 then [] else [(off / 1024, (off + n - 1) / 1024 - off / 1024 + 1)]

/-! ## Command descriptors -/

/-- Word i of a 128-byte command. -/
def cmdWord (d : BitVec 1024) (i : Nat) : Nat := d.toNat / 2 ^ (64 * i) % 2 ^ 64

/-- The completion of a command of a context: COMPL_ADDR, and the counter CTX_CMPL_CTR names now (R313). -/
def complOf (s : State) (c x : Nat) (d : BitVec 1024) : Compl :=
  let v := s.ent .ctxCmplCtr c x
  { addr := BitVec.ofNat 64 (cmdWord d 4),
    ctr := some (BitVec.ofNat 5 (bits v 8 5), BitVec.ofNat 8 (bits v 0 8)) }

/-- A command of a context is refused: its completion word carries the code and the context faults (R438). -/
def refuseCmd (s : State) (c x : Nat) (compl : Compl) (code : FC) : State :=
  faultCtx (completeCmd s c x compl code 0) c x code

/-- A taken command waits to issue (R176); `hazard` tells that its marking has been reported as wrong (R177). -/
def parkCmd (s : State) (c x : Nat) (num : U32) (d : BitVec 1024) (compl : Compl) (hazard : Bool := false) : State :=
  s.updCtx c x (fun q => { q with waiting := some { num := num, desc := d, compl := compl, hazard := hazard } })

/-- A command enters the context's list of issued commands, and the context runs. -/
def issued (s : State) (c x : Nat) (i : Issued) : State :=
  ctxSettle (s.updCtx c x (fun q => { q with issued := q.issued ++ [i], waiting := none })) c x

/-! ## The memory-side unit (R179 to R182) -/

/-- Fields of a memory-side command (Table 7-5). -/
def msuOf (x : Nat) (num : U32) (d : BitVec 1024) (compl : Compl) : MsuCmd :=
  let w := cmdWord d
  { ctx := x, num := num, op := bits (w 0) 8 8, dst := bits (w 1) 0 24, src := bits (w 2) 0 24, len := bits (w 3) 0 24,
    elem := bits (w 0) 16 4, pred := [Pred.eq, .ne, .ltu, .geu].getD (bits (w 0) 20 2) .eq,
    value := BitVec.ofNat 128 (w 5 + w 6 * 2 ^ 64), mask := BitVec.ofNat 128 (w 7 + w 8 * 2 ^ 64),
    trap := bit (w 0) 24, compl := compl }

/-- The checks of R181 in their order. -/
def msuCode (d : BitVec 1024) (m : MsuCmd) : FC :=
  let w := cmdWord d
  let resv := bits (w 0) 25 39 != 0 || bits (w 0) 22 2 != 0 || bits (w 1) 24 40 != 0 || bits (w 2) 24 40 != 0 ||
    bits (w 3) 24 40 != 0 || (List.range 7).any (fun i => w (9 + i) != 0)
  let predN := bits (w 0) 20 2
  let unused := match m.op with
    | 1 => m.src != 0 || m.elem != 0 || predN != 0 || m.mask != 0
    | 2 => m.elem != 0 || predN != 0 || m.value != 0 || m.mask != 0
    | 3 => m.dst != 0
    | _ => true
  let badRange := fun (o : Nat) => o % 16 != 0 || o + m.len > scratchSize
  if resv || unused then .reservedNonzero
  else if m.elem > 4 then .valueRange
  else if m.len = 0 || m.len % 16 != 0 then .scratchRange
  else if m.op != 3 && badRange m.dst then .scratchRange
  else if m.op != 1 && badRange m.src then .scratchRange
  else .ok

/-- Declared ranges of a memory-side command (R179). -/
def msuReads (m : MsuCmd) : List (Nat × Nat) := if m.op = 1 then [] else rowsOf m.src m.len
/-- Declared ranges of a memory-side command (R179). -/
def msuWrites (m : MsuCmd) : List (Nat × Nat) := if m.op = 3 then [] else rowsOf m.dst m.len

/-- The source of a COPY or CMPCNT: all of it, or with TRAP_POISON the words up to and including the first poisoned one, behind
which nothing is read (R181). -/
def msuRead (s : State) (c : Nat) (m : MsuCmd) : State × List Byte × List Bool :=
  (List.range (m.len / 16)).foldl (fun (q : State × List Byte × List Bool) i =>
    if m.trap && q.2.2.any id then q
    else
      let (s, d, marks) := q.1.read (scratchAddr c m.src + 16 * i) 16
      (s, q.2.1 ++ d, q.2.2 ++ marks)) (s, [], [])

/-- A memory-side command starts: its effect on the scratchpad, and the code and count it will report (R180, R181).
DEDUCED (notes/assumptions/64.md). -/
def msuStart (s : State) (c : Nat) (m : MsuCmd) : State :=
  let begin_ := fun (s : State) (code : FC) (count : Nat) =>
    s.updCore c (fun k => { k with msu := some { cmd := m, code := code, count := count } })
  if m.op = 1 then
    let data := (List.replicate (m.len / 16) (natLe 16 m.value.toNat)).flatten
    begin_ (landLocal s c m.dst data []) .ok 0
  else
    let (s, d, marks) := msuRead s c m
    let trapped := m.trap && marks.any id
    let d' := if trapped then d.take (d.length - 16) else d
    let marks' := if trapped then marks.take (marks.length - 1) else marks
    if m.op = 2 then
      let s := if d'.isEmpty then s else landLocal s c m.dst d' marks'
      begin_ s (if trapped then .dataPoisoned else .ok) 0
    else
      let n := countWords m.elem m.pred m.value.toNat m.mask.toNat d' marks'
      begin_ s (if marks.any id then .dataPoisoned else .ok) n

/-- A memory-side command issues on the context's core, waits, or is refused (R174, R176, R179, R181). -/
def issueMsu (s : State) (c x : Nat) (num : U32) (d : BitVec 1024) (compl : Compl) : State :=
  let m := msuOf x num d compl
  match msuCode d m with
  | .ok =>
    if portSlots s c 7 = 0 && !hasOpenSlot s c then refuseCmd s c x compl .ttNoSlot
    else if !sbFree s c (msuReads m) (msuWrites m) then parkCmd s c x num d compl
    else
      let s := issued (sbTake s c x num (msuReads m) (msuWrites m)) c x
        { num := num, kind := .msu, compl := compl, trap := m.trap }
      if (s.core c).msu.isNone then msuStart s c m else s.updCore c (fun k => { k with msuQ := k.msuQ ++ [m] })
  | code => refuseCmd s c x compl code

/-- A context that can issue a command now: not faulted, none of its commands waits, and its core takes commands (R176,
R438, R445, R452); a core that is absent has no commands (R13). -/
def canIssue (s : State) (c x : Nat) : Bool :=
  s.corePresent c && (s.ctx c x).state != .faulted && (s.ctx c x).waiting.isNone && !(s.core c).clearing && !(s.core c).inReset

/-- A descriptor with its operation byte (bits [15:8] of word 0) and class set. -/
def asOp (cls op : Nat) (d : BitVec 1024) : BitVec 1024 :=
  BitVec.ofNat 1024 (putBits (putBits d.toNat 0 8 cls) 8 8 op)

/-- FILL (R180). -/
def execFill (core : Fin 32) (ctx : Fin 8) (num : U32) (d : BitVec 1024) (s : State) :
    Host.Outcome State Fault Refusal :=
  .next (if canIssue s core ctx then issueMsu s core ctx num (asOp 4 1 d) (complOf s core ctx d) else s)

/-- COPY (R180). -/
def execCopy (core : Fin 32) (ctx : Fin 8) (num : U32) (d : BitVec 1024) (s : State) :
    Host.Outcome State Fault Refusal :=
  .next (if canIssue s core ctx then issueMsu s core ctx num (asOp 4 2 d) (complOf s core ctx d) else s)

/-- CMPCNT as a memory-side command (R180). -/
def execMsCmpcnt (core : Fin 32) (ctx : Fin 8) (num : U32) (d : BitVec 1024) (s : State) :
    Host.Outcome State Fault Refusal :=
  .next (if canIssue s core ctx then issueMsu s core ctx num (asOp 4 3 d) (complOf s core ctx d) else s)

/-- MSU_COMMAND_END (R179, R182): the running command reports and retires, its context faults when its trap fired
(R442), and the next one starts. -/
def execMsuCommandEnd (core : Fin 32) (s : State) : Host.Outcome State Fault Refusal :=
  match (s.core core).msu with
  | none => .next s
  | some run =>
    let m := run.cmd
    let s := s.updCore core (fun k => { k with msu := none })
    let s := completeCmd s core m.ctx m.compl run.code run.count
    let s := unissue (sbRelease s core m.ctx m.num) core m.ctx m.num
    let s := if run.code = .dataPoisoned && m.trap then faultCtx s core m.ctx .dataPoisoned else s
    .next (match (s.core core).msuQ with
      | [] => s
      | n :: rest => msuStart (s.updCore core (fun k => { k with msuQ := rest })) core n)

/-! ## Weight lines (R185 to R187) -/

/-- A weight fill: whole aligned lines from an offset of core c, with HOME of the first line and the CRC over the data as
it lands, or the one given (R185). Words that arrive marked stay marked. -/
def weightFill (s : State) (c off : Nat) (data : List Byte) (marks : List Bool) (home : Nat)
    (crcs : Option (List Nat) := none) : State :=
  let a := scratchAddr c off
  let s := s.write a data marks (some (c / 8))
  { s with wtags := (List.range (data.length / 256)).foldl (fun t i =>
      Map.put t (a / 256 + i) { crc := ((crcs.bind (fun l => l[i]?))).getD (crc32c (slice data (256 * i) 256)),
                                home := home / 256 * 256 + 256 * i }) s.wtags }

/-- Whether a landing covers whole aligned 256-byte lines. -/
def wholeLines (off n : Nat) : Bool := off % 256 == 0 && n % 256 == 0 && n != 0

/-- A weight line is damaged: some word of it has an uncorrectable syndrome, or its CRC mismatches (R186). -/
def lineDamaged (s : State) (line : Nat) : Bool :=
  match Map.get? s.wtags (line / 256) with
  | none => false
  | some t =>
    (List.range 16).any (fun i => syndromeOf (Map.get s.syn (line / 16 + i) 0) == .uncorrectable) ||
    crc32c (s.bytes line 256) != t.crc

/-- WEIGHT_REFETCH (R186): a damaged weight line is refetched from HOME, or poisoned after two failures. -/
def execWeightRefetch (core : Fin 32) (line : BitVec 16) (s : State) : Host.Outcome State Fault Refusal :=
  let a := scratchAddr core (256 * (line.toNat % 49152))
  .next (if lineDamaged s a then refetchLine s a else s)

/-- Offsets of the weight lines of core c, in increasing order. -/
def weightLines (s : State) (c : Nat) : List Nat :=
  ((s.wtags.map (fun p => p.1 * 256)).filter (fun a => isScratch a && scratchCore a == c)).map (· % 0x1000000)

/-- SCRUB_VISIT (R187): the next weight line's words are checked and corrected, and the line repaired. A visit after
the last line starts a new pass. -/
def execScrubVisit (core : Fin 32) (s : State) : Host.Outcome State Fault Refusal :=
  if !hasOpenSlot s core then .next s
  else
    let lines := weightLines s core
    let ahead := lines.filter (fun o => (s.core core).scrubAt ≤ o)
    match ahead with
    | [] =>
      if lines.isEmpty then .next s
      else .next ((s.bump .spScrubPasses core).updCore core (fun k => { k with scrubAt := 0 }))
    | o :: rest =>
      let a := scratchAddr core o
      let s := s.settle a 256
      let s := if lineDamaged s a then refetchLine s a else s
      let s := s.updCore core (fun k => { k with scrubAt := if rest.isEmpty then 0 else o + 256 })
      .next (if rest.isEmpty then s.bump .spScrubPasses core else s)

/-! ## The Commons (R188 to R192) -/

/-- Set of an HBM address. -/
def commonsSet (a : Nat) : Nat := (a / 256) % 8192

/-- A line installed in a set: into a free unpinned way, else in place of the least recently used one (R188).
DEDUCED (notes/assumptions/65.md). -/
def installLine (c : Cluster) (line : Nat) (data : List Byte) : Cluster :=
  let set := (Map.get c.lines (commonsSet line) []).filter (fun l => l.line != line)
  let ways := (List.range 16).filter (fun w => c.pinWays ≤ w)
  match ways.find? (fun w => !set.any (fun l => l.way == w)) with
  | some w => { c with lines := Map.put c.lines (commonsSet line)
                         (set ++ [{ line := line, epoch := c.commonsEpoch, way := w, data := data }]) }
  | none =>
    match set with
    | [] => c
    | l :: rest => { c with lines := Map.put c.lines (commonsSet line)
                              (rest ++ [{ line := line, epoch := c.commonsEpoch, way := l.way, data := data }]) }

/-- A cached line as a read finds it (R192): its single-bit errors corrected in place; none where a word of it is
uncorrectable. -/
def CLine.corrected (l : CLine) : Option CLine :=
  l.syn.foldl (fun acc p => acc.bind (fun l =>
    match syndromeOf p.2 with
    | .clean => some l
    | .checkBit _ => some l
    | .dataBit j =>
      let b := 16 * p.1 + j / 8
      some { l with data := l.data.set b (l.data.getD b 0 ^^^ BitVec.ofNat 8 (2 ^ (j % 8))) }
    | .poison => none
    | .uncorrectable => none)) (some { l with syn := [] })

/-- A line fetched from HBM for a cluster, and installed when it is clean (R188, R192). -/
def commonsFill (s : State) (k line : Nat) : State × List Byte × List Bool × FC :=
  if mcDown s line 256 then (s, zeros 256, List.replicate 16 false, .mcDown)
  else
    let (s, d, m) := s.read line 256
    let (s, d, m) := crossFabric s (.mcc (mccOf line).1) (.cluster k) d m
    (if m.any id then s else s.updCluster k (fun c => installLine c line d), d, m, .ok)

/-- One line read through a Commons: the copy on a hit, refilled when it is uncorrectable, else HBM's data (R188, R190,
R192). -/
def commonsLine (s : State) (k line : Nat) : State × List Byte × List Bool × FC :=
  let c := s.cluster k
  let set := Map.get c.lines (commonsSet line) []
  match set.find? (fun l => l.line == line && l.epoch == c.commonsEpoch) with
  | some l =>
    let others := set.filter (fun m => m.line != line)
    let s := s.bump .commonsHits k
    match l.corrected with
    | some l' =>
      (s.updCluster k (fun c => { c with lines := Map.put c.lines (commonsSet line) (others ++ [l']) }), l'.data,
        List.replicate 16 false, .ok)
    | none =>
      commonsFill ((s.updCluster k (fun c => { c with lines := Map.put c.lines (commonsSet line) others })).bump
        .commonsEccRefills k) k line
  | none => commonsFill (s.bump .commonsMisses k) k line

/-- A cached read of [a, a + n) by cluster k. -/
def commonsRead (s : State) (k a n : Nat) : State × List Byte × List Bool × FC :=
  if n = 0 then (s, [], [], .ok)
  else
    let first := a / 256 * 256
    let cnt := (a + n - 1) / 256 - a / 256 + 1
    let (s, d, m, code) := (List.range cnt).foldl (fun (acc : State × List Byte × List Bool × FC) i =>
      let (s, d, m, code) := acc
      let (s, d', m', c') := commonsLine s k (first + 256 * i)
      (s, d ++ d', m ++ m', if code = .ok then c' else code)) (s, [], [], .ok)
    let lo := (a - first) / 16
    (s, slice d (a - first) n, (m.drop lo).take ((a + n - 1) / 16 - a / 16 + 1), code)

/-- Whether an HBM range lies in some partition in force (R189). -/
def inPartition (s : State) (a n : Nat) : Bool :=
  s.charts.parts.any (fun p => p.2.base < a + n && a < p.2.base + p.2.size)

/-- A read of local HBM by a core of cluster k, through the Commons when it is cacheable (R189). -/
def hbmRead (s : State) (k : Nat) (cache : Bool) (a n : Nat) : State × List Byte × List Bool × FC :=
  if cache && !inPartition s a n then commonsRead s k a n
  else if mcDown s a n then (s, zeros n, List.replicate (ceilDiv n 16) false, .mcDown)
  else
    let (s, d, m) := s.read a n
    let (s, d, m) := crossFabric s (.mcc (mccOf a).1) (.cluster k) d m
    (s, d, m, .ok)

/-- COMMONS_INVALIDATE (R190): COMMONS_EPOCH + 1, and lines of the old epoch read as misses. -/
def commonsBumpEpoch (s : State) (k : Nat) : State :=
  s.updCluster k (fun c => { c with commonsEpoch := c.commonsEpoch + 1 })

/-- Lines of [a, a + n) leave the Commons of every cluster (R190, a shared frame that is freed). -/
def commonsDropAll (s : State) (a n : Nat) : State :=
  (List.range 4).foldl (fun s k => commonsInvalidate s k a n) s

/-- Base of way w of cluster k's pinned window (R191). -/
def pinWayBase (k w : Nat) : Nat := commonsBase + k * 0x2000000 + w * 0x200000

/-- The words of a range of memory are cleared to zero with no mark. -/
def clearRange (s : State) (a n : Nat) : State :=
  { s with mem := s.mem.filter (fun p => !(a ≤ p.1 && p.1 < a + n)),
           syn := s.syn.filter (fun p => !(a ≤ p.1 * 16 && p.1 * 16 < a + n)),
           wtags := s.wtags.filter (fun p => !(a ≤ p.1 * 256 && p.1 * 256 < a + n)) }

/-- COMMONS_PIN_WAYS takes effect (R191): ways that become pinned lose their lines and are cleared, ways that leave the
pinned set lose their contents. -/
def applyPinWays (s : State) (k p : Nat) : State :=
  let old := (s.cluster k).pinWays
  let s := s.updCluster k (fun c => { c with
    pinWays := p, lines := c.lines.map (fun e => (e.1, e.2.filter (fun l => p ≤ l.way))) })
  let lo := Nat.min old p
  clearRange s (pinWayBase k lo) ((Nat.max old p - lo) * 0x200000)

/-! ## Multicast (R193) -/

/-- The checks of a request with a core mask, in cluster k. -/
def mcastCode (s : State) (k mask : Nat) : FC :=
  if mask % 256 = 0 then .valueRange
  else if (List.range 8).any (fun i => bit mask i && !s.corePresent (8 * k + i)) then .unitAbsent
  else .ok

/-- Data of one request of core `src` landed on every core of its mask in that cluster at one offset; a core under reset gets none and its delivery
ends with FC_TARGET_RESET; the landing counters are outstanding until MULTICAST_LANDED. -/
def mcastDeliver (s : State) (src mask off ctr : Nat) (data : List Byte) (marks : List Bool) (weight : Option Nat) :
    State × FC :=
  (List.range 8).foldl (fun (acc : State × FC) i =>
    let (s, code) := acc
    let c := 8 * (src / 8) + i
    if !bit mask i then (s, code)
    else if (s.core c).inReset then (s, .targetReset)
    else
      let s := match weight with
        | some home => weightFill s c off data marks home
        | none => s.write (scratchAddr c off) data marks (some (src / 8))
      ({ s with mcasts := s.mcasts ++ [{ id := s.mcasts.length, src := src, core := c, ctr := ctr }] }, code)) (s, .ok)

/-- A read of the cluster of core `src` with a core mask (R193). -/
def multicast (s : State) (src mask a n off ctr : Nat) (weight cache : Bool) : State × FC :=
  let k := src / 8
  match mcastCode s k mask with
  | .ok =>
    let m := mapCheck s a n
    if m != .ok then (s, m)
    else if off + n > scratchSize || (weight && !wholeLines off n) then (s, .scratchRange)
    else
      let s := s.bump .mcastRequests k
      let (s, d, marks, code) := if a < hbmEnd then hbmRead s k cache a n
        else
          let (s, d, m) := s.read a n
          (s, d, m, .ok)
      if code != .ok then (s, code)
      else mcastDeliver s src mask off ctr d marks (if weight && a < hbmEnd then some a else none)
  | code => (s, code)

/-- MULTICAST_REQUEST (R193): a read of the cluster of a stream's core with a core mask; the answer goes to the
stream. -/
def execMulticastRequest (core : Fin 32) (ctx : Fin 8) (stream : Fin 16) (mask : BitVec 8) (addr : U64) (len : BitVec 13)
    (off : BitVec 24) (ctr : BitVec 8) (weight cache : Bool) (s : State) : Host.Outcome State Fault Refusal :=
  let r : Req := { origin := .inside (.stream core ctx stream), target := addr, len := len.toNat }
  let code := if !isLocal s r.node then .windowDenied else sizeCode .get r
  if code != .ok then .next (s.emit (replyOut r.origin 0 { code := code }))
  else
    let (s, code) := multicast s core mask.toNat r.addr len.toNat off.toNat ctr.toNat weight cache
    .next (s.emit (replyOut r.origin 0 { code := code }))

/-- MULTICAST_LANDED (R193): the n-th outstanding delivery's last line has landed, and the named counter of its core
increments. -/
def execMulticastLanded (n : Nat) (s : State) : Host.Outcome State Fault Refusal :=
  match s.mcasts[n]? with
  | none => .next s
  | some m => .next (counterApply { s with mcasts := s.mcasts.eraseIdx n } m.core m.ctr false 1).1

end Sys2Proof.Machine
end

