-- ==== Sys2Proof/Machine/Windows.lean ====
section
/-!
DEFINITION. Configuring, opening and closing Hall Passes, the remote window table and the tenants of contexts
(R303, R304, R306 to R308, R311 to R313, R439).
-/

namespace Sys2Proof.Machine

open Sys2Proof

/-- The pass that HP_SELECT names. -/
def hpSel (s : State) : Nat := s.ent .hpSelect

/-- A field of the selected pass is written: only while it is CLOSED (R303). -/
def writePass (s : State) (f : Pass → Pass) : FC × State :=
  if (s.pass (hpSel s)).state = .closed then (.ok, s.updPass (hpSel s) f) else (.windowBusy, s)

/-- Checks 3 and 4 of R304: the range stays in one instance of one row of Table 1-6, on bytes that R20 maps, and its
unit exists. -/
def spanCode (s : State) (a n : Nat) : FC :=
  if a < hbmEnd then
    if a / 0x9000000000 = (a + n - 1) / 0x9000000000 && a + n ≤ hbmEnd then .ok else .addrUnmapped
  else if counterBase ≤ a && a < counterBase + 0x200000 then
    if a % 0x10000 + n > 0x10000 then .addrUnmapped
    else if s.corePresent (a % 0x200000 / 0x10000) then .ok else .unitAbsent
  else if windowBase ≤ a && a < windowBase + 0x100000 then
    if a % 0x1000 + n > 0x1000 then .addrUnmapped
    else if s.corePresent (a % 0x100000 / 0x8000) then .ok else .unitAbsent
  else mapCheck s a n

/-- Whether [a, a + n) meets the command windows. -/
def meetsWindows (a n : Nat) : Bool := a < windowBase + 0x100000 && windowBase < a + n

/-- Check 7 of R304. -/
def rightsOk (s : State) (h : Pass) : Bool :=
  if bit h.rights 7 then
    windowBase ≤ h.base && h.base < windowBase + 0x100000 && h.size == 0x1000 && bits h.rights 8 21 == 0 &&
      bit h.rights 2 && !bit h.rights 1 && !bit h.rights 3 && !bit h.rights 4 && !bit h.rights 5
  else
    bits h.rights 16 8 + bits h.rights 8 8 ≤ 256 &&
      (bits h.rights 8 8 == 0 || s.coreFused (bits h.rights 24 5))

/-- The checks of R304 in their order, with R308 beside the first.
DEDUCED (notes/assumptions/81.md). -/
def openCode (s : State) (n : Nat) : FC :=
  let h := s.pass n
  let early := match h.lastOpen with
    | some t => s.sys.uptime < t + s.ent .hpReopenMin
    | none => false
  if h.state != .closed || early then .windowBusy
  else if h.base % 4096 != 0 || h.size % 4096 != 0 || h.size = 0 then .valueRange
  else if spanCode s h.base h.size != .ok then spanCode s h.base h.size
  else if inDescTable s h.base h.size || (!bit h.rights 7 && meetsWindows h.base h.size) then .accessDenied
  else if s.remote.passes.any (fun p => p.1 != n && p.2.state != .closed &&
      p.2.base < h.base + h.size && h.base < p.2.base + p.2.size) then .windowOverlap
  else if !rightsOk s h then .valueRange
  else .ok

/-- OPEN (R304): the pass takes the next epoch. -/
def openPass (s : State) (n : Nat) : FC × State :=
  match openCode s n with
  | .ok => (.ok, s.updPass n (fun h => { h with
      state := .opened, epoch := h.epoch + 1, lastOpen := some s.sys.uptime }))
  | c => (c, s)

/-- CLOSE (R306): an OPEN pass drains. -/
def closePass (s : State) (n : Nat) : FC × State :=
  if (s.pass n).state = .opened then (.ok, s.updPass n (fun h => { h with state := .draining })) else (.windowBusy, s)

/-- HP_DRAINED (R306): a draining pass whose accepted operations are all performed becomes CLOSED. -/
def execHpDrained (p : BitVec 10) (s : State) : Host.Outcome State Fault Refusal :=
  let h := s.pass p.toNat
  .next (if h.state = .draining && h.inflight = 0 then s.updPass p.toNat (fun h => { h with state := .closed }) else s)

/-- A forced reset of a core closes, without drain, the passes that cover its memory or name its counters (R309). -/
def closePassesOf (s : State) (c : Nat) : State :=
  let meets := fun (h : Pass) (a n : Nat) => h.base < a + n && a < h.base + h.size
  { s with remote := { s.remote with passes := s.remote.passes.map (fun p =>
      let h := p.2
      let hit := meets h (scratchBase + c * 0x1000000) 0x1000000 || meets h (counterBase + c * 0x10000) 0x10000 ||
        meets h (windowBase + c * 0x8000) 0x8000 || (bits h.rights 8 8 != 0 && bits h.rights 24 5 == c)
      (p.1, if hit && h.state != .closed then { h with state := .closed, inflight := 0 } else h)) } }

/-- The remote window table entry that RWT_SELECT names is changed (R311). -/
def writeRwt (s : State) (f : Rwt → Rwt) : State :=
  { s with remote := { s.remote with rwt := Map.upd s.remote.rwt (s.ent .rwtSelect) { } f } }

/-- A write of CTX_TENANT (R313). -/
def writeCtxTenant (s : State) (c x v : Nat) : FC × State :=
  let q := s.ctx c x
  if q.accept = q.done && q.issued.isEmpty then (.ok, s.updCtx c x (fun q => { q with tenant := v }))
  else (.windowBusy, s)

end Sys2Proof.Machine
end

