-- ==== Sys2Proof/Machine/Keys.lean ====
section
/-!
DEFINITION. Key slots, rotation and the authentication of dictionary requests (R379 to R384).
-/

namespace Sys2Proof.Machine

open Sys2Proof

/-- Key slot k as it is held: slot 0 is the device key, whose permissions are fixed at KEYS alone (R382). -/
def keySlot (s : State) (k : Nat) : KeySlot :=
  if k = 0 then { cur := some s.fuses.deviceKey, perm := 4 } else Map.get s.mgmt.keys k { }

/-- Key slot k, 1 to 15, changed; a slot back at its reset value is not listed. -/
def updKey (s : State) (k : Nat) (f : KeySlot → KeySlot) : State :=
  let v := f (Map.get s.mgmt.keys k { })
  { s with mgmt := { s.mgmt with keys := if v = { } then Map.erase s.mgmt.keys k else Map.put s.mgmt.keys k v } }

/-- KEY_STATE of a slot (Table 15-12). -/
def KeySlot.state (k : KeySlot) : Nat :=
  match k.cur, k.next with
  | none, _ => 0
  | some _, none => 1
  | some _, some _ => 2

/-- The slot that KEY_SELECT names. -/
def keySel (s : State) : Nat := s.ent .keySelect

/-- The condition of a rotation (R384). -/
def rotationDue (s : State) (k : Nat) : Bool :=
  let q := keySlot s k
  q.state == 2 && q.rotateAt != 0 && q.rotateAt ≤ s.sys.uptime

/-- The next key becomes the current one (R384). -/
def rotateKey (s : State) (k : Nat) : State :=
  updKey s k (fun q => { q with cur := q.next, next := none, rotateAt := 0 })

/-- KEY_WRAPPED or KEY_NEXT_WRAPPED of the selected slot: unwrapped under the key of the slot that authenticates the write
(R382 to R384). A write that no slot authenticates has no wrapping key. -/
def writeWrapped (s : State) (by_ : Option Nat) (next : Bool) (payload : List Byte) : FC × State :=
  let k := keySel s
  match by_ with
  | none => (.authKey, s)
  | some a =>
    if a = k then (.authKey, s)
    else
      match (keySlot s a).cur with
      | none => (.authKey, s)
      | some kek =>
        match unwrapKey kek (fit payload 24) with
        | none => (.authFailed, s)
        | some key =>
          if next then
            if (keySlot s k).state = 0 then (.valueRange, s) else (.ok, updKey s k (fun q => { q with next := some key }))
          else (.ok, updKey s k (fun q => { q with cur := some key }))

/-- KEY_PERM of the selected slot (R383). -/
def writeKeyPerm (s : State) (by_ : Option Nat) (v : Nat) : FC × State :=
  if by_ = some (keySel s) then (.authKey, s) else (.ok, updKey s (keySel s) (fun q => { q with perm := v }))

/-- KEY_ROTATE_AT of the selected slot (R384). -/
def writeRotateAt (s : State) (v : Nat) : FC × State := (.ok, updKey s (keySel s) (fun q => { q with rotateAt := v }))

/-- KEY_ZEROISE of the selected slot: its keys and KEY_PERM are cleared (Table 15-12, R383). -/
def zeroiseKey (s : State) (by_ : Option Nat) : FC × State :=
  if by_ = some (keySel s) then (.authKey, s)
  else (.ok, updKey s (keySel s) (fun q => { q with cur := none, next := none, perm := 0 }))

/-- The message M of R380. -/
def authMessage (s : State) (t : Trailer) (op index sub : Nat) (payload : List Byte) : List Byte :=
  natLe 8 s.fuses.identity.toNat ++ natLe 8 s.mgmt.nonce.toNat ++ natLe 2 t.sender.toNat ++ natLe 1 t.slot.toNat ++
    natLe 1 op ++ natLe 8 t.counter.toNat ++ natLe 2 index ++ natLe 1 sub ++ zeros 1 ++ natLe 2 payload.length ++
    zeros 2 ++ payload

/-- The record number of a (slot, sender) pair. -/
def authPair (t : Trailer) : Nat := t.slot.toNat * 65536 + t.sender.toNat

/-- Verification of a trailer (R380, R381); `cls` is the class a write to an AW entry needs. The accepted counter is
recorded, the failures are counted.
DEDUCED (notes/assumptions/16.md). -/
def verify (s : State) (t : Trailer) (op index sub : Nat) (payload : List Byte) (cls : Option Nat) : FC × State :=
  let q := keySlot s t.slot.toNat
  if t.res != 0 then (.reservedNonzero, s)
  else if t.slot.toNat > 15 then (.authKey, s)
  else
    match q.cur with
    | none => (.authKey, s)
    | some key =>
      if (match cls with
          | some c => !bit q.perm c
          | none => false) then (.authKey, s)
      else if cmac64 key (authMessage s t op index sub payload) != t.tag.toNat then
        (.authFailed, s.bump .authFailures)
      else
        match Map.get? s.mgmt.authRecs (authPair t) with
        | some last =>
          if t.counter.toNat ≤ last then (.authReplay, s.bump .authReplays)
          else (.ok, { s with mgmt := { s.mgmt with
                 authRecs := Map.put s.mgmt.authRecs (authPair t) t.counter.toNat } })
        | none =>
          if s.mgmt.authRecs.length ≥ 1024 then (.authTableFull, s)
          else (.ok, { s with mgmt := { s.mgmt with
                 authRecs := Map.put s.mgmt.authRecs (authPair t) t.counter.toNat } })

/-- Whether a verified trailer makes a request privileged (R369, R381).
DEDUCED (notes/assumptions/15.md). -/
def privileged (s : State) (t : Trailer) : Bool := bit (keySlot s t.slot.toNat).perm 7

end Sys2Proof.Machine
end

