-- ==== Sys2Proof/Machine/Formats.lean ====
section
/-!
DEFINITION. The number formats of chapter 4: block layouts, element encodings, quantisation with outliers and
stochastic rounding (R98 to R116).
-/

namespace Sys2Proof

/-- The formats of Table 4-1 (R98). -/
inductive Fmt where
  | fp32
  | fp16
  | bf16
  | e4m3
  | e5m2
  | mxfp8e4m3
  | mxfp8e5m2
  | mxfp6e3m2
  | mxfp6e2m3
  | mxfp4
  | mxint8
  | qf4
  | qt2
  | qg4
  deriving DecidableEq, Repr

/-- The format of a 5-bit code (Table 4-1). -/
def Fmt.ofCode? (v : Nat) : Option Fmt :=
  [Fmt.fp32, .fp16, .bf16, .e4m3, .e5m2, .mxfp8e4m3, .mxfp8e5m2, .mxfp6e3m2, .mxfp6e2m3, .mxfp4, .mxint8, .qf4, .qt2,
    .qg4][v]?

/-- Element formats (Table 4-3). -/
inductive Elem where
  | f32
  | f16
  | bf16
  | e4m3
  | e5m2
  | e3m2
  | e2m3
  | e2m1
  | int8
  | e3m0
  | trit
  deriving DecidableEq, Repr

/-- Element format of a format (Table 4-1). -/
def Fmt.elem : Fmt → Elem
  | .fp32 => .f32
  | .fp16 => .f16
  | .bf16 => .bf16
  | .e4m3 => .e4m3
  | .e5m2 => .e5m2
  | .mxfp8e4m3 => .e4m3
  | .mxfp8e5m2 => .e5m2
  | .mxfp6e3m2 => .e3m2
  | .mxfp6e2m3 => .e2m3
  | .mxfp4 => .e2m1
  | .mxint8 => .int8
  | .qf4 => .e2m1
  | .qt2 => .trit
  | .qg4 => .e3m0

/-- Elements per block (Table 4-1). -/
def Fmt.blockLen : Fmt → Nat
  | .fp32 | .fp16 | .bf16 | .e4m3 | .e5m2 => 1
  | .qt2 => 64
  | _ => 32

/-- Bytes per block (Table 4-1). -/
def Fmt.blockBytes : Fmt → Nat
  | .fp32 => 4
  | .fp16 | .bf16 => 2
  | .e4m3 | .e5m2 => 1
  | .mxfp8e4m3 | .mxfp8e5m2 | .mxint8 => 33
  | .mxfp6e3m2 | .mxfp6e2m3 => 25
  | .mxfp4 | .qg4 => 17
  | .qf4 => 18
  | .qt2 => 14

/-- Whether the format has a block scale. -/
def Fmt.scaled (f : Fmt) : Bool := f.blockLen != 1

/-- The 4-bit formats (R98). -/
def Fmt.fourBit : Fmt → Bool
  | .qf4 | .mxfp4 | .qg4 => true
  | _ => false

/-- The 16-bit formats. -/
def Fmt.sixteenBit : Fmt → Bool
  | .fp16 | .bf16 => true
  | _ => false

/-- Whether the outlier side channel exists for the format (R105). -/
def Fmt.sideOk : Fmt → Bool
  | .qf4 | .mxfp4 => true
  | _ => false

/-- Bytes of a row of n elements (R99). -/
def Fmt.rowBytes (f : Fmt) (n : Nat) : Nat := n / f.blockLen * f.blockBytes

/-- Bits of an element code in a block (R99). -/
def Fmt.width : Fmt → Nat
  | .fp32 => 32
  | .fp16 | .bf16 => 16
  | .e4m3 | .e5m2 | .mxfp8e4m3 | .mxfp8e5m2 | .mxint8 => 8
  | .mxfp6e3m2 | .mxfp6e2m3 => 6
  | .mxfp4 | .qf4 | .qg4 => 4
  | .qt2 => 0

/-- The value of an element code, without block scale (R100, Table 4-3). -/
def Elem.value : Elem → Nat → Fp
  | .f32, w => Sys2Proof.f32 w
  | .f16, w => Sys2Proof.f16 w
  | .bf16, w => Sys2Proof.bf16 w
  | .e4m3, w => if w % 128 = 127 then .nan else decodeBin 4 3 7 false w
  | .e5m2, w => decodeBin 5 2 15 true w
  | .e3m2, w => decodeBin 3 2 3 false w
  | .e2m3, w => decodeBin 2 3 1 false w
  | .e2m1, w => decodeBin 2 1 1 false w
  | .int8, w => if w ≥ 128 then .fin true (256 - w) (-6) else .fin false w (-6)
  | .e3m0, w =>
    let e := bits w 0 3
    if e = 0 then .fin (bit w 3) 0 0 else .fin (bit w 3) 1 ((e : Int) - 4)
  | .trit, w => if w = 0 then .fin true 1 0 else if w = 2 then .fin false 1 0 else .fin false 0 0

/-- Digit k of a packed QT2 byte (R103); a byte above 242 decodes as five zeros. -/
def qt2Digit (b k : Nat) : Nat := if b > 242 then 1 else (b / 3 ^ k) % 3

/-- The code of element i of a block's bytes (R99, R103). -/
def Fmt.code (f : Fmt) (blk : List Byte) (i : Nat) : Nat :=
  match f with
  | .qt2 => qt2Digit (blk.getD (i / 5) 0).toNat (i % 5)
  | _ => bits (leNat (slice blk ((f.width * i) / 8) ((f.width * i % 8 + f.width + 7) / 8))) (f.width * i % 8) f.width

/-- The E8M0 scale byte of a block (Table 4-2). -/
def Fmt.scaleByte (f : Fmt) (blk : List Byte) : Nat :=
  match f with
  | .qf4 => (blk.getD 16 0).toNat
  | _ => (blk.getD (f.blockBytes - 1) 0).toNat

/-- Sub-block offset of element i (R102); 0 outside QF4. -/
def Fmt.offset (f : Fmt) (blk : List Byte) (i : Nat) : Nat :=
  match f with
  | .qf4 => bits (blk.getD 17 0).toNat (2 * (i / 8)) 2
  | _ => 0

/-- Malformed QT2 bytes of a block (R103). -/
def Fmt.badBytes (f : Fmt) (blk : List Byte) : Nat :=
  match f with
  | .qt2 => ((blk.take 13).filter (fun b => b.toNat > 242)).length
  | _ => 0

/-- An entry of an outlier side word: (index, E4M3 code) (Table 4-4). -/
def sideEntry (w k : Nat) : Option (Nat × Nat) :=
  if bit w (13 + 14 * k) then some (bits w (8 + 14 * k) 5, bits w (14 * k) 8) else none

/-- Format errors of a side word: equal indices, and a non-zero reserved field (R105). -/
def sideErrors (w : Nat) : Nat :=
  (match sideEntry w 0, sideEntry w 1 with
   | some (i, _), some (j, _) => if i = j then 1 else 0
   | _, _ => 0) + (if bits w 28 4 = 0 then 0 else 1)

/-- The outlier that replaces element i, if any: entry 1 takes effect over entry 0 (R105). -/
def sideFor (w i : Nat) : Option Nat :=
  match sideEntry w 1 with
  | some (j, v) => if j = i then some v else
      (match sideEntry w 0 with
       | some (j0, v0) => if j0 = i then some v0 else none
       | none => none)
  | none =>
    match sideEntry w 0 with
    | some (j0, v0) => if j0 = i then some v0 else none
    | none => none

/-- The value element i of a block decodes to (R101 to R105, R112); `side` is the block's side word where the channel
is enabled. -/
def Fmt.decode (f : Fmt) (blk : List Byte) (side : Option Nat) (i : Nat) : Fp :=
  if f.scaled then
    let x := f.scaleByte blk
    if x = 255 then .nan
    else
      match side.bind (fun w => sideFor w i) with
      | some v => (Elem.value .e4m3 v).scale ((x : Int) - 127)
      | none => (Elem.value f.elem (f.code blk i)).scale ((x : Int) - 127 - f.offset blk i)
  else Elem.value f.elem (f.code blk i)

/-- A decoded value as the engines hold it: beyond the binary32 range it becomes ±∞ (R112). -/
def Fmt.decode32 (f : Fmt) (blk : List Byte) (side : Option Nat) (i : Nat) : Fp := rne32 (f.decode blk side i)

/-- A row of n elements decoded: block b at byte b × block bytes; `sides` holds one side word per block where the
channel is enabled. -/
def Fmt.decodeRow (f : Fmt) (row : List Byte) (sides : Option (List Nat)) (n : Nat) : List Fp :=
  (List.range n).map (fun i =>
    let b := i / f.blockLen
    f.decode32 (slice row (b * f.blockBytes) f.blockBytes) (sides.map (fun l => l.getD b 0)) (i % f.blockLen))

/-- Format errors met in decoding a row (R103, R105). -/
def Fmt.rowErrors (f : Fmt) (row : List Byte) (sides : Option (List Nat)) (n : Nat) : Nat :=
  (List.range (n / f.blockLen)).foldl (fun a b =>
    a + f.badBytes (slice row (b * f.blockBytes) f.blockBytes) +
      (match sides with
       | some l => sideErrors (l.getD b 0)
       | none => 0)) 0

/-- Whether decoding the row marks its tile poisoned: a malformed QT2 byte (R103). -/
def Fmt.rowPoisons (f : Fmt) (row : List Byte) (n : Nat) : Bool :=
  (List.range (n / f.blockLen)).any (fun b => f.badBytes (slice row (b * f.blockBytes) f.blockBytes) != 0)

/-! ## Rounding to elements -/

/-- 32-bit mixing of R110. -/
def mix32 (v : Nat) : Nat :=
  let m := 2 ^ 32
  let v := v % m
  let v := v ^^^ (v >>> 16)
  let v := (v * 0x7FEB352D) % m
  let v := v ^^^ (v >>> 15)
  let v := (v * 0x846CA68B) % m
  v ^^^ (v >>> 16)

/-- The 16 random bits of an element (R110). -/
def srBits (seed idx : Nat) : Nat :=
  mix32 ((seed ^^^ mix32 ((idx % 2 ^ 32) ^^^ mix32 (idx / 2 ^ 32 % 2 ^ 32))) % 2 ^ 32) % 65536

/-- How a write rounds: to nearest even, or stochastically with a seed and the element's flat index (R109, R110). -/
inductive Rounding where
  | nearest
  | stochastic (seed idx : Nat)
  deriving DecidableEq, Repr

/-- m × 2^e in units of 2^q, rounded (R109, R110). -/
def roundUnits (r : Rounding) (m : Nat) (e q : Int) : Nat :=
  match r with
  | .nearest => rneShift m (e - q)
  | .stochastic seed idx =>
    let a := floorShift m (e - q)
    let frac := floorShift m (e - q + 16) - a * 65536
    if frac + srBits seed idx ≥ 65536 then a + 1 else a

/-- Largest finite code of a narrow element (Table 4-3). -/
def Elem.maxCode : Elem → Nat
  | .e4m3 => 0x7E
  | .e5m2 => 0x7B
  | .e3m2 => 0x1F
  | .e2m3 => 0x1F
  | .e2m1 => 0x7
  | .int8 => 127
  | .e3m0 => 0x7
  | _ => 0

/-- Sign bit of a narrow element's code. -/
def Elem.signBit : Elem → Nat
  | .e4m3 | .e5m2 => 0x80
  | .e3m2 | .e2m3 => 0x20
  | .e2m1 | .e3m0 => 0x8
  | _ => 0

/-- Whether the element format has a NaN. -/
def Elem.hasNan : Elem → Bool
  | .f32 | .f16 | .bf16 | .e4m3 | .e5m2 => true
  | _ => false

/-- A scaled value rounded to a narrow element: code and whether it counts as saturated (R106 step 5, R111, R113). A
NaN reaches here only where the element has one. A value above the largest finite element that rounds back to it does not
count.
DESIGN CHOICE (notes/assumptions/90.md). -/
def Elem.encode (el : Elem) (r : Rounding) (x : Fp) : Nat × Bool :=
  match el with
  | .f32 => (toF32 x, false)
  | .f16 => encodeIeee 5 10 x
  | .bf16 => encodeIeee 8 7 x
  | .int8 =>
    match x with
    | .nan => (0, false)
    | .inf s => (if s then 129 else 127, true)
    | .fin s m e =>
      let n := roundUnits r m e (-6)
      let sat := n > 127
      let n := Min.min n 127
      (if s && n != 0 then 256 - n else n, sat)
  | .e3m0 =>
    match x with
    | .nan => (0, false)
    | .inf s => (bnat s * 8 + 7, true)
    | .fin s m e =>
      if m = 0 then (bnat s * 8, false)
      else
        let q := magExp m e
        if q < -3 then
          let n := roundUnits r m e (-3)
          (bnat s * 8 + (if n = 0 then 0 else 1), false)
        else
          let n := roundUnits r m e q
          let k := if n ≥ 2 then q + 1 else q
          if k > 3 then (bnat s * 8 + 7, true) else (bnat s * 8 + (k + 4).toNat, false)
  | .trit =>
    match x with
    | .nan => (1, false)
    | .inf s => (if s then 0 else 2, true)
    | .fin s m e =>
      let n := roundUnits r m e 0
      (if n = 0 then 1 else if s then 0 else 2, n > 1)
  | el =>
    let (mb, bias) := match el with
      | .e4m3 => (3, (7 : Int))
      | .e5m2 => (2, 15)
      | .e3m2 => (2, 3)
      | .e2m3 => (3, 1)
      | _ => (1, 1)
    match x with
    | .nan => (if el = .e4m3 then 0x7F else if el = .e5m2 then 0x7E else 0, false)
    | .inf s => (bnat s * el.signBit + el.maxCode, true)
    | .fin s m e =>
      if m = 0 then (bnat s * el.signBit, false)
      else
        let q := quantum mb bias m e
        let c := packMag mb bias (roundUnits r m e q) q
        if c > el.maxCode then (bnat s * el.signBit + el.maxCode, true) else (bnat s * el.signBit + c, false)

/-- emax of an element format: exponent of its largest binade (R106 step 2); 0 for trits (the spec gives none). -/
def Elem.emax : Elem → Int
  | .e4m3 => 8
  | .e5m2 => 15
  | .e3m2 => 4
  | .e2m3 => 2
  | .e2m1 => 2
  | .int8 => 0
  | .e3m0 => 3
  | _ => 0

/-! ## Quantisation of a block (R106 to R111) -/

/-- The greater magnitude of finite values; others are ignored. -/
def amaxOf (xs : List Fp) : Fp :=
  xs.foldl (fun a x => match x with
    | .fin _ m e => if a.lt (.fin false m e) then .fin false m e else a
    | _ => a) Fp.zero

/-- The indices that leave the block as outliers (R107), lower index first. With fewer than three finite elements the third
largest counts as zero.
DESIGN CHOICE (notes/assumptions/90.md). -/
def outliers (xs : List Fp) : List Nat :=
  let fin := (List.range xs.length).filter (fun i => match xs.getD i .nan with
    | .fin _ _ _ => true
    | _ => false)
  let mag := fun i => (xs.getD i Fp.zero).abs
  let pick := fun (cand : List Nat) => cand.foldl (fun (b : Option Nat) i => match b with
    | none => some i
    | some j => if (mag j).lt (mag i) then some i else some j) none
  match pick fin with
  | none => []
  | some i1 =>
    match pick (fin.filter (· != i1)) with
    | none => if (mag i1).isZero then [] else [i1]
    | some i2 =>
      let third := match pick (fin.filter (fun i => i != i1 && i != i2)) with
        | none => Fp.zero
        | some i3 => mag i3
      let out := fun i => !(mag i).isZero && !((mag i).lt (third.scale 2))
      let l := [i1, i2].filter out
      match l with
      | [a, b] => if a < b then [a, b] else [b, a]
      | l => l

/-- What quantising a block gives: its bytes, its side word, the elements that count as saturated. -/
structure QBlock where
  bytes : List Byte
  side : Nat := 0
  sat : Nat := 0
  deriving DecidableEq, Repr

/-- Element codes packed as one little-endian bit string (R99). -/
def packCodes (w : Nat) (codes : List Nat) : Nat := codes.foldr (fun c a => a * 2 ^ w + c) 0

/-- Trit digits packed five to a byte, the fifth place of the last byte filled with 1 (R103). -/
def packTrits (ds : List Nat) : List Byte :=
  (List.range 13).map (fun b =>
    BitVec.ofNat 8 ((List.range 5).foldr (fun k a => a * 3 + ds.getD (5 * b + k) 1) 0))

/-- A block of values quantised to a format (R106 to R111). `outl` enables the side channel; element i rounds with
`rnd i`. In a block written as NaN the QF4 offsets are 0 and a QT2 code of 0 is the digit 0; its infinities count (R113).
DESIGN CHOICE (notes/assumptions/90.md). -/
def Fmt.quantise (f : Fmt) (outl : Bool) (rnd : Nat → Rounding) (xs : List Fp) : QBlock :=
  if !f.scaled then
    let (c, sat) := f.elem.encode (rnd 0) (xs.getD 0 Fp.zero)
    { bytes := natLe f.blockBytes c, sat := bnat sat }
  else if !f.elem.hasNan && xs.any (fun x => x == .nan) then
    { bytes := match f with
        | .qt2 => packTrits (List.replicate 64 0) ++ [255]
        | .qf4 => zeros 16 ++ [255, 0]
        | f => zeros (f.blockBytes - 1) ++ [255]
      sat := (xs.filter (fun x => match x with
        | .inf _ => true
        | _ => false)).length }
  else
    let out := if outl && f.sideOk then outliers xs else []
    let stay := fun i => !out.contains i
    let kept := (List.range xs.length).filterMap (fun i => if stay i then some (xs.getD i Fp.zero) else none)
    let amax := amaxOf kept
    let eb : Option Int := match amax with
      | .fin _ m e => if m = 0 then none else some (magExp m e)
      | _ => none
    let x : Nat := match eb with
      | none => 0
      | some v => (Min.min 254 (Max.max 0 (v - f.elem.emax + 127))).toNat
    let offs : List Nat := (List.range 4).map (fun k =>
      if f = .qf4 then
        match amaxOf ((List.range 8).filterMap (fun j =>
            if stay (8 * k + j) then some (xs.getD (8 * k + j) Fp.zero) else none)), eb with
        | .fin _ m e, some v => if m = 0 then 3 else (Min.min 3 (v - magExp m e)).toNat
        | _, _ => 3
      else 0)
    let enc := (List.range xs.length).map (fun i =>
      if stay i then
        f.elem.encode (rnd i) ((xs.getD i Fp.zero).scale (127 - (x : Int) + offs.getD (i / 8) 0))
      else (0, false))
    let oenc := out.map (fun i => Elem.encode .e4m3 (rnd i) ((xs.getD i Fp.zero).scale (127 - (x : Int))))
    let sat := (enc.filter (·.2)).length + (oenc.filter (·.2)).length
    let codes := enc.map (·.1)
    let side := match out, oenc with
      | [i], [(v, _)] => 0x2000 + i * 256 + v
      | [i, j], [(v, _), (w, _)] => 0x2000 + i * 256 + v + (0x2000 + j * 256 + w) * 2 ^ 14
      | _, _ => 0
    let body := match f with
      | .qt2 => packTrits codes
      | f => natLe (f.blockLen * f.width / 8) (packCodes f.width codes)
    let tail := match f with
      | .qf4 => [BitVec.ofNat 8 x, BitVec.ofNat 8 (offs.foldr (fun o a => a * 4 + o) 0)]
      | _ => [BitVec.ofNat 8 x]
    { bytes := body ++ tail, side := side, sat := sat }

/-- How a stage's writes round: stochastically for QG4 always, and for the E5M2 formats when its bit is set (R109);
element indices are flat from `base`. -/
def Fmt.rounding (f : Fmt) (sr : Bool) (seed base i : Nat) : Rounding :=
  if f = .qg4 || (sr && (f = .e5m2 || f = .mxfp8e5m2)) then .stochastic seed (base + i) else .nearest

/-- A row of values quantised block by block: bytes, side words, saturations. -/
def Fmt.quantiseRow (f : Fmt) (outl sr : Bool) (seed base : Nat) (xs : List Fp) : List Byte × List Nat × Nat :=
  let nb := xs.length / f.blockLen
  let qs := (List.range nb).map (fun b =>
    f.quantise outl (fun i => f.rounding sr seed base (b * f.blockLen + i)) ((xs.drop (b * f.blockLen)).take f.blockLen))
  (qs.flatMap (·.bytes), qs.map (·.side), qs.foldl (fun a q => a + q.sat) 0)

/-- The stochastic-rounding bit is allowed only for the E5M2 formats (R109; QG4 rounds stochastically of itself). -/
def Fmt.srAllowed : Fmt → Bool
  | .e5m2 | .mxfp8e5m2 | .qg4 => true
  | _ => false

/-- Multiply-adds per cell per cycle of a format alone, times four (Table 4-8). -/
def Fmt.rate4 (f : Fmt) : Nat :=
  if f.fourBit || f = .qt2 then 4 else if f.sixteenBit then 1 else if f = .fp32 then 0 else 2

/-- The array rate of an operand pair times four (R115): QT2 with a 4-bit format runs at two per cell per cycle. -/
def pairRate4 (a b : Fmt) : Nat :=
  if (a = .qt2 && b.fourBit) || (b = .qt2 && a.fourBit) then 8 else Min.min a.rate4 b.rate4

end Sys2Proof
end

