-- ==== Sys2Proof/Machine/Arrays.lean ====
section
/-!
DEFINITION. The arrays (chapter 5): operand elements as the feeders deliver them, the cell as a machine over K-steps, the
partitions and folds, and the tile a heavy stage produces. The value of a cell is the reference of R133.
-/

namespace Sys2Proof.Machine

open Sys2Proof

/-! ## Elements on the chain and in the feeders -/

/-- An element of the chain value: a binary32 word and its poison mark (R219, R132). -/
abbrev CElem := Nat × Bool

/-- A tile or block of chain rows. -/
abbrev CTile := List (List CElem)

/-- The canonical binary32 NaN. -/
def nan32 : Nat := 0x7FC00000

/-- An element as it enters a cell: `v` the value that takes part in the chunk sum, `sigma` its block scale exponent
(R130), `full` the fully decoded value (R131, R139), `side` an outlier of R105, `nan` a NaN operand (R132). -/
structure OpElem where
  v : Fp
  sigma : Int := 0
  full : Fp
  side : Bool := false
  nan : Bool := false
  poison : Bool := false
  deriving DecidableEq, Repr

/-- A value rounded to the internal E8M3 element of a transposed block-scaled operand (R127). -/
def e8m3 (x : Fp) : Fp := decodeBin 8 3 127 true (encodeIeee 8 3 x).1

/-- A value rounded to E8M15 (Table 5-5). -/
def e8m15 (x : Fp) : Fp := decodeBin 8 15 127 true (encodeIeee 8 15 x).1

/-- Element i of a stored block as an operand: taken along the blocks, or across them under R127. -/
def opElem (f : Fmt) (across : Bool) (blk : List Byte) (side : Option Nat) (i : Nat) (poison : Bool) : OpElem :=
  let full := f.decode32 blk side i
  if !f.scaled then { v := full, full := full, nan := full == .nan, poison := poison }
  else if across then
    let e := e8m3 (f.decode blk side i)
    { v := e, full := full, nan := e == .nan, poison := poison }
  else
    let x := f.scaleByte blk
    let out := (side.bind (fun w => sideFor w i)).isSome
    { v := if out then Fp.zero else (Elem.value f.elem (f.code blk i)).scale (-(f.offset blk i : Int)),
      sigma := (x : Int) - 127, full := full, side := out, nan := x = 255 || full == .nan, poison := poison }

/-- The bytes of marked bytes. -/
def mbytes (l : List MByte) : List Byte := l.map Prod.fst

/-- n marked bytes from an offset; missing ones are clean zeros. -/
def mslice (l : List MByte) (o n : Nat) : List MByte :=
  let t := (l.drop o).take n
  t ++ List.replicate (n - t.length) (0, false)

/-- A stored row of n elements as operand elements; an element is poisoned when a byte of its block or its side word
is. `sides` holds a word with its mark per block where the channel is enabled. -/
def opRow (f : Fmt) (across : Bool) (row : List MByte) (sides : Option (List (Nat × Bool))) (n : Nat) : List OpElem :=
  (List.range ((n + f.blockLen - 1) / f.blockLen)).flatMap (fun b =>
    let blk := mslice row (b * f.blockBytes) f.blockBytes
    let sw := sides.map (fun l => l.getD b (0, false))
    let poison := blk.any Prod.snd || (match sw with
      | some (_, p) => p
      | none => false)
    (List.range (min f.blockLen (n - b * f.blockLen))).map (fun i =>
      opElem f across (mbytes blk) (sw.map Prod.fst) i poison))

/-- Rows of operand elements by output index from rows stored by K-step (R125). -/
def transposeRows {α : Type} (rows : List (List α)) (n : Nat) : List (List α) :=
  (List.range n).map (fun i => rows.filterMap (fun r => r[i]?))

/-! ## Folds (R122) -/

/-- The partitions ks of the fold of a tile shape; none where Table 5-2 has no row. -/
def foldKs (mt nt : Nat) : Option Nat :=
  if mt = 0 || nt = 0 then none
  else if mt ≤ 128 && nt ≤ 128 then some 4
  else if mt ≤ 128 && nt ≤ 256 then some 2
  else if mt ≤ 256 && nt ≤ 128 then some 2
  else if mt ≤ 256 && nt ≤ 256 then some 1
  else if mt ≤ 128 && nt ≤ 512 then some 1
  else if mt ≤ 512 && nt ≤ 128 then some 1
  else none

/-- The grid cell that holds output (i, j) of partition p (Table 5-2). -/
def foldCell (mt nt p i j : Nat) : Nat × Nat :=
  if mt ≤ 128 && nt ≤ 128 then (128 * (p / 2) + i, 128 * (p % 2) + j)
  else if mt ≤ 128 && nt ≤ 256 then (128 * p + i, j)
  else if mt ≤ 256 && nt ≤ 128 then (i, 128 * p + j)
  else if mt ≤ 256 && nt ≤ 256 then (i, j)
  else if mt ≤ 128 then (if j < 256 then (i, j) else (128 + i, j - 256))
  else (if i < 256 then (i, j) else (i - 256, 128 + j))

/-! ## Chunk classes (Table 5-5) -/

/-- What fixes the arithmetic of a heavy stage: mode, CMPCNT predicate, chunk length and whether the chunk accumulator
is the integer one. -/
structure CellOp where
  mode : Nat := 0
  pred : Nat := 0
  len : Nat
  exact : Bool
  deriving DecidableEq, Repr

/-- The chunk length of an operand pair and whether its sums are exact: any operand taken under R127 puts the pair into
the 16-element class. -/
def chunkClass (a b : Fmt) (across : Bool) : Nat × Bool :=
  let narrow := fun (f : Fmt) => f.fourBit || f == .qt2
  if across then (16, false)
  else if a.sixteenBit || b.sixteenBit then (8, false)
  else if narrow a && narrow b then (32, true)
  else (16, false)

/-! ## The cell (R129 to R132, R139, R140) -/

/-- State of one cell: the total as a word, the open chunk's sum, scale, products and sign rule, poison, and the K index
of the ARG modes (Table 5-6). -/
structure CellSt where
  total : Nat := 0
  sum : Fp := Fp.zero
  sigma : Int := 0
  n : Nat := 0
  negz : Bool := true
  poison : Bool := false
  idx : Nat := 0
  deriving DecidableEq, Repr

/-- A product as it enters the chunk sum: exact when its significand needs at most 16 bits, else rounded to E8M15. -/
def chunkProduct (exact : Bool) (p : Fp) : Fp :=
  match p with
  | .fin s m e =>
    if exact || m < 65536 || m % 2 ^ (Nat.log2 m - 15) = 0 then p else e8m15 (.fin s m e)
  | x => x

/-- One MAC step of a cell (R129, R131, R132).
DEDUCED (notes/assumptions/55.md). -/
def macStep (o : CellOp) (c : CellSt) (a b : OpElem) : CellSt :=
  let c := { c with poison := c.poison || a.poison || b.poison }
  let c := if a.nan || b.nan then { c with total := nan32 } else c
  let side := a.side || b.side
  let c := if side then { c with total := toF32 (add32 (f32 c.total) (mul32 a.full b.full)) } else c
  -- the element code of an outlier is a zero: it adds nothing, whatever it meets
  let p := if side then Fp.fin (a.v.neg? != b.v.neg?) 0 0 else a.v.mulX b.v
  let q := chunkProduct o.exact p
  let sum := if o.exact then (if c.n = 0 then q else c.sum.addX q)
    else e8m15 (if c.n = 0 then q else c.sum.addX q)
  { c with sum := sum, sigma := a.sigma + b.sigma, n := c.n + 1,
           negz := (c.n = 0 || c.negz) && p.isZero && p.neg? }

/-- The open chunk is promoted (R130, R132). -/
def promote (c : CellSt) : CellSt :=
  if c.n = 0 then c
  else
    let v := if c.sum.isZero then Fp.fin c.negz 0 0 else c.sum
    { c with total := toF32 (add32 (f32 c.total) (rne32 (v.scale c.sigma))), sum := Fp.zero, n := 0, negz := true,
             sigma := 0 }

/-- The predicate of CMPCNT (Table 5-8, R140). -/
def cmpHolds (pred : Nat) (a b : Fp) : Bool :=
  match pred with
  | 0 => a.eqv b
  | 1 => !(a.eqv b)
  | 2 => a.lt b
  | _ => a.lt b || a.eqv b

/-- One step of the cell modes other than MAC at K index k (Table 5-8, R140). -/
def modeStep (o : CellOp) (k : Nat) (c : CellSt) (a b : OpElem) : CellSt :=
  let c := { c with poison := c.poison || a.poison || b.poison }
  let x := a.full
  let y := b.full
  if o.mode = 7 then
    if cmpHolds o.pred x y then { c with total := min (c.total + 1) 0xFFFFFFFF } else c
  else if f32 c.total == .nan then c
  else if x == .nan || y == .nan then { c with total := nan32, idx := k }
  else
    let t := f32 c.total
    match o.mode with
    | 1 => { c with total := toF32 (add32 t (sub32 x y).abs) }
    | 2 =>
      let d := sub32 x y
      { c with total := toF32 (add32 t (mul32 d d)) }
    | 3 => { c with total := toF32 (t.max (add32 x y)) }
    | 4 => { c with total := toF32 (t.min (add32 x y)) }
    | 5 =>
      let s := add32 x y
      if s == .nan then { c with total := nan32, idx := k }
      else if t.lt s then { c with total := toF32 s, idx := k } else c
    | _ =>
      let s := add32 x y
      if s == .nan then { c with total := nan32, idx := k }
      else if s.lt t then { c with total := toF32 s, idx := k } else c

/-- The start of a partition: the preload in partition 0, the identity of the mode in the others (R133, Table 5-8). -/
def cellStart (o : CellOp) (p : Nat) (pre : CElem) : CellSt :=
  if p = 0 then { total := pre.1, poison := pre.2 }
  else { total := match o.mode with
    | 3 => 0xFF800000
    | 5 => 0xFF800000
    | 4 => 0x7F800000
    | 6 => 0x7F800000
    | _ => 0 }

/-- One chunk of a cell: the K-steps of chunk c, then its promotion. Operands are the whole rows; k0 is the K index of
their first element. -/
def cellChunk (o : CellOp) (a b : List OpElem) (c : CellSt) (chunk : Nat) : CellSt :=
  let xs := (a.drop (o.len * chunk)).take o.len
  let ys := (b.drop (o.len * chunk)).take o.len
  if o.mode = 0 then promote ((xs.zip ys).foldl (fun c p => macStep o c p.1 p.2) c)
  else
    ((xs.zip ys).foldl (fun (q : CellSt × Nat) p => (modeStep o q.2 q.1 p.1 p.2, q.2 + 1)) (c, o.len * chunk)).1

/-- The chunks that partition p takes of chunks lo to hi − 1 (R133, R134). -/
def partChunks (ks p lo hi : Nat) : List Nat :=
  (List.range (hi - lo)).filterMap (fun i => if i % ks = p then some (lo + i) else none)

/-- Partition p of a cell after all its chunks. -/
def cellPart (o : CellOp) (ks p lo hi : Nat) (a b : List OpElem) (pre : CElem) : CellSt :=
  (partChunks ks p lo hi).foldl (cellChunk o a b) (cellStart o p pre)

/-- Two partitions combined (Table 5-8); the sums and extremes of words. -/
def combine2 (o : CellOp) (x y : CellSt) : CellSt :=
  let poison := x.poison || y.poison
  let a := f32 x.total
  let b := f32 y.total
  match o.mode with
  | 3 => { x with total := toF32 (a.max b), poison := poison }
  | 4 => { x with total := toF32 (a.min b), poison := poison }
  | 5 =>
    if a == .nan && b == .nan then { x with poison := poison, idx := min x.idx y.idx }
    else if a == .nan then { x with poison := poison }
    else if b == .nan then { y with poison := poison }
    else if a.lt b || (a.eqv b && y.idx < x.idx) then { y with poison := poison } else { x with poison := poison }
  | 6 =>
    if a == .nan && b == .nan then { x with poison := poison, idx := min x.idx y.idx }
    else if a == .nan then { x with poison := poison }
    else if b == .nan then { y with poison := poison }
    else if b.lt a || (a.eqv b && y.idx < x.idx) then { y with poison := poison } else { x with poison := poison }
  | 7 => { x with total := min (x.total + y.total) 0xFFFFFFFF, poison := poison }
  | _ => { x with total := toF32 (add32 a b), poison := poison }

/-- The drain combines the partitions (R133): one, two, or two pairs. -/
def combineParts (o : CellOp) (ps : List CellSt) : CellSt :=
  match ps with
  | [a] => a
  | [a, b] => combine2 o a b
  | [a, b, c, d] => combine2 o (combine2 o a b) (combine2 o c d)
  | _ => { }

/-- The drained element of a cell (R133): the reference value of an output. -/
def cellValue (o : CellOp) (ks lo hi : Nat) (a b : List OpElem) (pre : CElem) : CElem :=
  let r := combineParts o ((List.range ks).map (fun p => cellPart o ks p lo hi a b pre))
  (r.total, r.poison)

/-- The tile of a heavy stage: one row of output elements per west row. -/
def tileValue (o : CellOp) (ks lo hi : Nat) (west north : List (List OpElem)) (pre : Nat → Nat → CElem) : CTile :=
  west.zipIdx.map (fun (a, i) => north.zipIdx.map (fun (b, j) => cellValue o ks lo hi a b (pre i j)))

/-- The chunk range of unit u of U over nc chunks (R134). -/
def unitChunks (nc units u : Nat) : Nat × Nat :=
  let at_ := fun u => u * (nc / units) + min u (nc % units)
  (at_ u, at_ (u + 1))

/-- A row rescale of one partition total (R136). -/
def rescale (s : Fp) (t : Nat) : Nat := toF32 (mul32 (f32 t) s)

/-- The 64-bit state of a cell (Table 5-6). -/
def CellSt.image (o : CellOp) (c : CellSt) : Nat :=
  let argm := o.mode = 5 || o.mode = 6
  let chunk := if argm then c.idx
    else if o.exact then
      (match c.sum with
       | .fin s m e => (if s then (2 ^ 24 - (m * 2 ^ (e + 8).toNat)) % 2 ^ 24 else m * 2 ^ (e + 8).toNat)
       | _ => 0)
    else (encodeIeee 8 15 c.sum).1
  c.total * 2 ^ 32 + (chunk % 2 ^ 24) * 2 ^ 8 + bnat c.poison * 2 ^ 7 + bnat (c.n != 0 && c.negz) * 2 ^ 6
    + bnat (argm || !o.exact) * 2 ^ 5 + c.n % 32

/-- The state that a cell's image word holds, with the mark of the word; an open chunk takes its scale from its operands
(Table 5-6). -/
def cellOfImage (o : CellOp) (w : Nat) (mark : Bool) (sigma : Int) : CellSt :=
  let argm := o.mode = 5 || o.mode = 6
  let chunk := bits w 8 24
  let sum := if argm then Fp.zero
    else if o.exact then Fp.ofInt (signedOf 24 chunk) (-8)
    else decodeBin 8 15 127 true chunk
  { total := w / 2 ^ 32, sum := sum, sigma := sigma, n := w % 32, negz := w % 32 = 0 || bit w 6,
    poison := bit w 7 || mark, idx := if argm then chunk else 0 }

/-- A cell of an output after a number of K-steps of its partition. -/
def cellAfter (o : CellOp) (ks p lo hi : Nat) (a b : List OpElem) (pre : CElem) (n : Nat) : CellSt :=
  let chunks := partChunks ks p lo hi
  let whole := n / max 1 o.len
  let c := (chunks.take whole).foldl (cellChunk o a b) (cellStart o p pre)
  match chunks[whole]? with
  | none => c
  | some k =>
    let r := n % max 1 o.len
    let xs := (a.drop (o.len * k)).take r
    let ys := (b.drop (o.len * k)).take r
    if o.mode = 0 then (xs.zip ys).foldl (fun c q => macStep o c q.1 q.2) c
    else ((xs.zip ys).foldl (fun (q : CellSt × Nat) e => (modeStep o q.2 q.1 e.1 e.2, q.2 + 1)) (c, o.len * k)).1

/-- Partition p of a cell from a state that n K-steps have given, over the K-steps that remain (R137). -/
def cellFrom (o : CellOp) (ks p lo hi : Nat) (a b : List OpElem) (c : CellSt) (n : Nat) : CellSt :=
  let chunks := partChunks ks p lo hi
  let whole := n / max 1 o.len
  let r := n % max 1 o.len
  let open_ := fun (k : Nat) =>
    let xs := ((a.drop (o.len * k)).take o.len).drop r
    let ys := ((b.drop (o.len * k)).take o.len).drop r
    if o.mode = 0 then promote ((xs.zip ys).foldl (fun c q => macStep o c q.1 q.2) c)
    else ((xs.zip ys).foldl (fun (q : CellSt × Nat) e => (modeStep o q.2 q.1 e.1 e.2, q.2 + 1)) (c, o.len * k + r)).1
  match r, chunks.drop whole with
  | 0, rest => rest.foldl (cellChunk o a b) c
  | _, k :: rest => rest.foldl (cellChunk o a b) (open_ k)
  | _, [] => c

/-- The scale exponent of the chunk that is open after n K-steps of partition p. -/
def openSigma (o : CellOp) (ks p lo hi : Nat) (a b : List OpElem) (n : Nat) : Int :=
  match (partChunks ks p lo hi)[n / max 1 o.len]? with
  | some k => ((a[o.len * k]?).map (fun e => e.sigma)).getD 0 + ((b[o.len * k]?).map (fun e => e.sigma)).getD 0
  | none => 0

/-! ## Checksum rows and columns (R141, R142) -/

/-- The partition and the output that grid cell (gi, gj) holds in the fold of a tile shape, if any: Table 5-2 read from the
grid. -/
def gridCell (mt nt gi gj : Nat) : Option (Nat × Nat × Nat) :=
  let c : Nat × Nat × Nat :=
    if mt ≤ 128 && nt ≤ 128 then (2 * (gi / 128) + gj / 128, gi % 128, gj % 128)
    else if mt ≤ 128 && nt ≤ 256 then (gi / 128, gi % 128, gj)
    else if mt ≤ 256 && nt ≤ 128 then (gj / 128, gi, gj % 128)
    else if mt ≤ 256 && nt ≤ 256 then (0, gi, gj)
    else if mt ≤ 128 then (0, gi % 128, gj + 256 * (gi / 128))
    else (0, gi + 256 * (gj / 128), gj % 128)
  if c.2.1 < mt && c.2.2 < nt then some c else none

/-- The cells of row (or column) r of quadrant q that hold an output, in increasing column (or row). -/
def quadLine (mt nt q r : Nat) (row : Bool) : List (Nat × Nat × Nat) :=
  (List.range 128).filterMap (fun k =>
    if row then gridCell mt nt (128 * (q / 2) + r) (128 * (q % 2) + k)
    else gridCell mt nt (128 * (q / 2) + k) (128 * (q % 2) + r))

/-- The K indices that partition p takes, in order. -/
def partKs (o : CellOp) (ks p lo hi k : Nat) : List Nat :=
  (partChunks ks p lo hi).flatMap (fun c => (List.range (min o.len (k - o.len * c))).map (fun i => o.len * c + i))

/-- Values added in binary32, in order. -/
def sum32 (xs : List Fp) : Fp := xs.foldl add32 Fp.zero

/-- A tile as an array runs it: arithmetic, shape, the chunks it takes of K, operand rows and start values. -/
structure TileRun where
  o : CellOp
  mt : Nat
  nt : Nat
  ks : Nat
  lo : Nat
  hi : Nat
  k : Nat
  west : List (List OpElem)
  north : List (List OpElem)
  pre : Nat → Nat → CElem

/-- Partition p of output (i, j) at capture. -/
def TileRun.part (r : TileRun) (p i j : Nat) : CellSt :=
  cellPart r.o r.ks p r.lo r.hi (r.west.getD i []) (r.north.getD j []) (r.pre i j)

/-- Partition p of output (i, j) after n K-steps of its partition. -/
def TileRun.after (r : TileRun) (n p i j : Nat) : CellSt :=
  cellAfter r.o r.ks p r.lo r.hi (r.west.getD i []) (r.north.getD j []) (r.pre i j) n

/-- Partition p of output (i, j) at capture, resumed after n K-steps from the words of a tile image (R135, R137). -/
def TileRun.resume (r : TileRun) (words : List (Nat × Bool)) (n p i j : Nat) : CellSt :=
  let a := r.west.getD i []
  let b := r.north.getD j []
  let g := foldCell r.mt r.nt p i j
  let w := words.getD (256 * g.1 + g.2) (0, false)
  cellFrom r.o r.ks p r.lo r.hi a b (cellOfImage r.o w.1 w.2 (openSigma r.o r.ks p r.lo r.hi a b n)) n

/-- The drained tile, its partitions combined (R133). -/
def TileRun.value (r : TileRun) (part : Nat → Nat → Nat → CellSt) : CTile :=
  r.west.zipIdx.map (fun x => r.north.zipIdx.map (fun y =>
    let v := combineParts r.o ((List.range r.ks).map (fun p => part p x.2 y.2))
    (v.total, v.poison)))

/-- The sums of the elements of a quadrant that each K index of its partition brings against one row (or column), and the
sums of their magnitudes (R141). Every line of a quadrant holds the same columns (or rows). -/
def TileRun.lineSums (r : TileRun) (q : Nat) (row : Bool) : List (Nat × Fp × Fp) :=
  let line := quadLine r.mt r.nt q 0 row
  match line with
  | [] => []
  | (p, _, _) :: _ =>
    let full := fun (rows : List (List OpElem)) (i x : Nat) => (((rows.getD i [])[x]?).map (fun e => e.full)).getD Fp.zero
    (partKs r.o r.ks p r.lo r.hi r.k).map (fun x =>
      let es := line.map (fun c => if row then full r.north c.2.2 x else full r.west c.2.1 x)
      (x, sum32 es, sum32 (es.map Fp.abs)))

/-- A check cell's signed and absolute value over K-steps, from the values it holds (R141): that of a row of the quadrant, or
of a column.
DESIGN CHOICE (notes/assumptions/79.md). -/
def TileRun.check (r : TileRun) (sums : List (Nat × Fp × Fp)) (line : List (Nat × Nat × Nat)) (row : Bool) (c : Fp × Fp) :
    Fp × Fp :=
  match line with
  | [] => c
  | (_, i, j) :: _ =>
    let mine := if row then r.west.getD i [] else r.north.getD j []
    sums.foldl (fun (c : Fp × Fp) x =>
      let one := ((mine[x.1]?).map (fun e => e.full)).getD Fp.zero
      (add32 c.1 (mul32 one x.2.1), add32 c.2 (mul32 one.abs x.2.2))) c

/-- What the preload path adds into the check cell of a row or column (R141). -/
def TileRun.checkStart (r : TileRun) (line : List (Nat × Nat × Nat)) : Fp × Fp :=
  let xs := line.filterMap (fun c => if c.1 = 0 then some (f32 (r.pre c.2.1 c.2.2).1) else none)
  (sum32 xs, sum32 (xs.map Fp.abs))

/-- Whether a row or column passes: |s − c| ≤ 2^−t × g + 2^−126, or one of the three is NaN or infinite (R141). -/
def checkPasses (t : Nat) (s c g : Fp) : Bool :=
  let fin := fun (x : Fp) => match x with
    | .fin _ _ _ => true
    | _ => false
  !fin s || !fin c || !fin g ||
    !((g.scale (-(t : Int))).addX (Fp.fin false 1 (-126))).lt ((s.addX c.negate).abs)

/-- The word of a tile image that holds the check cell of row (or column) r of quadrant q (Table 5-7). -/
def checkWord (q r : Nat) (row : Bool) : Nat := 65536 + 256 * q + (if row then 0 else 128) + r

/-- The quadrant of each row and column of a MAC tile whose check fails at capture (R141): once per failing line. The totals
are those of `part`; check cells that come from an image hold n K-steps already. -/
def TileRun.fails (r : TileRun) (t : Nat) (part : Nat → Nat → Nat → CellSt) (image : Option (Nat × List (Nat × Bool))) :
    List Nat :=
  (List.range 4).flatMap (fun q => [true, false].flatMap (fun row =>
    let sums := r.lineSums q row
    (List.range 128).filterMap (fun k =>
      let line := quadLine r.mt r.nt q k row
      if line.isEmpty then none
      else
        let s := sum32 (line.map (fun x => f32 (part x.1 x.2.1 x.2.2).total))
        let (c, g) := match image with
          | none => r.check sums line row (r.checkStart line)
          | some (n, ws) =>
            let w := (ws.getD (checkWord q k row) (0, false)).1
            r.check (sums.drop n) line row (f32 (w / 2 ^ 32), f32 (w % 2 ^ 32))
        if checkPasses t s c g then none else some q)))

/-- The 66,560 words of a tile image (Table 5-7) with the cells that `cell` gives by partition and output and the check cells
that `check` gives by quadrant, line and side; words that the spec leaves open take free values from a place on. -/
def tileImage (mt nt free : Nat) (cell : Nat → Nat → Nat → Nat) (check : Option (Nat → Nat → Bool → Nat)) : List Nat :=
  (List.range 66560).map (fun k =>
    let open_ := (Config.freeValue (free + k)).toNat
    if k < 65536 then
      match gridCell mt nt (k / 256) (k % 256) with
      | some (p, i, j) => cell p i j
      | none => open_
    else
      match check with
      | some f => f ((k - 65536) / 256) (k % 128) (k % 256 < 128)
      | none => open_)

/-- The image of a tile after n K-steps of its partitions (R137): check cells only while the checks run. -/
def TileRun.image (r : TileRun) (n free : Nat) (checks : Bool) : List Nat :=
  let check := fun (q k : Nat) (row : Bool) =>
    let line := quadLine r.mt r.nt q k row
    let (c, g) := r.check ((r.lineSums q row).take n) line row (r.checkStart line)
    toF32 c * 2 ^ 32 + toF32 g
  tileImage r.mt r.nt free (fun p i j => (r.after n p i j).image r.o) (if checks then some check else none)

end Sys2Proof.Machine
end

