-- ==== Sys2Proof/Machine/Charts.lean ====
section
/-!
DEFINITION. Partitions and frames, page layout, chart nodes and the radix tree (R25 to R42, R47 to R50).
-/

namespace Sys2Proof.Machine

open Sys2Proof

/-! ## Reads of global addresses -/

/-- A read of n bytes at a global address by the block itself: from its own memory under the address map, or as the GETs
of R294 and R311 returned them.
DESIGN CHOICE (notes/assumptions/11.md). -/
def fetchGlobal (s : State) (fs : List Fetched) (target n : Nat) : State × FC × List Byte × List Bool :=
  let node := target / 2 ^ 48
  let a := target % 2 ^ 48
  if isLocal s node then
    let m := mapCheck s a n
    if m != .ok then (s, m, [], [])
    else if mcDown s a n then (s, .mcDown, [], [])
    else
      let (s, d, marks) := s.read a n
      (s, .ok, d, marks)
  else if node = 0xFFFF then (s, .valueRange, [], [])
  else if (routeOf s node).isNone then (s, .nodeUnreachable, [], [])
  else if (rwtStamp s target).isNone then (s, .windowClosed, [], [])
  else
    match fs.find? (fun f => f.code == .ok && f.addr.toNat ≤ target && target + n ≤ f.addr.toNat + f.data.length) with
    | some f =>
      let o := target - f.addr.toNat
      (s, .ok, slice f.data o n, (f.poison.drop (o / 16)).take ((o + n - 1) / 16 - o / 16 + 1))
    | none =>
      match fs.find? (fun f => f.code != .ok && f.addr.toNat == target) with
      | some f => (s, f.code, [], [])
      | none => (s, .nodeUnreachable, [], [])

/-! ## Repertoire records and page layout (R29 to R35, R92, Table 15-14) -/

/-- Address of repertoire record r. -/
def repAddr (s : State) (r : Nat) : Nat := s.ent .repBase + 256 * r

/-- Word i of repertoire record r; a record that carries a poison mark is read as absent (R441). -/
def repWord (s : State) (r i : Nat) : Nat :=
  if s.anyMark (repAddr s r) 256 then 0 else s.num (repAddr s r + 8 * i) 8

/-- Whether repertoire entry r is usable: below REP_COUNT and VALID. -/
def repValid (s : State) (r : Nat) : Bool := r < s.ent .repCount && bit (repWord s r 0) 0

/-- Page layout of a model (Tables 2-2 and 2-5): the overlay's number and fields with the entry's layers and groups. -/
structure Layout where
  overlay : Nat
  h : Nat
  d : Nat
  fmt : Nat
  perPage : Nat
  outlier : Bool
  summary : Bool
  partMask : Nat
  layers : Nat
  groups : Nat
  scales : Nat
  image : List Byte
  deriving DecidableEq, Repr

/-- Elements of a plane row. -/
def Layout.width (l : Layout) : Nat := l.h * l.d
/-- Planes of the model. -/
def Layout.planes (l : Layout) : Nat := l.layers * l.groups
/-- PG, the page groups of a slot page (R30). -/
def Layout.pg (l : Layout) : Nat := ceilDiv l.planes l.perPage
/-- Format of the KV rows. -/
def Layout.format (l : Layout) : Fmt :=
  match l.fmt with
  | 0 => .qf4
  | 1 => .mxfp4
  | 2 => .e4m3
  | _ => .bf16
/-- R, the bytes of a row. -/
def Layout.row (l : Layout) : Nat := l.format.rowBytes l.width
/-- O, the bytes of the outlier area. -/
def Layout.outBytes (l : Layout) : Nat := if l.outlier then 64 * l.width else 0
/-- Y, the bytes of the summary rows. -/
def Layout.sumBytes (l : Layout) : Nat := if l.summary then 4 * l.width else 0
/-- S, the plane stride (R32). -/
def Layout.stride (l : Layout) : Nat := ceilDiv (512 * l.row + l.outBytes + l.sumBytes) 256 * 256
/-- Planes that page group g holds (R30). -/
def Layout.planesIn (l : Layout) (g : Nat) : Nat := min l.perPage (l.planes - g * l.perPage)
/-- Bytes that a page uses in its frame (R32). -/
def Layout.pageBytes (l : Layout) : Nat := 0x1100 + l.perPage * l.stride
/-- K or V scale word of plane z: explicit, or 1.0 (R33). -/
def Layout.scale (l : Layout) (z : Nat) (v : Bool) : Nat :=
  if z < l.scales then fieldAt l.image (0x2C + 8 * z + (if v then 4 else 0)) 4 else 0x3F800000

/-- The layout that an overlay image of KIND MODEL gives a model of so many layers and groups. -/
def layoutOf (num : Nat) (img : List Byte) (layers groups : Nat) : Layout :=
  { overlay := num, h := fieldAt img 0x20 1, d := fieldAt img 0x22 2, fmt := fieldAt img 0x21 1,
    perPage := fieldAt img 0x24 1, outlier := bit (fieldAt img 0x25 1) 0, summary := bit (fieldAt img 0x25 1) 1,
    partMask := fieldAt img 0x26 2, layers := layers, groups := groups, scales := fieldAt img 0x28 2, image := img }

/-- The layout of a repertoire entry, if the entry is usable and its overlay is loaded as a model overlay. -/
def repLayout (s : State) (r : Nat) : Option Layout :=
  if !repValid s r then none
  else
    let w := repWord s r 0
    let o := bits w 32 16
    match Map.get? s.mgmt.ovl.store o with
    | none => none
    | some img => if fieldAt img 2 1 = 1 then some (layoutOf o img (bits w 24 8) (bits w 16 8)) else none

/-- The layout of a sequence's pages. -/
def seqLayout (s : State) (n : Nat) : Option Layout := repLayout s (s.desc n).repertoire

/-! ## Partitions and frames (R25 to R27) -/

/-- Free frames. -/
def Part.free (p : Part) : Nat := p.frames - p.reserved - p.alloc.length
/-- Address of frame f. -/
def Part.addr (p : Part) (f : Nat) : Nat := p.base + f * 2 ^ p.log2

/-- The lowest number at or above c that a rising list does not hold. -/
def firstGap (l : List Nat) (c : Nat) : Nat :=
  l.foldl (fun c x => if x = c then c + 1 else c) c

/-- The lowest free frame at or after the cursor, wrapping to the first frame after the tables (R27). -/
def Part.pick (p : Part) : Option Nat :=
  let f := firstGap p.alloc (max p.cursor p.reserved)
  if f < p.frames then some f
  else
    let f := firstGap p.alloc p.reserved
    if f < p.frames then some f else none

/-- The partition and frame number of an address. -/
def frameOf (s : State) (a : Nat) : Option (Nat × Nat) :=
  firstSome s.charts.parts (fun q =>
    if q.2.base ≤ a && a < q.2.base + q.2.size then some (q.1, (a - q.2.base) / 2 ^ q.2.log2) else none)

/-- Partition p changed. -/
def State.updPart (s : State) (p : Nat) (f : Part → Part) : State :=
  match Map.get? s.charts.parts p with
  | some q => { s with charts := { s.charts with parts := Map.put s.charts.parts p (f q) } }
  | none => s

/-- A private frame returns to the free bitmap. -/
def freeFrame (s : State) (pf : Nat × Nat) : State :=
  s.updPart pf.1 (fun p => { p with alloc := p.alloc.filter (· != pf.2), share := Map.erase p.share pf.2 })

/-- Sharer map of a frame (R47). -/
def shareMap (s : State) (pf : Nat × Nat) : BitVec 256 :=
  match Map.get? s.charts.parts pf.1 with
  | some p => Map.get p.share pf.2 0
  | none => 0

/-- Sharer map of a frame set. -/
def setShare (s : State) (pf : Nat × Nat) (m : BitVec 256) : State :=
  s.updPart pf.1 (fun p => { p with share := if m = 0 then Map.erase p.share pf.2 else Map.put p.share pf.2 m })

/-- A sharer bit is claimed. -/
def claimBit (s : State) (pf : Nat × Nat) (i : Nat) : State := setShare s pf (shareMap s pf ||| (1#256 <<< i))

/-- Whether a sharer bit is set (R47). -/
def bitHeld (s : State) (b : Nat × Nat × Nat) : Bool := (shareMap s (b.1, b.2.1)).getLsbD b.2.2

/-- A sharer bit is released; the frame whose last bit clears waits for its invalidation (R50, R190). A bit already
clear changes nothing: who releases it reports FC_SHARE_UNDERFLOW. -/
def releaseBit (s : State) (pf : Nat × Nat) (i : Nat) : State :=
  if !(shareMap s pf).getLsbD i then s
  else
    let m := shareMap s pf &&& ~~~(1#256 <<< i)
    let s := setShare s pf m
    if m = 0 then { s with charts := { s.charts with sharedInv := s.charts.sharedInv ++ [pf] } } else s

/-- The lowest clear sharer bit. -/
def lowestClear (m : BitVec 256) : Option Nat := (List.range 256).find? (fun i => !m.getLsbD i)

/-! ## Pages (R32 to R35) -/

/-- The 0x1100 leading bytes of a fresh page of group g: header and cleared metadata rows. -/
def pageHead (l : Layout) (seq g : Nat) (compacted : Bool) : List Byte :=
  let flags := bnat l.outlier + 2 * bnat l.summary + 4 * bnat compacted
  let scales := (List.range l.perPage).flatMap (fun q =>
    let z := l.perPage * g + q
    natLe 4 (l.scale z false) ++ natLe 4 (l.scale z true))
  fit (natLe 1 l.fmt ++ natLe 1 l.perPage ++ natLe 1 flags ++ zeros 1 ++ natLe 2 l.width ++ natLe 2 g ++ natLe 4 seq
    ++ zeros 4 ++ scales) 0x1100

/-- Offset of plane area q's summary rows in a page. -/
def Layout.sumOff (l : Layout) (q : Nat) : Nat := 0x1100 + q * l.stride + 512 * l.row + l.outBytes

/-- A frame is prepared as a page (R33, R34, R35). -/
def preparePage (s : State) (l : Layout) (seq g a : Nat) (compacted : Bool) : State :=
  let s := s.write a (pageHead l seq g compacted)
  if !l.summary then s
  else (List.range (l.planesIn g)).foldl (fun s q =>
    s.write (a + l.sumOff q) ((List.replicate l.width (natLe 2 0x7F80)).flatten ++
      (List.replicate l.width (natLe 2 0xFF80)).flatten)) s

/-- A frame of a partition is allocated and prepared as the page of group g (R27, R34); none is left: `none`. -/
def allocFrame (s : State) (l : Layout) (part seq g : Nat) (compacted : Bool := false) :
    Option (State × (Nat × Nat) × Nat) :=
  match Map.get? s.charts.parts part with
  | none => none
  | some p =>
    match p.pick with
    | none => none
    | some f =>
      let a := p.addr f
      let s := s.updPart part (fun p => { p with alloc := insertNat f p.alloc, cursor := (f + 1) % p.frames })
      some (preparePage s l seq g a compacted, (part, f), a)

/-- Metadata row j of a page, as a number (Table 2-4). -/
def metaRow (s : State) (a j : Nat) : Nat := s.num (a + 0x100 + 16 * j) 16

/-- Whether metadata row j carries a poison mark. -/
def metaMarked (s : State) (a j : Nat) : Bool := s.marked (a + 0x100 + 16 * j)

/-- Offset of row j of K (or V) of plane area q. -/
def Layout.rowOff (l : Layout) (q j : Nat) (v : Bool) : Nat :=
  0x1100 + q * l.stride + (if v then 256 * l.row else 0) + j * l.row

/-- Offset of the side words of row j of K (or V) of plane area q (Table 2-5). -/
def Layout.sideOff (l : Layout) (q j : Nat) (v : Bool) : Nat :=
  0x1100 + q * l.stride + 512 * l.row + ((if v then 256 else 0) + j) * (l.width / 32 * 4)

/-- One slot's rows of every plane of group g copied from one page to another, with marks. -/
def copySlot (s : State) (l : Layout) (g src j dst jd : Nat) : State :=
  (List.range (l.planesIn g)).foldl (fun s q =>
    [false, true].foldl (fun s v =>
      let (s, d, m) := s.read (src + l.rowOff q j v) l.row
      let s := s.write (dst + l.rowOff q jd v) d (if l.rowOff q j v % 16 = l.rowOff q jd v % 16 then m
        else if m.any id then List.replicate (ceilDiv l.row 16 + 1) true else [])
      if l.outlier then
        let n := l.width / 32 * 4
        let (s, d, m) := s.read (src + l.sideOff q j v) n
        s.write (dst + l.sideOff q jd v) d m
      else s) s) s

/-- K row j of plane area q decoded as Attend decodes it, with the per-page scale (R33, R35). -/
def decodeK (s : State) (l : Layout) (a q j : Nat) (v : Bool := false) : List Fp :=
  let row := s.bytes (a + l.rowOff q j v) l.row
  let sides := if l.outlier then
      some ((List.range (l.width / 32)).map (fun b => s.num (a + l.sideOff q j v + 4 * b) 4))
    else none
  let sc := f32 (s.num (a + 0x10 + 8 * q + (if v then 4 else 0)) 4)
  (l.format.decodeRow row sides l.width).map (fun x => mul32 (rne32 x) sc)

/-- A channel's bound widened by an element (R35): a NaN opens it, −0 lies below +0. -/
def widen (lo hi : Fp) (x : Fp) : Fp × Fp :=
  match x with
  | .nan => (.inf true, .inf false)
  | _ => (if x.lt lo || (x.isZero && lo.isZero && x.neg?) then x else lo,
          if hi.lt x || (x.isZero && hi.isZero && !x.neg?) then x else hi)

/-- The summary rows of plane area q widened by the K rows of some slots (R35). A marked word opens its channels. -/
def widenSummary (s : State) (l : Layout) (a q : Nat) (slots : List Nat) : State :=
  let n := l.width
  let o := a + l.sumOff q
  let lows := (List.range n).map (fun i => bf16 (s.num (o + 2 * i) 2))
  let highs := (List.range n).map (fun i => bf16 (s.num (o + 2 * n + 2 * i) 2))
  let (lows, highs) := slots.foldl (fun (acc : List Fp × List Fp) j =>
    let ra := a + l.rowOff q j false
    let xs := decodeK s l a q j
    let sa := a + l.sideOff q j false
    let xs := if s.anyMark ra l.row || (l.outlier && s.anyMark sa (l.width / 32 * 4)) then
        xs.mapIdx (fun i x =>
          let b := ra + l.format.rowBytes (i / l.format.blockLen * l.format.blockLen)
          if s.anyMark b l.format.blockBytes || (l.outlier && s.anyMark (sa + 4 * (i / 32)) 4) then .nan else x)
      else xs
    let w := List.zipWith (fun (p : Fp × Fp) x => widen p.1 p.2 x) (acc.1.zip acc.2) xs
    (w.map Prod.fst, w.map Prod.snd)) (lows, highs)
  s.write o (lows.flatMap (fun x => natLe 2 (bf16Toward false x)) ++ highs.flatMap (fun x => natLe 2 (bf16Toward true x)))

/-- Summaries of every plane of group g recomputed from some slots (R35). -/
def resummarise (s : State) (l : Layout) (g a : Nat) (slots : List Nat) : State :=
  if !l.summary then s else (List.range (l.planesIn g)).foldl (fun s q => widenSummary s l a q slots) s

/-! ## Chart entries (R37, R38) -/

/-- VALID. -/
def eValid (e : Nat) : Bool := bit e 0
/-- REMOTE. -/
def eRemote (e : Nat) : Bool := bit e 1
/-- SHARED. -/
def eShared (e : Nat) : Bool := bit e 2
/-- DRAFT_TAIL. -/
def eTail (e : Nat) : Bool := bit e 3
/-- COMPACTED. -/
def eCompacted (e : Nat) : Bool := bit e 4
/-- FRAME as an address. -/
def eFrame (e : Nat) : Nat := bits e 10 30 * 4096
/-- SHARE_IDX. -/
def eIdx (e : Nat) : Nat := bits e 40 8
/-- NODE. -/
def eNode (e : Nat) : Nat := bits e 48 16

/-- A leaf entry of a private local frame. -/
def leafEntry (a : Nat) (tail compacted : Bool) : Nat :=
  1 + 8 * bnat tail + 16 * bnat compacted + (a / 4096 % 2 ^ 30) * 1024

/-- An interior entry. -/
def nodeEntry (a : Nat) : Nat := 1 + (a / 4096 % 2 ^ 30) * 1024

/-- The checks of R38, and of R6 on reserved bits, on a leaf entry. -/
def leafCode (s : State) (e : Nat) : FC :=
  if !eValid e then (if e = 0 then .ok else .chartMalformed)
  else if bits e 5 5 != 0 then .reservedNonzero
  else if eRemote e && eShared e then .chartMalformed
  else if !eShared e && eIdx e != 0 then .chartMalformed
  else if !eRemote e && eNode e != 0 then .chartMalformed
  else if eRemote e then .ok
  else
    match frameOf s (eFrame e) with
    | none => .chartMalformed
    | some (p, f) =>
      match Map.get? s.charts.parts p with
      | none => .chartMalformed
      | some q => if eFrame e = q.addr f && q.reserved ≤ f then .ok else .chartMalformed

/-- Whether an address is that of a node of the pool (R28). -/
def inPool (s : State) (a : Nat) : Bool :=
  a % 4096 == 0 && s.charts.nodeBase ≤ a && a + 4096 ≤ s.charts.nodeBase + s.charts.nodeSize

/-- The checks of R38 on an interior entry. -/
def nodeCode (s : State) (e : Nat) : FC :=
  if !eValid e then (if e = 0 then .ok else .chartMalformed)
  else if e != nodeEntry (eFrame e) || !inPool s (eFrame e) then .chartMalformed
  else .ok

/-- An entry read at an address, with the code of R441 or R38.
DESIGN CHOICE (notes/assumptions/44.md). -/
def readEntry (s : State) (a k : Nat) : FC × Nat :=
  if s.marked a then (.dataPoisoned, 0)
  else
    let e := s.num a 8
    (if k = 0 then leafCode s e else nodeCode s e, e)

/-- Entry index of chart page v at level k (R36). -/
def levelIdx (v k : Nat) : Nat := v / 2 ^ (9 * k) % 512

/-- The leaf entry of chart page v below a node of level k: code and entry, 0 where nothing maps it. -/
def walkFrom (s : State) (k node v : Nat) : FC × Nat :=
  match k with
  | 0 => readEntry s (node + 8 * levelIdx v 0) 0
  | j + 1 =>
    let (c, e) := readEntry s (node + 8 * levelIdx v (j + 1)) (j + 1)
    if c != .ok then (c, 0) else if !eValid e then (.ok, 0) else walkFrom s j (eFrame e) v

/-- The leaf entry of chart page v of a chart (R36). -/
def lookup (s : State) (root depth v : Nat) : FC × Nat :=
  if depth = 0 || 2 ^ (9 * depth) ≤ v then (.ok, 0) else walkFrom s (depth - 1) root v

/-- Leaf entries below a node of level k as (chart page, entry), and the nodes; entries that cannot be read or are
malformed are left out. -/
def scanNode (s : State) (k node base : Nat) : List (Nat × Nat) × List Nat :=
  match k with
  | 0 => ((List.range 512).filterMap (fun i =>
      let (c, e) := readEntry s (node + 8 * i) 0
      if c == .ok && eValid e then some (base + i, e) else none), [node])
  | j + 1 =>
    (List.range 512).foldl (fun (acc : List (Nat × Nat) × List Nat) i =>
      let (c, e) := readEntry s (node + 8 * i) (j + 1)
      if c == .ok && eValid e then
        let (l, n) := scanNode s j (eFrame e) (base + i * 2 ^ (9 * (j + 1)))
        (acc.1 ++ l, acc.2 ++ n)
      else acc) ([], [node])

/-- The code of the first entry below a node of level k that a reader of all of them refuses (R38, R441), FC_OK where
there is none. -/
def scanCode (s : State) (k node : Nat) : FC :=
  match k with
  | 0 => (List.range 512).foldl (fun c i => if c != .ok then c else (readEntry s (node + 8 * i) 0).1) .ok
  | j + 1 => (List.range 512).foldl (fun c i =>
      if c != .ok then c
      else
        let (c, e) := readEntry s (node + 8 * i) (j + 1)
        if c == .ok && eValid e then scanCode s j (eFrame e) else c) .ok

/-- The code with which an edit that reads every entry of a chart is refused (R38). -/
def chartCode (s : State) (root depth : Nat) : FC := if depth = 0 then .ok else scanCode s (depth - 1) root

/-- The leaf entries of a chart, in chart page order. -/
def leavesOf (s : State) (root depth : Nat) : List (Nat × Nat) :=
  if depth = 0 then [] else (scanNode s (depth - 1) root 0).1

/-- The nodes of a chart. -/
def nodesOf (s : State) (root depth : Nat) : List Nat :=
  if depth = 0 then [] else (scanNode s (depth - 1) root 0).2

/-! ## Nodes (R28, R54, R55) -/

/-- The pending state of a sequence's edits. -/
def State.pendOf (s : State) (n : Nat) : SeqPend := Map.get s.charts.pend n { }

/-- The pending state of a sequence's edits changed. -/
def State.updPend (s : State) (n : Nat) (f : SeqPend → SeqPend) : State :=
  { s with charts := { s.charts with pend := Map.upd s.charts.pend n { } f } }

/-- Free chart nodes. -/
def nodesFree (s : State) : Nat := s.charts.nodeSize / 4096 - s.charts.nodesAlloc.length

/-- A node of the pool is allocated, filled with zeros: the lowest free one. -/
def allocNode (s : State) (seq : Nat) : Option (State × Nat) :=
  let b := s.charts.nodeBase
  let i := firstGap (s.charts.nodesAlloc.map (fun a => (a - b) / 4096)) 0
  if i < s.charts.nodeSize / 4096 then
    let a := b + 4096 * i
    let s := { s with charts := { s.charts with nodesAlloc := insertNat a s.charts.nodesAlloc } }
    let s := clearRange s a 4096
    let s := (List.range 256).foldl (fun s j => hbmClear s (a + 16 * j)) s
    some (s.updPend seq (fun p => { p with nodes := p.nodes ++ [a] }), a)
  else none

/-- A node returns to the pool and its live bit clears. -/
def freeNode (s : State) (a : Nat) : State :=
  { s with charts := { s.charts with
      nodesAlloc := s.charts.nodesAlloc.filter (· != a), nodesLive := s.charts.nodesLive.filter (· != a) } }

/-- A node of the shadow that edits may change: the node itself when it is fresh, else a fresh copy (R54). -/
def freshNode (s : State) (seq node : Nat) : Option (State × Nat) :=
  if (s.pendOf seq).nodes.contains node then some (s, node)
  else
    match allocNode s seq with
    | none => none
    | some (s, a) =>
      let (s, d, m) := s.read node 4096
      some (s.write a d m, a)

/-- A leaf entry written below a node of level k in the shadow; the node that stands in its place, or `none` when the
pool is empty (R54). -/
def setBelow (s : State) (seq k node v e : Nat) : FC × State × Nat :=
  match k with
  | 0 =>
    match freshNode s seq node with
    | none => (.nodeExhausted, s, node)
    | some (s, a) => (.ok, s.write (a + 8 * levelIdx v 0) (natLe 8 e), a)
  | j + 1 =>
    let (c, en) := readEntry s (node + 8 * levelIdx v (j + 1)) (j + 1)
    if c != .ok then (c, s, node)
    else
      let child := if eValid en then some (s, eFrame en) else allocNode s seq
      match child with
      | none => (.nodeExhausted, s, node)
      | some (s, ch) =>
        let (c, s, ch') := setBelow s seq j ch v e
        if c != .ok then (c, s, node)
        else if eValid en && ch' = eFrame en then (.ok, s, node)
        else
          match freshNode s seq node with
          | none => (.nodeExhausted, s, node)
          | some (s, a) => (.ok, s.write (a + 8 * levelIdx v (j + 1)) (natLe 8 (nodeEntry ch')), a)

/-- Whether an entry is shared and its sharer bit is clear: it has no bit to release (R50). -/
def sharerLost (s : State) (e : Nat) : Bool :=
  eValid e && eShared e && !eRemote e &&
  (match frameOf s (eFrame e) with
   | none => false
   | some (p, f) => !bitHeld s (p, f, eIdx e))

/-- A leaf entry written into a sequence's shadow, with the checks of R38, R50 and R62. -/
def setLeaf (s : State) (seq v e : Nat) : FC × State :=
  let d := s.desc seq
  if d.shadowDepth = 0 || d.shadowDepth > 7 || 2 ^ (9 * d.shadowDepth) ≤ v then (.chartDepth, s)
  else if leafCode s e != .ok then (leafCode s e, s)
  else if sharerLost s (lookup s d.shadowRoot d.shadowDepth v).2 then (.shareUnderflow, s)
  else
    let (c, s, r) := setBelow s seq (d.shadowDepth - 1) d.shadowRoot v e
    (c, if c = .ok then s.updDesc seq (fun d => { d with shadowRoot := r }) else s)

/-- Root levels added to a shadow (R36). -/
def growLevels (s : State) (seq n : Nat) : FC × State :=
  match n with
  | 0 => (.ok, s)
  | k + 1 =>
    match allocNode s seq with
    | none => (.nodeExhausted, s)
    | some (s, a) =>
      let d := s.desc seq
      let s := s.write a (natLe 8 (nodeEntry d.shadowRoot))
      growLevels (s.updDesc seq (fun d => { d with shadowRoot := a, shadowDepth := d.shadowDepth + 1 })) seq k

/-- The depth that chart page v needs. -/
def depthFor (v : Nat) : Nat := ((List.range 8).find? (fun d => d != 0 && v < 2 ^ (9 * d))).getD 8

/-- The shadow grown to hold chart page v (R36, R62). -/
def growFor (s : State) (seq v : Nat) : FC × State :=
  if v ≥ 2 ^ 63 || depthFor v > 7 || (s.desc seq).shadowDepth = 0 then (.chartDepth, s)
  else growLevels s seq (depthFor v - (s.desc seq).shadowDepth)

/-- An empty root becomes a sequence's shadow (ADMIT, RELEASE). -/
def emptyRoot (s : State) (seq : Nat) : Option State :=
  match allocNode s seq with
  | none => none
  | some (s, a) => some (s.updDesc seq (fun d => { d with shadowRoot := a, shadowDepth := 1 }))

/-- Leaf entry of a sequence's shadow, with the code of R38 or R441. -/
def shadowEntry (s : State) (seq v : Nat) : FC × Nat := lookup s (s.desc seq).shadowRoot (s.desc seq).shadowDepth v

/-- The shadow's leaf entries of the pages of one slot page (R31), with the code of the first that is refused. -/
def slotEntries (s : State) (seq pg sp : Nat) : FC × List Nat :=
  (List.range pg).foldl (fun (acc : FC × List Nat) g =>
    let (c, e) := shadowEntry s seq (sp * pg + g)
    (if acc.1 = .ok then c else acc.1, acc.2 ++ [e])) (.ok, [])

/-- The private frames and the sharer bits that leaf entries hold. -/
def heldBy (s : State) (ls : List (Nat × Nat)) : List (Nat × Nat) × List (Nat × Nat × Nat) :=
  ls.foldl (fun acc p =>
    let e := p.2
    if eRemote e then acc
    else match frameOf s (eFrame e) with
      | none => acc
      | some (q, f) => if eShared e then (acc.1, acc.2 ++ [(q, f, eIdx e)]) else (acc.1 ++ [(q, f)], acc.2)) ([], [])

end Sys2Proof.Machine
end

