-- ==== Sys2Proof/Machine/Edits.lean ====
section
/-!
DEFINITION. The chart edit protocol: edit commands, their queue, verdicts, commits, walks, forced release and eviction
(R43 to R71).
-/

namespace Sys2Proof.Machine

open Sys2Proof

/-! ## Walks (R57) -/

/-- A walk launches: WALKERS + 1, with the epoch it captures. -/
def walkBegin (s : State) (n : Nat) (o : WalkOwner) : State :=
  let s := { s with charts := { s.charts with
    walks := s.charts.walks ++ [({ seq := n, epoch := (s.desc n).epoch, owner := o } : Walk)] } }
  s.updDesc n (fun d => { d with walkers := d.walkers + 1 })

/-- A walk ends: its last translation has been used. -/
def walkEnd (s : State) (n : Nat) (o : WalkOwner) : State :=
  if s.charts.walks.any (fun w => w.seq == n && w.owner == o) then
    let s := { s with charts := { s.charts with
      walks := s.charts.walks.eraseP (fun w => w.seq == n && w.owner == o) } }
    s.updDesc n (fun d => { d with walkers := d.walkers - 1 })
  else s

/-- Every walk of an owner ends. -/
def walkEndAll (s : State) (o : WalkOwner) : State :=
  (s.charts.walks.filter (fun w => w.owner == o)).foldl (fun s w => walkEnd s w.seq o) s

/-! ## Helpers of the edits -/

/-- Committed length that the edits queued so far leave (R54, R58): what an edit set, less the slots that REMAPs after it
remove. -/
def editLen (s : State) (n : Nat) : Nat :=
  (match (s.pendOf n).setLen with
   | some p => p.1
   | none => (s.desc n).committedLen) - 256 * (s.desc n).remappedPages

/-- Draft length that the edits queued so far leave: an edit that sets the lengths leaves no draft (Table 2-9). -/
def editDrafts (s : State) (n : Nat) : Nat := if (s.pendOf n).setLen.isSome then 0 else (s.desc n).draftLen

/-- The code of one step after another; the state of a refused edit is dropped by its caller. -/
def andThen (p : FC × State) (f : State → FC × State) : FC × State := if p.1 = .ok then f p.2 else p

/-- A list of steps in order, up to the first that is refused. -/
def steps {α : Type} (l : List α) (s : State) (f : State → α → FC × State) : FC × State :=
  l.foldl (fun p x => andThen p (fun s => f s x)) (.ok, s)

/-- The claimed frames, nodes or bits of a sequence's pending edits grow. -/
def claimFrame (s : State) (n : Nat) (pf : Nat × Nat) : State :=
  s.updPend n (fun p => { p with frames := p.frames ++ [pf] })

/-- A fresh private page of a sequence mapped at chart page v. -/
def mapFresh (s : State) (l : Layout) (n sp g : Nat) (tail : Bool) : FC × State :=
  match allocFrame s l (s.desc n).partition n g with
  | none => (.frameExhausted, s)
  | some (s, pf, a) => setLeaf (claimFrame s n pf) n (sp * l.pg + g) (leafEntry a tail false)

/-- POS_TAG of the highest live slot below k, plus 1, or 0 (R48, Table 2-9); a remote page is read as it was fetched. -/
def nextPosBelow (s : State) (fs : List Fetched) (pg root depth : Nat) (k : Nat) : FC × Nat :=
  let pages := (List.range (ceilDiv k 256)).reverse
  pages.foldl (fun (acc : FC × Nat) sp =>
    if acc.1 != .ok || acc.2 != 0 then acc
    else
      let (c, e) := lookup s root depth (sp * pg)
      if c != .ok then (c, 0)
      else if !eValid e then acc
      else
        let slots := min 256 (k - 256 * sp)
        let rows : FC × List Nat :=
          if eRemote e then
            let (_, c, d, _) := fetchGlobal s fs (eNode e * 2 ^ 48 + eFrame e + 0x100) 0x1000
            (c, (List.range slots).map (fun j => fieldAt d (16 * j) 16))
          else (.ok, (List.range slots).map (fun j => metaRow s (eFrame e) j))
        match rows.2.reverse.find? (fun m => bit m 0) with
        | some m => (rows.1, bits m 80 48 + 1)
        | none => (rows.1, 0)) (.ok, 0)

/-- Bytes of a remote page brought into a frame of this block (R49). -/
def landRemote (s : State) (fs : List Fetched) (e dst n : Nat) : FC × State :=
  let (s, c, d, m) := fetchGlobal s fs (eNode e * 2 ^ 48 + eFrame e) n
  if c = .ok then (.ok, s.write dst d m) else (c, s)

/-- Copy-on-write of slot page sp (R49): nothing to copy where no page of it is shared or remote. -/
def cowPage (s : State) (fs : List Fetched) (l : Layout) (n sp : Nat) : FC × State :=
  let pg := l.pg
  let (code, olds) := slotEntries s n pg sp
  if code != .ok then (code, s)
  else if !olds.any (fun e => eValid e && (eShared e || eRemote e)) then (.ok, s)
  else
    let below := min 256 (editLen s n - 256 * sp)
    steps (List.range pg) s (fun s g =>
      let e := olds.getD g 0
      match allocFrame s l (s.desc n).partition n g with
      | none => (.frameExhausted, s)
      | some (s, pf, a) =>
        let s := claimFrame s n pf
        let copied : FC × State :=
          if !eValid e then (.ok, s)
          else if eRemote e then
            let (c, s') := landRemote s fs e a l.pageBytes
            (c, s'.write (a + 8) (natLe 4 n))
          else
            let f := eFrame e
            let (s, hd, hm) := s.read f 0x1100
            let s := s.write a hd hm
            let s := s.write (a + 8) (natLe 4 n)
            (.ok, (List.range below).foldl (fun s j => copySlot s l g f j a j) s)
        andThen copied (fun s =>
          let fresh := (List.range (l.planesIn g)).foldl (fun s q =>
            if l.summary then s.write (a + l.sumOff q) ((List.replicate l.width (natLe 2 0x7F80)).flatten ++
              (List.replicate l.width (natLe 2 0xFF80)).flatten) else s) s
          let s := if eValid e then resummarise fresh l g a (List.range below) else s
          setLeaf s n (sp * pg + g) (leafEntry a false (eCompacted e))))

/-! ## The operations of Table 2-9 -/

/-- EXTEND: every chart page for slots below k is mapped (Table 2-9, R45). -/
def editExtend (s : State) (fs : List Fetched) (n k : Nat) : FC × State :=
  match seqLayout s n with
  | none => (.chartMalformed, s)
  | some l =>
    if k = 0 then (.ok, s)
    else
      let pages := ceilDiv k 256
      let d := s.desc n
      let len := editLen s n
      let ordinary := len + d.appendLen
      let part := Map.get s.charts.parts d.partition { base := 0, size := 0, log2 := 16 }
      if pages * l.pg > 2 ^ 63 then (.chartDepth, s)
      else if pages * l.pg > 512 * s.charts.nodesAlloc.length + part.frames then (.frameExhausted, s)
      else
        andThen (growFor s n (pages * l.pg - 1)) (fun s =>
          steps (List.range pages) s (fun s sp =>
            let (code, es) := slotEntries s n l.pg sp
            if code != .ok then (code, s)
            else if len < k && len ≤ 256 * sp + 255 && es.any (fun e => eValid e && (eShared e || eRemote e)) then
              cowPage s fs l n sp
            else
              let tail := ordinary ≤ 256 * sp && 256 * sp < ordinary + editDrafts s n
              steps (List.range l.pg) s (fun s g =>
                let e := es.getD g 0
                if !eValid e then mapFresh s l n sp g tail
                else if eTail e && 256 * sp < ordinary then setLeaf s n (sp * l.pg + g) (e - 8)
                else (.ok, s))))

/-- ATTACH (R48). A remote leaf of the source is refused: it cannot be shared, and only SET_ENTRY creates remote entries
(R38, R52). A leaf below the count that is not mapped is refused with FC_ATTACH_RANGE.
DESIGN CHOICE (notes/assumptions/95.md). -/
def editAttach (s : State) (fs : List Fetched) (n src k : Nat) : FC × State :=
  if (s.desc src).state = .free then (.seqInvalid, s)
  else if k < 1 || (s.desc src).committedLen < k || editLen s n != 0 then (.attachRange, s)
  else
    match seqLayout s src with
    | none => (.chartMalformed, s)
    | some l =>
      let pages := ceilDiv k 256 * l.pg
      let pos := nextPosBelow s fs l.pg (s.desc src).shadowRoot (s.desc src).shadowDepth k
      andThen (growFor s n (pages - 1)) (fun s =>
        andThen (steps (List.range pages) s (fun s v =>
          let (code, e) := shadowEntry s src v
          if code != .ok then (code, s)
          else if !eValid e then (.attachRange, s)
          else if eRemote e then (.chartMalformed, s)
          else
            match frameOf s (eFrame e) with
            | none => (.chartMalformed, s)
            | some pf =>
              let own : FC × State :=
                if eShared e then (.ok, s)
                else
                  let s := (claimBit s pf 0).updPend src (fun p => { p with
                    bitsClaimed := p.bitsClaimed ++ [(pf.1, pf.2, 0)], dirty := true })
                  setLeaf s src v (e + 4)
              andThen own (fun s =>
                match lowestClear (shareMap s pf) with
                | none => (.shareFull, s)
                | some i =>
                  let s := (claimBit s pf i).updPend n (fun p => { p with
                    bitsClaimed := p.bitsClaimed ++ [(pf.1, pf.2, i)] })
                  setLeaf s n v (putBits (putBits e 2 1 1) 40 8 i))))
          (fun s => (pos.1, s.updPend n (fun p => { p with setLen := some (k, pos.2) }))))

/-- A free frame that a leaf entry names is allocated by the edit that names it, and prepared as the page of chart page v
(R34). -/
def claimNamed (s : State) (n v : Nat) (pf : Nat × Nat) : State :=
  match Map.get? s.charts.parts pf.1 with
  | none => s
  | some p =>
    if p.alloc.contains pf.2 then s
    else
      let s := claimFrame (s.updPart pf.1 (fun p => { p with alloc := insertNat pf.2 p.alloc })) n pf
      match seqLayout s n with
      | none => s
      | some l => preparePage s l n (v % l.pg) (p.addr pf.2) false

/-- A leaf entry given from outside takes its place: a SHARED entry claims its sharer bit, a private frame counts as
allocated (R34, R55). -/
def takeLeaf (s : State) (n v e : Nat) : FC × State :=
  if v ≥ 2 ^ 63 then (.chartDepth, s)
  else
    andThen (setLeaf s n v e) (fun s =>
      (.ok, if eValid e && !eRemote e then
          match frameOf s (eFrame e) with
          | none => s
          | some pf =>
            let s := claimNamed s n v pf
            if eShared e && !(shareMap s pf).getLsbD (eIdx e) then
              (claimBit s pf (eIdx e)).updPend n (fun p => { p with
                bitsClaimed := p.bitsClaimed ++ [(pf.1, pf.2, eIdx e)] })
            else s
        else s))


/-- The refusals of a REMAP that its range gives: entries that cannot be read, too many new pages, the end of the committed
slots, a shared or remote page (R38, R62). -/
def remapCode (s : State) (n pg p0 nOld nNew : Nat) : FC :=
  let d := s.desc n
  let old := leavesOf s d.shadowRoot d.shadowDepth
  let c := chartCode s d.shadowRoot d.shadowDepth
  if c != .ok then c
  else if nNew > nOld || (nOld != 0 && editLen s n / 256 < p0 + nOld) then .remapRange
  else if old.any (fun q => p0 * pg ≤ q.1 && q.1 < (p0 + nOld) * pg && (eShared q.2 || eRemote q.2)) then .remapRange
  else .ok

/-- REMAP of slot pages p0 to p0 + nOld − 1 by new leaf entries (R62, Table 2-9). -/
def editRemap (s : State) (n p0 nOld nNew : Nat) (es : List Nat) : FC × State :=
  match seqLayout s n with
  | none => (.chartMalformed, s)
  | some l =>
    let pg := l.pg
    let d := s.desc n
    let old := leavesOf s d.shadowRoot d.shadowDepth
    let at_ := fun (v : Nat) => ((old.find? (fun p => p.1 == v)).map Prod.snd).getD 0
    if remapCode s n pg p0 nOld nNew != .ok then (remapCode s n pg p0 nOld nNew, s)
    else if es.length != nNew * pg || es.any (fun e => !eValid e || eShared e || eRemote e || leafCode s e != .ok) then
      (.remapRange, s)
    else
      let top := old.foldl (fun m p => max m (p.1 / pg)) 0
      let shift := nOld - nNew
      andThen (steps (List.range (nNew * pg)) s (fun s i =>
          let e := es.getD i 0
          let s := match frameOf s (eFrame e) with
            | none => s
            | some pf => claimNamed s n (p0 * pg + i) pf
          setLeaf s n (p0 * pg + i) e)) (fun s =>
        andThen (steps (List.range ((top + 1) * pg - (p0 + nNew) * pg)) s (fun s i =>
            let v := (p0 + nNew) * pg + i
            let e := at_ (v + shift * pg)
            if e = at_ v then (.ok, s) else setLeaf s n v e)) (fun s =>
          (.ok, s.updDesc n (fun d => { d with remappedPages := d.remappedPages + shift }))))

/-- A running eviction job ends: its walk is over (R66). -/
def jobEnd (s : State) (n : Nat) : State :=
  if !Map.has s.charts.jobs n then s
  else
    let s := { s with charts := { s.charts with jobs := Map.erase s.charts.jobs n } }
    walkEnd (s.updDesc n (fun d => { d with evictActive := false })) n .evict

/-- EVICT window of a sequence's model (R29, Table 3-7): sink N, window W, least threshold, margin, decay. -/
def evictParams (s : State) (n : Nat) : Nat × Nat × Nat × Nat × Nat :=
  let r := (s.desc n).repertoire
  if repValid s r && bit (repWord s r 0) 3 then
    let w3 := repWord s r 3
    let w4 := repWord s r 4
    (bits w3 48 16, bits w3 0 32, bits w3 32 16, bits w4 48 8, bits w4 32 16)
  else (s.ent .evictSink, s.ent .evictWindow, s.ent .evictThresholdMin, s.ent .evictMargin, s.ent .evictDecay)

/-- End of the eviction range for a captured length (R67). -/
def evictEnd (s : State) (n captured : Nat) : Nat := (captured - (evictParams s n).2.1) / 256

/-- The lowest slot page from which every page up to p1 − 1 is private (R67). -/
def evictFirst (s : State) (pg root depth p1 : Nat) : Nat :=
  match p1 with
  | 0 => 0
  | p + 1 =>
    if (List.range pg).all (fun g =>
        let (c, e) := lookup s root depth (p * pg + g)
        c == .ok && eValid e && !eShared e && !eRemote e) then evictFirst s pg root depth p
    else p + 1

/-- A running job's REMAP will fail when chart page v lies in its range (R70). -/
def breakJob (s : State) (n v : Nat) : State :=
  match Map.get? s.charts.jobs n, seqLayout s n with
  | some j, some l =>
    let d := s.desc n
    let p1 := evictEnd s n j.captured
    if v / l.pg < p1 && evictFirst s l.pg d.chartRoot d.chartDepth p1 ≤ v / l.pg then
      { s with charts := { s.charts with jobs := Map.put s.charts.jobs n { j with broken := true } } }
    else s
  | _, _ => s

/-- SET_ENTRY (Table 2-9); inside the range of a running job it makes the job's REMAP fail (R70). -/
def editSetEntry (s : State) (n v e : Nat) : FC × State := andThen (takeLeaf s n v e) (fun s => (.ok, breakJob s n v))

/-- TRUNCATE (Table 2-9); a count beyond the committed length leaves it. -/
def editTruncate (s : State) (fs : List Fetched) (n k : Nat) : FC × State :=
  match seqLayout s n with
  | none => (.chartMalformed, s)
  | some l =>
    let k := min k (editLen s n)
    let d := s.desc n
    let (c, pos) := nextPosBelow s fs l.pg d.shadowRoot d.shadowDepth k
    let old := leavesOf s d.shadowRoot d.shadowDepth
    if c != .ok then (c, s)
    else if chartCode s d.shadowRoot d.shadowDepth != .ok then (chartCode s d.shadowRoot d.shadowDepth, s)
    else
      andThen (steps (old.filter (fun p => ceilDiv k 256 ≤ p.1 / l.pg)) s (fun s p => setLeaf s n p.1 0)) (fun s =>
        let s := s.updPend n (fun p => { p with setLen := some (k, pos) })
        let s := s.updDesc n (fun d => { d with remappedPages := 0, verdict := false, draftAccept := 0 })
        (.ok, match Map.get? s.charts.jobs n with
          | some j => if k < evictEnd s n j.captured * 256 then jobEnd s n else s
          | none => s))

/-- A completion word of an edit (R63). -/
def editReport (s : State) (h : EditHdr) (code : FC) : State :=
  (sendCompletion s h.compl ((s.desc h.seq.toNat).epoch.toNat * 2 ^ 32 + code.value) 0
    (s.desc h.seq.toNat).tenant).1

/-- Every queued edit of a sequence other than one reports a code and leaves the queue. -/
def reportEdits (s : State) (n keep : Nat) (code : FC) : State :=
  let mine := s.charts.editQ.filter (fun e => e.hdr.seq.toNat == n && e.id != keep)
  let s := mine.foldl (fun s e => editReport s e.hdr code) s
  { s with charts := { s.charts with editQ := s.charts.editQ.filter (fun e => !(e.hdr.seq.toNat == n && e.id != keep)) } }

/-- What a discarded shadow gives back: claimed frames and bits that the committed chart does not hold, and its fresh
nodes. -/
def dropShadow (s : State) (n : Nat) : State :=
  let p := s.pendOf n
  let d := s.desc n
  let (keepF, keepB) := heldBy s (leavesOf s d.chartRoot d.chartDepth)
  let s := (p.frames.filter (fun f => !keepF.contains f && shareMap s f == 0)).foldl freeFrame s
  let s := (p.bitsClaimed.filter (fun b => !keepB.contains b)).foldl (fun s b => releaseBit s (b.1, b.2.1) b.2.2) s
  let s := p.nodes.foldl freeNode s
  (s.updPend n (fun _ => { })).updDesc n (fun d => { d with
    shadowRoot := d.chartRoot, shadowDepth := d.chartDepth, remappedPages := 0 })

/-- The code with which a chart cannot be given back whole: an entry of it is refused (R38), or a sharer bit that it
holds is clear (R50). -/
def releaseCode (s : State) (n : Nat) : FC :=
  let d := s.desc n
  let c := chartCode s d.chartRoot d.chartDepth
  if c != .ok then c
  else if (heldBy s (leavesOf s d.chartRoot d.chartDepth)).2.all (bitHeld s) then .ok
  else .shareUnderflow

/-- RELEASE (Table 2-9): earlier pending edits are cancelled, the shadow becomes an empty chart, the job ends. -/
def editRelease (s : State) (n id : Nat) : FC × State :=
  let s' := dropShadow s n
  if releaseCode s' n != .ok then (releaseCode s' n, s)
  else match emptyRoot s' n with
  | none => (.nodeExhausted, s)
  | some s =>
    let s := reportEdits s n id .editCancelled
    let s := s.updDesc n (fun d => { d with verdict := false, draftAccept := 0, remappedPages := 0 })
    let s := s.updPend n (fun p => { p with setLen := some (0, 0), release := true })
    let s := { s with charts := { s.charts with
      jobWait := s.charts.jobWait.filter (fun j => j.1 != n), jobAgain := s.charts.jobAgain.filter (fun j => j.1 != n) } }
    (.ok, jobEnd s n)

/-- A verdict of k accepted drafts (R45). -/
def editVerdict (s : State) (n k : Nat) : FC × State :=
  if k > editDrafts s n then (.draftRange, s)
  else (.ok, s.updDesc n (fun d => { d with verdict := true, draftAccept := k }))

/-! ## Commit (R43, R45, R58) -/

/-- Whether a sequence has something to commit. -/
def hasPending (s : State) (n : Nat) : Bool :=
  let d := s.desc n
  (s.pendOf n).dirty || d.appendLen != 0 || d.verdict || d.remappedPages != 0

/-- What a commit unlinks: nodes, private frames, sharer bits. -/
structure Unlinked where
  nodes : List Nat
  frames : List (Nat × Nat)
  bits : List (Nat × Nat × Nat)
  deriving DecidableEq, Repr

/-- Frees what a commit has unlinked; a frame that some chart still shares waits for its last bit (R50). -/
def freeUnlinked (s : State) (u : Unlinked) : State :=
  let s := u.nodes.foldl freeNode s
  let s := u.frames.foldl (fun s f => if shareMap s f = 0 then freeFrame s f else s) s
  u.bits.foldl (fun s b => releaseBit s (b.1, b.2.1) b.2.2) s

/-- The shadow becomes the committed chart: new root, live bits, PRIVATE_FRAMES; with what is unlinked (R51, R55). -/
def swapRoot (s : State) (n : Nat) : State × Unlinked :=
  let d := s.desc n
  let p := s.pendOf n
  let oldN := nodesOf s d.chartRoot d.chartDepth
  let newN := nodesOf s d.shadowRoot d.shadowDepth
  let (oldF, oldB) := heldBy s (leavesOf s d.chartRoot d.chartDepth)
  let (newF, newB) := heldBy s (leavesOf s d.shadowRoot d.shadowDepth)
  let newAll := newF ++ newB.map (fun b => (b.1, b.2.1))
  let u : Unlinked :=
    { nodes := ((oldN ++ p.nodes).filter (fun a => !newN.contains a)).eraseDups,
      frames := ((oldF ++ p.frames).filter (fun f => !newAll.contains f)).eraseDups,
      bits := ((oldB ++ p.bitsClaimed).filter (fun b => !newB.contains b)).eraseDups }
  let s := { s with charts := { s.charts with
    nodesLive := newN.foldl (fun l a => insertNat a l) s.charts.nodesLive, pend := Map.erase s.charts.pend n } }
  (s.updDesc n (fun d => { d with
    chartRoot := d.shadowRoot, chartDepth := d.shadowDepth, privateFrames := newF.length }), u)

/-- The length updates of one commit (R43, R45, R70); lengths that an edit has set outright take the place of the old ones,
and the REMAPs after it still count (Table 2-9).
DEDUCED (notes/assumptions/45.md). -/
def commitLens (d : Desc) (setLen : Option (Nat × Nat)) : Desc :=
  let k := if d.verdict then d.draftAccept else 0
  let d' := { d with
    committedLen := d.committedLen + d.appendLen + k - 256 * d.remappedPages,
    nextPos := d.nextPos + d.appendLen + k,
    draftLen := if d.verdict then 0 else d.draftLen, verdict := false, draftAccept := 0,
    appendLen := 0, remappedPages := 0, held := false }
  match setLen with
  | some (l, p) => { d' with committedLen := l + k - 256 * d.remappedPages, nextPos := p + k, draftLen := 0 }
  | none => d'

/-- The highest value of TNT_FRAMES_PEAK. -/
def framesHeld (s : State) (t : Nat) : Nat :=
  s.charts.seqs.foldl (fun m q => if q.2.state != .free && q.2.tenant = t then m + q.2.privateFrames else m) 0

/-- TNT_FRAMES_PEAK follows the frames a tenant holds (Table 19-3). -/
def peakFrames (s : State) (t : Nat) : State :=
  let h := framesHeld s t
  if s.tnt .tntFramesPeak t < h then
    { s with dict := { s.dict with cnt := Map.put s.dict.cnt (tenantKey .tntFramesPeak t) h } }
  else s

/-- What one commit does to the chart and the descriptor (R43, R45, R55, R58): the shadow becomes the chart, lengths and EPOCH
follow, what is unlinked is freed. -/
def commitChart (s : State) (n : Nat) : State :=
  let p := s.pendOf n
  let d := s.desc n
  let gained := d.appendLen + (if d.verdict then d.draftAccept else 0)
  let (s, u) := swapRoot s n
  let s := s.updDesc n (fun d => { commitLens d p.setLen with epoch := d.epoch + 1 })
  let s := s.bumpTnt .tntTokens d.tenant 0 gained
  let s := s.bump .blkTokens 0 0 gained
  let s := freeUnlinked s u
  peakFrames s d.tenant

/-- One commit of a sequence whose walkers are gone (R58); the edits it holds report and leave the queue (R63). A sharer bit
that another commit of the boundary has cleared since is reported (R50). -/
def commitNow (s : State) (n : Nat) : State :=
  let released := (s.pendOf n).release
  let code := if (swapRoot s n).2.bits.all (bitHeld s) then FC.ok else .shareUnderflow
  let s := commitChart s n
  let s := (s.charts.editQ.filter (fun e => e.hdr.seq.toNat == n && e.applied)).foldl (fun s e => editReport s e.hdr code) s
  { s with charts := { s.charts with
    editQ := s.charts.editQ.filter (fun e => !(e.hdr.seq.toNat == n && e.applied)),
    released := if released then insertNat n s.charts.released else s.charts.released } }

/-- Commit of one sequence at a boundary: held while walkers remain (R58); a poisoned descriptor or node stops it with
an event (R441). -/
def commitSeq (s : State) (n : Nat) : State :=
  if !hasPending s n || (s.desc n).state = .free then s
  else if !s.sched.descCache.contains n && s.anyMark (s.charts.descBase + 128 * n) 128 then
    (s.updDesc n (fun d => { d with state := .faulted, lastFc := .dataPoisoned })).raise .dataPoisoned 6 0 n
  else if (s.desc n).walkers > 0 then s.updDesc n (fun d => { d with held := true })
  else commitNow s n

/-- FORCE_RELEASE (R59): the chart is emptied and EPOCH incremented at once; what it held is freed when the walks of the
old epoch have stopped. -/
def forceRelease (s : State) (n id : Nat) : FC × State :=
  let (c, s1) := editRelease s n id
  if c != .ok then (c, s)
  else
    let e := (s1.desc n).epoch
    let p := s1.pendOf n
    let (s, u) := swapRoot s1 n
    let s := s.updDesc n (fun d => { commitLens { d with appendLen := 0 } p.setLen with epoch := d.epoch + 1 })
    (.ok, { s with charts := { s.charts with
      forced := s.charts.forced ++ [{ seq := n, epoch := e, frames := u.frames, nodes := u.nodes, bits := u.bits }],
      released := insertNat n s.charts.released } })

/-! ## Eviction jobs (R66 to R68, R71) -/

/-- Adds an assist request to its function's queue of 1,024; before a full queue the requester stalls. The code when it cannot
be raised: a PUT of mode 2 to an address beyond the host's 48 bits fails (R71, R95, R446, R97, R293). -/
def raiseAssist (s : State) (fn : Fn) (mode : Nat) (who : AssistFor) (arg0 arg1 : Nat) (arg : List Byte) : FC × State :=
  let queued := (s.mgmt.assists.filter (fun a => a.fn == fn)).length
  if s.sys.phase < 4 then (.assistUnavailable, s)
  else if s.sys.phase = 5 && queued ≥ 64 then (.assistUnavailable, s)
  else if mode = 2 && !s.sys.hpUp then (.nodeUnreachable, s)
  else if mode = 2 && (s.ent .fnHostArgSize < arg.length || 2 ^ 48 < s.ent .fnHostArg + 64 * s.ent .fnHostArgSize ||
      2 ^ 48 < s.ent .fnHostRing + 4096) then (.assistUnavailable, s)
  else
    let a : Assist := { num := s.mgmt.nextAssist, fn := fn, who := who, toHost := mode == 2, arg0 := arg0, arg1 := arg1,
                        arg := arg }
    (.ok, if queued < 1024 then
        { s with mgmt := { s.mgmt with assists := s.mgmt.assists ++ [a],
                                       nextAssist := (s.mgmt.nextAssist + 1) % 2 ^ 32 } }
      else { s with mgmt := { s.mgmt with stalled := s.mgmt.stalled ++ [a] } })

/-- Whether someone waits for an assist, in its queue or before it. -/
def assistOpen (s : State) (who : AssistFor) : Bool :=
  s.mgmt.assists.any (fun a => a.who == who) || s.mgmt.stalled.any (fun a => a.who == who)

/-- Requesters that stalled before a full queue enter it, in their order, as places free (R95). -/
def unstall (s : State) : State :=
  s.mgmt.stalled.foldl (fun s a =>
    if (s.mgmt.assists.filter (fun b => b.fn == a.fn)).length < 1024 then
      { s with mgmt := { s.mgmt with
          stalled := s.mgmt.stalled.erase a, assists := s.mgmt.assists ++ [{ a with num := s.mgmt.nextAssist }]
          nextAssist := (s.mgmt.nextAssist + 1) % 2 ^ 32 } }
    else s) s

/-- Sub-index of a function's mode entry (Table 3-8). -/
def Fn.code : Fn → Nat
  | .admission => 1
  | .batch => 2
  | .eviction => 3
  | .chartWalk => 4
  | .chartEdit => 5
  | .compaction => 6
  | .pageSelect => 7
  | .escalation => 8
  | .waitGraph => 9
  | .keyRotation => 10
  | .counterAgg => 11

/-- Largest answer of a function in bytes (Table 3-11). -/
def answerMax (s : State) (fn : Fn) : Nat :=
  let size := s.ent .fnAnswerSize
  match fn with
  | .chartWalk => 16
  | .escalation => 16
  | .eviction => 0
  | .compaction => 0
  | .waitGraph => 0
  | .keyRotation => 0
  | .counterAgg => 0
  | _ => size

/-- Host assist request record (Table 3-10). -/
def assistRecord (s : State) (a : Assist) (place : Nat) : List Byte :=
  natLe 4 a.num ++ natLe 1 a.fn.code ++ natLe 1 place ++ natLe 2 s.form.node.toNat ++ natLe 8 s.sched.step
    ++ natLe 4 a.arg.length ++ natLe 4 (answerMax s a.fn) ++ natLe 8 a.arg0 ++ natLe 8 a.arg1
    ++ natLe 8 (s.form.node.toNat * 2 ^ 48 + s.ent .fnAnswerBase + place * s.ent .fnAnswerSize) ++ zeros 16

/-- Bytes written to host memory by PUTs of at most 4,096 bytes (R295, R97). -/
def hostPuts (s : State) (a : Nat) (bs : List Byte) : State :=
  (List.range (ceilDiv bs.length 4096)).foldl (fun s i =>
    s.emit (.hostMwr (a + 4096 * i) (slice bs (4096 * i) (min 4096 (bs.length - 4096 * i))) [])) s

/-- Requests of mode 2 take free places of the host ring: argument, record, interrupt (R97). The firmware must be running
(R446, R454). -/
def forwardAssists (s : State) : State :=
  if s.sys.phase != 4 then s
  else s.mgmt.assists.foldl (fun s a =>
    if !a.toHost || a.place.isSome then s
    else
      let used := s.mgmt.assists.filterMap (fun b => b.place)
      match (List.range 64).find? (fun n => !used.contains n) with
      | none => s
      | some n =>
        if !s.sys.hpUp then s
        else
          let s := hostPuts s (s.ent .fnHostArg + n * s.ent .fnHostArgSize) a.arg
          let s := s.emit (.hostMwr (s.ent .fnHostRing + 64 * n) (assistRecord s a n) [])
          let s := { s with mgmt := { s.mgmt with
            assists := s.mgmt.assists.map (fun (b : Assist) => if b.num == a.num then { b with place := some n } else b) } }
          s.irq 2) s

/-- The mode of a trigger: eviction and compaction end in one request, so the larger of their modes, under the eviction
function unless that entry is 0 (R71).
DESIGN CHOICE (notes/assumptions/96.md). -/
def evictMode (s : State) : Nat := max (s.ent .fnModeEviction) (s.ent .fnModeCompaction)

/-- A job of a sequence starts: it captures C and holds a walk. In assisted mode the trigger raises an assist request in
its place, which goes to firmware with the descriptor; a request that cannot be raised is an event (R66, R71). -/
def jobStart (s : State) (n target : Nat) : State :=
  let d := s.desc n
  let mode := evictMode s
  let j : EvictJob := { captured := d.committedLen, target := target, epoch := d.epoch, assisted := mode != 0 }
  if mode = 0 then
    let s := { s with charts := { s.charts with jobs := Map.put s.charts.jobs n j } }
    walkBegin (s.updDesc n (fun d => { d with evictActive := true })) n .evict
  else
    let fn : Fn := if s.ent .fnModeEviction = 0 then .compaction else .eviction
    match raiseAssist s fn mode (.evict n) n d.committedLen d.bytes with
    | (.ok, s) => forwardAssists { s with charts := { s.charts with jobs := Map.put s.charts.jobs n j } }
    | (c, s) => s.raise c 6 0 n

/-- Waiting sequences start their jobs, in sequence order, while places are free (R66). A held sequence goes on
waiting. -/
def jobPump (s : State) : State :=
  s.charts.jobWait.foldl (fun s w =>
    if s.charts.jobs.length < s.ent .evictJobsMax && !(s.desc w.1).held && (s.desc w.1).state != .free then
      jobStart { s with charts := { s.charts with jobWait := s.charts.jobWait.filter (fun j => j.1 != w.1) } } w.1 w.2
    else s) s

/-- A sequence asks for a job (R66): one runs or waits already, or it joins the waiting list in sequence order. -/
def jobRequest (s : State) (n target : Nat) : State :=
  if Map.has s.charts.jobs n || s.charts.jobWait.any (fun j => j.1 == n) then s
  else
    let before := s.charts.jobWait.filter (fun j => j.1 < n)
    let after := s.charts.jobWait.filter (fun j => n < j.1)
    jobPump { s with charts := { s.charts with jobWait := before ++ [(n, target)] ++ after } }

/-- Jobs of the sequences over their budget, after the commits of action 1, jobs that ended without their frames or whose
REMAP failed, and those that wait (R66, R68, R70). -/
def jobsAtBoundary (s : State) : State :=
  let again := s.charts.jobAgain
  let s := again.foldl (fun s j => if (s.desc j.1).state = .free then s else jobRequest s j.1 j.2)
    { s with charts := { s.charts with jobAgain := [] } }
  jobPump (s.charts.seqs.foldl (fun s q =>
    let d := s.desc q.1
    if d.state != .free && d.pageBudget != 0 && d.privateFrames > d.pageBudget then jobRequest s q.1 0 else s) s)

/-- Metadata row of a slot over its page frames: the row, and the largest importance (R34, R65); a marked row scores as
padding. -/
def slotMeta (s : State) (frames : List Nat) (j : Nat) : Nat × Nat :=
  frames.foldl (fun acc a =>
    if metaMarked s a j then acc
    else
      let m := metaRow s a j
      (if acc.1 = 0 then m else acc.1, max acc.2 (bits m 64 16))) (0, 0)

/-- The threshold of R67: bisection for the least threshold above T_min whose survivors fit. -/
def bisect (fuel : Nat) (ok : Nat → Bool) (lo hi : Nat) : Nat :=
  match fuel with
  | 0 => lo
  | f + 1 =>
    if lo < hi then
      let mid := (lo + hi) / 2
      if ok mid then bisect f ok lo mid else bisect f ok (mid + 1) hi
    else lo

/-- New pages of a job allocated: entries and frames, or `none` when frames run out (R68). -/
def evictFrames (s : State) (l : Layout) (part n count : Nat) : Option (State × List (Nat × Nat) × List Nat) :=
  (List.range (count * l.pg)).foldl (fun acc i =>
    match acc with
    | none => none
    | some (s, fs, as) =>
      match allocFrame s l part n (i % l.pg) true with
      | none => none
      | some (s, pf, a) => some (s, fs ++ [pf], as ++ [a])) (some (s, [], []))

/-- Survivors copied into the new pages (R67): MOVED set, importance decayed, summaries recomputed, scales of the page
of a new page's first slot. The importance of R65, one value for a slot, goes into the row of every group.
DESIGN CHOICE (notes/assumptions/96.md). -/
def evictCopy (s : State) (l : Layout) (decay : Nat) (keep : List (Nat × Nat × Nat)) (pages : Nat → List Nat)
    (news : List Nat) : State :=
  let pg := l.pg
  let s := keep.foldl (fun (acc : State × Nat) k =>
    let (s, i) := acc
    let (slot, row, imp) := k
    let imp := if imp = 0 then 0 else max 1 (imp - decay)
    let row := putBits (putBits row 64 16 imp) 2 1 1
    let s := (List.range pg).foldl (fun s g =>
      let dst := news.getD (i / 256 * pg + g) 0
      let src := (pages (slot / 256)).getD g 0
      let s := if i % 256 = 0 then
          let (s, d, m) := s.read (src + 0x10) 0xF0
          s.write (dst + 0x10) d m
        else s
      let s := copySlot s l g src (slot % 256) dst (i % 256)
      s.write (dst + 0x100 + 16 * (i % 256)) (natLe 16 row)) s
    (s, i + 1)) (s, 0) |>.1
  (List.range (ceilDiv keep.length 256)).foldl (fun s i =>
    let cnt := min 256 (keep.length - 256 * i)
    (List.range pg).foldl (fun s g => resummarise s l g (news.getD (i * pg + g) 0) (List.range cnt)) s) s

/-- A job is to be started again at the next boundary (R68, R70). -/
def jobAgain (s : State) (n target : Nat) : State :=
  { s with charts := { s.charts with jobAgain := s.charts.jobAgain.filter (fun j => j.1 != n) ++ [(n, target)] } }

/-- A hardware job finishes (R67, R68, R70). A target of 0 on a sequence without a budget evicts nothing.
DEDUCED, DESIGN CHOICE (notes/assumptions/96.md). -/
def jobFinish (s : State) (n : Nat) (j : EvictJob) : State :=
  match seqLayout s n with
  | none => jobEnd s n
  | some l =>
    let (sink, _, tmin, margin, decay) := evictParams s n
    let d := s.desc n
    let pg := l.pg
    let p1 := evictEnd s n j.captured
    let p0 := evictFirst s pg d.chartRoot d.chartDepth p1
    let range := p1 - p0
    let budget := if j.target = 0 then d.pageBudget else j.target
    let targetSp : Int := (budget / pg : Nat) - (margin : Int)
    let excess : Int := (d.privateFrames / pg : Nat) - targetSp
    if range = 0 || excess ≤ 0 || budget = 0 then jobPump (jobEnd s n)
    else
      let cap := (range - excess.toNat) * 256
      let pages := fun (sp : Nat) => (List.range pg).map (fun g => eFrame (lookup s d.chartRoot d.chartDepth (sp * pg + g)).2)
      let metas := (List.range (256 * range)).map (fun i =>
        let slot := 256 * p0 + i
        let (m, imp) := slotMeta s (pages (slot / 256)) (slot % 256)
        (slot, m, imp))
      let keeps := fun (t : Nat) (x : Nat × Nat × Nat) => x.1 < sink || (bit x.2.1 0 && t ≤ x.2.2)
      let count := fun (t : Nat) => (metas.filter (keeps t)).length
      let t := if count tmin ≤ cap then tmin else bisect 18 (fun t => count t ≤ cap) (tmin + 1) 0x10000
      let keep := metas.filter (keeps t)
      let s := if count t > cap then
          let s := s.raise .evictNoRoom 6 0 n
          { s with sched := { s.sched with noRoom := insertNat n s.sched.noRoom } }
        else s
      match evictFrames s l d.partition n (ceilDiv keep.length 256) with
      | none => jobPump (jobAgain (jobEnd (s.raise .frameExhausted 6 0 n) n) n j.target)
      | some (s1, fs, as) =>
        let s1 := evictCopy s1 l decay keep pages as
        let (c, s2) := if j.broken then (FC.remapRange, s1)
          else editRemap s1 n p0 range (ceilDiv keep.length 256) (as.map (fun a => leafEntry a false true))
        if c = .ok then
          let s2 := s2.updPend n (fun p => { p with dirty := true, frames := p.frames ++ fs })
          jobPump (jobEnd s2 n)
        else jobPump (jobAgain (jobEnd (fs.foldl freeFrame s1) n) n j.target)

/-! ## Submission of edits (R56, R59, R61 to R63, R71) -/

/-- An operation applied to the shadow: its code and the state after it.
DEDUCED (notes/assumptions/45.md). -/
def applyOp (s : State) (id : Nat) (h : EditHdr) (op : EditOp) : FC × State :=
  let n := h.seq.toNat
  match op with
  | .extend k => editExtend s h.fetched n k
  | .attach src k => editAttach s h.fetched n src k
  | .cow sp =>
    match seqLayout s n with
    | none => (.chartMalformed, s)
    | some l => if sp * l.pg + l.pg > 2 ^ 63 then (.chartDepth, s) else cowPage s h.fetched l n sp
  | .grow d =>
    let cur := (s.desc n).shadowDepth
    if d ≤ cur || d > 7 || cur = 0 then (.chartDepth, s) else growLevels s n (d - cur)
  | .setEntry v e => editSetEntry s n v e
  | .remap p0 nOld nNew es _ =>
    if (Map.get? s.charts.jobs n).any (fun j => j.assisted && j.broken) then (.remapRange, s)
    else editRemap s n p0 nOld nNew es
  | .truncate k => editTruncate s h.fetched n k
  | .release => editRelease s n id
  | .draftCommit k => editVerdict s n k
  | .draftRollback => editVerdict s n 0
  | .evict target => (.ok, jobRequest s n target)
  | .forceRelease => forceRelease s n id

/-- Whether an edit reports when it is applied rather than at a commit. -/
def EditOp.immediate : EditOp → Bool
  | .evict _ => true
  | .forceRelease => true
  | _ => false

/-- Whether an operation is a verdict, which leaves the shadow alone. -/
def EditOp.verdict : EditOp → Bool
  | .draftCommit _ => true
  | .draftRollback => true
  | _ => false

/-- The edit with an identifier leaves the queue. -/
def dropEdit (s : State) (id : Nat) : State :=
  { s with charts := { s.charts with editQ := s.charts.editQ.filter (fun e => e.id != id) } }

/-- A queued edit has been applied with a result: a refusal reports at once and leaves the shadow as it was (R63). -/
def finishEdit (s : State) (id : Nat) (h : EditHdr) (op : EditOp) (q : FC × State) : State :=
  let n := h.seq.toNat
  if q.1 != .ok then dropEdit (editReport s h q.1) id
  else
    let s := if op.verdict || op.immediate then q.2 else q.2.updPend n (fun p => { p with dirty := true })
    if op.immediate then dropEdit (editReport s h .ok) id
    else { s with charts := { s.charts with
      editQ := s.charts.editQ.map (fun e => if e.id == id then { e with applied := true } else e) } }

/-- A queued edit is applied by its operation; a job that it cancels makes room for those that wait (R66, R70). -/
def runEdit (s : State) (id : Nat) (h : EditHdr) (op : EditOp) : State :=
  jobPump (finishEdit s id h op (applyOp s id h op))

/-- Whether the source of an edit is a Control Complex core of this block (R59). -/
def fromCc (h : EditHdr) : Bool :=
  match h.src with
  | .cc _ => true
  | _ => false

/-- Lengths that go with an edit to the host (Table 3-11). -/
def editArg (s : State) (n : Nat) (cmd : List Byte) : List Byte :=
  let d := s.desc n
  fit cmd 128 ++ natLe 8 d.committedLen ++ natLe 8 d.appendLen ++ natLe 8 d.draftLen ++ natLe 8 d.nextPos
    ++ natLe 8 d.chartDepth

/-- The 128-byte edit command that an operation spells (Tables 2-8, 2-9). -/
def editCmdBytes (h : EditHdr) (op : EditOp) : List Byte :=
  let g := fun (code a b c : Nat) =>
    natLe 8 (h.seq.toNat * 2 ^ 32 + code * 256 + 3) ++ natLe 8 a ++ natLe 8 b ++ natLe 8 c ++ natLe 8 h.compl.addr.toNat
      ++ zeros 88
  let f := fun (code a b : Nat) => g code a b 0
  match op with
  | .extend k => f 1 k 0
  | .attach src k => f 2 src k
  | .cow sp => f 3 sp 0
  | .grow d => f 4 d 0
  | .setEntry v e => f 5 v e
  | .remap p0 o w _ c => g 6 p0 (o * 2 ^ 32 + w) c
  | .truncate k => f 7 k 0
  | .release => f 8 0 0
  | .draftCommit k => f 9 k 0
  | .draftRollback => f 10 0 0
  | .evict t => f 11 t 0
  | .forceRelease => f 12 0 0

/-- An edit enters the queue (R56): refused when the queue is full, the sequence is free, or a FORCE_RELEASE does not
come from the Control Complex; in assisted mode it waits for firmware (R71). -/
def submitEdit (s : State) (h : EditHdr) (op : EditOp) : State :=
  let n := h.seq.toNat
  if s.charts.editQ.length ≥ 4096 then editReport s h .editQueueFull
  else if (s.desc n).state = .free then editReport s h .seqInvalid
  else if op = .forceRelease && !fromCc h then editReport s h .accessDenied
  else
    let id := s.charts.nextEdit
    let e : EditEntry := { id := id, hdr := h, op := op }
    let s := { s with charts := { s.charts with nextEdit := id + 1, editQ := s.charts.editQ ++ [e] } }
    let mode := s.ent .fnModeChartEdit
    if mode != 0 && h.src != .internal then
      let (c, s') := raiseAssist s .chartEdit mode (.edit id) n 0 (editArg s n (editCmdBytes h op))
      if c = .ok then forwardAssists s' else dropEdit (editReport s h c) id
    else runEdit s id h op

/-! ## The edit commands as rows -/

/-- Operands of a slot count use bits [47:0]; a reserved bit refuses the edit (R6, R61). -/
def submitOrReserved (s : State) (h : EditHdr) (resv : Bool) (op : EditOp) : State :=
  if resv then editReport s h .reservedNonzero else submitEdit s h op

/-- EXTEND (Table 2-9). -/
def execExtend (h : EditHdr) (a : U64) (s : State) : Host.Outcome State Fault Refusal :=
  .next (submitOrReserved s h (a.toNat ≥ 2 ^ 48) (.extend a.toNat))

/-- ATTACH (R48). -/
def execAttach (h : EditHdr) (src : BitVec 18) (b : U64) (s : State) : Host.Outcome State Fault Refusal :=
  .next (submitOrReserved s h (b.toNat ≥ 2 ^ 48) (.attach src.toNat b.toNat))

/-- COW (R49). -/
def execCow (h : EditHdr) (a : U64) (s : State) : Host.Outcome State Fault Refusal :=
  .next (submitOrReserved s h false (.cow a.toNat))

/-- GROW (R62). -/
def execGrow (h : EditHdr) (a : U64) (s : State) : Host.Outcome State Fault Refusal :=
  .next (submitOrReserved s h false (.grow a.toNat))

/-- SET_ENTRY (Table 2-9). -/
def execSetEntry (h : EditHdr) (a b : U64) (s : State) : Host.Outcome State Fault Refusal :=
  .next (submitOrReserved s h false (.setEntry a.toNat b.toNat))

/-- The entries of a REMAP read from operand C; a marked list is refused with FC_DATA_POISONED (R441), one that cannot be
read with FC_REMAP_RANGE, since no listed entry of it is valid.
DESIGN CHOICE (notes/assumptions/95.md). -/
def remapOp (s : State) (h : EditHdr) (a b c : U64) : State × FC × EditOp :=
  let nOld := b.toNat / 2 ^ 32
  let nNew := b.toNat % 2 ^ 32
  match seqLayout s h.seq.toNat with
  | none => (s, .ok, .remap a.toNat nOld nNew [] c.toNat)
  | some l =>
    if nNew > nOld || nOld * l.pg > 512 * s.charts.nodesAlloc.length then (s, .ok, .remap a.toNat nOld (nOld + 1) [] c.toNat)
    else
      let n := nNew * l.pg
      let (s, code, d, m) := fetchGlobal s h.fetched c.toNat (8 * n)
      if n = 0 then (s, .ok, .remap a.toNat nOld nNew [] c.toNat)
      else if code != .ok then (s, .remapRange, .remap a.toNat nOld nNew [] c.toNat)
      else if m.any id then (s, .dataPoisoned, .remap a.toNat nOld nNew [] c.toNat)
      else (s, .ok, .remap a.toNat nOld nNew ((List.range n).map (fun i => fieldAt d (8 * i) 8)) c.toNat)

/-- A REMAP command (Table 2-9). -/
def submitRemap (s : State) (h : EditHdr) (a b c : U64) : State :=
  if (s.desc h.seq.toNat).state = .free then submitEdit s h (.remap 0 0 0 [] 0)
  else
    let (s, code, op) := remapOp s h a b c
    if code = .ok then submitEdit s h op else editReport s h code

/-- REMAP (R62). -/
def execRemap (h : EditHdr) (a b c : U64) (s : State) : Host.Outcome State Fault Refusal :=
  .next (submitRemap s h a b c)

/-- TRUNCATE (Table 2-9). -/
def execTruncate (h : EditHdr) (a : U64) (s : State) : Host.Outcome State Fault Refusal :=
  .next (submitOrReserved s h (a.toNat ≥ 2 ^ 48) (.truncate a.toNat))

/-- RELEASE (Table 2-9). -/
def execRelease (h : EditHdr) (s : State) : Host.Outcome State Fault Refusal := .next (submitEdit s h .release)

/-- DRAFT_COMMIT (R45). -/
def execDraftCommit (h : EditHdr) (a : U64) (s : State) : Host.Outcome State Fault Refusal :=
  .next (submitOrReserved s h (a.toNat ≥ 2 ^ 48) (.draftCommit a.toNat))

/-- DRAFT_ROLLBACK (R45). -/
def execDraftRollback (h : EditHdr) (s : State) : Host.Outcome State Fault Refusal :=
  .next (submitEdit s h .draftRollback)

/-- EVICT (Table 2-9, R66). -/
def execEvict (h : EditHdr) (a : U64) (s : State) : Host.Outcome State Fault Refusal :=
  .next (submitOrReserved s h false (.evict a.toNat))

/-- FORCE_RELEASE (R59). -/
def execForceRelease (h : EditHdr) (s : State) : Host.Outcome State Fault Refusal :=
  .next (submitEdit s h .forceRelease)

/-- FORCE_RELEASE_FREE (R59): what a forced release held is freed once no walk of its old epoch remains. -/
def execForceReleaseFree (seq : BitVec 18) (s : State) : Host.Outcome State Fault Refusal :=
  match s.charts.forced.find? (fun f => f.seq == seq.toNat) with
  | none => .next s
  | some f =>
    if s.charts.walks.any (fun w => w.seq == f.seq && w.epoch == f.epoch) then .next s
    else
      let s := { s with charts := { s.charts with forced := s.charts.forced.eraseP (fun g => g.seq == seq.toNat) } }
      .next (freeUnlinked s { nodes := f.nodes, frames := f.frames, bits := f.bits })

/-- HELD_COMMIT (R58): a held sequence commits at the moment WALKERS returns to 0. -/
def execHeldCommit (seq : BitVec 18) (s : State) : Host.Outcome State Fault Refusal :=
  let d := s.desc seq.toNat
  .next (if d.held && d.walkers = 0 then
      (if hasPending s seq.toNat then commitNow s seq.toNat else s.updDesc seq.toNat (fun d => { d with held := false }))
    else s)

/-- EVICT_JOB_DONE (R67): a hardware job finishes with its REMAP or a code. -/
def execEvictJobDone (seq : BitVec 18) (s : State) : Host.Outcome State Fault Refusal :=
  match Map.get? s.charts.jobs seq.toNat with
  | none => .next s
  | some j => .next (if j.assisted then s else jobFinish s seq.toNat j)

/-- SHARED_FRAME_INVALIDATED (R50, R190): the lines of a freed shared frame have left all four Commons, and the frame
returns to the free bitmap. -/
def execSharedFrameInvalidated (part : Fin 16) (frame : Nat) (s : State) : Host.Outcome State Fault Refusal :=
  let pf := (part.val, frame)
  if s.charts.sharedInv.contains pf && shareMap s pf == 0 then
    let s := { s with charts := { s.charts with sharedInv := s.charts.sharedInv.erase pf } }
    let s := match Map.get? s.charts.parts part.val with
      | some p => commonsDropAll s (p.addr frame) (2 ^ p.log2)
      | none => s
    .next (freeFrame s pf)
  else .next s

end Sys2Proof.Machine
end

