-- ==== Sys2Proof/Machine/Sfu.lean ====
section
/-!
DEFINITION. The special function unit: the two evaluators, composed functions, derivatives, table banks and their loads
(chapter 6).
-/

namespace Sys2Proof

/-! ## XF40 (R151) -/

/-- Rounded toward −∞ to n significant bits. -/
def Fp.sigDown (n : Nat) (x : Fp) : Fp :=
  match x with
  | .fin s m e =>
    if m = 0 then x
    else
      let q := magExp m e - (n - 1 : Nat)
      let k := floorShift m (e - q)
      let exact := (Fp.fin false k q).eqv (.fin false m e)
      .fin s (if s && !exact then k + 1 else k) q
  | x => x

/-- Rounded to nearest even to n significant bits. -/
def Fp.sigNear (n : Nat) (x : Fp) : Fp :=
  match x with
  | .fin s m e => if m = 0 then x else
      let q := magExp m e - (n - 1 : Nat)
      .fin s (rneShift m (e - q)) q
  | x => x

/-- ⊗ of Table 6-8. -/
def xmul (a b : Fp) : Fp := (a.mulX b).sigNear 41
/-- ⊕ of Table 6-8. -/
def xadd (a b : Fp) : Fp := (a.addX b).sigNear 41

/-- log2 e at 48 significant bits (R157). -/
def cLog2e : Fp := .fin false 203041276517400 (-47)
/-- ln 2 at 48 significant bits (R157). -/
def cLn2 : Fp := .fin false 195103586505167 (-48)
/-- √(2/π) at 48 significant bits (R157). -/
def cG1 : Fp := .fin false 224584538169779 (-48)
/-- 0.044715 × √(2/π) at 48 significant bits (R157). -/
def cG3 : Fp := .fin false 160676761988186 (-52)

/-! ## Table entries (Tables 6-3, 6-4, 6-11) -/

/-- A two's-complement field of w bits. -/
def sfield (x lo w : Nat) : Int :=
  let v := bits x lo w
  if v < 2 ^ (w - 1) then (v : Int) else (v : Int) - 2 ^ w

/-- The entry at byte offset o of a table image. -/
def segAt (tab : List Byte) (o : Nat) : Nat := fieldAt tab o 16

/-- C0 + C1 d + C2 d², exact (R154). -/
def segPoly (e : Nat) (d : Fp) : Fp :=
  let c0 := Fp.ofInt (sfield e 0 44) (-40)
  let c1 := Fp.ofInt (sfield e 44 32) (-30)
  let c2 := Fp.ofInt (sfield e 76 24) (-22)
  (c0.addX (c1.mulX d)).addX (c2.mulX (d.mulX d))

/-- floor(x × 2^k) of a finite value. -/
def floorAt (s : Bool) (m : Nat) (e k : Int) : Int :=
  let n := floorShift m (e + k)
  if s then
    if (Fp.fin false n (-k)).eqv (.fin false m e) then -(n : Int) else -(n : Int) - 1
  else n

/-- The exponential evaluator E with constant K (R152). -/
def expEval (tab : List Byte) (k x : Fp) : Fp :=
  match k.mulX x with
  | .nan => .nan
  | .inf s => if s then Fp.zero else .inf false
  | .fin s m e =>
    let y := Fp.fin s m e
    -- C0 of segment 0 is 1.0 in every accepted table (Table 6-5)
    if m = 0 then Fp.one
    else if !(y.lt (.fin false 128 0)) then .inf false
    else if !((Fp.fin true 150 0).lt y) then Fp.zero
    else
      let z := floorAt s m e 40
      let n := z / 2 ^ 40
      let f := (z % 2 ^ 40).toNat
      let seg := f / 2 ^ 34
      let p := segPoly (segAt tab (16 * seg)) (.fin false (f % 2 ^ 34) (-40))
      match p with
      | .fin ps pm pe => Fp.ofInt (floorAt ps pm pe 40) (n - 40)
      | p => p

/-- The logarithm evaluator Lg (R153, Table 6-7). -/
def logEval (tab : List Byte) (x : Fp) : Fp :=
  match x with
  | .nan => .nan
  | .inf s => if s then .nan else .inf false
  | .fin s m e =>
    if m = 0 then .inf true
    else if s then .nan
    else
      let b := Nat.log2 m
      let high := 2 * m ≥ 3 * 2 ^ b
      let w := if high then b + 1 else b
      let ex : Int := e + w
      let t := Fp.ofInt ((m : Int) - 2 ^ w) (-(w : Int))
      let (seg, d) : Nat × Fp :=
        if high then
          let u : Int := 128 * (m : Int) - 96 * 2 ^ w
          let g := (u / 2 ^ w).toNat
          (g, Fp.ofInt (u - g * 2 ^ w) (-(w : Int) - 7))
        else
          let u : Int := 64 * ((m : Int) - 2 ^ w)
          let g := (u / 2 ^ w).toNat
          (32 + g, Fp.ofInt (u - g * 2 ^ w) (-(w : Int) - 6))
      let v := (t.mulX (segPoly (segAt tab (0x400 + 16 * seg)) d)).sigDown 41
      ((Fp.ofInt ex 0).addX v).sigDown 41

/-! ## Functions (R148, R156, R157, R159) -/

/-- The sigmoid sequence S(v) before its final rounding (R157). -/
def sigmoidX (tab : List Byte) (v : Fp) : Fp :=
  expEval tab Fp.one (logEval tab (xadd Fp.one (expEval tab cLog2e v.negate))).negate

/-- Coefficient P_k of the TANH polynomial (Table 6-11). -/
def tanhCoef (tab : List Byte) (k : Nat) : Fp := Fp.ofInt (sfield (fieldAt tab (0x800 + 8 * k) 8) 0 64) (-62)

/-- TANH of a finite non-zero argument (Table 6-8). -/
def tanhX (tab : List Byte) (x : Fp) : Fp :=
  if x.abs.lt (.fin false 1 (-1)) then
    let y := xmul x x
    let p := [4, 3, 2, 1, 0].foldl (fun acc k => xadd (xmul acc y) (tanhCoef tab k)) (tanhCoef tab 5)
    xmul x p
  else
    let v := xadd Fp.one (xmul (.fin true 2 0) (sigmoidX tab (x.abs.mulX (.fin true 2 0))))
    if x.neg? then v.negate else v

/-- K of an exponential: 1 or log2 e, times the scale at 48 significant bits when there is one (R152). -/
def expK (isExp : Bool) (scale : Option Fp) : Fp :=
  let k := if isExp then cLog2e else Fp.one
  match scale with
  | none => k
  | some a => (a.mulX k).sigNear 48

/-- The results of Table 6-7 for special arguments; a scaled exponential takes its infinities through K (R152). -/
def sfuSpecial (func : Nat) (scaled : Bool) (x : Fp) : Option Fp :=
  match x with
  | .nan => some .nan
  | .inf s => if scaled then none else some (match func with
    | 0 | 2 | 10 => if s then Fp.zero else .inf false
    | 1 | 3 => if s then .nan else .inf false
    | 4 => .fin s 0 0
    | 5 => if s then .nan else Fp.zero
    | 6 => if s then Fp.zero else Fp.one
    | 7 => .fin s 1 0
    | 8 | 9 => if s then .fin true 0 0 else .inf false
    | _ => .nan)
  | .fin s m _ =>
    if m != 0 then (if s && (func = 1 || func = 3 || func = 5) then some .nan else none)
    else if scaled then none
    else some (match func with
    | 0 | 2 => Fp.one
    | 1 | 3 => .inf true
    | 4 | 5 => .inf s
    | 6 => .fin false 1 (-1)
    | 7 | 8 | 9 => x
    | 10 => f32 0x3F317218
    | _ => .nan)

/-- The native function FUNC of an argument, rounded to binary32 (R146, R156, R157). -/
def sfuNative (tab : List Byte) (func : Nat) (scale : Option Fp) (x : Fp) : Fp :=
  match sfuSpecial func scale.isSome x with
  | some y => y
  | none =>
    rne32 (match func with
    | 0 => expEval tab (expK false scale) x
    | 1 => logEval tab x
    | 2 => expEval tab (expK true scale) x
    | 3 => xmul cLn2 (logEval tab x)
    | 4 =>
      let v := expEval tab Fp.one (logEval tab x.abs).negate
      if x.neg? then v.negate else v
    | 5 => expEval tab Fp.one ((logEval tab x).mulX (.fin true 1 (-1)))
    | 6 => sigmoidX tab x
    | 7 => tanhX tab x
    | 8 => xmul x (sigmoidX tab x)
    | 9 =>
      let u := xadd (xmul cG1 x) (xmul (xmul cG3 (xmul x x)) x)
      xmul x (sigmoidX tab (u.mulX (.fin false 2 0)))
    | 10 =>
      if !(x.lt (.fin false 24 0)) then x
      else if !((Fp.fin true 24 0).lt x) then expEval tab cLog2e x
      else xmul cLn2 (logEval tab (xadd Fp.one (expEval tab cLog2e x)))
    | _ => .nan)

/-! ## Gaith-1 compatibility (R165)

The evaluators and sequences of Table 6-13 over the Gaith-1 table: 32 segments each, every intermediate rounded toward −∞ to 32
fraction bits, constants at 32 significant bits.
DEDUCED (notes/assumptions/99.md). -/

/-- A product as Gaith-1 holds it. -/
def gaithMul (a b : Fp) : Fp := (a.mulX b).sigDown 33
/-- A sum as Gaith-1 holds it. -/
def gaithAdd (a b : Fp) : Fp := (a.addX b).sigDown 33

/-- The Gaith-1 exponential evaluator. -/
def gaithExp (k x : Fp) : Fp :=
  match k.mulX x with
  | .nan => .nan
  | .inf s => if s then Fp.zero else .inf false
  | .fin s m e =>
    let y := Fp.fin s m e
    if m = 0 then Fp.one
    else if !(y.lt (.fin false 128 0)) then .inf false
    else if !((Fp.fin true 150 0).lt y) then Fp.zero
    else
      let z := floorAt s m e 32
      let f := (z % 2 ^ 32).toNat
      match segPoly (Config.gaithSeg 0 (f / 2 ^ 27)).toNat (.fin false (f % 2 ^ 27) (-32)) with
      | .fin ps pm pe => Fp.ofInt (floorAt ps pm pe 32) (z / 2 ^ 32 - 32)
      | p => p

/-- The Gaith-1 logarithm evaluator of a positive argument: a plain quadratic over m in [1, 2). -/
def gaithLog (x : Fp) : Fp :=
  match x with
  | .fin false m e =>
    if m = 0 then .inf true
    else
      let b := Nat.log2 m
      let u : Nat := 32 * (m - 2 ^ b)
      let seg := u / 2 ^ b
      let v := (segPoly (Config.gaithSeg 1 seg).toNat (.fin false (u % 2 ^ b) (-(b : Int) - 5))).sigDown 33
      gaithAdd (Fp.ofInt (e + b) 0) v
  | .inf false => .inf false
  | _ => .nan

/-- The constants of R157 at 32 significant bits. -/
def gaithC (c : Fp) : Fp := c.sigNear 32

/-- K of a Gaith-1 exponential: the scale is applied at 32 significant bits. -/
def gaithK (isExp : Bool) (scale : Option Fp) : Fp :=
  let k := if isExp then gaithC cLog2e else Fp.one
  match scale with
  | none => k
  | some a => (a.mulX k).sigNear 32

/-- The Gaith-1 sigmoid before its final rounding. -/
def gaithSigmoid (v : Fp) : Fp :=
  gaithExp Fp.one (gaithLog (gaithAdd Fp.one (gaithExp (gaithC cLog2e) v.negate))).negate

/-- The Gaith-1 TANH: 2 × S(2x) − 1 at every x. -/
def gaithTanh (x : Fp) : Fp :=
  gaithAdd ((gaithSigmoid (x.mulX (.fin false 2 0))).mulX (.fin false 2 0)) (.fin true 1 0)

/-- FUNC of the Gaith-1 SFU in binary32: the special arguments of Table 6-7, the two results of Table 6-14, else the sequences
of Table 6-13. -/
def gaith1 (func : Nat) (scale : Option Fp) (x : Fp) : Fp :=
  match sfuSpecial func scale.isSome x with
  | some y => y
  | none =>
    if func = 0 && scale.isNone && toF32 x = 0x3F3FFFFF then f32 0x3FD744FD
    else if func = 0 && scale.isNone && toF32 x = 0x3F400000 then f32 0x3FD744FC
    else
      rne32 (match func with
      | 0 => gaithExp (gaithK false scale) x
      | 1 => gaithLog x
      | 2 => gaithExp (gaithK true scale) x
      | 3 => gaithMul (gaithC cLn2) (gaithLog x)
      | 4 =>
        let v := gaithExp Fp.one (gaithLog x.abs).negate
        if x.neg? then v.negate else v
      | 5 => gaithExp Fp.one ((gaithLog x).mulX (.fin true 1 (-1)))
      | 6 => gaithSigmoid x
      | 7 => gaithTanh x
      | 8 => gaithMul x (gaithSigmoid x)
      | 9 =>
        let u := gaithAdd (gaithMul (gaithC cG1) x) (gaithMul (gaithMul (gaithC cG3) (gaithMul x x)) x)
        (gaithMul x (gaithAdd Fp.one (gaithTanh u))).mulX (.fin false 1 (-1))
      | _ => .nan)

/-- Limit of a derivative at an end (Table 6-10). -/
def derivLimit (func : Nat) (high : Bool) : Fp :=
  if high then (if func ≤ 7 then Fp.zero else Fp.one)
  else if func = 8 || func = 9 then .fin true 0 0 else Fp.zero

/-- The derivative from table 1 (R159). -/
def derivTable (tab : List Byte) (func : Nat) (x : Fp) : Fp :=
  match x with
  | .nan => .nan
  | .inf s => derivLimit func (!s)
  | .fin s m e =>
    if !(x.lt (.fin false 32 0)) then derivLimit func true
    else if x.lt (.fin true 32 0) then derivLimit func false
    else
      let seg := (floorAt s m e 2 + 128).toNat
      let d := x.addX (Fp.ofInt (128 - (seg : Int)) (-2))
      rne32 (segPoly (segAt tab (0x1000 * (func - 6) + 16 * seg)) d)

/-! ### Nodes of the fused derivative (R280), in fixed point with 320 bits after the point -/

/-- One in fixed point. -/
def fixOne : Nat := 2 ^ 320

/-- e^(−y) for y ≥ 0, by the series at y ÷ 1024, squared ten times. -/
def fixExpNeg (y : Nat) : Nat :=
  let z := y / 1024
  let s := (List.range 60).foldl (fun (p : Int × Nat) n =>
    let t := p.2 * z / (fixOne * (n + 1))
    (if n % 2 = 0 then p.1 - t else p.1 + t, t)) ((fixOne : Int), fixOne)
  (List.range 10).foldl (fun t _ => t * t / fixOne) s.1.toNat

/-- sigmoid(x). -/
def fixSigmoid (x : Int) : Nat :=
  let e := fixExpNeg x.natAbs
  (if 0 ≤ x then fixOne else e) * fixOne / (fixOne + e)

/-- tanh x. -/
def fixTanh (x : Int) : Int :=
  let e := fixExpNeg (2 * x.natAbs)
  let t : Int := ((fixOne - e) * fixOne / (fixOne + e) : Nat)
  if x < 0 then -t else t

/-- arctan(1 ÷ n). -/
def fixArctan (n : Nat) : Int :=
  (List.range 140).foldl (fun (a : Int) k =>
    let t : Int := (fixOne / (n ^ (2 * k + 1) * (2 * k + 1)) : Nat)
    if k % 2 = 0 then a + t else a - t) 0

/-- √(2 ÷ π), by Newton's iteration. -/
def fixRoot : Nat :=
  let pi := (16 * fixArctan 5 - 4 * fixArctan 239).toNat
  let a := 2 * fixOne * fixOne / pi
  (List.range 12).foldl (fun x _ => (x + a * fixOne / x) / 2) fixOne

/-- The derivative of FUNC 0x6 to 0xA at x = n ÷ 4 (Table 6-10). -/
def fixDeriv (func : Nat) (n : Int) : Int :=
  let one : Int := fixOne
  let x := n * one / 4
  let s : Int := fixSigmoid x
  match func with
  | 6 => s * (one - s) / one
  | 7 => one - fixTanh x * fixTanh x / one
  | 8 => s * (one + x * (one - s) / one) / one
  | 9 =>
    let c : Int := fixRoot
    let t := fixTanh (c * (x + 44715 * (n * n * n * one) / 64000000) / one)
    (one + t) / 2 + x * (one - t * t / one) / one * c / one * (one + 3 * 44715 * (n * n * one) / 16000000) / one / 2
  | _ => s

/-- Node N_k of FUNC 0x6 to 0xA, k from 0 to 128: f′(−16 + k ÷ 4) in BF16 (R280). No derivative of the five vanishes at a node:
where the fixed point leaves nothing, the value is a tiny negative one of GELU_TANH. -/
def derivNode (func k : Nat) : Fp :=
  let v := fixDeriv func ((k : Int) - 64)
  bf16 (encodeIeee 8 7 (.fin (v ≤ 0) v.natAbs (-320))).1

/-- The fused derivative (R280). -/
def derivFused (func : Nat) (x : Fp) : Fp :=
  match x with
  | .nan => .nan
  | .inf s => derivLimit func (!s)
  | _ =>
    if !(x.lt (.fin false 16 0)) then derivLimit func true
    else if x.lt (.fin true 16 0) then derivLimit func false
    else
      let t := mul32 (add32 x (.fin false 16 0)) (.fin false 4 0)
      match t with
      | .fin s m e =>
        let k := Nat.min 127 (floorAt s m e 0).toNat
        let phi := t.addX (Fp.ofInt (-(k : Int)) 0)
        let n0 := derivNode func k
        let n1 := derivNode func (k + 1)
        add32 n0 (mul32 (sub32 n1 n0) phi)
      | t => t

/-- Fields of an SFU stage (Table 6-1). -/
structure SfuOp where
  func : Nat
  deriv : Bool := false
  gate : Bool := false
  offset : Bool := false
  scale : Bool := false
  compat : Bool := false
  outFmt : Nat := 0
  deriving DecidableEq, Repr

/-- Refusals of R149. -/
def SfuOp.code (o : SfuOp) : FC :=
  if o.func > 10 then .sfuFunction
  else if o.deriv && o.func < 6 then .sfuFunction
  else if o.scale && o.func != 0 && o.func != 2 then .sfuFunction
  else if o.compat && (o.func = 10 || o.deriv) then .sfuFunction
  else if o.outFmt > 2 then .formatUnsupported
  else .ok

/-- One result of an operation without its gate, in binary32 (R150, R165); `fused` selects the fused derivative. -/
def SfuOp.eval (o : SfuOp) (tab0 tab1 : List Byte) (fused : Bool) (alpha : Fp) (x : Fp) : Fp :=
  let sc := if o.scale then some alpha else none
  if o.deriv then (if fused then derivFused o.func x else derivTable tab1 o.func x)
  else if o.compat then gaith1 o.func sc x
  else sfuNative tab0 o.func sc x

/-- A result in the output format, as the chain carries it (R146, Table 9-7); with whether it saturated (R113). -/
def outRound (fmt : Nat) (x : Fp) : Fp × Bool :=
  match fmt with
  | 1 =>
    let (c, sat) := encodeIeee 5 10 x
    (f16 c, sat)
  | 2 =>
    let (c, sat) := encodeIeee 8 7 x
    (bf16 c, sat)
  | _ => (x, false)

/-! ## Checks on a loaded table (R161, Table 6-5) -/

/-- C0, C1, C2 of an entry as rationals. -/
def segRat (e : Nat) : Rat × Rat × Rat :=
  ((sfield e 0 44 : Rat) / 2 ^ 40, (sfield e 44 32 : Rat) / 2 ^ 30, (sfield e 76 24 : Rat) / 2 ^ 22)

/-- A segment's polynomial at a rational argument. -/
def segEvalRat (e : Nat) (d : Rat) : Rat :=
  let (a, b, c) := segRat e
  a + b * d + c * d * d

/-- Magnitude of a rational. -/
def ratAbs (x : Rat) : Rat := if x < 0 then -x else x

/-- Width of LOG2 segment s. -/
def logWidth (s : Nat) : Rat := if s < 32 then 1 / 128 else 1 / 64

/-- t at the start of LOG2 segment s. -/
def logStart (s : Nat) : Rat := if s < 32 then (s : Rat) / 128 - 1 / 4 else ((s : Rat) - 32) / 64

/-- The conditions of Table 6-5 on a table 0 image. -/
def seamsOk (tab : List Byte) : Bool :=
  let ex := fun s => segAt tab (16 * s)
  let lg := fun s => segAt tab (0x400 + 16 * s)
  (List.range 64).all (fun s =>
    let (_, c1, c2) := segRat (ex s)
    0 ≤ c1 && 0 ≤ c1 + 2 * c2 * (1 / 64)) &&
  (List.range 64).all (fun s =>
    let (c0, c1, c2) := segRat (lg s)
    let w := logWidth s
    let ts := if s < 32 then 1 / 4 - (s : Rat) / 128 else ((s : Rat) - 31) / 64
    0 < c0 - ratAbs c1 * w - ratAbs c2 * w * w - ts * (ratAbs c1 + 2 * ratAbs c2 * w)) &&
  (List.range 63).all (fun s => segEvalRat (ex s) (1 / 64) ≤ segEvalRat (ex (s + 1)) 0) &&
  (List.range 63).all (fun s => s == 31 ||
    (logStart (s + 1) * segEvalRat (lg s) (logWidth s) ≤ logStart (s + 1) * segEvalRat (lg (s + 1)) 0)) &&
  (segRat (ex 0)).1 == 1 && segEvalRat (ex 63) (1 / 64) ≤ 2 &&
  (1 / 2 : Rat) * segEvalRat (lg 63) (1 / 64) ≤ 1 - (1 / 4) * segEvalRat (lg 0) 0

/-- Bytes of a table image (Table 6-11). -/
def tableSize (t : Nat) : Nat := if t = 0 then 2176 else 20496

/-- Whether reserved fields of an image are zero: bits [127:100] of each entry and the reserved bytes. -/
def tableReservedOk (t : Nat) (tab : List Byte) : Bool :=
  let n := if t = 0 then 128 else 1280
  (List.range n).all (fun i => bits (segAt tab (16 * i)) 100 28 == 0) &&
  (if t = 0 then (slice tab 0x830 76).all (· == 0) else (slice tab 0x5000 12).all (· == 0))

/-- The checks of R161 in their order; an image with a poison mark fails its CRC (R441). -/
def tableCode (t : Nat) (tab : List Byte) (marked : Bool) : FC :=
  let n := tableSize t
  if marked || crc32c (tab.take (n - 4)) != fieldAt tab (n - 4) 4 then .sfuTableCrc
  else if !tableReservedOk t tab then .reservedNonzero
  else if t = 0 && !seamsOk tab then .sfuTableSeam
  else .ok

/-- A plain image of a table, which meets the checks: EXP2 as 1 + f, LOG2 as m − 1, every derivative 0. -/
def plainTable (t : Nat) : List Byte :=
  let body := if t = 0 then
      (List.range 64).flatMap (fun s => natLe 16 (2 ^ 40 + s * 2 ^ 34 + 2 ^ 74)) ++
        (List.range 64).flatMap (fun _ => natLe 16 (2 ^ 40)) ++ zeros 124
    else zeros 20492
  body ++ natLe 4 (crc32c body)

end Sys2Proof

namespace Sys2Proof.Machine

open Sys2Proof

/-! ## Banks and loads (R160 to R164) -/

/-- The factory image of a table: an image that meets the checks of R161, Table 6-5 among them (R155), and is open beyond them.
DESIGN CHOICE (notes/assumptions/3.md). -/
def factoryBytes (t : Nat) : List Byte :=
  let raw := (List.range (tableSize t)).map (Config.factoryTable t)
  if tableCode t raw false = .ok then raw else plainTable t

/-- Image of bank b of table t of core c. -/
def sfuBank (s : State) (c t b : Nat) : List Byte := (Map.get? (s.core c).sfuBanks (2 * t + b)).getD (factoryBytes t)

/-- Active bank of table t. -/
def activeBank (s : State) (c t : Nat) : Nat := bits (s.core c).sfuActive t 1

/-- Whether the shadow bank of a table is free: no operation reads it (R162). `banks` of a Lesson holds, for each
stage, the active bits its operation captured, with bit 2 + t set when it reads table t. -/
def shadowFree (s : State) (c t : Nat) : Bool :=
  let shadow := 1 - activeBank s c t
  (s.core c).lessons.all (fun l => l.2.banks.all (fun p => !bit p.2 (2 + t) || bits p.2 t 1 != shadow))

/-- A table load command v of core c with an image at a row (R161, R163): refused, or the load begins. -/
def sfuLoad (s : State) (c v row : Nat) : FC × State :=
  let t := (v - 1) % 2
  if v = 0 || v > 4 then (.valueRange, s)
  else if v ≤ 2 && row + ceilDiv (tableSize t) 1024 > 12288 then (.valueRange, s)
  else if Map.has (s.core c).sfuLoads t then (.sfuTableBusy, s)
  else
    let s := if shadowFree s c t then s else s.bump .sfuLoadWaits c
    (.ok, s.updCore c (fun k => { k with
      sfuLoads := Map.put k.sfuLoads t { factory := v > 2, row := row } }))

/-- A write of SFU_LOAD_CMD (R161, R163): the image stands at row SFU_LOAD_ROW.
DEDUCED (notes/assumptions/67.md). -/
def sfuCommand (s : State) (c v : Nat) : FC × State := sfuLoad s c v (s.ent .sfuLoadRow c)

/-- SFU_LOAD_COMPLETE (R161): a load whose shadow is free copies, checks and swaps, or is discarded with its code and an
event. -/
def execSfuLoadComplete (core : Fin 32) (table : Fin 2) (s : State) : Host.Outcome State Fault Refusal :=
  match Map.get? (s.core core).sfuLoads table.val with
  | none => .next s
  | some l =>
    if !shadowFree s core table || (s.core core).inReset then .next s
    else
      let s := s.updCore core (fun k => { k with sfuLoads := Map.erase k.sfuLoads table })
      let shadow := 1 - activeBank s core table
      let (s, d, m) := if l.factory then (s, factoryBytes table, [])
        else s.read (scratchAddr core (1024 * l.row)) (tableSize table)
      let code := if l.factory then .ok else tableCode table d (m.any id)
      if code = .ok then
        let s := s.updCore core (fun k => { k with
          sfuBanks := if l.factory then Map.erase k.sfuBanks (2 * table.val + shadow)
                      else Map.put k.sfuBanks (2 * table.val + shadow) d,
          sfuActive := putBits k.sfuActive table 1 shadow })
        .next (s.setCnt .sfuLoadStatus 0 core)
      else .next ((s.setCnt .sfuLoadStatus code.value core).raise code 1 core)

end Sys2Proof.Machine
end

