-- ==== Sys2Proof/Machine/Lessons.lean ====
section
/-!
DEFINITION. Lessons as they are read and validated (chapter 9, the templates of chapters 10 and 11, and the arm records
and programs of chapter 8): fields, chain states, escalation, and the checks of Table 9-6 in their order.
-/

namespace Sys2Proof.Machine

open Sys2Proof

/-! ## Fields -/

/-- Word i of a stage record. -/
def Stage.w (g : Stage) (i : Nat) : Nat := bits g.word.toNat (64 * i) 64
/-- Word i of a stage's arm record. -/
def Stage.aw (g : Stage) (i : Nat) : Nat := bits g.arm.toNat (64 * i) 64
/-- ROLE of a load. -/
def Stage.role (g : Stage) : Nat := bits (g.w 0) 28 3
/-- ARM_OFF of a load, residual add or store. -/
def Stage.armOff (g : Stage) : Nat := bits (g.w 0) 4 24
/-- FORMAT of a stage's arm record (Table 8-1). -/
def Stage.fmt (g : Stage) : Fmt := (Fmt.ofCode? (bits (g.aw 0) 43 5)).getD .fp32
/-- Whether FORMAT of a stage's arm record is FP32; any other code leaves stored elements (Table 9-4). -/
def Stage.plain (g : Stage) : Bool := Fmt.ofCode? (bits (g.aw 0) 43 5) == some .fp32
/-- SIDE of a stage's arm record. -/
def Stage.side (g : Stage) : Bool := bit (g.aw 0) 42
/-- STREAM of a stage's arm record. -/
def Stage.stream (g : Stage) : Nat := bits (g.aw 0) 32 4
/-- ROW_ELEMS of a stage's arm record. -/
def Stage.rowElems (g : Stage) : Nat := bits (g.aw 6) 0 32
/-- OUT_FMT of a dequantise, FMT of a quantise, ROT_FMT's place differs. -/
def Stage.outFmt (g : Stage) : Fmt := (Fmt.ofCode? (bits (g.w 0) 4 5)).getD .fp32
/-- The heavy stages. -/
def Stage.heavy (g : Stage) : Bool := g.kind == 4 || g.kind == 5
/-- TILES_M of a heavy stage. -/
def Stage.tilesM (g : Stage) : Nat := bits (g.w 0) 4 16
/-- TILES_N of a heavy stage. -/
def Stage.tilesN (g : Stage) : Nat := bits (g.w 0) 20 16
/-- ORDER of a heavy stage. -/
def Stage.order (g : Stage) : Nat := bits (g.w 0) 36 2

/-- Operation fields of an activation record (Table 6-1). -/
def Stage.sfu (g : Stage) : SfuOp :=
  let w := g.w 0
  { func := bits w 4 4, deriv := bit w 8, gate := bit w 9, offset := bit w 10, scale := bit w 11, compat := bit w 12,
    outFmt := bits w 13 5 }

/-- A heavy stage record (Table 9-5). -/
structure Heavy where
  k : Nat
  mt : Nat
  nt : Nat
  mode : Nat
  pred : Nat
  drain : Bool
  wt : Bool
  ntT : Bool
  preload : Nat
  um1 : Nat
  unit : Nat
  ccore : Nat
  cctr : Nat
  crow : Nat
  tlive : Nat
  spill : Nat
  deriving DecidableEq, Repr

/-- The heavy stage record in two words. -/
def heavyOf (a b : Nat) : Heavy :=
  { k := bits a 32 32, mt := bits a 23 9 + 1, nt := bits a 14 9 + 1, mode := bits a 11 3, pred := bits a 9 2,
    drain := bit a 8, wt := bit a 7, ntT := bit a 6, preload := bits a 4 2, um1 := bits b 59 5, unit := bits b 54 5,
    ccore := bits b 49 5, cctr := bits b 41 8, crow := bits b 27 14, tlive := bits b 21 6, spill := bits b 7 14 }

/-- Record H0 or H1 of a Lesson. -/
def hrec (d : BitVec 1024) (i : Nat) : Heavy := heavyOf (cmdWord d (8 + 2 * i)) (cmdWord d (9 + 2 * i))

/-- The places of the heavy stages of a chain. -/
def heavies (st : List Stage) : List Nat := (List.range st.length).filter (fun i => (st.getD i { kind := 0, word := 0 }).heavy)

/-- Stage i of a chain. -/
def stageAt (st : List Stage) (i : Nat) : Stage := st.getD i { kind := 0, word := 0 }

/-- Which heavy record, 0 or 1, the stage at place i has. -/
def heavyIdx (st : List Stage) (i : Nat) : Nat := (heavies st).findIdx (· == i)

/-- The heavy stage that a bound operand at place i feeds: the first one after it. -/
def nextHeavy (st : List Stage) (i : Nat) : Option Nat := (heavies st).find? (fun h => i < h)

/-- Fields of word 0 of a Lesson. -/
def lkind (d : BitVec 1024) : Nat := bits (cmdWord d 0) 38 2
/-- NSTAGES. -/
def nstages (d : BitVec 1024) : Nat := bits (cmdWord d 0) 40 4
/-- BACKWARD. -/
def isBackward (d : BitVec 1024) : Bool := bit (cmdWord d 0) 19
/-- LAYER_EN. -/
def layerEn (d : BitVec 1024) : Bool := bit (cmdWord d 0) 18
/-- REPERTOIRE. -/
def lrep (d : BitVec 1024) : Nat := bits (cmdWord d 0) 52 12
/-- LAYER. -/
def llayer (d : BitVec 1024) : Nat := bits (cmdWord d 0) 44 8
/-- TRAP_POISON of a Lesson. -/
def ltrap (d : BitVec 1024) : Bool := bit (cmdWord d 0) 21
/-- UNSCHED. -/
def lunsched (d : BitVec 1024) : Bool := bit (cmdWord d 0) 22
/-- RESIDENT. -/
def lresident (d : BitVec 1024) : Bool := bit (cmdWord d 0) 20
/-- SEED. -/
def lseed (d : BitVec 1024) : Nat := bits (cmdWord d 2) 32 32
/-- PARAM_OFF. -/
def lparam (d : BitVec 1024) : Nat := bits (cmdWord d 2) 0 24
/-- ROWMAP_EN. -/
def rowmapEn (d : BitVec 1024) : Bool := bit (cmdWord d 3) 24
/-- ROWMAP_OFF. -/
def rowmapOff (d : BitVec 1024) : Nat := bits (cmdWord d 3) 0 24
/-- BOP of word 12 (Table 11-1). -/
def lbop (d : BitVec 1024) : Nat := bits (cmdWord d 12) 29 3
/-- AUX_OFF. -/
def lauxOff (d : BitVec 1024) : Nat := bits (cmdWord d 12) 0 24

/-- A declared range as (first row, rows); none when unused (Table 9-3). -/
def declared (w half : Nat) : List (Nat × Nat) :=
  let v := bits w (32 * half) 32
  if bits v 16 14 = 0 then [] else [(bits v 0 14, bits v 16 14)]

/-- The spill regions of a Lesson's heavy stages, which count as read and as write ranges (R138, R175). -/
def spills (d : BitVec 1024) (nh : Nat) : List (Nat × Nat) :=
  (List.range nh).flatMap (fun i =>
    let h := hrec d i
    if h.tlive > 4 then [(h.spill, 520 * (h.tlive - 4))] else [])

/-- Declared read ranges of a Lesson with nh heavy stages. -/
def lreads (d : BitVec 1024) (nh : Nat) : List (Nat × Nat) :=
  declared (cmdWord d 5) 0 ++ declared (cmdWord d 5) 1 ++ declared (cmdWord d 6) 0 ++ declared (cmdWord d 6) 1 ++
    spills d nh
/-- Declared write ranges of a Lesson with nh heavy stages. -/
def lwrites (d : BitVec 1024) (nh : Nat) : List (Nat × Nat) :=
  declared (cmdWord d 7) 0 ++ declared (cmdWord d 7) 1 ++ spills d nh

/-- Whether every byte of [off, off + n) of a scratchpad lies in some range. -/
def inRanges (rs : List (Nat × Nat)) (off n : Nat) : Bool :=
  n = 0 || (List.range ((off + n - 1) / 1024 - off / 1024 + 1)).all (fun i =>
    rs.any (fun r => r.1 ≤ off / 1024 + i && off / 1024 + i < r.1 + r.2))

/-- Whether [off, off + n) lies inside one range. -/
def inOneRange (rs : List (Nat × Nat)) (off n : Nat) : Bool :=
  rs.any (fun r => 1024 * r.1 ≤ off && off + n ≤ 1024 * (r.1 + r.2))

/-- Number at a scratchpad offset of a core. -/
def spNum (s : State) (c off n : Nat) : Nat := s.num (scratchAddr c off) n

/-- Whether a scratchpad range of a core holds a marked word. -/
def spMarked (s : State) (c off n : Nat) : Bool := s.anyMark (scratchAddr c off) n

/-! ## Row maps (R246) -/

/-- ENTRIES of the row map at an offset. -/
def mapCount (s : State) (c off : Nat) : Nat := spNum s c off 2
/-- QPK of the row map at an offset. -/
def mapQpk (s : State) (c off : Nat) : Nat := spNum s c (off + 2) 1

/-- Entry e of a row map; epoch, extent and pages are filled when its walk launches. -/
def mapEntry (s : State) (c off e : Nat) : AttEntry :=
  let o := off + 32 * (e + 1)
  let w0 := spNum s c o 8
  { seq := bits w0 32 18, first := bits w0 16 16, ntok := bits w0 0 16, qpos := bits (spNum s c (o + 8) 8) 0 48,
    bitmap := spNum s c (o + 16) 8, bitmapLen := spNum s c (o + 28) 4, epoch := 0, extent := 0, pages := [] }

/-- The entries of a row map. -/
def mapEntries (s : State) (c off : Nat) : List AttEntry :=
  (List.range (min 256 (mapCount s c off))).map (mapEntry s c off)

/-- Bytes of a row map. -/
def mapBytes (s : State) (c off : Nat) : Nat := 32 * (1 + min 256 (mapCount s c off))

/-- Whether a reserved field of a row map is set (R6, Table 10-3). -/
def mapReserved (s : State) (c off : Nat) : Bool :=
  spNum s c (off + 3) 5 != 0 || spNum s c (off + 8) 24 != 0 ||
    (List.range (min 256 (mapCount s c off))).any (fun e =>
      let o := off + 32 * (e + 1)
      bits (spNum s c o 8) 50 14 != 0 || bits (spNum s c (o + 8) 8) 48 16 != 0 || spNum s c (o + 24) 4 != 0)

/-- Checks of R246; `ms` and `mg` are the row limits of an Attend, `rows` the chain's rows otherwise. -/
def mapCode (s : State) (c : Nat) (d : BitVec 1024) (att : Option (Nat × Nat)) (rows : Nat) : FC :=
  let off := rowmapOff d
  let n := mapCount s c off
  let q := mapQpk s c off
  let es := mapEntries s c off
  let qk := if att.isSome then q else 1
  let asc := (es.zip (es.drop 1)).all (fun p => p.1.first < p.2.first && p.1.first + p.1.ntok * qk ≤ p.2.first)
  let twice := (es.zipIdx).any (fun p => (es.take p.2).any (fun e => e.seq == p.1.seq))
  let limits := match att with
    | some (ms, mg) => q = 0 || q > 64 || es.any (fun e => e.ntok * q > ms || e.first + e.ntok * q > mg)
    | none => q != 1 || es.any (fun e => e.first + e.ntok > rows)
  if mapReserved s c off then .reservedNonzero
  else if n = 0 || n > 256 || !asc || es.any (fun e => e.ntok = 0) || limits || twice ||
      es.any (fun e => e.bitmap = 0 && e.bitmapLen != 0) then .rowmapInvalid
  else if es.any (fun e => (s.desc e.seq).state == .free) then .seqInvalid
  else if att.isSome && es.any (fun e => (s.desc e.seq).repertoire != lrep d) then .rowmapInvalid
  else .ok

/-! ## Stream programs and arm records (R196 to R202) -/

/-- The program image at a scratchpad offset (R197). -/
def progAt (s : State) (c off : Nat) : List (BitVec 128) :=
  (List.range 32).map (fun i => BitVec.ofNat 128 (spNum s c (off + 16 * i) 16))

/-- OP of an instruction (Table 8-2). -/
def insOp (i : BitVec 128) : Nat := bits i.toNat 123 5
/-- Bits [lo + w − 1 : lo] of an instruction. -/
def insF (i : BitVec 128) (lo w : Nat) : Nat := bits i.toNat lo w

/-- The instructions up to and including the first END. -/
def progBody (p : List (BitVec 128)) : List (BitVec 128) :=
  let n := p.findIdx (fun i => insOp i == 0)
  p.take (n + 1)

/-- The structural checks of R202 over a program, with the loop depth so far. -/
def progShape (store seqEn : Bool) (depth : Nat) (p : List (BitVec 128)) : Bool :=
  match p with
  | [] => true
  | i :: r =>
    match insOp i with
    | 0 => depth = 0
    | 1 => depth < 6 && insF i 96 25 ≥ 1 && insF i 96 25 ≤ 16777216 && progShape store seqEn (depth + 1) r
    | 2 => depth > 0 && progShape store seqEn (depth - 1) r
    | 3 => depth < 6 && insF i 117 4 ≥ 1 && insF i 117 4 ≤ 8 && progShape store seqEn (depth + 1) r
    | 7 => seqEn && (insF i 118 3 = 7 || insF i 118 3 < depth) && progShape store seqEn depth r
    | 8 => insF i 96 16 < 4096 && (!store || insF i 116 4 = 0 || insF i 116 4 = 6) && progShape store seqEn depth r
    | _ => progShape store seqEn depth r

/-- Reserved fields, codes and operations of one instruction (Table 8-2). -/
def insReserved (i : BitVec 128) : Bool :=
  match insOp i with
  | 0 => insF i 0 123 != 0
  | 1 => insF i 48 48 != 0
  | 2 => insF i 0 123 != 0
  | 3 => insF i 96 21 != 0
  | 4 => insF i 48 71 != 0
  | 5 => insF i 48 73 != 0
  | 6 => insF i 24 99 != 0
  | 7 => insF i 48 56 != 0
  | 8 => insF i 112 4 != 0 || insF i 0 96 != 0 || insF i 116 4 > 7
  | 9 => insF i 0 115 != 0
  | 10 => insF i 0 83 != 0
  | _ => true

/-- The checks of R202 on a program: its structure up to END, the fields of all 32 instructions of its image. -/
def progCode (store seqEn : Bool) (p : List (BitVec 128)) : FC :=
  if !p.any (fun i => insOp i == 0) || !progShape store seqEn 0 (progBody p) then .streamProgram
  else if p.any insReserved then .reservedNonzero
  else .ok

/-- Reserved fields of an arm record (Table 8-1). -/
def armReserved (g : Stage) : Bool :=
  bits (g.aw 0) 0 13 != 0 || bits (g.aw 1) 50 14 != 0 || bits (g.aw 1) 24 8 != 0 || bits (g.aw 6) 56 8 != 0 ||
    g.aw 7 != 0

/-- The program a re-arm would find: the one parked, or that of an arming of the stream that will park. -/
def parkedTag (s : State) (c : Nat) (earlier : List Stage) (n : Nat) : Option Nat :=
  let own := earlier.filter (fun g => g.stream == n)
  let waiting := (s.core c).lessons.flatMap (fun l =>
    l.2.arms.filterMap (fun i =>
      let g := stageAt l.2.stages i
      if g.stream = n then some g else none))
  match (waiting ++ own).getLast? with
  | some g => if bit (g.aw 0) 38 then some (bits (g.aw 0) 48 16) else none
  | none =>
    let t := Map.get (s.core c).streams n { }
    if t.bound then
      (if bit t.arm.toNat 38 then some (bits t.arm.toNat 48 16) else none)
    else t.parked.map (fun p => p.1.toNat)

/-- The checks of R196 to R202 on the arm record of a stage. -/
def armCode (s : State) (c : Nat) (earlier : List Stage) (store : Bool) (g : Stage) : FC :=
  let a := g.aw 0
  let fmt := Fmt.ofCode? (bits a 43 5)
  if armReserved g then .reservedNonzero
  else if bit a 37 != store then .streamProgram
  else
    let prog : Option (List (BitVec 128)) :=
      if bit a 39 then some (progAt s c (bits (g.aw 1) 0 24))
      else
        let t := Map.get (s.core c).streams g.stream { }
        if parkedTag s c earlier g.stream = some (bits a 48 16) then
          some (match t.parked with
            | some p => if t.bound then [] else p.2
            | none => [])
        else none
    match prog with
    | none => .streamProgram
    | some p =>
      let code := if p.isEmpty then .ok else progCode store (bit a 14) p
      if code != .ok then code
      else
        match fmt with
        | none => .formatUnsupported
        | some f =>
          if g.rowElems % f.blockLen != 0 || (g.side && !f.sideOk) then .formatUnsupported else .ok

/-! ## Escalation (R239, R290) -/

/-- A dequantise stage to MXFP8-E4M3 with tensor scale 1.0. -/
def impliedDequant : Stage := { kind := 2, word := BitVec.ofNat 256 (2 + 5 * 16 + 0x3F800000 * 2 ^ 64) }

/-- Whether a format code is one of the 4-bit formats. -/
def fourBitCode (v : Nat) : Bool := match Fmt.ofCode? v with
  | some f => f.fourBit
  | none => false

/-- A load of an array operand in a 4-bit format, which escalation converts; the page loads of an Attend are none. -/
def narrowLoad (att : Bool) (g : Stage) : Bool :=
  g.kind = 1 && (g.role = 1 || (g.role = 2 && !(att && g.armOff = 0))) && g.fmt.fourBit

/-- A chain as it runs when its layer is escalated: 4-bit quantise stages and the explicit dequantise stages of narrow
operands name MXFP8, and a narrow operand without one gets the implied stage; so does a ring operand, whose stage converts
a slice in a 4-bit format. -/
def escalate (bwd att : Bool) (st : List Stage) : List Stage :=
  (List.range st.length).flatMap (fun i =>
    let g := stageAt st i
    let w := g.word.toNat
    let code := bits w 4 5
    if g.kind = 0xE && fourBitCode code then
      [{ g with word := BitVec.ofNat 256 (putBits w 4 5 (if bwd && code = 0xD then 6 else 5)) }]
    else if g.kind = 2 && i > 0 && narrowLoad att (stageAt st (i - 1)) && fourBitCode code then
      [{ g with word := BitVec.ofNat 256 (putBits w 4 5 5) }]
    else if (narrowLoad att g || (g.kind = 1 && g.role = 3)) && (stageAt st (i + 1)).kind != 2 then [g, impliedDequant]
    else [g])

/-- Whether (repertoire entry, layer) is escalated (Table 3-7). -/
def isEscalated (s : State) (r layer : Nat) : Bool :=
  repValid s r && layer < 128 && bit (repWord s r (5 + layer / 64)) (layer % 64)

/-! ## Reserved fields (check 1) -/

/-- Reserved fields of a stage record (Tables 9-2, 10-4 to 10-7). -/
def stageReserved (att : Bool) (g : Stage) : Bool :=
  let w := g.w 0
  let x := g.w 1
  let y := g.w 2
  let z := g.w 3
  let hi := fun (v lo : Nat) => bits v lo (64 - lo) != 0
  match g.kind with
  | 1 =>
    if att && g.role = 2 && g.armOff = 0 then hi w 31 || x != 0 || hi y 14 || z != 0
    else hi w 31 || hi x 24 || y != 0 || z != 0 || g.role > 4
  | 2 => hi w 9 || hi x 32 || y != 0 || z != 0
  | 3 => hi w 21 || hi x 48 || y != 0 || z != 0
  | 4 | 5 => hi w 38 || hi x 24 || y != 0 || z != 0 || g.order = 3
  | 6 => hi w 6 || hi x 48 || z != 0
  | 7 => hi w 52 || hi x 32 || hi y 40
  | 8 => hi w 5 || hi x 24 || y != 0 || z != 0
  | 9 => hi w 18 || hi x 32 || hi y 24 || z != 0
  | 0xA => hi w 4 || x != 0 || y != 0 || z != 0
  | 0xB => hi w 28 || x != 0 || y != 0 || z != 0
  | 0xC => hi w 24 || bits x 24 8 != 0 || hi y 48 || hi z 40
  | 0xD => hi w 4 || hi x 24 || y != 0 || z != 0
  | 0xE => hi w 21 || hi x 24 || hi y 24 || z != 0 || bits w 11 2 = 3
  | _ => hi w 28 || x != 0 || y != 0 || z != 0

/-- Check 1 of Table 9-6 on the Lesson itself. -/
def lessonReserved (d : BitVec 1024) (st : List Stage) : Bool :=
  let w := cmdWord d
  let nh := (heavies st).length
  let n := nstages d
  let range := fun (v half : Nat) => bits v (32 * half + 30) 2 != 0 || bits v (32 * half + 14) 2 != 0
  let hres := fun (i : Nat) => bits (w (8 + 2 * i)) 0 4 != 0 || bits (w (9 + 2 * i)) 0 7 != 0 || (hrec d i).preload = 3
  bits (w 0) 0 8 != 1 || bits (w 0) 8 10 != 0 || bits (w 0) 32 6 != 0 || lkind d = 3 || bits (w 1) 48 16 != 0 ||
    bits (w 2) 24 8 != 0 || bits (w 3) 25 39 != 0 ||
    (List.range 3).any (fun i => range (w (5 + i)) 0 || range (w (5 + i)) 1) ||
    (List.range 12).any (fun i => (bits (w 1) (4 * i) 4 = 0) != (i ≥ n)) ||
    (nh < 1 && (w 8 != 0 || w 9 != 0)) || (nh < 2 && (w 10 != 0 || w 11 != 0)) ||
    (nh ≥ 1 && hres 0) || (nh ≥ 2 && hres 1) ||
    (!isBackward d && lkind d != 1 && w 12 != 0) || (isBackward d && (bits (w 12) 32 32 != 0 || bits (w 12) 24 4 != 0)) ||
    w 13 != 0 || w 14 != 0 || w 15 != 0 || st.any (stageReserved (lkind d = 1))

/-! ## Ranges (check 2) -/

/-- Whether a stage names an arm record. -/
def namesArm (att : Bool) (g : Stage) : Bool :=
  match g.kind with
  | 1 => g.role != 3 && !(att && g.role = 2 && g.armOff = 0)
  | 0xB => true
  | 0xF => true
  | _ => false

/-- Size of the backward record of a BOP (Table 11-2). -/
def bwdSize (bop : Nat) : Nat := if bop = 0 then 0 else if bop = 5 then 64 else 32

/-- Whether the gate-multiply at a place pairs with the derivative before it and doubles the width (R281). -/
def gateDoubles (st : List Stage) (bop j : Nat) : Bool :=
  bop == 2 && j != 0 && (stageAt st (j - 1)).kind == 9 && (stageAt st (j - 1)).sfu.gate && (stageAt st (j - 1)).sfu.deriv

/-- Width of the chain value's rows after a heavy stage, counted in its tiles, over the stages from `i` on that follow. -/
def widthAfter (st : List Stage) (bop : Nat) (w : Nat) (upTo : Nat) (i : Nat) : Nat :=
  (List.range (min upTo st.length - i)).foldl (fun w k =>
    if (stageAt st (i + k)).kind != 0xA then w else if gateDoubles st bop (i + k) then 2 * w else w / 2) w

/-- The source stage of the segment that holds place i: the last heavy stage or ROLE 0 load at or before it. -/
def sourceOf (st : List Stage) (i : Nat) : Option Nat :=
  ((List.range (i + 1)).filter (fun j =>
    let g := stageAt st j
    g.heavy || (g.kind = 1 && g.role = 0))).getLast?

/-- Tile width and tiles per row of the chain value that enters place i, and its rows per M-tile. -/
structure TileShape where
  rows : Nat
  width : Nat
  perRow : Nat
  blocks : Nat
  rowWidth : Nat
  deriving DecidableEq, Repr

/-- The shape of the chain value's tiles as they enter place i. -/
def shapeAt (d : BitVec 1024) (st : List Stage) (i : Nat) : TileShape :=
  match sourceOf st i with
  | none => { rows := 0, width := 0, perRow := 0, blocks := 0, rowWidth := 0 }
  | some j =>
    let g := stageAt st j
    let bop := if isBackward d then lbop d else 0
    if g.heavy then
      let h := hrec d (heavyIdx st j)
      let (r, w, n, b) := if h.drain && isBackward d then (h.nt, h.mt, g.tilesM, g.tilesN)
        else (h.mt, h.nt, g.tilesN, g.tilesM)
      let w := widthAfter st bop w i (j + 1)
      { rows := r, width := w, perRow := n, blocks := b, rowWidth := w * n }
    else
      let re := if g.rowElems = 0 then 256 else g.rowElems
      let w := widthAfter st bop (min 256 re) i (j + 1)
      { rows := 1, width := w, perRow := ceilDiv re 256, blocks := 0, rowWidth := widthAfter st bop re i (j + 1) }

/-- Rows of one block of a quantise stage's operand region: an M-tile of the heavy stage before it, or, where a load brings
the value, of the heavy stage that reads the region (R229). -/
def regionRows (d : BitVec 1024) (st : List Stage) (i : Nat) : Nat :=
  match sourceOf st i, nextHeavy st i with
  | some j, some h => if (stageAt st j).heavy then (shapeAt d st i).rows else (hrec d (heavyIdx st h)).mt
  | _, _ => (shapeAt d st i).rows

/-- Bytes of a quantise stage's operand region (R229). -/
def regionBytes (d : BitVec 1024) (st : List Stage) (i : Nat) : Nat :=
  let g := stageAt st i
  bits (g.w 0) 13 8 * regionRows d st i * g.outFmt.rowBytes (shapeAt d st i).rowWidth

/-- Whether the regions of a chain's quantise stages lie each inside one read range and one write range (R229). -/
def regionsOk (d : BitVec 1024) (st : List Stage) (rs ws : List (Nat × Nat)) : Bool :=
  (List.range st.length).all (fun i =>
    let g := stageAt st i
    g.kind != 0xE || bits (g.w 0) 11 2 = 0 ||
      (inOneRange rs (bits (g.w 1) 0 24) (regionBytes d st i) && inOneRange ws (bits (g.w 1) 0 24) (regionBytes d st i)))

/-- Whether the combine region of a split that ends here lies in the declared read ranges (R237). -/
def combineOk (d : BitVec 1024) (st : List Stage) (rs : List (Nat × Nat)) : Bool :=
  (heavies st).all (fun i =>
    let g := stageAt st i
    let h := hrec d (heavyIdx st i)
    h.um1 = 0 || h.unit != 0 ||
      inRanges rs (1024 * h.crow) (h.um1 * g.tilesM * g.tilesN * (ceilDiv (h.mt * h.nt * 4) 1024 * 1024)))

/-- The widths that a chain's tiles have as they enter place i: of a value that a load brings, the whole tile's and the
last one's (R220, R225). -/
def tileWidths (d : BitVec 1024) (st : List Stage) (i : Nat) : List Nat :=
  let w := (shapeAt d st i).width
  match sourceOf st i with
  | some j =>
    let g := stageAt st j
    if g.heavy || g.rowElems % 256 = 0 || g.rowElems < 256 then [w]
    else [w, widthAfter st (if isBackward d then lbop d else 0) (g.rowElems % 256) i (j + 1)]
  | none => [w]

/-- Bytes of the hold region of a deferred normalise (R232). -/
def holdBytes (d : BitVec 1024) (st : List Stage) (i : Nat) : Nat :=
  let g := stageAt st i
  let sh := shapeAt d st i
  bits (g.w 3) 32 8 * (ceilDiv (sh.rows * sh.rowWidth * 4) 1024 * 1024)

/-- Whether a normalise takes its statistics from this Lesson. -/
def deferred (g : Stage) : Bool := g.kind = 0xC && bit (g.w 0) 5

/-- Check 2 of Table 9-6: declared ranges inside the scratchpad, control data inside read ranges. -/
def rangesOk (s : State) (c : Nat) (d : BitVec 1024) (st0 : List Stage) : Bool :=
  let rs := lreads d 0
  let ws := lwrites d 0
  let att := lkind d = 1
  (rs ++ ws).all (fun r => r.1 + r.2 ≤ 12288) &&
  lparam d % 32 = 0 && inRanges rs (lparam d) (32 * st0.length) &&
  (!rowmapEn d || inRanges rs (rowmapOff d) (mapBytes s c (rowmapOff d))) &&
  st0.all (fun g => !namesArm att g ||
    (g.armOff % 64 = 0 && inRanges rs g.armOff 64 &&
      (!bit (g.aw 0) 39 || (bits (g.aw 1) 0 24 % 16 = 0 && inRanges rs (bits (g.aw 1) 0 24) 512))))

/-! ## Chains (check 3) -/

/-- Where a chain stands in the walk of R219: the state of its value (0 NONE, 1 F32, 2 ENC from a load, 3 ENC from a
quantise), SAVED, the bound sides, the heavy stages met, whether the stage before is an operand load, and whether no rule
is broken. -/
structure ChainSt where
  val : Nat := 0
  saved : Bool := false
  west : Bool := false
  north : Bool := false
  seenS : Bool := false
  seenV : Bool := false
  operand : Bool := false
  ok : Bool := true
  deriving DecidableEq, Repr

/-- One stage of a CHAIN Lesson against Table 9-4. -/
def chainStep (st : List Stage) (q : ChainSt) (i : Nat) : ChainSt :=
  let g := stageAt st i
  let fail := { q with ok := false }
  let elem := fun (keep : Bool) =>
    if q.val = 1 then { q with saved := q.saved && keep, operand := false } else fail
  let more := (nextHeavy st i).isSome
  match g.kind with
  | 1 =>
    match g.role with
    | 0 => if q.val = 0 || q.saved then
        { q with val := if g.plain then 1 else 2, saved := false, operand := false } else fail
    | 1 => if !q.west && more then { q with west := true, operand := true } else fail
    | 2 => if !q.north && more then { q with north := true, operand := true } else fail
    | 3 => if !q.north && more && g.armOff = 0 then { q with north := true, operand := false } else fail
    | _ => fail
  | 2 => if q.operand then { q with operand := false }
    else if q.val = 2 then { q with val := 1, saved := false } else fail
  | 4 => if q.west && q.north && (q.val = 0 || q.saved) && !q.seenS then
      { q with val := 1, saved := false, west := false, north := false, seenS := true, operand := false } else fail
  | 5 => if q.west && q.north && (q.val = 0 || q.saved) && !q.seenV then
      { q with val := 1, saved := false, west := false, north := false, seenV := true, operand := false } else fail
  | 3 | 8 | 9 | 0xA | 0xB | 0xC => elem false
  | 0xD => elem true
  | 0xE =>
    if q.val != 1 then fail
    else match bits (g.w 0) 11 2 with
      | 0 => { q with val := 3, saved := false, operand := false }
      | 1 => if !q.west && more then { q with val := 0, saved := false, west := true, operand := false } else fail
      | _ => if !q.north && more then { q with val := 0, saved := false, north := true, operand := false } else fail
  | 0xF => if q.val != 0 then { q with saved := true, operand := false } else fail
  | _ => fail

/-- Whether heavy stage record i ends its chain as a unit of a split (R237). -/
def splitEnd (d : BitVec 1024) (st : List Stage) : Bool :=
  match st.getLast? with
  | some g => g.heavy && (hrec d (heavyIdx st (st.length - 1))).um1 != 0 &&
      (hrec d (heavyIdx st (st.length - 1))).unit != 0
  | none => false

/-- The rules of R219 over a whole chain: it ends with a store, or with a split heavy stage. -/
def chainOk (d : BitVec 1024) (st : List Stage) : Bool :=
  let q := (List.range st.length).foldl (chainStep st) { }
  q.ok && !q.west && !q.north && (splitEnd d st || ((st.getLast?.any (fun g => g.kind == 0xF)) && (q.val = 0 || q.saved)))

/-- Rules of R225 on gate pairs and quantise widths. -/
def gateOk (d : BitVec 1024) (st : List Stage) : Bool :=
  let bop := if isBackward d then lbop d else 0
  (List.range st.length).all (fun i =>
    let g := stageAt st i
    match g.kind with
    | 9 => g.sfu.gate == ((stageAt st (i + 1)).kind == 0xA && i + 1 < st.length)
    | 0xA => gateDoubles st bop i || (tileWidths d st i).all (fun w => w % 2 = 0)
    | 0xE => !g.outFmt.scaled || (tileWidths d st i).all (fun w => w % g.outFmt.blockLen = 0)
    | _ => true)

/-- Rules of R228 on a normalise that takes its statistics from this Lesson, and of rotary rows. -/
def normOk (d : BitVec 1024) (st : List Stage) : Bool :=
  (List.range st.length).all (fun i =>
    let g := stageAt st i
    if deferred g then
      let stats := (List.range i).filter (fun j => (stageAt st j).kind = 0xD)
      bits (g.w 0) 6 4 = 0 && bits (g.w 3) 0 32 = (shapeAt d st i).rowWidth &&
        (match stats.getLast? with
         | some j => bits ((stageAt st j).w 1) 0 24 = bits (g.w 1) 0 24
         | none => true)
    else if g.kind = 3 then
      let dd := 32 * (bits (g.w 0) 5 3 + 1)
      rowmapEn d && bits (g.w 0) 16 5 = 0 && bits (g.w 0) 8 8 ≤ dd / 2 && (shapeAt d st i).rowWidth % dd = 0
    else true)

/-- The rules of R229: two heavy stages are joined by a region, of one M_t and TILES_M; the heavy stage that reads a region
has its row width as K, and a region that holds fewer blocks than there are M-tiles goes with ORDER 0.
DEDUCED (notes/assumptions/85.md). -/
def twoHeavyOk (d : BitVec 1024) (st : List Stage) (rs ws : List (Nat × Nat)) : Bool :=
  let region := fun (i : Nat) => (stageAt st i).kind = 0xE && bits ((stageAt st i).w 0) 11 2 != 0
  let joined := match heavies st with
    | [a, b] => (hrec d 0).mt = (hrec d 1).mt && (stageAt st a).tilesM = (stageAt st b).tilesM &&
        (List.range b).any (fun i => a < i && region i && sourceOf st i = some a)
    | _ => true
  joined && regionsOk d st rs ws && (List.range st.length).all (fun i =>
    !region i ||
      match nextHeavy st i, sourceOf st i with
      | some h, some j =>
        let rb := bits ((stageAt st i).w 0) 13 8
        (hrec d (heavyIdx st h)).k = (shapeAt d st i).rowWidth && rb ≥ 1 &&
          (rb ≥ (stageAt st h).tilesM || ((stageAt st h).order = 0 && (!(stageAt st j).heavy || (stageAt st j).order = 0)))
      | _, _ => false)

/-- The split rules of R237 on each heavy stage. -/
def splitOk (d : BitVec 1024) (st : List Stage) : Bool :=
  (heavies st).all (fun i =>
    let h := hrec d (heavyIdx st i)
    h.um1 = 0 || (lkind d = 0 && h.unit ≤ h.um1 && h.cctr + h.um1 - 1 ≤ 255 && (h.unit = 0 || i + 1 = st.length)))

/-- A RING_LOAD Lesson (R240): one load that fills weight lines and delivers to the scratchpad alone. -/
def ringLoadOk (s : State) (c : Nat) (d : BitVec 1024) (st : List Stage) : Bool :=
  match st with
  | [g] =>
    let prog := if bit (g.aw 0) 39 then progAt s c (bits (g.aw 1) 0 24)
      else match (Map.get (s.core c).streams g.stream { }).parked with
        | some p => p.2
        | none => []
    g.kind = 1 && g.role = 4 && layerEn d && bit (g.aw 0) 41 &&
      (progBody prog).all (fun i => insOp i != 8 || insF i 116 4 = 0)
  | _ => false

/-! ## Templates of Attend and ATT_GRAD (R243, R244, R284) -/

/-- Place of the first stage of a kind in a chain. -/
def placeOf (st : List Stage) (k : Nat) : Nat := st.findIdx (fun g => g.kind == k)

/-- The online softmax record of an Attend (Table 10-6). -/
structure SoftRec where
  d32 : Nat
  win : Nat
  plane : Nat
  head0 : Nat
  hcount : Nat
  idx : Nat
  um1 : Nat
  splitMode : Nat
  select : Bool
  imp : Bool
  pfmt : Nat
  alpha : Nat
  cctr : Nat
  recent : Nat
  selPages : Nat
  caddr : Nat
  deriving DecidableEq, Repr

/-- Fields of an online softmax stage. -/
def softOf (g : Stage) : SoftRec :=
  let w := g.w 0
  { d32 := 32 * (bits w 49 3 + 1), win := bits w 45 4 + 1, plane := bits w 33 12, head0 := bits w 25 8,
    hcount := bits w 23 2 + 1, idx := bits w 18 5, um1 := bits w 13 5, splitMode := bits w 11 2, select := bit w 10,
    imp := bit w 9, pfmt := bits w 4 5, alpha := bits (g.w 1) 0 32, cctr := bits (g.w 2) 32 8,
    recent := bits (g.w 2) 16 16, selPages := bits (g.w 2) 0 16, caddr := g.w 3 }

/-- The mask fields: BITMAP_EN, CAUSAL, PREFIX, SINK, WINDOW (Table 10-5). -/
structure MaskRec where
  bitmap : Bool
  causal : Bool
  pre : Nat
  sink : Nat
  window : Nat
  deriving DecidableEq, Repr

/-- Fields of a mask stage. -/
def maskOf (g : Stage) : MaskRec :=
  { bitmap := bit (g.w 0) 5, causal := bit (g.w 0) 4, pre := bits (g.w 1) 0 48, sink := bits (g.w 2) 32 32,
    window := bits (g.w 2) 0 32 }

/-- The template of Table 10-1. -/
def attendTemplate (st : List Stage) : Bool :=
  let kinds := st.map (fun g => g.kind)
  let mid := fun (rot : List Nat) => [1, 1] ++ rot ++ [4, 6, 7, 1, 5]
  let last := softOf (stageAt st (placeOf st 7))
  let first := last.splitMode = 0 || last.idx = 0
  let bodies := [mid [], mid [3]]
  let roles := (st.filter (fun g => g.kind == 1)).map Stage.role
  (bodies.any (fun b => if first then kinds = b ++ [0xF] || kinds = b ++ [0xE, 0xF] else kinds = b)) &&
    roles = [1, 2, 2] && ((st.filter (fun g => g.kind == 1)).drop 1).all (fun g => g.armOff = 0) &&
    st.all (fun g => g.kind != 0xE || bits (g.w 0) 11 2 = 0)

/-- The heavy fields of Table 10-2, with the head dimension of the online softmax record and of the page layout. -/
def attendHeavyOk (lay : Option Layout) (d : BitVec 1024) (st : List Stage) : Bool :=
  let a := hrec d 0
  let b := hrec d 1
  let plain := fun (h : Heavy) => h.mode = 0 && h.pred = 0 && !h.drain && !h.wt && h.preload = 0 && h.um1 = 0
  let one := fun (i : Nat) => (stageAt st i).tilesM = 1 && (stageAt st i).tilesN = 1 && (stageAt st i).order = 0
  let so := softOf (stageAt st (placeOf st 7))
  plain a && plain b && !a.ntT && b.ntT && a.k % 32 = 0 && 32 ≤ a.k && a.k ≤ 256 && b.k = 256 &&
    a.k = so.d32 && lay.all (fun l => l.d == a.k) &&
    (a.nt = 256 || (a.nt = 512 && a.mt ≤ 128)) && b.nt = a.k && a.tlive = 1 && b.tlive = so.hcount &&
    (heavies st).all one

/-- The backward record of a Lesson, word i (Table 11-2). -/
def auxWord (s : State) (c : Nat) (d : BitVec 1024) (i : Nat) : Nat := spNum s c (lauxOff d + 8 * i) 8

/-- The mask fields of an ATT_GRAD record. -/
def auxMask (s : State) (c : Nat) (d : BitVec 1024) : MaskRec :=
  let w1 := auxWord s c d 1
  { bitmap := bit w1 49, causal := bit w1 48, pre := bits w1 0 48, sink := bits (auxWord s c d 2) 32 32,
    window := bits (auxWord s c d 2) 0 32 }

/-- Layout of the pages that a Lesson's repertoire entry's sequences have. -/
def lessonLayout (s : State) (d : BitVec 1024) : Option Layout := repLayout s (lrep d)

/-- Checks of R274, R281, R283, R284 and R287 for a BOP (FC_BWD_CONFIG). -/
def bwdOk (s : State) (c : Nat) (d : BitVec 1024) (st : List Stage) : Bool :=
  let bop := lbop d
  let rs := lreads d (heavies st).length
  let ws := lwrites d (heavies st).length
  let w := auxWord s c d
  let acts := st.filter (fun g => g.kind == 9)
  let rec_ := lauxOff d % 32 = 0 && inOneRange rs (lauxOff d) (bwdSize bop)
  match bop with
  | 0 => lauxOff d = 0 && lkind d != 1
  | 1 => rec_ && lkind d = 0 && bits (w 0) 24 40 = 0 && w 1 = 0 && w 2 = 0 && w 3 = 0 &&
      acts.any (fun g => g.sfu.deriv && !g.sfu.gate)
  | 2 => rec_ && lkind d = 0 && bits (w 0) 24 40 = 0 && w 1 = 0 && w 2 = 0 && w 3 = 0 &&
      acts.any (fun g => g.sfu.deriv && g.sfu.gate)
  | 3 => rec_ && lkind d = 0 && bits (w 0) 48 16 = 0 && w 1 = 0 && w 2 = 0 && w 3 = 0 &&
      st.any (fun g => g.kind == 0xD) && st.any deferred
  | 4 =>
    let kinds := st.map (fun g => g.kind)
    let loads := st.filter (fun g => g.kind == 1)
    let h0 := hrec d 0
    let h1 := hrec d 1
    let n := h0.mt / 2
    let dd := 32 * (bits (w 3) 14 3 + 1)
    let q := stageAt st (placeOf st 0xE)
    let pf := bits (w 3) 17 5
    rec_ && lkind d = 1 && layerEn d && rowmapEn d && bits (w 1) 50 2 = 0 && bits (w 3) 22 42 = 0 &&
      (kinds = [1, 1, 4, 0xE, 1, 5, 0xF] || kinds = [1, 1, 3, 4, 0xE, 1, 5, 0xF]) &&
      loads.map Stage.role = [1, 2, 2] && (loads.drop 1).all (fun g => g.armOff = 0) &&
      h0.mt % 2 = 0 && h0.mt ≤ 256 && h0.nt = 256 && h0.k = 2 * dd && h1.k = 256 && h1.mt = n && h1.nt = dd &&
      h0.mode = 0 && h1.mode = 0 && h0.um1 = 0 && h1.um1 = 0 && bits (q.w 0) 11 2 = 1 &&
      bits (q.w 0) 4 5 = 0xD && bit (q.w 0) 9 && (pf = 5 || pf = 2 || (Fmt.ofCode? pf).isNone)
  | 5 =>
    let pos := fun (v : Nat) => f32 v != .nan && !(f32 v).neg? && !(f32 v).isZero
    let unit01 := fun (v : Nat) => f32 v != .nan && (!(f32 v).neg? || (f32 v).isZero) && (f32 v).lt Fp.one
    let rows := bits (w 6) 0 16
    let cols := bits (w 6) 16 16
    let f := Fmt.ofCode? (bits (w 6) 32 5)
    rec_ && lkind d = 0 && bits (w 5) 32 32 = 0 && bits (w 6) 51 13 = 0 && w 7 = 0 &&
      (match st with
       | [a, b] => a.kind = 1 && a.role = 0 && a.fmt = .fp32 && b.kind = 0xF
       | _ => false) &&
      (!layerEn d || (repValid s (lrep d) && bit (repWord s (lrep d) 0) 2)) && rows % 32 = 0 && cols % 32 = 0 && rows != 0 &&
      cols != 0 && unit01 (bits (w 4) 0 32) && unit01 (bits (w 4) 32 32) && pos (bits (w 5) 0 32) &&
      (match f with
       | some f => rows % f.blockLen != 0 || cols % f.blockLen != 0 ||
           inOneRange ws (1024 * bits (w 6) 37 14) (rows * f.rowBytes cols + cols * f.rowBytes rows)
       | none => true)
  | _ => false

/-- The page buffers of an Attend lie in a read and a write range (R248). -/
def pageBufOk (s : State) (c : Nat) (d : BitVec 1024) (st : List Stage) : Bool :=
  match lessonLayout s d with
  | none => true
  | some l =>
    let grad := isBackward d
    let so := softOf (stageAt st (placeOf st 7))
    let dd := if grad then l.d else so.d32
    let hc := if grad then 1 else so.hcount
    let win := if grad then 1 else so.win
    let rh := l.format.rowBytes dd
    let sg := if l.outlier then 4 * dd / 32 else 0
    let place := ceilDiv (hc * 256 * (rh + sg)) 1024
    let rs := lreads d (heavies st).length
    let ws := lwrites d (heavies st).length
    let both := fun (row n : Nat) => inOneRange rs (1024 * row) (1024 * n) && inOneRange ws (1024 * row) (1024 * n)
    if grad then both (bits (auxWord s c d 3) 0 14) (2 * win * (4 + 2 * place))
    else
      match (st.filter (fun g => g.kind == 1)).drop 1 with
      | [k, v] => both (bits (k.w 2) 0 14) (2 * win * (4 + place)) && both (bits (v.w 2) 0 14) (2 * win * place)
      | _ => false

/-- Checks of R253 and R255 on the records of an Attend, in the order of R270. -/
def attendRecords (s : State) (d : BitVec 1024) (st : List Stage) : FC :=
  let so := softOf (stageAt st (placeOf st 7))
  let a := bits so.alpha 23 8
  let rs := lreads d (heavies st).length
  let rot := st.find? (fun g => g.kind == 3)
  let rotBad := match rot with
    | none => false
    | some g =>
      let x := g.w 1
      let dd := 32 * (bits (g.w 0) 5 3 + 1)
      dd != so.d32 || bits (g.w 0) 8 8 > dd / 2 || !inRanges rs (bits x 0 24) (8 * bits (g.w 0) 8 8) ||
        (bits x 24 24 != 0xFFFFFF && !inRanges rs (bits x 24 24) 4096)
  let lay := lessonLayout s d
  if bit so.alpha 31 || a = 0 || a = 255 then .attendConfig
  else if (match lay with
      | some l => so.plane / l.groups != llayer d || so.head0 + so.hcount > l.h || (so.select && !l.summary)
      | none => true) then .attendConfig
  else if so.select && so.splitMode != 0 then .attendConfig
  else if so.splitMode = 3 || so.idx > so.um1 || so.cctr + so.um1 > 256 then .attendConfig
  else if rotBad then .attendConfig
  else if so.pfmt != 5 && so.pfmt != 2 then .formatUnsupported
  else if (match rot with
      | some g => !([0xB, 5, 2].contains (bits (g.w 0) 16 5))
      | none => false) then .formatUnsupported
  else .ok

/-- Check 3 of Table 9-6. -/
def chainCode (s : State) (c : Nat) (d : BitVec 1024) (st0 st : List Stage) : FC :=
  let nh := (heavies st).length
  let rs := lreads d nh
  let ws := lwrites d nh
  let kindsOk := st0.zipIdx.all (fun p => bits (p.1.w 0) 0 4 = p.1.kind)
  if nstages d = 0 || nstages d > 12 || !kindsOk then .lessonChain
  else if lkind d = 2 then (if ringLoadOk s c d st0 then .ok else .lessonChain)
  else if lkind d = 1 && !isBackward d then
    if !rowmapEn d || !layerEn d || cmdWord d 12 != 0 || !attendTemplate st0 ||
        !attendHeavyOk (lessonLayout s d) d st0 then .lessonChain
    else
      match mapCode s c d (some ((hrec d 0).mt, (hrec d 1).mt)) 0 with
      | .ok => attendRecords s d st0
      | code => code
  else if lkind d = 1 then
    if !bwdOk s c d st0 then .bwdConfig
    else mapCode s c d (some ((hrec d 0).mt / 2, (hrec d 1).mt)) 0
  else if !chainOk d st0 || !gateOk d st || !normOk d st || !twoHeavyOk d st0 rs ws || !splitOk d st then .lessonChain
  else if !regionsOk d st rs ws || !combineOk d st rs then .scratchRange
  else if isBackward d && !bwdOk s c d st then .bwdConfig
  else if rowmapEn d then
    let rows := match heavies st with
      | [] => 65536
      | h :: _ => let sh := shapeAt d st (h + 1); sh.rows * sh.blocks
    mapCode s c d none rows
  else .ok

/-- Check 4 of Table 9-6: arm records and programs, in chain order. -/
def armsCode (s : State) (c : Nat) (d : BitVec 1024) (st : List Stage) : FC :=
  let att := lkind d = 1
  (List.range st.length).foldl (fun code i =>
    let g := stageAt st i
    if code != .ok || !namesArm att g then code
    else armCode s c ((st.take i).filter (namesArm att)) (g.kind = 0xF) g) .ok

/-! ## Formats (check 5) -/

/-- The formats in which the west and north operands of heavy stage i enter it. -/
def operandFmts (s : State) (d : BitVec 1024) (st : List Stage) (i : Nat) : Fmt × Fmt :=
  let conv := fun (j : Nat) (f : Fmt) =>
    if (stageAt st (j + 1)).kind = 2 && j + 1 < i then (stageAt st (j + 1)).outFmt else f
  let from_ := (heavies st).filter (· < i)
  let lo := match from_.getLast? with
    | some h => h
    | none => 0
  (List.range i).foldl (fun (p : Fmt × Fmt) j =>
    if j < lo then p
    else
      let g := stageAt st j
      match g.kind with
      | 1 =>
        match g.role with
        | 1 => (conv j g.fmt, p.2)
        | 2 => (p.1, conv j g.fmt)
        | 3 =>
          let f := match ((s.core 0).ring.find? (fun r => r.rep == lrep d && r.layer == llayer d)) with
            | some r => (Fmt.ofCode? r.fmt).getD .qf4
            | none => .qf4
          (p.1, if f.fourBit then conv j f else f)
        | _ => p
      | 0xE =>
        match bits (g.w 0) 11 2 with
        | 1 => (g.outFmt, p.2)
        | 2 => (p.1, g.outFmt)
        | _ => p
      | _ => p) (.fp32, .fp32)

/-- The operand formats with the ring of core c. -/
def operandFmtsAt (s : State) (c : Nat) (d : BitVec 1024) (st : List Stage) (i : Nat) : Fmt × Fmt :=
  operandFmts (s.updCore 0 (fun k => { k with ring := (s.core c).ring })) d st i

/-- Whether a backward record names a format outside Table 4-1, or rows that are no multiple of its block (R98, R99). -/
def bwdFormatsOk (s : State) (c : Nat) (d : BitVec 1024) : Bool :=
  let w := auxWord s c d
  if !isBackward d then true
  else match lbop d with
    | 4 => (Fmt.ofCode? (bits (w 3) 17 5)).isSome
    | 5 => match Fmt.ofCode? (bits (w 6) 32 5) with
      | some f => bits (w 6) 0 16 % f.blockLen = 0 && bits (w 6) 16 16 % f.blockLen = 0
      | none => false
    | _ => true

/-- Check 5 of Table 9-6: formats and pairings. -/
def formatsCode (s : State) (c : Nat) (d : BitVec 1024) (st0 st : List Stage) : FC :=
  let att := lkind d = 1
  let gradient := fun (f : Fmt) => [Fmt.qg4, .e5m2, .mxfp8e5m2, .bf16, .fp32].contains f
  let one := fun (i : Nat) =>
    let g := stageAt st i
    match g.kind with
    | 2 => if (Fmt.ofCode? (bits (g.w 0) 4 5)).isNone then FC.formatUnsupported
        else if isBackward d && !gradient g.outFmt && !(st.length != st0.length && g == impliedDequant) then .formatPairing
        else .ok
    | 0xE =>
      let f := g.outFmt
      if (Fmt.ofCode? (bits (g.w 0) 4 5)).isNone || (bit (g.w 0) 10 && !f.sideOk) then .formatUnsupported
      else if !att && (shapeAt d st i).rowWidth % f.blockLen != 0 then .formatUnsupported
      else if isBackward d && !gradient f then .formatPairing
      else if bit (g.w 0) 9 && !f.srAllowed then .formatPairing
      else .ok
    | 4 | 5 =>
      if att then
        -- the Q (or [Q | dO]) operand of the S-array
        if i != ((heavies st).head?.getD i) then .ok
        else
          let q := stageAt st 0
          let a := if (stageAt st 1).kind = 2 then (stageAt st 1).outFmt else q.fmt
          let n := (hrec d 0).k
          if a = .fp32 || n % q.fmt.blockLen != 0 || n % a.blockLen != 0 then FC.formatUnsupported else .ok
      else
        let h := hrec d (heavyIdx st i)
        let (a, b) := operandFmtsAt s c d st i
        if a = .fp32 || b = .fp32 then .formatUnsupported
        else if a = .qt2 && b = .qt2 then .formatPairing
        else if (h.wt && a = .mxint8) || (h.ntT && b = .mxint8) then .formatPairing
        else if (if h.wt then h.mt else h.k) % a.blockLen != 0 || (if h.ntT then h.nt else h.k) % b.blockLen != 0 then
          .formatUnsupported
        else .ok
    | 0xB => if (shapeAt d st i).width % g.fmt.blockLen != 0 then .formatUnsupported else .ok
    | 0xF =>
      let prev := stageAt st (i - 1)
      let enc := prev.kind = 0xE && bits (prev.w 0) 11 2 = 0
      if enc && g.rowElems % prev.outFmt.blockLen != 0 then .formatUnsupported else .ok
    | _ => .ok
  (List.range st.length).foldl (fun code i => if code != .ok then code else one i)
    (if bwdFormatsOk s c d then .ok else .formatUnsupported)

/-! ## The remaining checks -/

/-- Chunk length of heavy stage i (Table 5-5). -/
def stageClass (s : State) (c : Nat) (d : BitVec 1024) (st : List Stage) (i : Nat) : Nat × Bool :=
  let h := hrec d (heavyIdx st i)
  let (a, b) := operandFmtsAt s c d st i
  chunkClass a b ((h.wt && a.scaled) || (h.ntT && b.scaled))

/-- A power of two from 1 to 256. -/
def pow2Ok (n : Nat) : Bool := (List.range 9).any (fun k => n = 2 ^ k)

/-- Check 6 of Table 9-6. -/
def tilesOk (s : State) (c : Nat) (d : BitVec 1024) (st : List Stage) : Bool :=
  (heavies st).all (fun i =>
    let g := stageAt st i
    let h := hrec d (heavyIdx st i)
    (foldKs h.mt h.nt).isSome && h.k != 0 && g.tilesM != 0 && g.tilesN != 0 &&
      (g.order != 2 || (g.tilesM = g.tilesN && pow2Ok g.tilesM)) &&
      (h.mode != 5 && h.mode != 6 || h.k ≤ 16777216) && h.tlive ≥ 1 && h.tlive ≤ 27 &&
      (lkind d = 1 || h.um1 + 1 ≤ ceilDiv h.k (stageClass s c d st i).1))

/-- Check 7 of Table 9-6: the fields of each activation. -/
def sfuCode (st : List Stage) : FC :=
  st.foldl (fun code g => if code != .ok || g.kind != 9 then code else g.sfu.code) .ok

/-- Check 8 of Table 9-6 (R231). -/
def deferredOk (d : BitVec 1024) (st : List Stage) : Bool :=
  let rs := lreads d (heavies st).length
  let ws := lwrites d (heavies st).length
  let defs := (List.range st.length).filter (fun i => deferred (stageAt st i))
  match defs with
  | [] => true
  | [i] =>
    let g := stageAt st i
    let sh := shapeAt d st i
    (match (heavies st).getLast? with
     | some h => h < i && (List.range i).any (fun j => h < j && (stageAt st j).kind = 0xD) &&
         sourceOf st i = some h &&
         bits (g.w 3) 32 8 ≥ 1 && ((stageAt st h).order = 0 || bits (g.w 3) 32 8 ≥ sh.blocks)
     | none => false) &&
    inOneRange rs (1024 * bits (g.w 0) 10 14) (holdBytes d st i) &&
    inOneRange ws (1024 * bits (g.w 0) 10 14) (holdBytes d st i)
  | _ => false

/-- Class of the tenant of a context: 0 Standard, 1 Priority, 2 Throughput (R84, Table 3-4). -/
def ctxClass (s : State) (c x : Nat) : Nat := (Map.get s.charts.tenants (s.ctx c x).tenant { }).cls

/-- Check 9 of Table 9-6 (R238). -/
def residentOk (s : State) (c x : Nat) (d : BitVec 1024) (st : List Stage) : Bool :=
  !lresident d || (ctxClass s c x = 1 && (heavies st).all (fun i =>
    (hrec d (heavyIdx st i)).um1 = 0 && (hrec d (heavyIdx st i)).tlive = 1))

/-- Check 10 of Table 9-6 (R138, R173): a spill region inside the scratchpad and four slots of the feeder ports. -/
def spillOk (s : State) (c : Nat) (d : BitVec 1024) (st : List Stage) : Bool :=
  (heavies st).all (fun i =>
    let h := hrec d (heavyIdx st i)
    let base := if (stageAt st i).kind = 4 then 0 else 2
    h.tlive ≤ 4 || (h.spill + 520 * (h.tlive - 4) ≤ 12288 &&
      portSlots s c base + portSlots s c (base + 1) ≥ 4))

/-- The ports a Lesson's stages access the scratchpad through (Table 7-1): side words and page buffers are read where their
operand enters, a preload through the west feeder, a combine region by the VU.
DEDUCED (notes/assumptions/86.md). -/
def portsNeeded (d : BitVec 1024) (st : List Stage) : List Nat :=
  let feeder := fun (i : Nat) => match nextHeavy st i with
    | some h => if (stageAt st h).kind = 4 then 0 else 2
    | none => 0
  (List.range st.length).flatMap (fun i =>
    let g := stageAt st i
    match g.kind with
    | 1 =>
      if lkind d = 1 && g.role = 2 then [feeder i + 1]
      else if !g.side || !namesArm (lkind d = 1) g then []
      else match g.role with
        | 0 => [5]
        | 1 => [feeder i]
        | 2 => [feeder i + 1]
        | _ => []
    | 4 | 5 =>
      let h := hrec d (heavyIdx st i)
      (if h.preload != 0 then [if g.kind = 4 then 0 else 2] else []) ++ (if h.um1 != 0 && h.unit = 0 then [5] else [])
    | 8 | 0xC | 0xD | 3 => [5]
    | 9 => (if g.sfu.offset then [4] else []) ++ (if isBackward d && lbop d != 0 then [4] else [])
    | 0xE =>
      let dest := bits (g.w 0) 11 2
      if dest = 0 || lkind d = 1 then (if bit (g.w 0) 10 then [5] else [])
      else [5, feeder i + (dest - 1)]
    | _ => [])

/-- Check 11 of Table 9-6 (R174). -/
def portsOk (s : State) (c : Nat) (d : BitVec 1024) (st : List Stage) : Bool :=
  lunsched d || (portsNeeded d st).all (fun p => portSlots s c p != 0)

/-- Check 12 of Table 9-6: the ring layer of a ROLE 3 load, the combine core. -/
def presenceCode (s : State) (c : Nat) (d : BitVec 1024) (st : List Stage) : FC :=
  if st.any (fun g => g.kind = 1 && g.role = 3) &&
      (!layerEn d || !(s.core c).ring.any (fun r => r.rep = lrep d && r.layer = llayer d)) then .ringAbsent
  else if (heavies st).any (fun i =>
      let h := hrec d (heavyIdx st i)
      h.um1 != 0 && !s.corePresent h.ccore) then .unitAbsent
  else .ok

/-- The stages of a Lesson as its parameter block and arm records hold them. -/
def readStages (s : State) (c : Nat) (d : BitVec 1024) : List Stage :=
  (List.range (min 12 (nstages d))).map (fun i =>
    let kind := bits (cmdWord d 1) (4 * i) 4
    let word := BitVec.ofNat 256 (spNum s c (lparam d + 32 * i) 32)
    let g : Stage := { kind := kind, word := word }
    if namesArm (lkind d = 1) g then { g with arm := BitVec.ofNat 512 (spNum s c g.armOff 64) } else g)

/-- Whether control data of a Lesson is marked (R441). -/
def controlMarked (s : State) (c : Nat) (d : BitVec 1024) (st : List Stage) : Bool :=
  spMarked s c (lparam d) (32 * st.length) ||
  (rowmapEn d && spMarked s c (rowmapOff d) (mapBytes s c (rowmapOff d))) ||
  (isBackward d && spMarked s c (lauxOff d) (bwdSize (lbop d))) ||
  st.any (fun g => namesArm (lkind d = 1) g &&
    (spMarked s c g.armOff 64 || (bit (g.aw 0) 39 && spMarked s c (bits (g.aw 1) 0 24) 512)))

/-- The checks of Table 9-6 on a Lesson of a context, in their order; control data that is marked comes first
(R441).
DEDUCED (notes/assumptions/53.md). -/
def lessonCode (s : State) (c x : Nat) (d : BitVec 1024) (st0 st : List Stage) : FC :=
  if controlMarked s c d st0 then .dataPoisoned
  else if lessonReserved d st0 then .reservedNonzero
  else if !rangesOk s c d st0 then .scratchRange
  else
    match chainCode s c d st0 st with
    | .ok =>
      if lkind d = 1 && !pageBufOk s c d st0 then .scratchRange
      else
        match armsCode s c d st with
        | .ok =>
          match formatsCode s c d st0 st with
          | .ok =>
            if !tilesOk s c d st then .tileShape
            else match sfuCode st with
              | .ok =>
                if !deferredOk d st then .fuseRowDeferred
                else if !residentOk s c x d st then .residentDenied
                else if !spillOk s c d st then .accNoSpill
                else if !portsOk s c d st then .ttNoSlot
                else presenceCode s c d st
              | code => code
          | code => code
        | code => code
    | code => code

/-- Settles the words a Lesson's validation reads (R184): parameter block, row map, backward record, arm records and
program images. -/
def settleControl (s : State) (c : Nat) (d : BitVec 1024) : State :=
  let rd := fun (s : State) (o n : Nat) => s.settle (scratchAddr c o) n
  let s := rd s (lparam d) (32 * min 12 (nstages d))
  let s := if rowmapEn d then rd s (rowmapOff d) (mapBytes s c (rowmapOff d)) else s
  let s := if isBackward d then rd s (lauxOff d) 64 else s
  (readStages s c d).foldl (fun s g =>
    if namesArm (lkind d = 1) g then
      let s := rd s g.armOff 64
      if bit (spNum s c g.armOff 8) 39 then rd s (spNum s c (g.armOff + 8) 3) 512 else s
    else s) s

end Sys2Proof.Machine
end

