-- ==== Sys2Proof/Machine/Chain.lean ====
section
/-!
DEFINITION. Stage arithmetic and the run of a chain (R226 to R232, R236, R281 to R283): the elementwise stages on a tile,
the second sweep, operands of the heavy stages, and the end of a Lesson by fault.
-/

namespace Sys2Proof.Machine

open Sys2Proof

/-! ## The Lesson in the state -/

/-- Lesson `id` of core c, if it is in flight.
DESIGN CHOICE (notes/assumptions/83.md). -/
def lessonAt (s : State) (c id : Nat) : Option LessonRun := Map.get? (s.core c).lessons id

/-- A Lesson in flight changed. -/
def updLesson (s : State) (c id : Nat) (f : LessonRun → LessonRun) : State :=
  match lessonAt s c id with
  | none => s
  | some l => s.updCore c (fun k => { k with lessons := Map.put k.lessons id (f l) })

/-- Stream n of core c. -/
def streamAt (s : State) (c n : Nat) : Stream := Map.get (s.core c).streams n { }

/-- Stream n of core c changed. -/
def updStream (s : State) (c n : Nat) (f : Stream → Stream) : State :=
  s.updCore c (fun k => { k with streams := Map.upd k.streams n { } f })

/-- SE_STREAMS_BOUND follows the bound streams (Table 8-8). -/
def noteBound (s : State) (c : Nat) : State :=
  s.setCnt .seStreamsBound ((List.range 16).foldl (fun a n => a + bnat (streamAt s c n).bound * 2 ^ n) 0) c

/-- A stream ends or stops: it is unbound, its walk ends, its program stays parked under PERSIST (R197, R198). -/
def streamRelease (s : State) (c n : Nat) : State :=
  let t := streamAt s c n
  if !t.bound then s
  else
    let a := t.arm.toNat
    let s := if bit a 14 then walkEnd s (bits a (64 + 32) 18) (.lesson c t.lesson) else s
    let parked : Option (BitVec 16 × List (BitVec 128)) :=
      if bit a 38 then some (BitVec.ofNat 16 (bits a 48 16), t.prog) else none
    let s := updStream s c n (fun t => { parked := parked, a := t.a })
    let drop := fun (o : OutReq) => if o.who == .stream c n && o.req.tag = 0 then { o with who := .posted } else o
    let s := { s with remote := { s.remote with out := s.remote.out.map drop } }
    noteBound (s.updCore c (fun k => { k with waits := Map.erase k.waits n })) c

/-! ## Faults of Lessons (R236, R79) -/

/-- Codes of a walk or of a store into a page that identify one sequence (R79). -/
def seqCode (code : FC) : Bool := [FC.slotUnmapped, .chartEpoch, .chartRemoteWrite, .chartMalformed].contains code

/-- The sequence that a fault of its walk identifies: by its code, or by coming from a read of a remote page (R53, R79);
any other code blames the group. -/
def blamed (code : FC) (remote : Bool) (seq : Nat) : Option Nat := if seqCode code || remote then some seq else none

/-- A sequence enters FAULTED with a code (R79). -/
def faultSeq (s : State) (n : Nat) (code : FC) : State :=
  if (s.desc n).state = .free then s else s.updDesc n (fun d => { d with state := .faulted, lastFc := code })

/-- The sequences and the groups of a faulting Lesson (R79, R216): the one the code identifies, or every sequence of the
groups its row map names. -/
def blameSeqs (s : State) (seqs : List Nat) (who : Option Nat) (code : FC) : State :=
  if seqs.isEmpty then s
  else
    let hit := fun (g : Group) => g.members.any (fun m => match who with
      | some q => m.1 == q
      | none => seqs.contains m.1)
    let groups := s.sched.groups.filter hit
    let s := { s with sched := { s.sched with
      groups := s.sched.groups.map (fun g => if hit g then { g with faulted := true } else g) } }
    match who with
    | some q => if seqs.contains q then faultSeq s q code else s
    | none =>
      let qs := if groups.isEmpty then seqs else groups.flatMap (fun g => g.members.map Prod.fst)
      qs.foldl (fun s q => faultSeq s q code) s

/-- Whether a Lesson names a sequence of a group that has faulted in this step (R79). -/
def groupFaulted (s : State) (seqs : List Nat) : Bool :=
  s.sched.groups.any (fun g => g.faulted && g.members.any (fun m => seqs.contains m.1))

/-- Whether a put of a Lesson is an output row, or a counted put, that a faulted group does not send: its target meets the
output row region of a member of the group (R79).
DESIGN CHOICE (notes/assumptions/84.md). -/
def outMuted (s : State) (l : LessonRun) (target n : Nat) : Bool :=
  groupFaulted s l.seqs && s.sched.groups.any (fun g => g.faulted && g.members.any (fun m => l.seqs.contains m.1) &&
    g.members.any (fun m =>
      let o := (s.desc m.1).outAddr
      o != 0 && o < target + n && target < o + (Config.outRegion m.1).toNat))

/-- A Lesson leaves its core: streams, walks, waits, flags, held tiles, scoreboard place, issued list. -/
def lessonDrop (s : State) (c id : Nat) (l : LessonRun) : State :=
  let s := (List.range 16).foldl (fun s n =>
    if (streamAt s c n).bound && (streamAt s c n).lesson = id then streamRelease s c n else s) s
  let s := walkEndAll s (.lesson c id)
  let s := s.updCore c (fun k => { k with
    lessons := Map.erase k.lessons id
    flagOwner := k.flagOwner.filter (fun p => p.2.lesson != id)
    combineWaits := k.combineWaits.filter (fun p => p.1 != id)
    heldTiles := k.heldTiles.filter (fun h => h.lesson != id)
    holder := k.holder.filter (fun p => p.2 != id) })
  unissue (sbRelease s c l.ctx l.num) c l.ctx l.num

/-- The counters and the trace of a Lesson's end, FC_OK or not (Tables 19-2, 19-3, 19-5). -/
def lessonEnded (s : State) (c : Nat) (l : LessonRun) (code : FC) : State :=
  let t := (s.ctx c l.ctx).tenant
  let s := (s.bump .coreLessons c).bumpTnt .tntLessons t
  s.trace 2 { unit := c, core := some c, ctx := l.ctx, code := code, tenant := t, arg0 := l.num.toNat,
              arg2 := l.compl.addr.toNat }

/-- A Lesson faults after issue (R236): it stops, its completion word carries the code, its context faults, its sequences
are attributed. Stores that landed stay. -/
def lessonFaultSeq (s : State) (c id : Nat) (code : FC) (who : Option Nat) : State :=
  match lessonAt s c id with
  | none => s
  | some l =>
    let s := lessonDrop s c id l
    let s := lessonEnded s c l code
    let s := completeCmd s c l.ctx l.compl code 0
    blameSeqs (faultCtx s c l.ctx code) l.seqs who code

/-- A Lesson faults with a code that names no one sequence. -/
def lessonFault (s : State) (c id : Nat) (code : FC) : State := lessonFaultSeq s c id code none

/-! ## Lines that streams move (Tables 8-8 and 19-3) -/

/-- Lines of 256 bytes that [a, a + n) touches. -/
def linesOf (a n : Nat) : Nat := if n = 0 then 0 else (a + n - 1) / 256 - a / 256 + 1

/-- Pieces of [a, a + n) by aligned 256-byte lines: offset and length. -/
def linePieces (fuel a n : Nat) : List (Nat × Nat) :=
  match fuel with
  | 0 => []
  | f + 1 =>
    if n = 0 then []
    else
      let k := min n (256 - a % 256)
      (0, k) :: (linePieces f (a + k) (n - k)).map (fun p => (p.1 + k, p.2))

/-- Lines of marked bytes that hold a mark. -/
def poisonLines (a : Nat) (bs : List MByte) : Nat :=
  ((linePieces (bs.length + 1) a bs.length).filter (fun p => (mslice bs p.1 p.2).any Prod.snd)).length

/-- HBM bytes that a stream moves, counted for its tenant (Table 19-3). -/
def countHbm (s : State) (c : Nat) (l : LessonRun) (a n : Nat) : State :=
  if a < hbmEnd then s.bumpTnt .tntHbmBytes (s.ctx c l.ctx).tenant 0 n else s

/-- Lines that a load stream brings from an address: SE_LINES_IN, and SE_POISON_LINES for those that hold poison. -/
def noteLines (s : State) (c a : Nat) (bs : List MByte) : State :=
  (s.bump .seLinesIn c 0 (linesOf a bs.length)).bump .sePoisonLines c 0 (poisonLines a bs)

/-! ## Scratchpad accesses of a Lesson (R175) -/

/-- Marked bytes from the 16-byte marks of a range that starts at an address. -/
def withMarks (a : Nat) (bs : List Byte) (marks : List Bool) : List MByte :=
  bs.zipIdx.map (fun p => (p.1, marks.getD ((a + p.2) / 16 - a / 16) false))

/-- The marks per 16-byte word of marked bytes that start at an address. -/
def marksOf (a : Nat) (bs : List MByte) : List Bool :=
  if bs.isEmpty then []
  else
    let n := (a + bs.length - 1) / 16 - a / 16 + 1
    (List.range n).map (fun i =>
      let lo := 16 * (a / 16 + i)
      ((bs.drop (lo - a)).take (16 - (a - lo))).any Prod.snd)

/-- Declared ranges of a Lesson in flight. -/
def runReads (l : LessonRun) : List (Nat × Nat) := lreads l.desc (heavies l.stages).length
/-- Declared write ranges of a Lesson in flight. -/
def runWrites (l : LessonRun) : List (Nat × Nat) := lwrites l.desc (heavies l.stages).length

/-- A read of the core's scratchpad by a Lesson: `none` where it leaves the read ranges. -/
def rdSp (s : State) (c : Nat) (l : LessonRun) (off n : Nat) : State × Option (List MByte) :=
  if !inRanges (runReads l) off n || off + n > scratchSize then (s, none)
  else
    let a := scratchAddr c off
    let (s, d, marks) := s.read a n
    (s, some (withMarks a d marks))

/-- A write of the core's scratchpad by a Lesson: `none` where it leaves the write ranges. -/
def wrSp (s : State) (c : Nat) (l : LessonRun) (off : Nat) (bs : List MByte) : Option State :=
  if !inRanges (runWrites l) off bs.length || off + bs.length > scratchSize then none
  else
    let a := scratchAddr c off
    some (s.write a (mbytes bs) (marksOf a bs) (some (c / 8)))

/-- binary32 elements from bytes. -/
def elemsOf (bs : List MByte) : List CElem :=
  (List.range (bs.length / 4)).map (fun i =>
    let w := mslice bs (4 * i) 4
    (leNat (mbytes w), w.any Prod.snd))

/-- Bytes of binary32 elements. -/
def bytesOfElems (es : List CElem) : List MByte := es.flatMap (fun e => (natLe 4 e.1).map (fun b => (b, e.2)))

/-! ## Tiles in the chain -/

/-- The chain value of one tile. -/
inductive CVal where
  | none
  | f32 (t : CTile)
  | enc (f : Fmt) (rows : List (List MByte)) (sides : Option (List (List (Nat × Bool))))
  deriving DecidableEq, Repr

/-- Where a tile stands: its row block, its place along the row, its production index, whether it is the last of its row
block. -/
structure TileAt where
  blk : Nat
  col : Nat
  idx : Nat
  last : Bool
  deriving DecidableEq, Repr

/-- Whether a tile holds a poisoned element. -/
def CVal.poisoned : CVal → Bool
  | .none => false
  | .f32 t => t.any (fun r => r.any Prod.snd)
  | .enc _ rows _ => rows.any (fun r => r.any Prod.snd)

/-- A function applied to each element with its row and column. -/
def CTile.mapIdx (t : CTile) (f : Nat → Nat → CElem → CElem) : CTile :=
  t.zipIdx.map (fun (r, i) => r.zipIdx.map (fun (e, j) => f i j e))

/-- Element (i, j) of a tile; a clean +0 outside it. -/
def CTile.at (t : CTile) (i j : Nat) : CElem := (t.getD i []).getD j (0, false)

/-- An operation on binary32 values as words, with the poison of both operands. -/
def op2 (f : Fp → Fp → Fp) (a b : CElem) : CElem := (toF32 (f (f32 a.1) (f32 b.1)), a.2 || b.2)

/-- The pairwise tree of R227 over 2^k positions padded with +0. -/
def treeSum (k : Nat) (xs : List Fp) : Fp :=
  match k with
  | 0 => xs.getD 0 Fp.zero
  | n + 1 => add32 (treeSum n (xs.take (2 ^ n))) (treeSum n (xs.drop (2 ^ n)))

/-- The tree of a tile row: 256 positions, or 512 when it is wider. -/
def rowTree (xs : List Fp) : Fp := treeSum (if xs.length > 256 then 9 else 8) xs

/-- Mean and reciprocal deviation of R228 steps 2 to 4 from the combined S and Q. -/
def normStats (tab : List Byte) (mode : Nat) (eps : Fp) (n : Nat) (sm sq : Fp) : Fp × Fp :=
  let c := f32 (toF32 (match (Fp.ofInt (n : Int) 0) with
    | .fin _ m _ => if m = 0 then Fp.inf false else
        -- 1/n rounded to nearest even: a quotient with enough bits and a sticky bit
        let q := 2 ^ 96 / m
        let st := if 2 ^ 96 % m = 0 then 0 else 1
        Fp.fin false (2 * q + st) (-97)
    | x => x))
  let mu := if mode = 0 then mul32 sm c else Fp.zero
  let v := if mode = 0 then
      let d := sub32 (mul32 sq c) (mul32 mu mu)
      if d.neg? && !(d == .nan) then Fp.zero else d
    else mul32 sq c
  (mu, sfuNative tab 5 none (add32 v eps))

/-! ## Rotary transform (R252) -/

/-- Cosine of a 32-bit turn from a table, or from the factory ROM. -/
def cosTurn (tab : Option (List Byte)) (t : Nat) : Fp :=
  let seg := t / 2 ^ 24
  let e := match tab with
    | some b => fieldAt b (16 * seg) 16
    | none => (Config.cosineRom seg).toNat
  rne32 (segPoly e (Fp.ofInt (t % 2 ^ 24 : Nat) (-32)))

/-- One head of d decoded elements rotated for position p; `inv` rotates by −p (R252, R282). -/
def rotateHead (tab : Option (List Byte)) (freqs : List Nat) (half inv : Bool) (p : Nat) (xs : List CElem) : List CElem :=
  let d := xs.length
  let np := freqs.length
  let x := fun (i : Nat) => f32 (xs.getD i (0, false)).1
  let po := fun (i : Nat) => (xs.getD i (0, false)).2
  (List.range d).map (fun e =>
    let (i, first) := if half then (if e < d / 2 then (e, true) else (e - d / 2, false)) else (e / 2, e % 2 = 0)
    if i ≥ np then xs.getD e (0, false)
    else
      let (a, b) := if half then (i, i + d / 2) else (2 * i, 2 * i + 1)
      let t := (p * freqs.getD i 0) % 2 ^ 64 / 2 ^ 32
      let cs := cosTurn tab t
      let sn := cosTurn tab ((t + 2 ^ 32 - 0x40000000) % 2 ^ 32)
      let y := match first, inv with
        | true, false => sub32 (mul32 (x a) cs) (mul32 (x b) sn)
        | false, false => add32 (mul32 (x a) sn) (mul32 (x b) cs)
        | true, true => add32 (mul32 (x a) cs) (mul32 (x b) sn)
        | false, true => sub32 (mul32 (x b) cs) (mul32 (x a) sn)
      (toF32 y, po a || po b))

/-- Reads the fields of a rotary stage: pair mode, turn fractions, table; `none` outside the declared ranges. -/
def rotaryParams (s : State) (c : Nat) (l : LessonRun) (g : Stage) :
    State × Option (Bool × List Nat × Option (List Byte)) :=
  let np := bits (g.w 0) 8 8
  let (s, fr) := rdSp s c l (bits (g.w 1) 0 24) (8 * np)
  let to_ := bits (g.w 1) 24 24
  let freqs := fr.map (fun f => (List.range np).map (fun i => fieldAt (mbytes f) (8 * i) 8))
  if to_ = 0xFFFFFF then (s, freqs.map (fun f => (bit (g.w 0) 4, f, none)))
  else
    let (s, tb) := rdSp s c l to_ 4096
    (s, match freqs, tb with
      | some f, some t => some (bit (g.w 0) 4, f, some (mbytes t))
      | _, _ => none)

/-! ## Saturation counters (R113) -/

/-- The stream that the value of place i is written through: that of the next store. -/
def storeStream (l : LessonRun) (i : Nat) : Option Nat :=
  ((l.stages.drop i).find? (fun g => g.kind == 0xF)).map Stage.stream

/-- n saturations of a stage: in its stream's counter and in the Lesson's sum. -/
def saturate (s : State) (c id : Nat) (stream : Option Nat) (n : Nat) : State :=
  if n = 0 then s
  else
    let s := updLesson s c id (fun l => { l with sat := l.sat + n })
    match stream with
    | some k => s.bump .coreSatCount c k n
    | none => s

/-- n format errors met on a stream (R103, R105). -/
def formatErrors (s : State) (c stream n : Nat) : State := if n = 0 then s else s.bump .coreFmtErrCount c stream n

/-- The tables an SFU operation of stage i reads: captured when its first element enters (R162). `reads` marks the
tables as bits 0 and 1. -/
def sfuTables (s : State) (c id i reads : Nat) : State × List Byte × List Byte :=
  let cap := match (lessonAt s c id).bind (fun l => Map.get? l.banks i) with
    | some v => v
    | none => (s.core c).sfuActive % 4 + 4 * reads
  let s := updLesson s c id (fun l => { l with banks := Map.put l.banks i cap })
  (s, sfuBank s c 0 (bits cap 0 1), sfuBank s c 1 (bits cap 1 1))

/-- The operation of stage i has taken its last element: its banks are given up (R162). -/
def sfuDone (s : State) (c id i : Nat) : State := updLesson s c id (fun l => { l with banks := Map.erase l.banks i })

/-- The operation of stage i has taken one more tile; after the last tile of its heavy stage its banks are given up
(R162). -/
def opTook (s : State) (c id i : Nat) : State :=
  match lessonAt s c id with
  | none => s
  | some l =>
    let n := Map.get l.passed i 0 + 1
    let s := updLesson s c id (fun l => { l with passed := Map.put l.passed i n })
    match sourceOf l.stages i with
    | some j =>
      let g := stageAt l.stages j
      if g.heavy && n ≥ g.tilesM * g.tilesN then sfuDone s c id i else s
    | none => s

/-! ## The stages (Table 9-7) -/

/-- The outcome of a stage: the state, and the value the next stage takes; `none` when the tile goes no further. -/
abbrev StageRes := State × Option CVal

/-- A stage faults its Lesson. -/
def stageFault (s : State) (c id : Nat) (code : FC) : StageRes := (lessonFault s c id code, none)

/-- Continues with bytes read from the scratchpad, or faults with FC_SCRATCH_RANGE. -/
def withRead (s : State) (c id : Nat) (l : LessonRun) (off n : Nat) (k : State → List MByte → StageRes) : StageRes :=
  match rdSp s c l off n with
  | (s, some d) => k s d
  | (s, none) => stageFault s c id .scratchRange

/-- Continues after a write of the scratchpad, or faults. -/
def withWrite (s : State) (c id : Nat) (l : LessonRun) (off : Nat) (bs : List MByte) (k : State → StageRes) : StageRes :=
  match wrSp s c l off bs with
  | some s => k s
  | none => stageFault s c id .scratchRange

/-- An encoded tile decoded and scaled (R226, dequantise). -/
def dequantTile (f : Fmt) (rows : List (List MByte)) (sides : Option (List (List (Nat × Bool)))) (n : Nat) (scale : Fp) :
    CTile :=
  rows.zipIdx.map (fun (r, i) =>
    (opRow f false r (sides.map (fun x => x.getD i [])) n).map (fun e => (toF32 (mul32 e.full scale), e.poison)))

/-- Elements in an encoded row. -/
def rowElemsOf (f : Fmt) (r : List MByte) : Nat := r.length / f.blockBytes * f.blockLen

/-- The tile element of a saved operand at AUX: tile t in production order, rows × W binary32 (R281). -/
def savedTile (rows w : Nat) (bs : List MByte) : CTile :=
  (List.range rows).map (fun i => elemsOf (mslice bs (4 * w * i) (4 * w)))

/-- Offset of a tile in a saved operand of `k` binary32 words per element: in the production order of a heavy stage, or in the rows
of a value that a load brings (R281, R283). -/
def savedOff (l : LessonRun) (i : Nat) (at_ : TileAt) (rows w k : Nat) : Nat :=
  let sh := shapeAt l.desc l.stages i
  if sh.blocks = 0 then 4 * k * (at_.blk * sh.rowWidth + at_.col * sh.width) else 4 * k * (at_.idx * rows * w)

/-- Results of an SFU operation on elements, with the saturations of its output format. -/
def sfuOut (fmt : Nat) (x : CElem) : CElem × Nat :=
  let (y, sat) := outRound fmt (f32 x.1)
  ((toF32 y, x.2), bnat sat)

/-- A whole tile rounded to an SFU output format. -/
def sfuTile (fmt : Nat) (t : CTile) : CTile × Nat :=
  let q := t.map (fun r => r.map (sfuOut fmt))
  (q.map (fun r => r.map Prod.fst), q.foldl (fun a r => a + r.foldl (fun b x => b + x.2) 0) 0)

/-- The activation stage (R150, R226, R281), gated forms included. -/
def runActivation (s : State) (c id i : Nat) (l : LessonRun) (g : Stage) (at_ : TileAt) (t : CTile) : StageRes :=
  let o := g.sfu
  let d := l.desc
  let bop := if isBackward d then lbop d else 0
  let sh := shapeAt d l.stages i
  let rows := t.length
  let w := (t.getD 0 []).length
  let alpha := f32 (bits (g.w 1) 0 32)
  let fused := l.fusedDeriv && o.deriv
  let (s, tab0, tab1) := sfuTables s c id i (if o.deriv then (if bop = 2 && !fused then 3 else if fused then (if bop = 2 then 1 else 0) else 2) else 1)
  let finish := fun (s : State) (r : CTile) (results derivs : Nat) =>
    let (r, sat) := sfuTile o.outFmt r
    let s := saturate s c id (storeStream l i) sat
    let s := s.bump .sfuResults c 0 results
    let s := if !o.deriv || !isBackward d then s
      else if fused then s.bump .bwdDerivFused c 0 derivs else s.bump .bwdDerivTable c 0 derivs
    (opTook s c id i, some (CVal.f32 r))
  let withOff := fun (s : State) (k : State → (Nat → CElem) → StageRes) =>
    if !o.offset then k s (fun _ => (0, false))
    else withRead s c id l (bits (g.w 2) 0 24 + 4 * (at_.blk * sh.rows)) (4 * rows) (fun s bs =>
      let es := elemsOf bs
      k s (fun r => es.getD r (0, false)))
  let arg := fun (off : CElem) (x : CElem) => if o.offset then op2 sub32 x off else x
  let fn := fun (o : SfuOp) (x : CElem) => (toF32 (o.eval tab0 tab1 fused alpha (f32 x.1)), x.2)
  if bop = 1 && o.deriv && !o.gate then
    let so := bits (spNum s c (lauxOff d) 8) 0 24 + savedOff l i at_ rows w 1
    withOff s (fun s off => withRead s c id l so (rows * w * 4) (fun s bs =>
      let a := savedTile rows w bs
      finish s (t.mapIdx (fun r j e => op2 mul32 (fn o (arg (off r) (a.at r j))) e)) (rows * w) (rows * w)))
  else if bop = 2 && o.deriv && o.gate then
    let ww := 2 * w
    let so := bits (spNum s c (lauxOff d) 8) 0 24 + savedOff l i at_ rows w 2
    withOff s (fun s off => withRead s c id l so (rows * ww * 4) (fun s bs =>
      let sv := savedTile rows ww bs
      let fwd := { o with deriv := false }
      let out := t.zipIdx.map (fun (r, ri) =>
        let das := r.zipIdx.map (fun (dh, j) =>
          op2 mul32 (op2 mul32 (fn o (arg (off ri) (sv.at ri j))) (sv.at ri (j + w))) dh)
        let dus := r.zipIdx.map (fun (dh, j) => op2 mul32 (fn fwd (arg (off ri) (sv.at ri j))) dh)
        das ++ dus)
      finish s out (rows * ww) (rows * w)))
  else
    withOff s (fun s off =>
      if o.gate then
        let h := w / 2
        let out := t.zipIdx.map (fun (r, ri) => (List.range h).map (fun j =>
          op2 mul32 (fn o (arg (off ri) (r.getD j (0, false)))) (r.getD (j + h) (0, false))))
        finish s out (rows * h) (rows * h)
      else finish s (t.mapIdx (fun r _ e => fn o (arg (off r) e))) (rows * w) (rows * w))

/-- Statistics of a block's rows from the partial records (R228 step 1): S and Q per row, with poison. -/
def statRows (np rows : Nat) (bs : List MByte) : List (CElem × CElem) :=
  (List.range rows).map (fun r =>
    (List.range (np + 1)).foldl (fun (q : CElem × CElem) p =>
      let es := elemsOf (mslice bs (8 * ((np + 1) * r + p)) 8)
      let a := es.getD 0 (0, false)
      let b := es.getD 1 (0, false)
      if p = 0 then (a, b) else (op2 add32 q.1 a, op2 add32 q.2 b)) ((0, false), (0, false)))

/-- The forward values of a BOP 3 tile: γ_j g_j and x̂ per element (R283). -/
def normGradParts (tab : List Byte) (ng : Stage) (mode : Nat) (t x : CTile) (gam : List CElem)
    (fst : List (CElem × CElem)) (nelem : Nat) : CTile × CTile × List CElem :=
  let eps := f32 (bits (ng.w 1) 32 32)
  let hasG := bits (ng.w 2) 0 24 != 0xFFFFFF
  let mr := fst.map (fun q =>
    let (mu, rho) := normStats tab mode eps nelem (f32 q.1.1) (f32 q.2.1)
    ((toF32 mu, q.1.2 || q.2.2), (toF32 rho, q.1.2 || q.2.2)))
  let h := t.mapIdx (fun _ j e => if hasG then op2 mul32 (gam.getD j (0, false)) e else e)
  let xh := t.mapIdx (fun i j _ =>
    let (mu, rho) := mr.getD i ((0, false), (0, false))
    op2 mul32 (op2 sub32 (x.at i j) mu) rho)
  (h, xh, mr.map Prod.snd)

/-- Reads what BOP 3 needs for a tile: the scale row, the saved x tile and the forward statistics. -/
def withNormGrad (s : State) (c id i : Nat) (l : LessonRun) (ng : Stage) (at_ : TileAt) (t : CTile) (col0 rowBase : Nat)
    (k : State → CTile → List CElem → List (CElem × CElem) → StageRes) : StageRes :=
  let rows := t.length
  let w := (t.getD 0 []).length
  let aux := spNum s c (lauxOff l.desc) 8
  let np := bits (ng.w 0) 6 4
  withRead s c id l (bits aux 0 24 + savedOff l i at_ rows w 1) (rows * w * 4) (fun s xs =>
    withRead s c id l (bits aux 24 24 + 8 * (np + 1) * rowBase) (8 * (np + 1) * rows) (fun s fs =>
      let go := bits (ng.w 2) 0 24
      if go = 0xFFFFFF then k s (savedTile rows w xs) [] (statRows np rows fs)
      else withRead s c id l (go + 4 * col0) (4 * w) (fun s gs =>
        k s (savedTile rows w xs) (elemsOf gs) (statRows np rows fs))))

/-- The row statistics stage (R227), in BOP 3 the sums of R283. -/
def runRowStats (s : State) (c id i : Nat) (l : LessonRun) (g : Stage) (at_ : TileAt) (t : CTile) : StageRes :=
  let d := l.desc
  let sh := shapeAt d l.stages i
  let base := at_.blk * sh.rows
  let bop := if isBackward d then lbop d else 0
  let finish := fun (s : State) (a b : CTile) =>
    let upd := fun (m : FMap RowStat) (r : Nat) =>
      let xs := a.getD r []
      let ys := b.getD r []
      let old := Map.get m (16 * (base + r) + i) { }
      Map.put m (16 * (base + r) + i)
        { s := toF32 (add32 (f32 old.s) (rowTree (xs.map (fun e => f32 e.1)))),
          q := toF32 (add32 (f32 old.q) (rowTree (ys.map (fun e => f32 e.1)))),
          tiles := old.tiles + 1,
          poison := old.poison || xs.any Prod.snd || ys.any Prod.snd }
    let stats := (List.range t.length).foldl upd l.stats
    let s := updLesson s c id (fun l => { l with stats := stats })
    if !at_.last then (s, some (CVal.f32 t))
    else
      let rowsB := (List.range t.length).flatMap (fun r =>
        let q := Map.get stats (16 * (base + r) + i) { }
        bytesOfElems [(q.s, q.poison), (q.q, q.poison)])
      let s := updLesson s c id (fun l => { l with
        stats := l.stats.filter (fun p => !(p.1 % 16 == i && decide (base ≤ p.1 / 16) && decide (p.1 / 16 < base + t.length))) })
      withWrite s c id l (bits (g.w 1) 0 24 + 8 * base) rowsB (fun s => (s, some (CVal.f32 t)))
  if bop = 3 then
    let ni := l.stages.findIdx deferred
    let ng := stageAt l.stages ni
    let (s, tab, _) := sfuTables s c id i 1
    withNormGrad s c id i l ng at_ t (at_.col * sh.width) base (fun s x gam fst =>
      let (h, xh, _) := normGradParts tab ng (bits (ng.w 0) 4 1) t x gam fst (bits (ng.w 3) 0 32)
      finish (opTook s c id i) h (h.mapIdx (fun r j e => op2 mul32 e (xh.at r j))))
  else finish s t (t.mapIdx (fun _ _ e => op2 mul32 e e))

/-- The normalise stage on a tile (R228), in BOP 3 the gradient of R283. -/
def runNormalise (s : State) (c id i : Nat) (l : LessonRun) (g : Stage) (at_ : TileAt) (t : CTile) : StageRes :=
  let d := l.desc
  let sh := shapeAt d l.stages i
  let base := at_.blk * sh.rows
  let rows := t.length
  let w := (t.getD 0 []).length
  let col0 := at_.col * sh.width
  let np := bits (g.w 0) 6 4
  let mode := bits (g.w 0) 4 1
  let nelem := bits (g.w 3) 0 32
  let (s, tab, _) := sfuTables s c id i 1
  let bop := if isBackward d then lbop d else 0
  let done := fun (s : State) (r : CTile) =>
    ((opTook s c id i).bump .sfuResults c 0 (if at_.col = 0 then rows else 0), some (CVal.f32 r))
  withRead s c id l (bits (g.w 1) 0 24 + 8 * (np + 1) * base) (8 * (np + 1) * rows) (fun s st =>
    let stats := statRows np rows st
    if bop = 3 && deferred g then
      withNormGrad s c id i l g at_ t col0 base (fun s x gam fst =>
        let (h, xh, rhos) := normGradParts tab g mode t x gam fst nelem
        let cc := (normStats tab 0 Fp.zero nelem Fp.one Fp.zero).1
        done s (h.mapIdx (fun r j e =>
          let (a, b) := stats.getD r ((0, false), (0, false))
          let e1 := if mode = 0 then op2 sub32 e (op2 mul32 a (toF32 cc, false)) else e
          op2 mul32 (rhos.getD r (0, false)) (op2 sub32 e1 (op2 mul32 (xh.at r j) (op2 mul32 b (toF32 cc, false)))))))
    else
      let eps := f32 (bits (g.w 1) 32 32)
      let mr := stats.map (fun q =>
        let p := q.1.2 || q.2.2
        let (mu, rho) := normStats tab mode eps nelem (f32 q.1.1) (f32 q.2.1)
        ((toF32 mu, p), (toF32 rho, p)))
      let y0 := t.mapIdx (fun r _ e =>
        let (mu, rho) := mr.getD r ((0, false), (0, false))
        op2 mul32 (op2 sub32 e mu) rho)
      let go := bits (g.w 2) 0 24
      let bo := bits (g.w 2) 24 24
      let vec := fun (s : State) (o : Nat) (k : State → Option (List CElem) → StageRes) =>
        if o = 0xFFFFFF then k s none
        else withRead s c id l (o + 4 * col0) (4 * w) (fun s bs => k s (some (elemsOf bs)))
      vec s go (fun s gam => vec s bo (fun s bet =>
        done s (y0.mapIdx (fun _ j e =>
          let e := match gam with
            | some v => op2 mul32 e (v.getD j (0, false))
            | none => e
          match bet with
          | some v => op2 add32 e (v.getD j (0, false))
          | none => e)))))

/-- The quantise stage (R106 to R110, R226, R229). -/
def runQuantise (s : State) (c id i : Nat) (l : LessonRun) (g : Stage) (at_ : TileAt) (t : CTile) : StageRes :=
  let d := l.desc
  let sh := shapeAt d l.stages i
  let f := g.outFmt
  let sr := bit (g.w 0) 9
  let side := bit (g.w 0) 10
  let dest := bits (g.w 0) 11 2
  let base := at_.blk * sh.rows
  let col0 := at_.col * sh.width
  let q := t.zipIdx.map (fun ((r, ri) : List CElem × Nat) =>
    let (bs, sd, sat) := f.quantiseRow side sr (lseed d) ((base + ri) * sh.rowWidth + col0) (r.map (fun (e : CElem) => f32 e.1))
    let pb := fun (b : Nat) => ((r.drop (b * f.blockLen)).take f.blockLen).any Prod.snd
    (bs.zipIdx.map (fun (p : Byte × Nat) => (p.1, pb (p.2 / f.blockBytes))),
      sd.zipIdx.map (fun (p : Nat × Nat) => (p.1, pb p.2)), sat))
  let rows : List (List MByte) := q.map (fun x => x.1)
  let sides : List (List (Nat × Bool)) := q.map (fun x => x.2.1)
  let sat := q.foldl (fun a x => a + x.2.2) 0
  let s := saturate s c id (if dest = 0 then storeStream l i else none) sat
  let bl := f.blockLen
  let sideOff := bits (g.w 2) 0 24
  let writeSides := fun (s : State) (k : State → StageRes) =>
    if !side then k s
    else
      (List.range t.length).foldl (fun (kk : State → StageRes) ri => fun s =>
        withWrite s c id l (sideOff + 4 * ((base + ri) * (sh.rowWidth / bl) + col0 / bl))
          ((sides.getD ri []).flatMap (fun x => (natLe 4 x.1).map (fun b => (b, x.2)))) kk) k s
  writeSides s (fun s =>
    if dest = 0 then (s, some (.enc f rows (if side then some sides else none)))
    else
      let rb := max 1 (bits (g.w 0) 13 8)
      let n := max 1 (regionRows d l.stages i)
      let place := fun (row : Nat) => bits (g.w 1) 0 24 + ((row / n % rb) * n + row % n) * f.rowBytes sh.rowWidth
      (List.range t.length).foldl (fun (kk : State → StageRes) ri => fun s =>
        withWrite s c id l (place (base + ri) + f.rowBytes col0) (rows.getD ri []) kk)
        (fun s => (s, none)) s)

/-- Whole rows, or rows of whole heads, rotated from row `row0` of the chain on (R252, R253, R282): rows that no entry of the
row map covers pass unchanged; `none` where the tables lie outside the read ranges. -/
def rotateRows (s : State) (c : Nat) (l : LessonRun) (g : Stage) (row0 : Nat) (t : CTile) : State × Option CTile :=
  let d := l.desc
  let dd := 32 * (bits (g.w 0) 5 3 + 1)
  match rotaryParams s c l g with
  | (s, none) => (s, none)
  | (s, some (half, freqs, tab)) =>
    let es := mapEntries s c (rowmapOff d)
    (s, some (t.zipIdx.map (fun (r, ri) =>
      let row := row0 + ri
      match es.find? (fun e => e.first ≤ row && row < e.first + e.ntok) with
      | none => r
      | some e => (List.range (r.length / dd)).flatMap (fun h =>
          rotateHead tab freqs half (isBackward d) (e.qpos + (row - e.first)) ((r.drop (h * dd)).take dd)))))

/-- Rotary stage on a chain tile of whole heads. -/
def runRotary (s : State) (c id i : Nat) (l : LessonRun) (g : Stage) (at_ : TileAt) (t : CTile) : StageRes :=
  match rotateRows s c l g (at_.blk * (shapeAt l.desc l.stages i).rows) t with
  | (s, none) => stageFault s c id .scratchRange
  | (s, some t) => (s, some (.f32 t))

/-- Whether a rotary stage meets tiles that cut a head, so that it takes whole rows (R253). -/
def rotaryHolds (l : LessonRun) (i : Nat) : Bool :=
  let g := stageAt l.stages i
  g.kind = 3 && (tileWidths l.desc l.stages i).any (fun w => w % (32 * (bits (g.w 0) 5 3 + 1)) != 0)

/-- A rotary stage that takes whole rows: a tile is kept until its row block is complete; then the rows are rotated and the
tiles go on in the order in which they came.
DEDUCED (notes/assumptions/87.md). -/
def rotaryHold (s : State) (c id i : Nat) (l : LessonRun) (at_ : TileAt) (t : CTile) : State × List (TileAt × CVal) :=
  let sh := shapeAt l.desc l.stages i
  let held := l.rotHeld ++ [{ stage := i, blk := at_.blk, col := at_.col, idx := at_.idx, last := at_.last, rows := t }]
  let mine := held.filter (fun q => q.stage == i && q.blk == at_.blk)
  if mine.length < sh.perRow then (updLesson s c id (fun l => { l with rotHeld := held }), [])
  else
    let s := updLesson s c id (fun l => { l with rotHeld := held.filter (fun q => !(q.stage == i && q.blk == at_.blk)) })
    let cols := (List.range sh.perRow).map (fun k => ((mine.find? (fun q => q.col == k)).map (fun q => q.rows)).getD [])
    let whole := (List.range t.length).map (fun r => cols.flatMap (fun x => x.getD r []))
    match rotateRows s c l (stageAt l.stages i) (at_.blk * sh.rows) whole with
    | (s, none) => (lessonFault s c id .scratchRange, [])
    | (s, some rows) => (s, mine.map (fun q =>
        let w := (q.rows.getD 0 []).length
        ({ blk := q.blk, col := q.col, idx := q.idx, last := q.last },
          .f32 (rows.map (fun r => (r.drop (q.col * sh.width)).take w)))))

/-- The engine of a stage, Table 1-2 with Table 9-2; `pair` tells whether a gate-multiply runs in the activation's pass. -/
def stageEngine (st : List Stage) (i : Nat) : Nat :=
  match (stageAt st i).kind with
  | 0x1 => 4
  | 0xF => 4
  | 0x4 => 0
  | 0x5 => 1
  | 0x7 => 2
  | 0x9 => 2
  | 0xA => if i > 0 && (stageAt st (i - 1)).kind = 9 && (stageAt st (i - 1)).sfu.gate then 2 else 3
  | _ => 3

/-- The flag between an engine and a stage of a Lesson that takes its tiles is set or cleared (R329). -/
def setFlag (s : State) (c id engine stage : Nat) (v : Bool) : State :=
  s.updCore c (fun k =>
    match k.flagOwner.find? (fun p => p.2.lesson == id && p.2.producer == engine && p.2.stage == stage) with
    | none => k
    | some p => { k with flags := if v then k.flags ||| BitVec.ofNat 64 (2 ^ p.1) else
        k.flags &&& ~~~ (BitVec.ofNat 64 (2 ^ p.1)) })

/-- Where an operand of heavy stage i comes from: the load stage of a queue, the ring, or the region of a quantise. -/
inductive OpSrc where
  | queue (load : Nat)
  | ring (load : Nat)
  | region (stage : Nat)
  | missing
  deriving DecidableEq, Repr

/-- Whether an operand comes from the ring. -/
def OpSrc.isRing : OpSrc → Bool
  | .ring _ => true
  | _ => false

/-- The source of the west (or north) operand of the heavy stage at place i. -/
def operandSrc (st : List Stage) (i : Nat) (west : Bool) : OpSrc :=
  let lo := match ((heavies st).filter (· < i)).getLast? with
    | some h => h
    | none => 0
  ((List.range i).filterMap (fun j =>
    let g := stageAt st j
    if j < lo then none
    else if g.kind = 1 && g.role = (if west then 1 else 2) then some (OpSrc.queue j)
    else if !west && g.kind = 1 && g.role = 3 then some (.ring j)
    else if g.kind = 0xE && bits (g.w 0) 11 2 = (if west then 1 else 2) then some (.region j)
    else none)).getLast?.getD .missing

/-- DEST code of an array's operand queue (Table 8-2). -/
def queueOf (kind : Nat) (west : Bool) : Nat := (if kind = 4 then 1 else 3) + (if west then 0 else 1)

/-- The stage that takes what an operand queue holds: the one after the load that fills it (R329). -/
def queueStage (l : LessonRun) (key : Nat) : Nat :=
  if 8 ≤ key then key - 7
  else match (heavies l.stages).find? (fun i => (stageAt l.stages i).kind = (if key ≤ 2 then 4 else 5)) with
    | none => 0
    | some i => match operandSrc l.stages i (key % 2 == 1) with
      | .queue j => j + 1
      | _ => i

/-- Takes n bytes from an operand queue of a Lesson; the caller has checked that they are there. The consumer clears its flag
when nothing is left (R329). -/
def takeQueue (s : State) (c id key n : Nat) : State × List MByte :=
  match lessonAt s c id with
  | none => (s, [])
  | some l =>
    let q := Map.get l.bufs key []
    let s := updLesson s c id (fun l => { l with bufs := Map.put l.bufs key (q.drop n) })
    (if q.length ≤ n then setFlag s c id 4 (queueStage l key) false else s, mslice q 0 n)

/-- Bytes that wait in an operand queue. -/
def queueLen (l : LessonRun) (key : Nat) : Nat := (Map.get l.bufs key []).length

/-- Bytes a residual add at place i takes for a tile. -/
def residualNeed (l : LessonRun) (i rows w : Nat) : Nat := rows * (stageAt l.stages i).fmt.rowBytes w

/-- Whether the stage before place i is a load of an operand, so that a dequantise there converts the operand.
DEDUCED (notes/assumptions/54.md). -/
def operandDequant (st : List Stage) (i : Nat) : Bool :=
  i > 0 && (stageAt st (i - 1)).kind == 1 && ((stageAt st (i - 1)).role != 0)

/-- One stage of the chain on one tile. -/
def runStage (s : State) (c id i : Nat) (at_ : TileAt) (v : CVal) : StageRes :=
  match lessonAt s c id with
  | none => (s, none)
  | some l =>
    let g := stageAt l.stages i
    let sh := shapeAt l.desc l.stages i
    if ltrap l.desc && v.poisoned then stageFault s c id .dataPoisoned
    else
      match g.kind, v with
      | 1, _ => (s, some v)
      | 2, .enc f rows sides =>
        if operandDequant l.stages i then (s, some v)
        else
          let n := rowElemsOf f (rows.getD 0 [])
          let src := (sourceOf l.stages i).map (stageAt l.stages)
          let errs := rows.zipIdx.foldl (fun a p =>
            a + f.rowErrors (mbytes p.1) (sides.map (fun x => (x.getD p.2 []).map Prod.fst)) n) 0
          let s := formatErrors s c ((src.map Stage.stream).getD 0) errs
          let bad := rows.any (fun r => f.rowPoisons (mbytes r) n)
          let t := dequantTile f rows sides n (f32 (bits (g.w 1) 0 32))
          (s, some (.f32 (if bad then t.map (fun r => r.map (fun e => (e.1, true))) else t)))
      | 2, _ => (s, some v)
      | 3, .f32 t => runRotary s c id i l g at_ t
      | 8, .f32 t =>
        if bit (g.w 0) 4 then
          withRead s c id l (bits (g.w 1) 0 24 + 4 * (at_.blk * sh.rows)) (4 * t.length) (fun s bs =>
            let es := elemsOf bs
            (s, some (.f32 (t.mapIdx (fun r _ e => op2 add32 e (es.getD r (0, false)))))))
        else
          let w := (t.getD 0 []).length
          withRead s c id l (bits (g.w 1) 0 24 + 4 * (at_.col * sh.width)) (4 * w) (fun s bs =>
            let es := elemsOf bs
            (s, some (.f32 (t.mapIdx (fun _ j e => op2 add32 e (es.getD j (0, false)))))))
      | 9, .f32 t => runActivation s c id i l g at_ t
      | 0xA, .f32 t =>
        if i > 0 && (stageAt l.stages (i - 1)).kind = 9 && (stageAt l.stages (i - 1)).sfu.gate then (s, some v)
        else (s, some (.f32 (t.map (fun r =>
          let h := r.length / 2
          (List.range h).map (fun j => op2 mul32 (r.getD j (0, false)) (r.getD (j + h) (0, false)))))))
      | 0xB, .f32 t =>
        let w := (t.getD 0 []).length
        let rb := g.fmt.rowBytes w
        let (s, bs) := takeQueue s c id (8 + i) (residualNeed l i t.length w)
        let rows := (List.range t.length).map (fun r => mslice bs (r * rb) rb)
        let s := formatErrors s c g.stream (rows.foldl (fun a r => a + g.fmt.rowErrors (mbytes r) none w) 0)
        let bad := rows.any (fun r => g.fmt.rowPoisons (mbytes r) w)
        let dec := dequantTile g.fmt rows none w Fp.one
        (s, some (.f32 (t.mapIdx (fun r j e =>
          let x := op2 add32 e (dec.at r j)
          (x.1, x.2 || bad)))))
      | 0xC, .f32 t =>
        if deferred g && l.swept.getLast? != some at_.blk then
          -- first sweep: the value goes to the hold region (R232)
          let hb := max 1 (bits (g.w 3) 32 8)
          let blkBytes := ceilDiv (sh.rows * sh.rowWidth * 4) 1024 * 1024
          let o := 1024 * bits (g.w 0) 10 14 + (at_.blk % hb) * blkBytes + 4 * (at_.col * sh.width)
          (List.range t.length).foldl (fun (kk : State → StageRes) r => fun s =>
            withWrite s c id l (o + 4 * r * sh.rowWidth) (bytesOfElems (t.getD r [])) kk) (fun s => (s, none)) s
        else runNormalise s c id i l g at_ t
      | 0xD, .f32 t => runRowStats s c id i l g at_ t
      | 0xE, .f32 t => runQuantise s c id i l g at_ t
      | 0xF, .f32 t =>
        (setFlag (updLesson s c id (fun l => { l with outs := Map.upd l.outs i [] (fun o => o ++ t.flatMap bytesOfElems) })) c id
          (stageEngine l.stages (i - 1)) i true, some v)
      | 0xF, .enc _ rows _ =>
        (setFlag (updLesson s c id (fun l => { l with outs := Map.upd l.outs i [] (fun o => o ++ rows.flatten) })) c id
          (stageEngine l.stages (i - 1)) i true, some v)
      | _, _ => (s, some v)

/-- The stages from place i to the next source, one after another on one tile, or on those that a rotary stage lets go
together. -/
def runFrom (s : State) (c id i : Nat) (at_ : TileAt) (v : CVal) : State :=
  match lessonAt s c id with
  | none => s
  | some l =>
    let isSource := fun (j : Nat) =>
      let g := stageAt l.stages j
      g.heavy || (g.kind == 1 && g.role == 0)
    let stop := ((List.range l.stages.length).find? (fun j => i ≤ j && isSource j)).getD l.stages.length
    ((List.range (stop - i)).foldl (fun (q : State × List (TileAt × CVal)) k =>
      q.2.foldl (fun (acc : State × List (TileAt × CVal)) p =>
        match lessonAt acc.1 c id, p.2 with
        | some l, .f32 t =>
          if rotaryHolds l (i + k) then
            let r := rotaryHold acc.1 c id (i + k) l p.1 t
            (r.1, acc.2 ++ r.2)
          else
            let r := runStage acc.1 c id (i + k) p.1 p.2
            (r.1, acc.2 ++ r.2.toList.map (fun v => (p.1, v)))
        | _, _ =>
          let r := runStage acc.1 c id (i + k) p.1 p.2
          (r.1, acc.2 ++ r.2.toList.map (fun v => (p.1, v)))) (q.1, [])) (s, [(at_, v)])).1

/-! ## Operands of the heavy stages -/

/-- Production order of R222: (m, n) of tile t. -/
def d2xyStep (q : Nat × Nat × Nat) (sz : Nat) : Nat × Nat × Nat :=
  let (x, y, t) := q
  let rx := (t / 2) % 2
  let ry := (t ^^^ rx) % 2
  let (x, y) := if ry = 0 then
      (let (x, y) := if rx = 1 then (sz - 1 - x, sz - 1 - y) else (x, y)
       (y, x))
    else (x, y)
  (x + sz * rx, y + sz * ry, t / 4)

/-- Hilbert index t to tile (x, y) on a side of 2^n (R200). -/
def d2xy (n t : Nat) : Nat × Nat :=
  let r := (List.range n).foldl (fun q k => d2xyStep q (2 ^ k)) (0, 0, t)
  (r.1, r.2.1)

/-- (m, n) of tile t in production order (R222). -/
def tileOf (g : Stage) (t : Nat) : Nat × Nat :=
  match g.order with
  | 0 => (t / max 1 g.tilesN, t % max 1 g.tilesN)
  | 1 => (t % max 1 g.tilesM, t / max 1 g.tilesM)
  | _ => let (x, y) := d2xy (Nat.log2 g.tilesM) t; (y, x)

/-- Tiles released by the heavy stage with record index h. -/
def tilesDone (l : LessonRun) (h : Nat) : Nat := if h = 0 then l.t0 else l.t1

/-- Row block of tile t: its M-tile, or its N-tile when it drains transposed (R278). -/
def blockOf (d : BitVec 1024) (h : Heavy) (g : Stage) (t : Nat) : Nat × Nat :=
  let (m, n) := tileOf g t
  if h.drain && isBackward d then (n, m) else (m, n)

/-- Where tile t of heavy stage i stands on the chain. -/
def tilePlace (l : LessonRun) (i t : Nat) : TileAt :=
  let g := stageAt l.stages i
  let h := hrec l.desc (heavyIdx l.stages i)
  let total := g.tilesM * g.tilesN
  let (b, col) := blockOf l.desc h g t
  { blk := b, col := col, idx := t,
    last := (List.range (total - t - 1)).all (fun k => (blockOf l.desc h g (t + 1 + k)).1 != b) }

/-- Whether every tile of row block b of heavy stage i has been released. -/
def blockDone (l : LessonRun) (i b : Nat) : Bool :=
  let g := stageAt l.stages i
  let h := hrec l.desc (heavyIdx l.stages i)
  let t := tilesDone l (heavyIdx l.stages i)
  (List.range (g.tilesM * g.tilesN - t)).all (fun k => (blockOf l.desc h g (t + k)).1 != b)

/-- The stored rows an operand tile takes: how many, elements of each.
DEDUCED (notes/assumptions/56.md). -/
def operandShape (h : Heavy) (west : Bool) : Nat × Nat :=
  if west then (if h.wt then (h.k, h.mt) else (h.mt, h.k)) else (if h.ntT then (h.k, h.nt) else (h.nt, h.k))

/-- Whether the operand data of the next tile of heavy stage i has come (R222, R230). -/
def operandReady (s : State) (c : Nat) (l : LessonRun) (i : Nat) (west : Bool) : Bool :=
  let g := stageAt l.stages i
  let h := hrec l.desc (heavyIdx l.stages i)
  let (n, e) := operandShape h west
  match operandSrc l.stages i west with
  | .queue j => queueLen l (queueOf g.kind west) ≥ n * (stageAt l.stages j).fmt.rowBytes e
  | .ring _ => (s.core c).ring.any (fun r => r.rep == lrep l.desc && r.layer == llayer l.desc)
  | .region j =>
    let m := (tileOf g (tilesDone l (heavyIdx l.stages i))).1
    match sourceOf l.stages j with
    | some a =>
      let ga := stageAt l.stages a
      -- a tile that waits for its split combine has not passed the quantise yet
      if ga.heavy then blockDone l a m &&
        !l.tiles.any (fun q => q.1 == a && (blockOf l.desc (hrec l.desc (heavyIdx l.stages a)) ga q.2.1).1 == m)
      else (m + 1) * h.mt ≤ Map.get l.done a 0 / max 1 (shapeAt l.desc l.stages j).perRow
    | none => false
  | .missing => false

/-- Bytes of an operand row quantised to another format on its way to the feeder (R226, R239). -/
def convertRow (f o : Fmt) (scale : Fp) (seed base : Nat) (row : List MByte) (sides : Option (List (Nat × Bool))) (n : Nat) :
    List MByte × Nat :=
  let xs := opRow f false row sides n
  let (bs, _, sat) := o.quantiseRow false false seed base (xs.map (fun e => mul32 e.full scale))
  let pb := fun (b : Nat) => ((xs.drop (b * o.blockLen)).take o.blockLen).any (fun e => e.poison)
  (bs.zipIdx.map (fun p => (p.1, pb (p.2 / o.blockBytes))), sat)

/-- Stored operand rows as they enter a feeder: decoded, or converted by an operand dequantise first (R226, R239), with the side
words that `side` places; whether a malformed byte poisons the tile. Format errors and saturations count on `stream`.
`none` where a side word lies outside the read ranges. -/
def operandRows (s : State) (c id : Nat) (l : LessonRun) (stream : Nat) (f : Fmt) (conv : Option (Fmt × Fp)) (trans : Bool)
    (e : Nat) (side : Option (Nat → Nat)) (flat : Nat → Nat) (rows : List (List MByte)) :
    State × Option (List (List OpElem) × Bool) :=
  let sideAt : State → Nat → State × Option (Option (List CElem)) := fun s r => match side with
    | none => (s, some none)
    | some at_ => match rdSp s c l (at_ r) (4 * (e / f.blockLen)) with
      | (s, some d) => (s, some (some (elemsOf d)))
      | (s, none) => (s, none)
  let step := fun (q : State × Option (List (List OpElem) × Bool × Nat × Nat)) (x : List MByte × Nat) =>
    match q.2 with
    | none => q
    | some (acc, bad, errs, sat) =>
      match sideAt q.1 x.2 with
      | (s, none) => (s, none)
      | (s, some sd) =>
        let errs := errs + f.rowErrors (mbytes x.1) (sd.map (fun x => x.map Prod.fst)) e
        let bad := bad || f.rowPoisons (mbytes x.1) e
        match conv with
        | none => (s, some (acc ++ [opRow f (trans && f.scaled) x.1 sd e], bad, errs, sat))
        | some (o, scale) =>
          let (row, st) := convertRow f o scale (lseed l.desc) (flat x.2) x.1 sd e
          (s, some (acc ++ [opRow o (trans && o.scaled) row none e], bad, errs, sat + st))
  match rows.zipIdx.foldl step (s, some ([], false, 0, 0)) with
  | (s, none) => (s, none)
  | (s, some (out, bad, errs, sat)) => (saturate (formatErrors s c stream errs) c id (some stream) sat, some (out, bad))

/-- The operand rows of tile (m, n) of heavy stage i: element rows by output index, whether a malformed byte poisons the
tile; `none` when they lie outside the declared ranges (the Lesson has faulted). -/
def takeOperand (s : State) (c id i m n : Nat) (west : Bool) : State × Option (List (List OpElem) × Bool) :=
  match lessonAt s c id with
  | none => (s, none)
  | some l =>
    let g := stageAt l.stages i
    let h := hrec l.desc (heavyIdx l.stages i)
    let (cnt, e) := operandShape h west
    let trans := if west then h.wt else h.ntT
    let row0 := if west then m * h.mt else n * h.nt
    -- row-major flat index of a stored row's first element in the operand's tensor, and of its first block
    let wide := if west then g.tilesM * h.mt else g.tilesN * h.nt
    let flat := fun (r : Nat) => if trans then r * wide + row0 else (row0 + r) * e
    let finish := fun (q : State × Option (List (List OpElem) × Bool)) => match q with
      | (s, none) => (lessonFault s c id .scratchRange, none)
      | (s, some (rows, bad)) => (s, some (if trans then transposeRows rows e else rows, bad))
    let convOf := fun (j : Nat) => if (stageAt l.stages (j + 1)).kind = 2 && j + 1 < i then
        some ((stageAt l.stages (j + 1)).outFmt, f32 (bits ((stageAt l.stages (j + 1)).w 1) 0 32)) else none
    let sideOf := fun (on : Bool) (off bl : Nat) => if on then some (fun r => off + 4 * (flat r / bl)) else none
    match operandSrc l.stages i west with
    | .queue j =>
      let lg := stageAt l.stages j
      let f := lg.fmt
      let rb := f.rowBytes e
      let (s, bs) := takeQueue s c id (queueOf g.kind west) (cnt * rb)
      finish (operandRows s c id l lg.stream f (convOf j) trans e (sideOf lg.side (bits (lg.w 1) 0 24) f.blockLen) flat
        ((List.range cnt).map (fun r => mslice bs (r * rb) rb)))
    | .ring j =>
      match (s.core c).ring.find? (fun r => r.rep == lrep l.desc && r.layer == llayer l.desc) with
      | none => (lessonFault s c id .ringAbsent, none)
      | some r =>
        let f := (Fmt.ofCode? r.fmt).getD .qf4
        let rb := f.rowBytes e
        let base := 1024 * (s.ent .ringBaseRow (c / 8) + r.buf * s.ent .ringSliceRows (c / 8))
        -- a transposed slice holds a row of all its columns per K-step
        let at_ := fun (k : Nat) => base + (if trans then k * f.rowBytes wide + f.rowBytes row0 else (row0 + k) * rb)
        match (List.range cnt).foldl (fun (q : State × Option (List (List MByte))) k =>
            match q.2 with
            | none => q
            | some rows => match rdSp q.1 c l (at_ k) rb with
              | (s, some bs) => (s, some (rows ++ [bs]))
              | (s, none) => (s, none)) (s, some []) with
        | (s, none) => (lessonFault s c id .scratchRange, none)
        | (s, some rows) =>
          finish (operandRows s c id l r.stream f (if f.fourBit then convOf j else none) trans e
            (sideOf r.side (bits ((stageAt l.stages j).w 1) 0 24) f.blockLen) flat rows)
    | .region j =>
      let q := stageAt l.stages j
      let f := q.outFmt
      let sh := shapeAt l.desc l.stages j
      let rb := max 1 (bits (q.w 0) 13 8)
      let blk := regionRows l.desc l.stages j
      let o := bits (q.w 1) 0 24 + (m % rb) * (blk * f.rowBytes sh.rowWidth)
      match rdSp s c l o (cnt * f.rowBytes e) with
      | (s, none) => (lessonFault s c id .scratchRange, none)
      | (s, some bs) =>
        let side := if bit (q.w 0) 10 then
            some (fun r => bits (q.w 2) 0 24 + 4 * ((m * blk + r) * (sh.rowWidth / f.blockLen))) else none
        finish (operandRows s c id l q.stream f none trans e side flat
          ((List.range cnt).map (fun k => mslice bs (k * f.rowBytes e) (f.rowBytes e))))
    | .missing => (s, none)

/-- The start values of a tile (R133, R223): +0, the bias row, or the totals of a tile image. -/
def preloadOf (s : State) (c : Nat) (l : LessonRun) (i t n : Nat) : State × Option (Nat → Nat → CElem) :=
  let g := stageAt l.stages i
  let h := hrec l.desc (heavyIdx l.stages i)
  let off := bits (g.w 1) 0 24
  if h.preload = 0 || (h.um1 != 0 && h.unit != 0) then (s, some (fun _ _ => (0, false)))
  else if h.preload = 1 then
    match rdSp s c l (off + 4 * n * h.nt) (4 * h.nt) with
    | (s, none) => (s, none)
    | (s, some bs) =>
      let es := elemsOf bs
      (s, some (fun _ j => es.getD j (0, false)))
  else
    match rdSp s c l (off + 532480 * t) 524288 with
    | (s, none) => (s, none)
    | (s, some bs) =>
      (s, some (fun a b =>
        let (x, y) := foldCell h.mt h.nt 0 a b
        let w := mslice bs (8 * (256 * x + y)) 8
        (leNat (mbytes (w.drop 4)), w.any Prod.snd || bit (leNat (mbytes (w.take 4))) 7)))

end Sys2Proof.Machine
end

