-- ==== Sys2Proof/Machine/Walks.lean ====
section
/-!
DEFINITION. Walks of Lessons (R39, R57, R201, R249): translations through a core's Chart Walker, visible extents, and the
rows of a slot page as an engine decodes them.
-/

namespace Sys2Proof.Machine

open Sys2Proof

/-- What a translation gives: a leaf entry, a code that faults the Lesson, or a wait for an assisted walk. -/
inductive Trans where
  | entry (e : Nat)
  | fault (code : FC)
  | wait
  deriving DecidableEq, Repr

/-- A leaf entry enters the translation cache of a core: 2,048 entries, the oldest leaves (R39). -/
def tcInsert (s : State) (c : Nat) (t : TcLine) : State :=
  s.updCore c (fun k =>
    let l := k.tcache ++ [t]
    { k with tcache := l.drop (l.length - 2048) })

/-- The translation of chart page v of a sequence for a walk that captured an epoch (R39, R57, R94, R201). -/
def translate (s : State) (c id seq : Nat) (epoch : U32) (v : Nat) : State × Trans :=
  let d := s.desc seq
  if d.epoch != epoch then (s, .fault .chartEpoch)
  else
    match (s.core c).tcache.find? (fun t => t.seq == seq && t.epoch == epoch && t.page == v) with
    | some t => (s, .entry t.entry)
    | none =>
      let mode := s.ent .fnModeChartWalk
      let who : AssistFor := .walk c id seq epoch v
      if mode != 0 then
        if assistOpen s who then (s, .wait)
        else
          match raiseAssist s .chartWalk mode who (seq * 2 ^ 32 + epoch.toNat) v [] with
          | (.ok, s) => (forwardAssists s, .wait)
          | (code, s) => (s, .fault code)
      else
        match lookup s d.chartRoot d.chartDepth v with
        | (.ok, e) =>
          if !eValid e then (s, .fault .slotUnmapped)
          else (tcInsert s c { seq := seq, epoch := epoch, page := v, entry := e }, .entry e)
        | (code, _) => (s, .fault code)

/-- Global address of the frame that a leaf entry names (R201). -/
def frameGlobal (s : State) (e : Nat) : Nat := (if eRemote e then eNode e else s.form.node.toNat) * 2 ^ 48 + eFrame e

/-- Whether a sequence is placed in the current step. -/
def placedNow (s : State) (seq : Nat) : Bool := s.sched.running && s.sched.batch.any (fun p => p.seq == seq)

/-- The visible extent of a walk (R42, R249): the own-step extent, or COMMITTED_LEN.
DEDUCED (notes/assumptions/57.md). -/
def extentOf (s : State) (seq : Nat) (own : Bool) : Nat :=
  let d := s.desc seq
  if own && placedNow s seq then d.committedLen + d.appendLen + d.draftLen else d.committedLen

/-- A read of a page at a global address; `via` is the cluster whose Commons serves it, for a local page whose entry has
SHARED = 1 (R189). -/
def fetchPage (s : State) (fs : List Fetched) (via : Option Nat) (a n : Nat) : State × FC × List Byte × List Bool :=
  match via with
  | some k =>
    let o := a % 2 ^ 48
    if !isLocal s (a / 2 ^ 48) || mapCheck s o n != .ok || o ≥ hbmEnd then fetchGlobal s fs a n
    else
      let (s, d, m, code) := commonsRead s k o n
      (s, code, d, m)
  | none => fetchGlobal s fs a n

/-- The n K (or V) elements from element `first` on of a slot of a page at a global address: their bytes and the bytes of
their side words (Table 2-5), counted as lines of core c's page stream. -/
def pageRow (s : State) (c : Nat) (fs : List Fetched) (via : Option Nat) (l : Layout) (base q j first n : Nat) (v : Bool) :
    State × FC × List MByte × List MByte :=
  let a := base + l.rowOff q j v + l.format.rowBytes first
  let (s, code, bs, marks) := fetchPage s fs via a (l.format.rowBytes n)
  let row := withMarks a bs marks
  let s := if code = .ok then noteLines s c (a % 2 ^ 48) row else s
  if code != .ok || !l.outlier then (s, code, row, [])
  else
    let b := base + l.sideOff q j v + 4 * (first / 32)
    let (s, code, bs, marks) := fetchPage s fs via b (4 * (n / 32))
    let side := withMarks b bs marks
    (if code = .ok then noteLines s c (b % 2 ^ 48) side else s, code, row, side)

/-- Those elements of every slot, slot by slot, and the side words. -/
def pageSlots (s : State) (c : Nat) (fs : List Fetched) (via : Option Nat) (l : Layout) (base q first n : Nat) (v : Bool) :
    State × FC × List MByte × List MByte :=
  (List.range 256).foldl (fun (acc : State × FC × List MByte × List MByte) j =>
    if acc.2.1 != .ok then acc
    else
      let (s, code, row, side) := pageRow acc.1 c fs via l base q j first n v
      (s, code, acc.2.2.1 ++ row, acc.2.2.2 ++ side)) (s, .ok, [], [])

/-- An element with the per-page scale applied after its block scale (R33): a scale of 1.0 changes nothing, another one
gives the product rounded to binary32, or to the internal element of R127 across blocks. -/
def pageScaled (ps : Nat) (across : Bool) (e : OpElem) : OpElem :=
  if ps = 0x3F800000 then e
  else
    let x := mul32 e.full (f32 ps)
    let y := if across then e8m3 x else x
    { e with v := y, full := x, sigma := 0, side := false, nan := y == .nan }

/-- The bytes of the metadata rows of a page. -/
def pageMeta (s : State) (c : Nat) (fs : List Fetched) (via : Option Nat) (base : Nat) : State × FC × List MByte :=
  let (s, code, bs, marks) := fetchPage s fs via (base + 0x100) 4096
  let d := withMarks (base + 0x100) bs marks
  (if code = .ok then noteLines s c ((base + 0x100) % 2 ^ 48) d else s, code, d)

/-- Metadata rows: row value and mark for each slot. -/
def metaRows (bs : List MByte) : List (Nat × Bool) :=
  (List.range 256).map (fun j =>
    let r := mslice bs (16 * j) 16
    (leNat (mbytes r), r.any Prod.snd))

/-- POS_TAG of a metadata row (Table 2-4). -/
def posTag (m : Nat) : Nat := bits m 80 48

end Sys2Proof.Machine
end

