-- ==== Sys2Proof/Machine/Attend.lean ====
section
/-!
DEFINITION. Attend and the attention gradient (chapter 10, R284 to R286): page lists, masks, the reference order of R256
step by step, the drain, splitting, importance and page selection.
-/

namespace Sys2Proof.Machine

open Sys2Proof

/-! ## What an Attend is to do -/

/-- The fields of an Attend or attention gradient, from its records. -/
structure AttCfg where
  grad : Bool
  alpha : Nat
  pfmt : Fmt
  plane : Nat
  head0 : Nat
  hcount : Nat
  win : Nat
  mask : MaskRec
  imp : Bool
  select : Bool
  recent : Nat
  selPages : Nat
  splitMode : Nat
  idx : Nat
  um1 : Nat
  cctr : Nat
  caddr : Nat
  d : Nat
  ms : Nat
  mg : Nat
  nt : Nat
  qpk : Nat
  deriving DecidableEq, Repr

/-- Format of a probability tile (Table 10-6). -/
def pfmtOf (v : Nat) : Fmt := if v = 2 then .bf16 else .mxfp8e4m3

/-- The fields of Lesson l on core c. -/
def attCfg (s : State) (c : Nat) (l : LessonRun) : AttCfg :=
  let h0 := hrec l.desc 0
  let h1 := hrec l.desc 1
  let q := mapQpk s c (rowmapOff l.desc)
  if isBackward l.desc then
    let w := auxWord s c l.desc
    { grad := true, alpha := bits (w 0) 0 32, pfmt := pfmtOf (bits (w 3) 17 5), plane := bits (w 1) 52 12,
      head0 := bits (w 0) 56 8, hcount := 1, win := 1, mask := auxMask s c l.desc, imp := false, select := false,
      recent := 0, selPages := 0, splitMode := 0, idx := 0, um1 := 0, cctr := 0, caddr := 0, d := h1.nt,
      ms := h0.mt / 2, mg := h1.mt, nt := 256, qpk := q }
  else
    let so := softOf (stageAt l.stages (placeOf l.stages 7))
    { grad := false, alpha := so.alpha, pfmt := pfmtOf so.pfmt, plane := so.plane, head0 := so.head0,
      hcount := so.hcount, win := so.win, mask := maskOf (stageAt l.stages (placeOf l.stages 6)), imp := so.imp,
      select := so.select, recent := so.recent, selPages := so.selPages, splitMode := so.splitMode, idx := so.idx,
      um1 := if so.splitMode = 0 then 0 else so.um1, cctr := so.cctr, caddr := so.caddr, d := h0.k, ms := h0.mt,
      mg := h1.mt, nt := h0.nt, qpk := q }

/-- Chart page of slot page sp for plane z (R31). -/
def chartPage (l : Layout) (sp z : Nat) : Nat := sp * l.pg + z / l.perPage

/-- The page list of an entry before selection (R250, R260), with the number the causal rule drops. -/
def pageList (s : State) (lay : Layout) (q : AttCfg) (e : AttEntry) : List Nat × Nat :=
  let np := ceilDiv e.extent 256
  let share := fun (k : Nat) =>
    if q.splitMode = 1 then
      let u := q.um1 + 1
      let p := fun (i : Nat) => i * (np / u) + min i (np % u)
      p q.idx ≤ k && k < p (q.idx + 1)
    else if q.splitMode = 2 then
      let d := s.desc e.seq
      let (code, x) := lookup s d.chartRoot d.chartDepth (chartPage lay k q.plane)
      code != .ok || !eValid x || !eRemote x || eNode x = s.form.node.toNat
    else true
  let keep := fun (k : Nat) => !(q.mask.causal && 256 * k > e.qpos + e.ntok - 1 && 256 * k ≥ q.mask.pre)
  let all := (List.range np).filter share
  (all.filter keep, (all.filter (fun k => !keep k)).length)

/-- A list cut into pieces of n. -/
def chunksOf {α : Type} (fuel n : Nat) (l : List α) : List (List α) :=
  match fuel with
  | 0 => []
  | f + 1 => if l.isEmpty then [] else l.take n :: chunksOf f n (l.drop n)

/-- The steps of one entry in the order of R250; an attention gradient walks its pages for the statistics, then again
(R285). -/
def entrySteps (q : AttCfg) (ei : Nat) (pages : List Nat) : List AttStep :=
  let per := if q.nt = 512 then 2 else 1
  if q.grad then
    pages.map (fun k => { entry := ei, head := q.head0, pages := [k], stats := true }) ++
      pages.map (fun k => { entry := ei, head := q.head0, pages := [k] })
  else
    (chunksOf pages.length q.win pages).flatMap (fun w =>
      (List.range q.hcount).flatMap (fun h =>
        (chunksOf w.length per w).map (fun ks => { entry := ei, head := q.head0 + h, pages := ks })))

/-- The run of an Attend as it starts: walks launched, extents fixed, lists built (R249, R250). -/
def attStart (s : State) (c id : Nat) (l : LessonRun) : State × AttRun :=
  let q := attCfg s c l
  let es := mapEntries s c (rowmapOff l.desc)
  match lessonLayout s l.desc with
  | none => (s, { entries := es, steps := [] })
  | some lay =>
    let (s, es, _) := es.foldl (fun (acc : State × List AttEntry × Nat) e =>
      let (s, done, n) := acc
      let e := { e with epoch := (s.desc e.seq).epoch, extent := extentOf s e.seq (!q.grad) }
      let s := walkBegin s e.seq (.lesson c id)
      let (ps, skipped) := pageList s lay q e
      let s := if skipped = 0 then s else s.bump .attPagesSkipped c 0 skipped
      (s, done ++ [{ e with pages := ps }], n + 1)) (s, [], 0)
    let steps := es.zipIdx.flatMap (fun p =>
      if q.select then [({ entry := p.2, head := q.head0, pages := [], select := true } : AttStep)]
      else entrySteps q p.2 p.1.pages)
    let (s, dv) := if q.grad then
        (match rdSp s c l (bits (auxWord s c l.desc 0) 32 24) (4 * q.mg) with
          | (s, some d) => (s, elemsOf d)
          | (s, none) => (s, []))
      else (s, [])
    -- a walk with nothing to read ends at once
    let s := es.foldl (fun s e => if e.pages.isEmpty then walkEnd s e.seq (.lesson c id) else s) s
    (s, { entries := es, steps := steps, dvals := dv })

/-! ## Operands of a page -/

/-- EXP_A of R256. -/
def expA (tab : List Byte) (alpha : Nat) (a b : Fp) : Fp := sfuNative tab 2 (some (f32 alpha)) (sub32 a b)

/-- Rotation of K: pair mode, turn fractions, table, ROT_FMT. -/
abbrev RotCfg := Option (Bool × List Nat × Option (List Byte) × Fmt)

/-- ROT_FMT as it acts: QF4 is MXFP8-E4M3 in an escalated layer (R268). -/
def rotFmt (l : LessonRun) (g : Stage) : Fmt :=
  match bits (g.w 0) 16 5 with
  | 0xB => if l.escalated then .mxfp8e4m3 else .qf4
  | 2 => .bf16
  | _ => .mxfp8e4m3

/-- Rotation of the K rows of a Lesson; `none` in the answer where a table lies outside the read ranges. -/
def rotCfg (s : State) (c : Nat) (l : LessonRun) : State × Option RotCfg :=
  match l.stages.find? (fun g => g.kind == 3) with
  | none => (s, some none)
  | some g =>
    match rotaryParams s c l g with
    | (s, none) => (s, none)
    | (s, some (half, fr, tab)) => (s, some (some (half, fr, tab, rotFmt l g)))

/-- The K row of one slot and head as it enters the S-array (R244, R253): rotated by its tag and quantised, or as
stored; `bs` is the row as bytes of the entering format. -/
def kRow (lay : Layout) (rot : RotCfg) (ps pos d : Nat) (row : List MByte) (sides : Option (List (Nat × Bool))) :
    Fmt × List MByte × Option (List (Nat × Bool)) × Nat :=
  match rot with
  | none => (lay.format, row, sides, ps)
  | some (half, fr, tab, f) =>
    let xs := (opRow lay.format false row sides d).map (fun e => (toF32 (mul32 e.full (f32 ps)), e.poison))
    let ys := rotateHead tab fr half false pos xs
    let (bs, _, _) := f.quantiseRow false false 0 0 (ys.map (fun e => f32 e.1))
    let pb := fun (b : Nat) => ((ys.drop (b * f.blockLen)).take f.blockLen).any Prod.snd
    (f, bs.zipIdx.map (fun p => (p.1, pb (p.2 / f.blockBytes))), none, 0x3F800000)

/-- Saturations of a rotated row's quantisation (R268). -/
def kRowSat (lay : Layout) (rot : RotCfg) (ps pos d : Nat) (row : List MByte) (sides : Option (List (Nat × Bool))) : Nat :=
  match rot with
  | none => 0
  | some (half, fr, tab, f) =>
    let xs := (opRow lay.format false row sides d).map (fun e => (toF32 (mul32 e.full (f32 ps)), e.poison))
    (f.quantiseRow false false 0 0 ((rotateHead tab fr half false pos xs).map (fun e => f32 e.1))).2.2

/-- What one page gives a head: metadata rows, K operand columns, V operand rows, saturations of the rotation, format errors. -/
structure PageOps where
  sp : Nat
  info : List (Nat × Bool)
  kCols : List (List OpElem)
  kAcross : List (List OpElem)
  vCols : List (List OpElem)
  vRows : List (List OpElem)
  kf : Fmt
  sat : Nat
  errs : Nat
  entry : Nat
  base : Nat
  deriving DecidableEq, Repr

/-- The page buffers of an Attend (R248, R284): page places of each ring, rows of the slots' part of a place, first rows of
the K ring and of the V ring. -/
structure PageBuf where
  places : Nat
  rows : Nat
  k : Nat
  v : Nat
  deriving DecidableEq, Repr

/-- Bytes of the side words of one head's row: 4 per 32 elements where the overlay has OUTLIER. -/
def sideBytes (lay : Layout) (d : Nat) : Nat := if lay.outlier then 4 * d / 32 else 0

/-- Where the page buffers of a Lesson lie: in an attention gradient the V ring follows the K ring.
DESIGN CHOICE (notes/assumptions/98.md). -/
def pageBuf (s : State) (c : Nat) (l : LessonRun) (lay : Layout) (q : AttCfg) : PageBuf :=
  let rows := ceilDiv (q.hcount * 256 * (lay.format.rowBytes q.d + sideBytes lay q.d)) 1024
  let n := 2 * q.win
  if q.grad then
    let b := bits (auxWord s c l.desc 3) 0 14
    { places := n, rows := rows, k := b, v := b + n * (4 + rows) }
  else
    let at_ := fun (i : Nat) => bits ((((l.stages.filter (fun g => g.kind == 1))[i]?).map (fun g => g.w 2)).getD 0) 0 14
    { places := n, rows := rows, k := at_ 1, v := at_ 2 }

/-- The offsets of place i of both rings: the metadata rows, the K rows, the V rows. -/
def PageBuf.at_ (b : PageBuf) (i : Nat) : Nat × Nat × Nat :=
  let k := 1024 * (b.k + (i % max 1 b.places) * (4 + b.rows))
  (k, k + 4096, 1024 * (b.v + (i % max 1 b.places) * b.rows))

/-- The page streams bring a page into its place: the metadata rows; K of the Lesson's heads slot by slot, then the side words;
V likewise. The code is that of a refused read, or FC_SCRATCH_RANGE.
DESIGN CHOICE (notes/assumptions/98.md). -/
def bufferPage (s : State) (c : Nat) (l : LessonRun) (lay : Layout) (q : AttCfg) (x base place : Nat) : State × FC :=
  let via := if eShared x then some (c / 8) else none
  let pa := q.plane % lay.perPage
  let first := q.head0 * q.d
  let n := q.hcount * q.d
  let (m, ka, va) := (pageBuf s c l lay q).at_ place
  let (s, c1, info) := pageMeta s c l.fetched via base
  let (s, c2, kr, ks) := pageSlots s c l.fetched via lay base pa first n false
  let (s, c3, vr, vs) := pageSlots s c l.fetched via lay base pa first n true
  match [c1, c2, c3].find? (fun c => c != .ok) with
  | some code => (s, code)
  | none =>
    let s := if eRemote x then s else countHbm s c l (base % 2 ^ 48) (4096 + kr.length + ks.length + vr.length + vs.length)
    match wrSp s c l m info with
    | none => (s, .scratchRange)
    | some s =>
      match wrSp s c l ka (kr ++ ks) with
      | none => (s, .scratchRange)
      | some s =>
        match wrSp s c l va (vr ++ vs) with
        | none => (s, .scratchRange)
        | some s => (s, .ok)

/-- The 256 pieces of n bytes that lie `stride` bytes apart in the scratchpad. -/
def rdPieces (s : State) (c : Nat) (l : LessonRun) (a stride n : Nat) : State × Option (List (List MByte)) :=
  (List.range 256).foldl (fun (q : State × Option (List (List MByte))) j =>
    match q.2 with
    | none => q
    | some rows =>
      match rdSp q.1 c l (a + j * stride) n with
      | (s, some d) => (s, some (rows ++ [d]))
      | (s, none) => (s, none)) (s, some [])

/-- The rows of head index h of a place with their side words; `none` outside the read ranges. -/
def placeRows (s : State) (c : Nat) (l : LessonRun) (lay : Layout) (q : AttCfg) (a h : Nat) :
    State × Option (List (List MByte × Option (List (Nat × Bool)))) :=
  let rb := lay.format.rowBytes q.d
  let sb := sideBytes lay q.d
  match rdPieces s c l (a + h * rb) (q.hcount * rb) rb with
  | (s, none) => (s, none)
  | (s, some rows) =>
    if !lay.outlier then (s, some (rows.map (fun r => (r, none))))
    else
      match rdPieces s c l (a + 256 * q.hcount * rb + h * sb) (q.hcount * sb) sb with
      | (s, none) => (s, none)
      | (s, some sides) => (s, some (rows.zip (sides.map (fun d => some (elemsOf d)))))

/-- What the walk of a page gives: its operands, a wait for an assisted translation, or a code that faults the Lesson, with
whether it came from a read of a remote page. -/
inductive PageRes where
  | ops (p : PageOps)
  | wait
  | fault (code : FC) (remote : Bool)
  deriving DecidableEq, Repr

/-- Slot page sp of an entry for one head: translation, header scales, the page streams at the Lesson's first head, then the
metadata and the K and V rows of the head from the page buffers. -/
def pageOps (s : State) (c id : Nat) (l : LessonRun) (lay : Layout) (q : AttCfg) (rot : RotCfg) (e : AttEntry)
    (sp head : Nat) : State × PageRes :=
  match translate s c id e.seq e.epoch (chartPage lay sp q.plane) with
  | (s, .wait) => (s, .wait)
  | (s, .fault code) => (s, .fault code false)
  | (s, .entry x) =>
    let base := frameGlobal s x
    let place := e.pages.findIdx (fun k => k == sp)
    let (s, c0, hdr, hm) := fetchGlobal s l.fetched (base + 0x10 + 8 * (q.plane % lay.perPage)) 8
    if c0 != .ok then (s, .fault c0 (eRemote x))
    else
      match if head = q.head0 then bufferPage s c l lay q x base place else (s, .ok) with
      | (s, .ok) =>
        let (m, ka, va) := (pageBuf s c l lay q).at_ place
        match rdSp s c l m 4096 with
        | (s, none) => (s, .fault .scratchRange false)
        | (s, some md) =>
          match placeRows s c l lay q ka (head - q.head0) with
          | (s, none) => (s, .fault .scratchRange false)
          | (s, some kr) =>
            match placeRows s c l lay q va (head - q.head0) with
            | (s, none) => (s, .fault .scratchRange false)
            | (s, some vr) =>
              let hp := hm.any (fun b => b)
              let marked := fun (r : List MByte) => if hp then r.map (fun b => (b.1, true)) else r
              let info := metaRows md
              let ks := fieldAt hdr 0 4
              let vs := fieldAt hdr 4 4
              let tag := fun (j : Nat) => posTag (info.getD j (0, false)).1
              let kk := kr.zipIdx.map (fun p => kRow lay rot ks (tag p.2) q.d (marked p.1.1) p.1.2)
              let kf := (kk.head?.map (fun k => k.1)).getD lay.format
              let sat := kr.zipIdx.foldl (fun a p => a + kRowSat lay rot ks (tag p.2) q.d p.1.1 p.1.2) 0
              let vf := lay.format
              let errs := (kr ++ vr).foldl (fun a p =>
                a + vf.rowErrors (mbytes p.1) (p.2.map (fun x => x.map Prod.fst)) q.d) 0
              (s, .ops {
                sp := sp, info := info, kf := kf, sat := sat, errs := errs, entry := x, base := base,
                kCols := kk.map (fun k => (opRow k.1 false k.2.1 k.2.2.1 q.d).map (pageScaled k.2.2.2 false)),
                kAcross := kk.map (fun k =>
                  (opRow k.1 k.1.scaled k.2.1 k.2.2.1 q.d).map (pageScaled k.2.2.2 k.1.scaled)),
                vCols := vr.map (fun r => (opRow vf false (marked r.1) r.2 q.d).map (pageScaled vs false)),
                vRows := vr.map (fun r => (opRow vf vf.scaled (marked r.1) r.2 q.d).map (pageScaled vs vf.scaled)) })
      | (s, code) => (s, .fault code (eRemote x && code != .scratchRange))

/-! ## Masks (R254) -/

/-- The bitmap bit of a position: masked, with the code of a refused read. -/
def bitmapBit (s : State) (fs : List Fetched) (e : AttEntry) (k : Nat) : FC × Bool × Bool :=
  let (_, code, bs, marks) := fetchGlobal s fs (e.bitmap + k / 8) 1
  (code, bit (leNat bs) (k % 8), marks.any id)

/-- Whether slot j of page sp is visible to a query position, and whether a marked bitmap byte decided it. -/
def visibleSlot (s : State) (fs : List Fetched) (q : AttCfg) (e : AttEntry) (sp j qp : Nat) (m : Nat × Bool) : Bool × Bool :=
  let k := posTag m.1
  let base := 256 * sp + j < e.extent && bit m.1 0 && !m.2 &&
    (!q.mask.causal || k ≤ qp || k < q.mask.pre) &&
    (q.mask.window = 0 || k < q.mask.sink || qp < k || qp - k < q.mask.window)
  if !base || !q.mask.bitmap || k ≥ e.bitmapLen then (base, false)
  else
    let (_, b, p) := bitmapBit s fs e k
    (!b, p)

/-- The first code with which a bitmap read of a page is refused at its owner (R254). -/
def bitmapCode (s : State) (fs : List Fetched) (q : AttCfg) (e : AttEntry) (info : List (Nat × Bool)) : FC :=
  if !q.mask.bitmap || e.bitmap = 0 then .ok
  else
    (info.filterMap (fun m =>
      if bit m.1 0 && posTag m.1 < e.bitmapLen then some (bitmapBit s fs e (posTag m.1)).1 else none)).find?
        (fun c => c != .ok) |>.getD .ok

/-! ## One step of the reference (R256, R285) -/

/-- Rows of Q (or [Q | dO]) from the feeder queue as operand elements, with the format they enter in; `flat r` is the flat index
of row r's first element in the Q tensor. A malformed byte poisons the rows that come together; `none` where a side word lies
outside the read ranges. -/
def takeQ (s : State) (c id : Nat) (l : LessonRun) (flat : Nat → Nat) (rows elems : Nat) :
    State × Option (List (List OpElem) × Fmt) :=
  let g := stageAt l.stages 0
  let f := g.fmt
  let rb := f.rowBytes elems
  let (s, bs) := takeQueue s c id 1 (rows * rb)
  let dq := stageAt l.stages 1
  let conv := if dq.kind = 2 then some (dq.outFmt, f32 (bits (dq.w 1) 0 32)) else none
  let side := if g.side then some (fun r => bits (g.w 1) 0 24 + 4 * (flat r / f.blockLen)) else none
  match operandRows s c id l g.stream f conv false elems side flat ((List.range rows).map (fun r => mslice bs (r * rb) rb)) with
  | (s, none) => (s, none)
  | (s, some (out, bad)) =>
    (s, some (if bad then out.map (fun w => w.map (fun e => { e with poison := true })) else out,
      (conv.map Prod.fst).getD f))

/-- The flat index in the Q tensor of the first element of row i of an entry for a head of the Lesson: the heads one after
another, each with the rows of the group.
DEDUCED (notes/assumptions/88.md). -/
def qFlat (q : AttCfg) (e : AttEntry) (elems head i : Nat) : Nat := ((head - q.head0) * q.mg + e.first + i) * elems

/-- Bytes of Q that a step takes from the feeder queue. -/
def qNeed (l : LessonRun) (rows elems : Nat) : Nat := rows * (stageAt l.stages 0).fmt.rowBytes elems

/-- The chunk arithmetic of the S tile of an Attend. -/
def scoreOp (qf kf vf : Fmt) (grad : Bool) : CellOp :=
  let a := chunkClass qf kf false
  let b := chunkClass qf vf false
  let (len, exact) := if grad && b.1 < a.1 then b else a
  { len := len, exact := exact }

/-- The chunk arithmetic of the V tile: probabilities, or dS, against rows entering by K-step (R244, R284). -/
def valueOp (pf vf : Fmt) : CellOp :=
  let (len, exact) := chunkClass pf vf vf.scaled
  { len := len, exact := exact }

/-- A page's contribution to the partition totals of one row (R256, v_accumulate): west elements over the 256 slots,
north rows by slot; `tot` lists each partition's d totals. -/
def vAccumulate (o : CellOp) (ks d : Nat) (west : List OpElem) (north : List (List OpElem)) (tot : List (List CElem)) :
    List (List CElem) :=
  let nc := ceilDiv 256 o.len
  (List.range ks).map (fun p =>
    let old := tot.getD p (List.replicate d (0, false))
    (List.range d).map (fun i =>
      let st : CellSt := { total := (old.getD i (0, false)).1, poison := (old.getD i (0, false)).2 }
      let b := north.filterMap (fun r => r[i]?)
      let r := (partChunks ks p 0 nc).foldl (cellChunk o west b) st
      (r.total, r.poison)))

/-- A row's totals after the drain of R133. -/
def vDrain (ks d : Nat) (tot : List (List CElem)) : List CElem :=
  (List.range d).map (fun i =>
    let at_ := fun (p : Nat) => ((tot.getD p []).getD i (0, false))
    match ks with
    | 1 => at_ 0
    | 2 => op2 add32 (at_ 0) (at_ 1)
    | _ => op2 add32 (op2 add32 (at_ 0) (at_ 1)) (op2 add32 (at_ 2) (at_ 3)))

/-- What one row does with one page in the reference: its new state, the decoded probabilities, whether it rescaled. -/
structure RowOut where
  row : AttRow
  probs : Option (List Fp)
  rescaled : Bool := false
  sat : Nat := 0
  deriving DecidableEq, Repr

/-- The page step of R256 for one row; `vals` is absent in a statistics walk. -/
def rowStep (tab : List Byte) (alpha : Nat) (pf : Fmt) (o : CellOp) (ks d : Nat) (vals : Option (List (List OpElem)))
    (scores : List CElem) (vis : List (Bool × Bool)) (metaBad : Bool) (a : AttRow) : RowOut :=
  let ninf := Fp.inf true
  let ss := (scores.zip vis).map (fun p => if p.2.1 then f32 p.1.1 else ninf)
  let bad := metaBad || ((scores.zip vis).any (fun p => (p.2.1 && p.1.2) || p.2.2))
  let m := f32 a.m
  let mn := ss.foldl Fp.max m
  let a := { a with poison := a.poison || bad }
  if mn == ninf then { row := a, probs := none }
  else
    let c := if m == ninf then Fp.zero else expA tab alpha m mn
    let ps := ss.map (fun x => if x == ninf then Fp.zero else expA tab alpha x mn)
    let (bs, _, sat) := pf.quantiseRow false false 0 0 ps
    let mb : List MByte := bs.map (fun b => (b, false))
    let west := opRow pf false mb none 256
    let dec := west.map (fun e => e.full)
    let l := add32 (mul32 (f32 a.l) c) (treeSum 8 dec)
    let resc := m != ninf && !(mn.eqv m)
    let tot := match vals with
      | none => a.tot
      | some v =>
        let t := if resc then a.tot.map (fun p => p.map (fun e => (rescale c e.1, e.2))) else a.tot
        vAccumulate o ks d west v t
    { row := { a with m := toF32 mn, l := toF32 l, tot := tot }, probs := some dec, rescaled := resc, sat := sat }

/-- The gradient step of R285 for one row: dS quantised and accumulated against the K rows.
DEDUCED (notes/assumptions/61.md). -/
def gradRow (tab : List Byte) (q : AttCfg) (df : Fmt) (seed base : Nat) (o : CellOp) (ks : Nat) (k : List (List OpElem))
    (scores dps : List CElem) (vis : List (Bool × Bool)) (dv : CElem) (metaBad : Bool) (a : AttRow) : AttRow × Nat :=
  let m := f32 a.m
  if m == .inf true then ({ a with poison := a.poison || metaBad }, 0)
  else
    let rl := sfuNative tab 4 none (f32 a.l)
    let ds := ((scores.zip dps).zip vis).map (fun p =>
      if !p.2.1 then Fp.zero
      else
        let pr := mul32 (expA tab q.alpha (f32 p.1.1.1) m) rl
        mul32 (mul32 pr (sub32 (f32 p.1.2.1) (f32 dv.1))) (f32 q.alpha))
    let bad := metaBad || dv.2 || ((scores.zip dps).zip vis).any (fun p => (p.2.1 && (p.1.1.2 || p.1.2.2)) || p.2.2)
    let (bs, _, sat) := df.quantiseRow false true seed base ds
    let west := opRow df false (bs.map (fun b => (b, false))) none 256
    ({ a with tot := vAccumulate o ks q.d west k a.tot, poison := a.poison || bad }, sat)

/-! ## Importance (R263 to R265) -/

/-- Table 10-8. -/
def impTable : List Nat :=
  [1024, 961, 901, 844, 790, 738, 689, 642, 599, 557, 518, 481, 447, 414, 384, 356, 329, 304, 281, 260, 240, 221, 204,
   188, 174, 160, 147, 135, 125, 115, 105, 97] ++
  [89, 82, 75, 69, 63, 58, 53, 49, 45, 41, 38, 35, 32, 29, 27, 24, 22, 21, 19, 17, 16, 14, 13, 12, 11, 10, 9, 8, 8, 7, 6,
   6]

/-- The log-domain add of R64 and R264. -/
def impAdd (a b : Nat) : Nat :=
  let dl := max a b - min a b
  min 0xFFFF (max a b + (if dl < 8192 then impTable.getD (dl / 128) 0 else 0))

/-- The counter value of a mass (R263). -/
def impValue (tab : List Byte) (v : Fp) : Nat :=
  if v.isZero then 0
  else
    match sfuNative tab 1 none v with
    | .fin sg m e =>
      let r := (0x8000 : Int) + floorAt sg m e 10
      if r < 1 then 0 else min 0xFFFF r.toNat
    | .inf sg => if sg then 0 else 0xFFFF
    | .nan => 0

/-- The masses of a page are added to the IMPORTANCE fields of its frame (R264). -/
def applyMass (s : State) (c : Nat) (tab : List Byte) (e : AttEntry) (p : PageOps) (mass : FMap (Nat × Bool)) : State :=
  if eShared p.entry || eRemote p.entry then s
  else
    let a := eFrame p.entry
    let (s, any) := (List.range 256).foldl (fun (acc : State × Bool) j =>
      let (s, any) := acc
      let (w, bad) := Map.get mass (256 * p.sp + j) (0, false)
      let m := metaRow s a j
      if !(256 * p.sp + j < e.extent && bit m 0) then acc
      else if bad || f32 w == .nan then (s.bump .attImpDrops c, any)
      else
        let b := impValue tab (f32 w)
        if b = 0 then acc
        else (s.write (a + 0x100 + 16 * j + 8) (natLe 2 (impAdd (bits m 64 16) b)), true)) (s, false)
    if any then s.bump .attImpUpdates c else s

/-! ## Checks of a drained tile (R141, R142) -/

/-- Whether the checks run on array 0 (S) or 1 (V) of a core: in MAC mode while ARR_CKSUM_ENABLE is 1. -/
def checksOn (s : State) (c a mode : Nat) : Bool := mode = 0 && s.ent (if a = 0 then .sCksumEnable else .vCksumEnable) c = 1

/-- ARR_CKSUM_TOL of an array. -/
def checkTol (s : State) (c a : Nat) : Nat := s.ent (if a = 0 then .sCksumTol else .vCksumTol) c

/-- Each failing row or column raises FC_ARRAY_CHECKSUM with core, array and quadrant and counts in ARR_CKSUM_FAULTS (R142).
-/
def reportChecks (s : State) (c a : Nat) (quads : List Nat) : State :=
  quads.foldl (fun s q =>
    (s.raise .arrayChecksum 1 c (256 * a + q)).bump (if a = 0 then .sCksumFaults else .vCksumFaults) c) s

/-- The quadrants in which a fault of the array itself makes a check fail.
DESIGN CHOICE (notes/assumptions/79.md). -/
def badQuads (bad : BitVec 4) : List Nat := (List.range 4).filter (fun q => bit bad.toNat q)

/-- The checks of a drained tile: its own, and those that a fault of the array makes fail; whether the tile is marked. -/
def checksum (s : State) (c a mode : Nat) (own : List Nat) (bad : BitVec 4) : State × Bool :=
  if !checksOn s c a mode then (s, false)
  else
    let quads := own ++ badQuads bad
    (reportChecks s c a quads, !quads.isEmpty)

/-! ## Running a step -/

/-- The Attend state of a Lesson changed. -/
def updAtt (s : State) (c id : Nat) (f : AttRun → AttRun) : State :=
  updLesson s c id (fun l => { l with att := l.att.map f })

/-- The page order is stepped past its first step; an entry whose last page has been read ends its walk (R249). -/
def attAdvance (s : State) (c id : Nat) (r : AttRun) : State :=
  match r.steps with
  | [] => s
  | st :: rest =>
    let s := updAtt s c id (fun r => { r with steps := rest })
    if rest.any (fun t => t.entry == st.entry) then s
    else match r.entries[st.entry]? with
      | some e => walkEnd s e.seq (.lesson c id)
      | none => s

/-- The probabilities of a page, added to the masses of its slots: heads in order, rows in order (R263). -/
def addMass (tab : List Byte) (sp : Nat) (outs : List RowOut) (mass : FMap (Nat × Bool)) : FMap (Nat × Bool) :=
  outs.foldl (fun m o =>
    match o.probs with
    | none => m
    | some ps =>
      let rl := sfuNative tab 4 none (f32 o.row.l)
      ps.zipIdx.foldl (fun m p =>
        Map.upd m (256 * sp + p.2) (0, false) (fun w =>
          (toF32 (add32 (f32 w.1) (mul32 p.1 rl)), w.2 || o.row.poison))) m) mass

/-- The west row of row i's scores: its Q row, in an attention gradient as [Q, 0]. -/
def scoreRow (q : AttCfg) (west : List (List OpElem)) (i : Nat) : List OpElem :=
  let w := west.getD i []
  if q.grad then w.take q.d ++ List.replicate q.d { v := Fp.zero, full := Fp.zero } else w

/-- The west row of row i's dP: [0, dO]. -/
def dpRow (q : AttCfg) (west : List (List OpElem)) (i : Nat) : List OpElem :=
  List.replicate q.d { v := Fp.zero, full := Fp.zero } ++ (west.getD i []).drop q.d

/-- The north columns that a page gives the S tile: K rows, in an attention gradient K above V. -/
def PageOps.cols (p : PageOps) (q : AttCfg) : List (List OpElem) :=
  if q.grad then (p.kCols.zip p.vCols).map (fun x => x.1 ++ x.2) else p.kCols

/-- The S tile of a step as its checks see it (R141). -/
def attTileRun (l : LessonRun) (q : AttCfg) (qf : Fmt) (rows : Nat) (west : List (List OpElem)) (ops : List PageOps) : TileRun :=
  let vf := (ops.head?.map (fun p => p.kf)).getD .qf4
  let h := hrec l.desc 0
  let so := scoreOp qf vf vf q.grad
  let top := (List.range rows).map (scoreRow q west)
  { o := so, mt := h.mt, nt := h.nt, ks := (foldKs h.mt h.nt).getD 1, lo := 0, hi := ceilDiv h.k (max 1 so.len), k := h.k,
    west := if q.grad then top ++ List.replicate (q.ms - rows) [] ++ (List.range rows).map (dpRow q west) else top,
    north := ops.flatMap (fun p => p.cols q), pre := fun _ _ => (0, false) }

/-- One page of one head in an Attend: every row of the entry steps, importance follows the last head. -/
def attPage (s : State) (c id : Nat) (l : LessonRun) (q : AttCfg) (e : AttEntry) (st : AttStep) (tab : List Byte)
    (qf : Fmt) (west : List (List OpElem)) (failed : Bool) (p : PageOps) : State :=
  match (lessonAt s c id).bind (fun l => l.att) with
  | none => s
  | some r =>
    let lay := lessonLayout s l.desc
    let vf := (lay.map (fun x => x.format)).getD .qf4
    let so := scoreOp qf p.kf vf q.grad
    let ks0 := (foldKs (hrec l.desc 0).mt (hrec l.desc 0).nt).getD 1
    let kk := (hrec l.desc 0).k
    let nc := ceilDiv kk so.len
    let ks1 := (foldKs (hrec l.desc 1).mt (hrec l.desc 1).nt).getD 1
    let n := e.ntok * q.qpk
    let cell := fun (w : List OpElem) => (p.cols q).map (fun b =>
      let v := cellValue so ks0 0 nc w b (0, false)
      (v.1, v.2 || failed))
    let metaBad := p.info.any Prod.snd
    let key := fun (i : Nat) => st.head * 512 + e.first + i
    let vo := valueOp q.pfmt vf
    let outs := (List.range n).map (fun i =>
      let qp := e.qpos + i / max 1 q.qpk
      let vis := p.info.zipIdx.map (fun m => visibleSlot s l.fetched q e p.sp m.2 qp m.1)
      let a := Map.get r.rows (key i) { }
      if q.grad && !st.stats then
        let np := e.pages.length
        let k' := e.pages.findIdx (fun x => x == p.sp)
        let row := e.first + i
        let df := (stageAt l.stages (placeOf l.stages 0xE)).outFmt
        let o := valueOp df p.kf
        let g := gradRow tab q df (lseed l.desc) (row * 256 * np + 256 * k') o ks1 p.kAcross (cell (scoreRow q west i))
          (cell (dpRow q west i)) vis (r.dvals.getD row (0, false)) metaBad a
        ({ row := g.1, probs := none, sat := g.2 } : RowOut)
      else
        rowStep tab q.alpha q.pfmt vo ks1 q.d (if q.grad then none else some p.vRows)
          (cell (scoreRow q west i)) vis metaBad a)
    let lastHead := st.head + 1 = q.head0 + q.hcount
    let mass := if q.imp then addMass tab p.sp outs r.mass else r.mass
    let s := updAtt s c id (fun r => { r with
      rows := (List.range n).foldl (fun m i => Map.put m (key i) ((outs.map (fun o => o.row)).getD i { })) r.rows,
      mass := if lastHead then mass.filter (fun x => x.1 / 256 != p.sp) else mass })
    let s := saturate s c id none (outs.foldl (fun a o => a + o.sat) 0)
    let s := if q.grad && st.stats then s else s.bump .attPages c
    let s := if outs.any (fun o => o.rescaled) && !q.grad then s.bump .attRescales c else s
    if q.imp && lastHead then applyMass s c tab e p mass else s

/-- The operands of the pages of a step, or the first wait or fault. -/
def stepOps (s : State) (c id : Nat) (l : LessonRun) (lay : Layout) (q : AttCfg) (rot : RotCfg) (e : AttEntry)
    (st : AttStep) : State × Option PageRes × List PageOps :=
  st.pages.foldl (fun (acc : State × Option PageRes × List PageOps) sp =>
    if acc.2.1.isSome then acc
    else match pageOps acc.1 c id l lay q rot e sp st.head with
      | (s, .ops p) => (s, none, acc.2.2 ++ [p])
      | (s, r) => (s, some r, acc.2.2)) (s, none, [])

/-- The S-array takes the next step of an Attend: Q rows from the feeder, one or two pages, masks, online softmax and
the V contribution (R250, R256). Without its data, or while a translation waits, nothing happens. `bad` holds the quadrants of
the S tile in which a fault of the array makes a check fail.
DEDUCED (notes/assumptions/59.md). -/
def attStep (s : State) (c id : Nat) (l : LessonRun) (r : AttRun) (st : AttStep) (bad : BitVec 4) : State :=
  match r.entries[st.entry]?, lessonLayout s l.desc with
  | some e, some lay =>
    let q := attCfg s c l
    let n := e.ntok * q.qpk
    let elems := if q.grad then 2 * q.d else q.d
    if queueLen l 1 < qNeed l n elems then s
    else
      match rotCfg s c l with
      | (s, none) => lessonFault s c id .scratchRange
      | (s, some rot) =>
        match stepOps s c id l lay q rot e st with
        | (s, some (.fault code remote), _) => lessonFaultSeq s c id code (blamed code remote e.seq)
        | (s, some _, _) => s
        | (s, none, ops) =>
          match (ops.map (fun p => bitmapCode s l.fetched q e p.info)).find? (fun c => c != .ok) with
          | some code => lessonFaultSeq s c id code (blamed code false e.seq)
          | none =>
            match takeQ s c id l (qFlat q e elems st.head) n elems with
            | (s, none) => lessonFault s c id .scratchRange
            | (s, some (west, qf)) =>
              let (s, tab, _) := sfuTables s c id (placeOf l.stages 4) 1
              let tr := attTileRun l q qf n west ops
              let (s, failed) := checksum s c 0 0 (if checksOn s c 0 0 then tr.fails (checkTol s c 0) tr.part none else []) bad
              let trap := ltrap l.desc && (failed || west.any (fun w => w.any (fun x => x.poison)) ||
                ops.any (fun p => p.kCols.any (fun w => w.any (fun x => x.poison)) ||
                  p.vCols.any (fun w => w.any (fun x => x.poison))))
              if trap then lessonFault s c id .dataPoisoned
              else
                let s := ops.foldl (fun s p =>
                  let s := formatErrors (saturate s c id (some 14) p.sat) c 14 p.errs
                  attPage s c id l q e st tab qf west failed p) s
                let s := s.bump .sTiles c
                match (lessonAt s c id).bind (fun l => l.att) with
                | some r => attAdvance s c id r
                | none => s
  | _, _ => attAdvance s c id r

/-! ## Page selection (R266, R267) -/

/-- The square root of a value's sum of squares rounded to BF16: used for |q_pair| and A_i. -/
def sqrtBf (x : Fp) : Fp :=
  match x with
  | .fin _ m e =>
    if m = 0 then Fp.zero
    else
      let (m, e) := if e % 2 = 0 then (m, e) else (2 * m, e - 1)
      let mm := m * 2 ^ 64
      let r := (List.range 200).foldl (fun r k => let b := 2 ^ (199 - k); if (r + b) * (r + b) ≤ mm then r + b else r) 0
      let st := if r * r = mm then 0 else 1
      bf16 (encodeIeee 8 7 (.fin false (2 * r + st) (e / 2 - 33))).1
  | x => x

/-- A value rounded to BF16. -/
def toBf (x : Fp) : Fp := bf16 (encodeIeee 8 7 x).1

/-- The west operand of the bound tile: |q_pair| for each rotated pair, then max(q, 0) and min(q, 0) for each channel
outside the pairs (R266). -/
def boundRow (half : Bool) (np d : Nat) (q : List Fp) : List Fp :=
  let x := fun (i : Nat) => q.getD i Fp.zero
  let pair := fun (i : Nat) => if half then (i, i + d / 2) else (2 * i, 2 * i + 1)
  let inPair := fun (c : Nat) => if half then c % (d / 2) < np else c / 2 < np
  let rest := (List.range d).filter (fun c => !inPair c)
  (List.range np).map (fun i => sqrtBf (((x (pair i).1).mulX (x (pair i).1)).addX ((x (pair i).2).mulX (x (pair i).2)))) ++
    rest.map (fun c => toBf ((x c).max Fp.zero)) ++ rest.map (fun c => toBf ((x c).min Fp.zero))

/-- The north operand of one page: A_i for each pair, then MAX and MIN for each channel outside the pairs. -/
def boundCol (half : Bool) (np d : Nat) (lo hi : List Fp) : List Fp :=
  let l := fun (i : Nat) => lo.getD i Fp.zero
  let h := fun (i : Nat) => hi.getD i Fp.zero
  let big := fun (i : Nat) => ((l i).mulX (l i)).max ((h i).mulX (h i))
  let pair := fun (i : Nat) => if half then (i, i + d / 2) else (2 * i, 2 * i + 1)
  let inPair := fun (c : Nat) => if half then c % (d / 2) < np else c / 2 < np
  let rest := (List.range d).filter (fun c => !inPair c)
  (List.range np).map (fun i => sqrtBf ((big (pair i).1).addX (big (pair i).2))) ++ rest.map (fun c => toBf (h c)) ++
    rest.map (fun c => toBf (l c))

/-- Whether page bound a ranks above b (R267): NaN first, then +∞, then the greater. -/
def boundAbove (a b : Fp) : Bool :=
  match a, b with
  | .nan, .nan => false
  | .nan, _ => true
  | _, .nan => false
  | a, b => b.lt a

/-- The selected pages of a list (R267). -/
def selectPages (q : AttCfg) (pages : List Nat) (bs : List Fp) : List Nat :=
  let sink := ceilDiv q.mask.sink 256
  let recent := pages.drop (pages.length - q.recent)
  let others := (pages.zip bs).filter (fun p => !(p.1 < sink || recent.contains p.1))
  let ranked := others.foldl (fun (acc : List (Nat × Fp)) p =>
    let (above, below) := acc.span (fun x => !boundAbove p.2 x.2)
    above ++ [p] ++ below) []
  let top := (ranked.take q.selPages).map Prod.fst
  pages.filter (fun k => k < sink || recent.contains k || top.contains k)

/-- The pages of an entry become those selected, and its steps stand in front. -/
def attSelected (s : State) (c id : Nat) (q : AttCfg) (ei : Nat) (pages : List Nat) : State :=
  match (lessonAt s c id).bind (fun l => l.att) with
  | none => s
  | some r =>
    match r.entries[ei]? with
    | none => s
    | some e =>
      let skipped := e.pages.length - pages.length
      let s := updAtt s c id (fun r => { r with
        entries := r.entries.set ei { e with pages := pages },
        waiting := r.waiting.filter (fun x => x != ei),
        steps := entrySteps q ei pages ++ r.steps.filter (fun t => !(t.select && t.entry == ei)) })
      let s := if skipped = 0 then s else s.bump .attPagesSkipped c 0 skipped
      if pages.isEmpty then walkEnd s e.seq (.lesson c id) else s

/-- The selection step of an entry (R266): Q rows of every head, the bound of every listed page, and the ranking or its
assist.
DEDUCED (notes/assumptions/60.md). -/
def attSelect (s : State) (c id : Nat) (l : LessonRun) (r : AttRun) (st : AttStep) : State :=
  match r.entries[st.entry]?, lessonLayout s l.desc with
  | some e, some lay =>
    let q := attCfg s c l
    let n := e.ntok * q.qpk
    if r.waiting.contains st.entry then s
    else if queueLen l 1 < qNeed l (n * q.hcount) q.d then s
    else
      let g := l.stages.find? (fun g => g.kind == 3)
      let half := match g with
        | some g => bit (g.w 0) 4
        | none => false
      let np := match g with
        | some g => bits (g.w 0) 8 8
        | none => 0
      let pa := q.plane % lay.perPage
      let (s, fault, wait, sums) := e.pages.foldl
        (fun (acc : State × Option (FC × Bool) × Bool × List (List (List Fp × List Fp))) sp =>
          let (s, fault, wait, out) := acc
          if fault.isSome || wait then acc
          else
            match translate s c id e.seq e.epoch (chartPage lay sp q.plane) with
            | (s, .wait) => (s, none, true, out)
            | (s, .fault code) => (s, some (code, false), false, out)
            | (s, .entry x) =>
              let o := frameGlobal s x + lay.sumOff pa
              let (s, code, bs, _) := fetchGlobal s l.fetched o (4 * lay.width)
              let rd := fun (b i : Nat) => bf16 (fieldAt bs (b + 2 * i) 2)
              (s, if code = .ok then none else some (code, eRemote x), false, out ++ [(List.range q.hcount).map (fun h =>
                ((List.range q.d).map (fun i => rd 0 ((q.head0 + h) * q.d + i)),
                 (List.range q.d).map (fun i => rd (2 * lay.width) ((q.head0 + h) * q.d + i))))]))
        (s, none, false, [])
      match fault with
      | some (code, remote) => lessonFaultSeq s c id code (blamed code remote e.seq)
      | none =>
        if wait then s
        else match takeQ s c id l (fun i => qFlat q e q.d (q.head0 + i / max 1 n) (i % max 1 n)) (n * q.hcount) q.d with
        | (s, none) => lessonFault s c id .scratchRange
        | (s, some (west, _)) =>
          let op : CellOp := { len := 8, exact := false }
          let el := fun (x : Fp) => ({ v := x, full := x, nan := x == .nan } : OpElem)
          let k := 2 * (q.d - 2 * np) + np
          let ks := (foldKs (max 1 (n * q.hcount)) 512).getD 1
          let maxima := sums.map (fun heads =>
            (List.range (n * q.hcount)).foldl (fun m i =>
              let (lo, hi) := heads.getD (i / max 1 n) ([], [])
              let a := (boundRow half np q.d ((west.getD i []).map (fun e => e.full))).map el
              let b := (boundCol half np q.d lo hi).map el
              m.max (f32 (cellValue op ks 0 (ceilDiv k 8) a b (0, false)).1)) (Fp.inf true))
          let s := s.bump .attSelectRuns c
          let mode := s.ent .fnModePageSelect
          if mode = 0 then attSelected s c id q st.entry (selectPages q e.pages maxima)
          else
            match raiseAssist s .pageSelect mode (.select c id) (e.seq * 2 ^ 32 + q.plane) (q.head0 + 256 * q.hcount)
                (maxima.flatMap (fun x => natLe 4 (toF32 x))) with
            | (.ok, s) => forwardAssists (updAtt s c id (fun r => { r with waiting := r.waiting ++ [st.entry] }))
            | (code, s) => lessonFaultSeq s c id code (blamed code false e.seq)
  | _, _ => attAdvance s c id r

/-! ## Drain and combine (R257, R261, R262) -/

/-- The output of a row from partial results (t, m, l) in increasing unit (R262). -/
def attCombine (tab : List Byte) (alpha d : Nat) (us : List (List CElem × Nat × Nat)) (grad : Bool) : List CElem :=
  let bad := fun (i : Nat) => us.any (fun u => (u.1.getD i (0, false)).2)
  if grad then (us.headD ([], 0, 0)).1
  else
    let mm := us.foldl (fun m u => m.max (f32 u.2.1)) (Fp.inf true)
    if mm == .inf true then (List.range d).map (fun i => (0, bad i))
    else
      let (ls, os) := us.foldl (fun (acc : Fp × List Fp) u =>
        if f32 u.2.1 == .inf true then acc
        else
          let c := expA tab alpha (f32 u.2.1) mm
          (add32 acc.1 (mul32 c (f32 u.2.2)),
           (acc.2.zip u.1).map (fun p => add32 p.1 (mul32 c (f32 p.2.1))))) (Fp.zero, List.replicate d Fp.zero)
      let rho := sfuNative tab 4 none ls
      os.zipIdx.map (fun p => (toF32 (mul32 p.1 rho), bad p.2))

/-- A row of the drained V tile: its totals with the poison of the row, m and l. -/
def attTotals (q : AttCfg) (l : LessonRun) (a : AttRow) : List CElem × Nat × Nat :=
  let ks := (foldKs (hrec l.desc 1).mt (hrec l.desc 1).nt).getD 1
  ((vDrain ks q.d a.tot).map (fun e => (e.1, e.2 || a.poison)), a.m, a.l)

/-- The rows of the group that an entry covers, with the entry. -/
def rowEntry (q : AttCfg) (r : AttRun) (row : Nat) : Option AttEntry :=
  r.entries.find? (fun e => e.first ≤ row && row < e.first + e.ntok * q.qpk)

/-- The chain tile of head h′: one row of d elements per group row; rows that no entry covers are bubbles, written as
+0. -/
def attTile (tab : List Byte) (q : AttCfg) (l : LessonRun) (r : AttRun) (h : Nat)
    (others : Nat → List (List CElem × Nat × Nat)) : CTile :=
  (List.range q.mg).map (fun row =>
    match rowEntry q r row with
    | none => List.replicate q.d (0, false)
    | some _ =>
      let a := Map.get r.rows ((q.head0 + h) * 512 + row) { }
      if q.grad && f32 a.m == .inf true then List.replicate q.d (0, a.poison)
      else attCombine tab q.alpha q.d (attTotals q l a :: others row) q.grad)

/-- Rows of head h′ with no visible slot (R257). -/
def emptyRows (q : AttCfg) (r : AttRun) (h : Nat) (others : Nat → List (List CElem × Nat × Nat)) : Nat :=
  ((List.range q.mg).filter (fun row => (rowEntry q r row).isSome &&
    f32 (Map.get r.rows ((q.head0 + h) * 512 + row) { }).m == .inf true &&
    (others row).all (fun u => f32 u.2.1 == .inf true))).length

/-- The partial record of a row (R261). -/
def partRecord (q : AttCfg) (l : LessonRun) (r : AttRun) (h row : Nat) : List MByte :=
  let a := Map.get r.rows ((q.head0 + h) * 512 + row) { }
  let (t, m, lv) := attTotals q l a
  let (ep, ex) := match rowEntry q r row with
    | some e => (e.epoch.toNat, e.extent)
    | none => (0, 0)
  bytesOfElems t ++ bytesOfElems [(m, a.poison), (lv, a.poison), (ep, false), (ex, false)]

/-- Pieces of a put that cross no 4 KiB boundary (Table 12-1): offset and length. -/
def putPieces (fuel a n : Nat) : List (Nat × Nat) :=
  match fuel with
  | 0 => []
  | f + 1 =>
    if n = 0 then []
    else
      let k := min n (4096 - a % 4096)
      (0, k) :: (putPieces f (a + k) (n - k)).map (fun p => (p.1 + k, p.2))

/-- A put of a Lesson's data to a global address by stream `sn`, in pieces; the last piece is counted when a counter is
named. A refusal faults the Lesson (R237, R261). -/
def lessonPut (s : State) (c id sn : Nat) (target : Nat) (bs : List MByte) (ctr : Option (Nat × Nat)) : State :=
  let ps := putPieces (bs.length + 1) target bs.length
  ps.zipIdx.foldl (fun s (p, i) =>
    match lessonAt s c id with
    | none => s
    | some l =>
      let d := mslice bs p.1 p.2
      let counted := ctr.isSome && i + 1 = ps.length
      let iss : Issuer := .stream (Fin.ofNat 32 c) (Fin.ofNat 8 l.ctx) (Fin.ofNat 16 sn)
      let rq : Req := { origin := .inside iss, tenant := BitVec.ofNat 12 (s.ctx c l.ctx).tenant,
                        target := BitVec.ofNat 64 (target + p.1), len := p.2, data := mbytes d,
                        poison := marksOf (target + p.1) d, ctr := BitVec.ofNat 8 ((ctr.map Prod.snd).getD 0),
                        ctrCore := BitVec.ofNat 5 ((ctr.map Prod.fst).getD 0), tag := id + 1 }
      let k : Kind := if counted then .cput else .put
      let (s, ans) := if outMuted s l (target + p.1) p.2 then (s, none)
        else if isLocal s rq.node then serveInside s k rq else sendOut s k rq iss (.stream c sn)
      match ans with
      | some a => if a.code = .ok then s else lessonFault s c id a.code
      | none => s) s

/-- The core and counter that unit u's combine counter is: on the core that holds the partial-record region. -/
def combineCtr (q : AttCfg) (u : Nat) : Nat × Nat := (q.caddr % 0x20000000 / 0x1000000, q.cctr + u - 1)

/-- The V-array drains the next head of an Attend whose steps are done: the output rows of an unsplit one, the partial
records of a unit above 0 (R257, R261). Unit 0 of a split combines instead, and freezes while two heads wait (R124). -/
def attDrain (s : State) (c id : Nat) (l : LessonRun) (r : AttRun) (bad : Bool) : State :=
  let q := attCfg s c l
  if !r.steps.isEmpty || r.drained ≥ q.hcount || (q.um1 != 0 && q.idx = 0 && r.drained ≥ r.combined + 2) then s
  else
    let h := r.drained
    let vi := placeOf l.stages 5
    let mark := fun (r : AttRun) => if bad then
        { r with rows := r.rows.map (fun p => if p.1 / 512 = q.head0 + h then (p.1, { p.2 with poison := true }) else p) }
      else r
    let r := mark r
    let s := (updAtt s c id (fun r => { mark r with drained := h + 1 })).bump .vTiles c
    let s := updLesson s c id (fun l => { l with t1 := h + 1 })
    if q.um1 = 0 then
      let (s, tab, _) := sfuTables s c id (placeOf l.stages 4) 1
      let s := s.bump .attEmptyRows c 0 (emptyRows q r h (fun _ => []))
      let t := attTile tab q l r h (fun _ => [])
      let s := if h + 1 = q.hcount then sfuDone s c id (placeOf l.stages 4) else s
      runFrom s c id (vi + 1) { blk := h, col := 0, idx := h, last := true } (.f32 t)
    else if q.idx = 0 then s
    else
      let u := q.idx
      let size := 4 * q.d + 16
      let s := if h + 1 = q.hcount then sfuDone s c id (placeOf l.stages 4) else s
      if ltrap l.desc && (List.range q.mg).any (fun row => (partRecord q l r h row).any Prod.snd) then
        lessonFault s c id .dataPoisoned
      else (List.range q.mg).foldl (fun s row =>
        lessonPut s c id 15 (q.caddr + (((u - 1) * q.hcount + h) * q.mg + row) * size) (partRecord q l r h row)
          (if row + 1 = q.mg then some (combineCtr q u) else none)) s

/-- Whether the counters let unit 0 combine its next head (R262). -/
def attCanCombine (s : State) (c : Nat) (q : AttCfg) (r : AttRun) : Bool :=
  q.um1 != 0 && q.idx = 0 && r.combined < r.drained &&
    (List.range q.um1).all (fun i => r.combined + 1 ≤ (s.counter c (q.cctr + i)).toNat)

/-- Unit 0 combines its next head with the records of the other units (R262). -/
def attCombineHead (s : State) (c id : Nat) (l : LessonRun) (r : AttRun) : State :=
  let q := attCfg s c l
  if !attCanCombine s c q r then s
  else
    let h := r.combined
    let size := 4 * q.d + 16
    let base := q.caddr % 2 ^ 48
    let rec_ := fun (u row : Nat) => base + (((u - 1) * q.hcount + h) * q.mg + row) * size
    let s := s.settle (rec_ 1 0) (q.um1 * q.hcount * q.mg * size)
    let bytesAt := fun (a n : Nat) => withMarks a (s.bytes a n) (s.marks a n)
    let mismatch := (List.range q.um1).any (fun i => (List.range q.mg).any (fun row =>
      match rowEntry q r row with
      | none => false
      | some e =>
        let a := rec_ (i + 1) row + 4 * q.d + 8
        (q.splitMode = 1 && s.num a 4 != e.epoch.toNat) || s.num (a + 4) 4 != e.extent % 2 ^ 32))
    if mismatch then lessonFault s c id .attendSplitMismatch
    else
      let others := fun (row : Nat) => (List.range q.um1).map (fun i =>
        let es := elemsOf (bytesAt (rec_ (i + 1) row) (4 * q.d + 8))
        let ml := ((es.drop q.d).take 2).any Prod.snd
        ((es.take q.d).map (fun e => (e.1, e.2 || ml)), (es.getD q.d (0, false)).1, (es.getD (q.d + 1) (0, false)).1))
      let (s, tab, _) := sfuTables s c id (placeOf l.stages 4) 1
      let s := s.bump .attEmptyRows c 0 (emptyRows q r h others)
      let t := attTile tab q l r h others
      let s := updAtt s c id (fun r => { r with combined := h + 1 })
      let s := if h + 1 = q.hcount then sfuDone s c id (placeOf l.stages 4) else s
      runFrom s c id (placeOf l.stages 5 + 1) { blk := h, col := 0, idx := h, last := true }
        (.f32 t)

/-- Whether an Attend has finished: every step run, every head drained, and combined where it is unit 0 of a split. -/
def attFinished (q : AttCfg) (r : AttRun) : Bool :=
  r.steps.isEmpty && r.drained ≥ q.hcount && (q.um1 = 0 || q.idx != 0 || r.combined ≥ q.hcount)

end Sys2Proof.Machine
end

