-- ==== Sys2Proof/Machine/Run.lean ====
section
/-!
DEFINITION. Lessons in time: issue (R224, R229, R176, R177), the elementwise chain of a stream (R220), tiles of the arrays
(R123, R141, R142, R222, R230, R237), the second sweep (R232), combines, retirement (R235), updates (R287, R288), context
switches (R331 to R334) and the entry into Recess (R335).
-/

namespace Sys2Proof.Machine

open Sys2Proof

/-! ## Engine flags (R329) -/

/-- The flags a Lesson takes: producer, consumer and consuming stage of each adjacent pair on different engines, of each
split combine of unit 0 and of the Attend combine of unit 0 (R329). -/
def flagNeeds (s : State) (c : Nat) (l : LessonRun) : List (Nat × Nat × Nat) :=
  let st := l.stages
  let pairs := (List.range (st.length - 1)).filterMap (fun i =>
    let a := stageEngine st i
    let b := stageEngine st (i + 1)
    if a = b then none else some (a, b, i + 1))
  let splits := (heavies st).filterMap (fun i =>
    let h := hrec l.desc (heavyIdx st i)
    if lkind l.desc = 0 && h.um1 != 0 && h.unit = 0 then some ((stageAt st i).kind - 4, 3, i) else none)
  let att := if lkind l.desc = 1 && !isBackward l.desc then
      let q := attCfg s c l
      if q.um1 != 0 && q.idx = 0 then [(1, 3, placeOf st 5)] else []
    else []
  pairs ++ splits ++ att

/-- The free flags of a core, in increasing number. -/
def freeFlags (s : State) (c : Nat) : List Nat :=
  (List.range 64).filter (fun f => !Map.has (s.core c).flagOwner f)

/-- Whether a tile waits between a producing engine and a consuming stage: in an operand queue, before a store, or in the drain
buffer of a split (R329). -/
def handFull (l : LessonRun) (producer stage : Nat) : Bool :=
  if (stageAt l.stages stage).heavy && producer = (stageAt l.stages stage).kind - 4 then l.tiles.any (fun q => q.1 == stage)
  else if (stageAt l.stages stage).kind = 0xF then !(Map.get l.outs stage []).isEmpty
  else producer == 4 && l.bufs.any (fun p => queueStage l p.1 == stage && p.1 != 64 && !p.2.isEmpty)

/-- A Lesson is given its flags, each as the progress of its stages sets it: clear at issue (R329, R334). -/
def giveFlags (s : State) (c id : Nat) (l : LessonRun) : State :=
  ((flagNeeds s c l).zip (freeFlags s c)).foldl (fun s (n, f) =>
    s.updCore c (fun k => { k with
      flags := if handFull l n.1 n.2.2 then k.flags ||| BitVec.ofNat 64 (2 ^ f) else k.flags &&& ~~~ (BitVec.ofNat 64 (2 ^ f)),
      flagOwner := Map.put k.flagOwner f
        { ctx := l.ctx, lesson := id, producer := n.1, consumer := n.2.1, stage := n.2.2 } })) s

/-! ## Issue (R224, R176, R177, R239, R329) -/

/-- Whether a Lesson takes the fused derivatives: the context's tenant is of the Throughput class and FORCE_TABLE is 0
(R279). -/
def takesFused (s : State) (c x : Nat) (d : BitVec 1024) : Bool :=
  isBackward d && ctxClass s c x = 2 && !bit (cmdWord d 12) 28

/-- The sequences that the row map of a Lesson names (R216). -/
def mapSeqs (s : State) (c : Nat) (d : BitVec 1024) : List Nat :=
  if rowmapEn d then (mapEntries s c (rowmapOff d)).map (fun e => e.seq) else []

/-- An Attend binds SE streams 14 and 15 for its life (R248). -/
def bindPageStreams (s : State) (c id : Nat) (l : LessonRun) : State :=
  let loads := (List.range l.stages.length).filter (fun i =>
    (stageAt l.stages i).kind = 1 && !namesArm true (stageAt l.stages i))
  noteBound ([14, 15].zipIdx.foldl (fun s (n, k) =>
    updStream s c n (fun _ => { bound := true, lesson := id, stage := loads.getD k 0 })) s) c

/-- Whether no Lesson may issue on a core now: an empty step (R91), issue hold (R425), a clock lost (R395), a change of operating point (R434), or
the one Lesson per core of a stuck alert (R432). -/
def issueHeld (s : State) (c : Nat) : Bool :=
  s.sched.empty || s.sys.gov.hold || s.sys.issueStopped || s.sys.gov.opWaiting.isSome || (s.sys.gov.stuck && !(s.core c).lessons.isEmpty)

/-- A Lesson issues, waits, or is refused (R224). The marking of a scheduled one is held against what is in flight when it
would otherwise issue (Table 7-4); `hazard` tells that it has been reported before and waits as an unscheduled command. -/
def issueLesson (s : State) (c x : Nat) (num : U32) (d : BitVec 1024) (compl : Compl) (fetched : List Fetched)
    (hazard : Bool) : State :=
  let s := settleControl s c d
  let st0 := readStages s c d
  let esc := layerEn d && isEscalated s (lrep d) (llayer d)
  let st := if esc then escalate (isBackward d) (lkind d = 1) st0 else st0
  match lessonCode s c x d st0 st with
  | .ok =>
    let seqs := mapSeqs s c d
    let nh := (heavies st).length
    let reads := lreads d nh
    let writes := lwrites d nh
    let l0 : LessonRun :=
      { ctx := x, num := num, desc := d, compl := compl, stages := st, escalated := esc,
        fusedDeriv := takesFused s c x d, fetched := fetched, seqs := seqs,
        arms := (List.range st.length).filter (fun i => namesArm (lkind d = 1) (stageAt st i)) }
    let busy := lkind d = 1 && [14, 15].any (fun n => (streamAt s c n).bound)
    let heldSeq := lkind d = 1 && seqs.any (fun q => (s.desc q).held)
    let clash := sbConflict s c reads writes
    if heldSeq || groupFaulted s seqs || sbFull s c || busy || issueHeld s c ||
        (freeFlags s c).length < (flagNeeds s c l0).length || (clash.isSome && (lunsched d || hazard)) then
      parkCmd s c x num d compl hazard
    else
      let mode := s.ent .ttHazardMode c
      let wrong := clash.isSome && mode != 0
      let s := if wrong then (s.raise .schedHazard 1 c (x * 65536 + clash.getD 0)).bump .ttHazards c else s
      if wrong && mode = 2 then parkCmd s c x num d compl true
      else
        let id := (s.core c).nextLesson
        let s := sbTake s c x num reads writes
        let s := s.updCore c (fun k => { k with nextLesson := id + 1, lessons := Map.put k.lessons id l0 })
        let s := issued s c x { num := num, kind := .lesson id, compl := compl, trap := ltrap d }
        let s := giveFlags s c id l0
        let s := s.trace 1 { unit := c, core := some c, ctx := x, tenant := (s.ctx c x).tenant, arg0 := num.toNat,
                             arg1 := lkind d * 16 + nstages d, arg2 := compl.addr.toNat }
        if lkind d != 1 then s
        else
          let s := bindPageStreams s c id l0
          let (s, r) := attStart s c id l0
          updLesson s c id (fun l => { l with att := some r })
  | code => refuseCmd s c x compl code

/-- A Lesson command with word 0 fixed to the kind of its row: CLASS, LKIND and BACKWARD, and BOP of word 12 where
BACKWARD is 1. -/
def asLesson (kind : Nat) (bwd : Option Nat) (d : BitVec 1024) : BitVec 1024 :=
  let v := putBits (putBits d.toNat 0 8 1) 38 2 kind
  BitVec.ofNat 1024 (match bwd with
    | none => putBits v 19 1 0
    | some b => putBits (putBits v 19 1 1) (64 * 12 + 29) 3 b)

/-- A Lesson presented on a context that can issue. -/
def presentLesson (s : State) (core : Fin 32) (ctx : Fin 8) (num : U32) (d : BitVec 1024) (fs : List Fetched) : State :=
  if canIssue s core ctx then issueLesson s core ctx num d (complOf s core ctx d) fs false else s

/-- LESSON (R224): a CHAIN Lesson; a backward one with BOP 0 keeps its BACKWARD bit (R274). -/
def execLesson (core : Fin 32) (ctx : Fin 8) (num : U32) (d : BitVec 1024) (fs : List Fetched) (s : State) :
    Host.Outcome State Fault Refusal :=
  .next (presentLesson s core ctx num (asLesson 0 (if isBackward d then some 0 else none) d) fs)

/-- ATTEND (R243). -/
def execAttend (core : Fin 32) (ctx : Fin 8) (num : U32) (d : BitVec 1024) (fs : List Fetched) (s : State) :
    Host.Outcome State Fault Refusal :=
  .next (presentLesson s core ctx num (asLesson 1 none d) fs)

/-- RING_LOAD (R240). -/
def execRingLoad (core : Fin 32) (ctx : Fin 8) (num : U32) (d : BitVec 1024) (fs : List Fetched) (s : State) :
    Host.Outcome State Fault Refusal :=
  .next (presentLesson s core ctx num (asLesson 2 none d) fs)

/-- ACT_GRAD (R281): BOP 1. -/
def execActGrad (core : Fin 32) (ctx : Fin 8) (num : U32) (d : BitVec 1024) (fs : List Fetched) (s : State) :
    Host.Outcome State Fault Refusal :=
  .next (presentLesson s core ctx num (asLesson 0 (some 1) d) fs)

/-- GATE_GRAD (R281): BOP 2. -/
def execGateGrad (core : Fin 32) (ctx : Fin 8) (num : U32) (d : BitVec 1024) (fs : List Fetched) (s : State) :
    Host.Outcome State Fault Refusal :=
  .next (presentLesson s core ctx num (asLesson 0 (some 2) d) fs)

/-- NORM_GRAD (R283): BOP 3. -/
def execNormGrad (core : Fin 32) (ctx : Fin 8) (num : U32) (d : BitVec 1024) (fs : List Fetched) (s : State) :
    Host.Outcome State Fault Refusal :=
  .next (presentLesson s core ctx num (asLesson 0 (some 3) d) fs)

/-- ATT_GRAD (R284): BOP 4 of an Attend. -/
def execAttGrad (core : Fin 32) (ctx : Fin 8) (num : U32) (d : BitVec 1024) (fs : List Fetched) (s : State) :
    Host.Outcome State Fault Refusal :=
  .next (presentLesson s core ctx num (asLesson 1 (some 4) d) fs)

/-- UPDATE (R287): BOP 5. -/
def execUpdate (core : Fin 32) (ctx : Fin 8) (num : U32) (d : BitVec 1024) (fs : List Fetched) (s : State) :
    Host.Outcome State Fault Refusal :=
  .next (presentLesson s core ctx num (asLesson 0 (some 5) d) fs)

/-! ## Chains whose value a stream brings (R220, R287) -/

/-- Whether stage j starts the chain value: a heavy stage, or a load with ROLE 0. -/
def isSourceStage (st : List Stage) (j : Nat) : Bool :=
  let g := stageAt st j
  g.heavy || (g.kind == 1 && g.role == 0)

/-- The first source at or after place i. -/
def segmentEnd (st : List Stage) (i : Nat) : Nat :=
  ((List.range st.length).find? (fun j => i ≤ j && isSourceStage st j)).getD st.length

/-- Whether every residual add from place i to place e has the operand data of `mult` tiles of `rows` rows whose width at
place j is `width j`. -/
def residualsReady (l : LessonRun) (i e rows mult : Nat) (width : Nat → Nat) : Bool :=
  (List.range (e - i)).all (fun k =>
    let j := i + k
    (stageAt l.stages j).kind != 0xB || queueLen l (8 + j) ≥ mult * residualNeed l j rows (width j))

/-- The master values that n elements from a flat index have: w, m and v, read over the fabric. -/
def readMasters (s : State) (l : LessonRun) (addr rc flat n : Nat) : State × FC × List (List CElem) :=
  [0, 1, 2].foldl (fun (acc : State × FC × List (List CElem)) k =>
    let (s, code, out) := acc
    if code != .ok then acc
    else
      let a := addr + 4 * (k * rc + flat)
      let (s, code, bs, marks) := fetchGlobal s l.fetched a (4 * n)
      (s, code, out ++ [elemsOf (withMarks a bs marks)])) (s, .ok, [])

/-- The update of one element (R287): new w, m and v from the gradient element and the old ones. -/
def updateElem (tab : List Byte) (w : Nat → Nat) (g e m v : CElem) : CElem × CElem × CElem :=
  let gs := f32 (bits (w 3) 32 32)
  let lr := f32 (bits (w 3) 0 32)
  let b1 := f32 (bits (w 4) 0 32)
  let b2 := f32 (bits (w 4) 32 32)
  let eps := f32 (bits (w 5) 0 32)
  let p := g.2 || e.2 || m.2 || v.2
  let gg := mul32 (f32 g.1) gs
  let mm := add32 (mul32 b1 (f32 m.1)) (mul32 (sub32 Fp.one b1) gg)
  let vv := add32 (mul32 b2 (f32 v.1)) (mul32 (sub32 Fp.one b2) (mul32 gg gg))
  let ww := sub32 (f32 e.1) (mul32 lr (mul32 mm (sfuNative tab 5 none (add32 vv eps))))
  ((toF32 ww, p), (toF32 mm, p), (toF32 vv, p))

/-- Queue key of the new w of an update, kept until the serving copies are staged. -/
def updateQueue : Nat := 64

/-- An update Lesson takes one tile of gradient elements from a flat index: masters change, and +0 goes on (R287). -/
def updateTile (s : State) (c id i : Nat) (l : LessonRun) (flat : Nat) (t : CTile) : State × Option CTile :=
  let w := auxWord s c l.desc
  let rc := bits (w 6) 0 16 * bits (w 6) 16 16
  let gs := t.flatten
  let n := min gs.length (rc - flat)
  let addr := w 0
  let (s, code, ms) := readMasters s l addr rc flat n
  if code != .ok then (lessonFault s c id code, none)
  else
    let (s, tab, _) := sfuTables s c id i 1
    let old := fun (k j : Nat) => (ms.getD k []).getD j (0, false)
    let new := (List.range n).map (fun j => updateElem tab w (gs.getD j (0, false)) (old 0 j) (old 1 j) (old 2 j))
    let s := s.bump .sfuResults c 0 n
    let put := fun (s : State) (k : Nat) (es : List CElem) =>
      if n = 0 then s else lessonPut s c id 13 (addr + 4 * (k * rc + flat)) (bytesOfElems es) none
    let s := put s 0 (new.map (fun e => e.1))
    let s := put s 1 (new.map (fun e => e.2.1))
    let s := put s 2 (new.map (fun e => e.2.2))
    let s := updLesson s c id (fun l => { l with
      bufs := Map.upd l.bufs updateQueue [] (fun q => q ++ bytesOfElems (new.map (fun e => e.1))) })
    (s, some (t.map (fun r => r.map (fun _ => (0, false)))))

/-- The deferred normalise of the segment that a heavy stage starts. -/
def deferredIn (l : LessonRun) (i : Nat) : Option Nat :=
  let e := segmentEnd l.stages (i + 1)
  (List.range (e - (i + 1))).map (· + i + 1) |>.find? (fun j => deferred (stageAt l.stages j))

/-- Whether a source may write the region of a following quantise, or its hold region, for a row block: the block
that held the place has been consumed (R230, R232). -/
def reuseOk (l : LessonRun) (i b : Nat) : Bool :=
  let e := segmentEnd l.stages (i + 1)
  let hold := match deferredIn l i with
    | some p => let hb := max 1 (bits ((stageAt l.stages p).w 3) 32 8); b < hb || l.swept.contains (b - hb)
    | none => true
  let region := (List.range (e - (i + 1))).all (fun k =>
    let j := i + 1 + k
    let g := stageAt l.stages j
    if g.kind = 0xE && bits (g.w 0) 11 2 != 0 then
      let rb := max 1 (bits (g.w 0) 13 8)
      match nextHeavy l.stages j with
      | some h2 => b < rb || blockDone l h2 (b - rb)
      | none => true
    else true)
  hold && region

/-- The row block of an operand region that a row of a source chain belongs to; 0 where the chain writes none. -/
def regionBlock (l : LessonRun) (j row : Nat) : Nat :=
  let e := segmentEnd l.stages (j + 1)
  match (List.range e).find? (fun k => j < k && (stageAt l.stages k).kind = 0xE &&
      bits ((stageAt l.stages k).w 0) 11 2 != 0) with
  | some k => row / max 1 (regionRows l.desc l.stages k)
  | none => 0

/-- Bytes of the next tile of the chain-source load at place j (R220). -/
def sourceNeed (l : LessonRun) (j : Nat) : Nat :=
  let g := stageAt l.stages j
  let re := if g.rowElems = 0 then 256 else g.rowElems
  g.fmt.rowBytes (min 256 (re - 256 * (Map.get l.done j 0 % ceilDiv re 256)))

/-- One tile of a source chain, if its data and that of its residual adds have come (R220): 256 elements of a row, the
last tile of a row possibly short. -/
def pumpTile (s : State) (c id j : Nat) : Option State :=
  match lessonAt s c id with
  | none => none
  | some l =>
    let g := stageAt l.stages j
    let re := if g.rowElems = 0 then 256 else g.rowElems
    let per := ceilDiv re 256
    let t := Map.get l.done j 0
    let (row, col) := (t / per, t % per)
    let n := min 256 (re - 256 * col)
    let full := min 256 re
    let need := g.fmt.rowBytes n
    let e := segmentEnd l.stages (j + 1)
    let width := fun (i : Nat) => n * (shapeAt l.desc l.stages i).width / max 1 full
    if queueLen l (8 + j) < need || !residualsReady l (j + 1) e 1 1 width || !reuseOk l j (regionBlock l j row) then none
    else
      let (s, bs) := takeQueue s c id (8 + j) need
      let s := updLesson s c id (fun l => { l with done := Map.put l.done j (t + 1) })
      let at_ : TileAt := { blk := row, col := col, idx := t, last := col + 1 = per }
      if g.fmt = .fp32 then
        let tile : CTile := [elemsOf bs]
        if isBackward l.desc && lbop l.desc = 5 then
          match updateTile s c id j l (row * re + 256 * col) tile with
          | (s, some tile) => some (runFrom s c id (j + 1) at_ (.f32 tile))
          | (s, none) => some s
        else some (runFrom s c id (j + 1) at_ (.f32 tile))
      else
        let nb := n / g.fmt.blockLen
        let sides : State × Option (Option (List (List (Nat × Bool)))) :=
          if !g.side then (s, some none)
          else
            match rdSp s c l (bits (g.w 1) 0 24 + 4 * ((row * re + 256 * col) / g.fmt.blockLen)) (4 * nb) with
            | (s, some d) => (s, some (some [elemsOf d]))
            | (s, none) => (s, none)
        match sides with
        | (s, some sd) => some (runFrom s c id (j + 1) at_ (.enc g.fmt [bs] sd))
        | (s, none) => some (lessonFault s c id .scratchRange)

/-- The operations that the source at place j feeds have taken their last element once its stream has ended and nothing waits:
their SFU banks are given up (R162). -/
def sourceDone (s : State) (c id j : Nat) : State :=
  match lessonAt s c id with
  | none => s
  | some l =>
    let bound := (List.range 16).any (fun n =>
      (streamAt s c n).bound && (streamAt s c n).lesson = id && (streamAt s c n).stage = j)
    if l.arms.contains j || bound || queueLen l (8 + j) != 0 || !l.rotHeld.isEmpty then s
    else (List.range (segmentEnd l.stages (j + 1))).foldl (fun s k => if j ≤ k then sfuDone s c id k else s) s

/-- Every tile of the source chains of a Lesson whose data has come. -/
def pumpSource (s : State) (c id : Nat) : State :=
  match lessonAt s c id with
  | none => s
  | some l =>
    let srcs := (List.range l.stages.length).filter (fun j =>
      (stageAt l.stages j).kind == 1 && (stageAt l.stages j).role == 0)
    srcs.foldl (fun s j =>
      let s := ((List.range (queueLen l (8 + j) + 1)).foldl (fun (q : State × Bool) _ =>
        if q.2 then q
        else match pumpTile q.1 c id j with
          | some s => (s, false)
          | none => (q.1, true)) (s, false)).1
      sourceDone s c id j) s

/-- The two serving copies of a finished update go to the staging region (R288): blocks along rows, then blocks along
columns. -/
def stageServing (s : State) (c id : Nat) (l : LessonRun) : State :=
  let w := auxWord s c l.desc
  let rows := bits (w 6) 0 16
  let cols := bits (w 6) 16 16
  let f := (Fmt.ofCode? (bits (w 6) 32 5)).getD .bf16
  let es := elemsOf (Map.get l.bufs updateQueue [])
  let at_ := fun (r k : Nat) => es.getD (r * cols + k) (0, false)
  let quant := fun (n m : Nat) (x : Nat → Nat → CElem) =>
    (List.range n).foldl (fun (acc : List MByte × Nat) r =>
      let row := (List.range m).map (fun k => x r k)
      let (bs, _, sat) := f.quantiseRow false false (lseed l.desc) (r * m) (row.map (fun e => f32 e.1))
      let pb := fun (b : Nat) => ((row.drop (b * f.blockLen)).take f.blockLen).any Prod.snd
      (acc.1 ++ bs.zipIdx.map (fun (p : Byte × Nat) => (p.1, pb (p.2 / f.blockBytes))), acc.2 + sat)) ([], 0)
  let a := quant rows cols at_
  let b := quant cols rows (fun r k => at_ k r)
  let off := 1024 * bits (w 6) 37 14
  let s := saturate s c id (storeStream l 0) (a.2 + b.2)
  match wrSp s c l off (a.1 ++ b.1) with
  | some s => s
  | none => lessonFault s c id .scratchRange

/-! ## Arrays: whose turn it is (R234, R238, R331) -/

/-- The heavy stage of a Lesson on array 0 (S) or 1 (V). -/
def heavyOn (l : LessonRun) (a : Nat) : Option Nat :=
  (heavies l.stages).find? (fun i => (stageAt l.stages i).kind = 4 + a)

/-- Whether a Lesson's heavy stage on an array has released its last tile. -/
def heavyDone (s : State) (c : Nat) (l : LessonRun) (a : Nat) : Bool :=
  match heavyOn l a, l.att with
  | none, _ => true
  | some _, some r => if a = 0 then r.steps.isEmpty else r.drained ≥ (attCfg s c l).hcount
  | some i, none =>
    let g := stageAt l.stages i
    tilesDone l (heavyIdx l.stages i) ≥ g.tilesM * g.tilesN

/-- The Lesson that may use an array now: the one a context switch gave it to, else the first in issue order that is not
switched out, else the first that is (it resumes). A resident claim keeps its arrays until retirement (R238). -/
def arrayTurn (s : State) (c a : Nat) : Option Nat :=
  let k := s.core c
  let on := k.lessons.filter (fun p => (heavyOn p.2 a).isSome && (!heavyDone s c p.2 a || lresident p.2.desc))
  let held := fun (id : Nat) => k.heldTiles.any (fun h => h.array == a && h.lesson == id)
  let first := match on.find? (fun p => !held p.1) with
    | some p => some p.1
    | none => on.head?.map Prod.fst
  match Map.get? k.holder a with
  | some id => if on.any (fun p => p.1 == id) then some id else first
  | none => first

/-- The words of an image at a scratchpad row, with their marks. -/
def loadImage (s : State) (c row : Nat) : State × List (Nat × Bool) :=
  let (s, d, marks) := s.read (scratchAddr c (1024 * row)) 532480
  (s, (List.range 66560).map (fun k => (fieldAt d (8 * k) 8, marks.getD (k / 2) false)))

/-- The words of an image are written to a scratchpad row. -/
def saveImage (s : State) (c row : Nat) (words : List Nat) : State :=
  s.write (scratchAddr c (1024 * row)) (words.flatMap (natLe 8)) [] (some (c / 8))

/-- Row and head index of byte 8 × (4r + h′) of a context's m and l area that an Attend uses (Table 13-4). -/
def softmaxPlaces (q : AttCfg) : List (Nat × Nat) :=
  (List.range (min 256 q.mg)).flatMap (fun r => (List.range (min 4 q.hcount)).map (fun h => (r, h)))

/-- m and l of every row and head of an Attend are written to the save area (R258).
DEDUCED (notes/assumptions/63.md). -/
def saveSoftmax (s : State) (c row : Nat) (q : AttCfg) (r : AttRun) : State :=
  let base := scratchAddr c (1024 * (row + 1040))
  (softmaxPlaces q).foldl (fun s p =>
    let a := Map.get r.rows ((q.head0 + p.2) * 512 + p.1) { }
    s.write (base + 8 * (4 * p.1 + p.2)) (natLe 4 a.m ++ natLe 4 a.l) [] (some (c / 8))) s

/-- m and l come back from the save area (R258). -/
def loadSoftmax (s : State) (c row id : Nat) (q : AttCfg) : State :=
  let base := scratchAddr c (1024 * (row + 1040))
  (softmaxPlaces q).foldl (fun s p =>
    let (s, d, marks) := s.read (base + 8 * (4 * p.1 + p.2)) 8
    updAtt s c id (fun r => { r with
      rows := Map.upd r.rows ((q.head0 + p.2) * 512 + p.1) { } (fun a => { a with
        m := fieldAt d 0 4
        l := fieldAt d 4 4
        poison := a.poison || marks.any (fun b => b) }) })) s

/-- The partition totals of an Attend's V tile come back from an image (R137, R258). -/
def loadTotals (s : State) (c id : Nat) (l : LessonRun) (q : AttCfg) (words : List (Nat × Bool)) : State :=
  let h := hrec l.desc 1
  let ks := (foldKs h.mt h.nt).getD 1
  updAtt s c id (fun r => { r with
    rows := (List.range q.mg).foldl (fun m i => Map.upd m (q.head0 * 512 + i) { } (fun a => { a with
      tot := (List.range ks).map (fun p => (List.range q.d).map (fun j =>
        let g := foldCell h.mt h.nt p i j
        let w := words.getD (256 * g.1 + g.2) (0, false)
        (w.1 / 2 ^ 32, bit w.1 7 || w.2))) })) r.rows })

/-- A Lesson whose tile was switched out takes its array again: the image returns and its flags are given back (R137, R258,
R333, R334). -/
def resumeTile (s : State) (c a id : Nat) : State :=
  let held := fun (s : State) => (s.core c).heldTiles.any (fun h => h.lesson == id)
  match (s.core c).heldTiles.find? (fun h => h.array == a && h.lesson == id), lessonAt s c id with
  | some t, some l =>
    let row := s.ent .ctxSaveRow c t.ctx
    let (s, words) := if t.inMem then (s, t.image) else loadImage s c (row + 520 * a)
    let s := s.updCore c (fun k => { k with
      heldTiles := k.heldTiles.filter (fun h => !(h.array == a && h.lesson == id)) })
    let s := match l.att with
      | none => updLesson s c id (fun l => { l with
          resumed := Map.put l.resumed (heavyIdx l.stages ((heavyOn l a).getD 0)) (t.steps, words) })
      | some _ =>
        let q := attCfg s c l
        let s := if a = 1 then loadTotals s c id l q words else s
        if t.inMem then s else loadSoftmax s c row id q
    let s := if held s then s else giveFlags s c id l
    let x := l.ctx
    let still := (s.core c).heldTiles.any (fun h => h.ctx == x)
    if (s.ctx c x).state = .switched && !still then
      ctxSettle (setCtxState s c x .blocked) c x
    else s
  | _, _ => s

/-! ## A tile of a chain's heavy stage (R122, R133, R141, R142, R222, R223, R230, R232) -/

/-- Whether a ring operand's pass has begun on this core (R211). -/
def ringReady (s : State) (c id : Nat) (l : LessonRun) (i : Nat) : Bool :=
  match operandSrc l.stages i false with
  | .ring _ => (s.core c).ringPasses.any (fun p => p.begun && p.lesson == id && p.stage == i)
  | _ => true

/-- Whether the drain buffer of a heavy stage's array has a free place: two tiles may wait for their combine (R124). -/
def drainFree (s : State) (c : Nat) (k : Nat) : Bool :=
  (s.core c).lessons.foldl (fun n p => n + (p.2.tiles.filter (fun q => (stageAt p.2.stages q.1).kind == k)).length) 0 < 2

/-- Whether the next tile of heavy stage i can run. -/
def tileReady (s : State) (c id : Nat) (l : LessonRun) (i : Nat) : Bool :=
  let g := stageAt l.stages i
  let hi := heavyIdx l.stages i
  let h := hrec l.desc hi
  let t := tilesDone l hi
  let (b, _) := blockOf l.desc h g t
  let rows := if h.drain && isBackward l.desc then h.nt else h.mt
  let e := match deferredIn l i with
    | some p => p
    | none => segmentEnd l.stages (i + 1)
  t < g.tilesM * g.tilesN && operandReady s c l i true && operandReady s c l i false && ringReady s c id l i &&
    (h.um1 = 0 || h.unit != 0 || drainFree s c g.kind) && reuseOk l i b && residualsReady l (i + 1) e rows 1 (fun j => (shapeAt l.desc l.stages j).width)

/-- The arithmetic of a heavy stage (R126, R139). -/
def heavyOp (s : State) (c : Nat) (l : LessonRun) (i : Nat) : CellOp :=
  let h := hrec l.desc (heavyIdx l.stages i)
  let (len, exact) := stageClass s c l.desc l.stages i
  { mode := h.mode, pred := h.pred, len := len, exact := exact }

/-- The chunk range of a heavy stage: the whole of K, or its unit's (R134). -/
def heavyChunks (h : Heavy) (o : CellOp) : Nat × Nat :=
  let nc := ceilDiv h.k (max 1 o.len)
  if h.um1 = 0 then (0, nc) else unitChunks nc (h.um1 + 1) h.unit

/-- A drained tile as the chain takes it: transposed under DRAIN in a backward Lesson (R278). -/
def chainTurn (d : BitVec 1024) (h : Heavy) (t : CTile) : CTile :=
  if h.drain && isBackward d then transposeRows t h.nt else t

/-- Rows of the combine region that one tile takes (R237). -/
def combineRows (h : Heavy) : Nat := ceilDiv (h.mt * h.nt * 4) 1024

/-- A tile of a unit above 0 goes by counted put to the combine region of unit 0's core (R237). -/
def sendCombine (s : State) (c id : Nat) (h : Heavy) (tiles t : Nat) (tile : CTile) : State :=
  let row := h.crow + ((h.unit - 1) * tiles + t) * combineRows h
  let target := s.form.node.toNat * 2 ^ 48 + scratchAddr h.ccore (1024 * row)
  lessonPut s c id 13 target (tile.flatMap bytesOfElems) (some (h.ccore, h.cctr + h.unit - 1))

/-- A tile of heavy stage i as its array runs it. -/
def tileRun (s : State) (c : Nat) (l : LessonRun) (i : Nat) (west north : List (List OpElem)) (pre : Nat → Nat → CElem) :
    TileRun :=
  let h := hrec l.desc (heavyIdx l.stages i)
  let o := heavyOp s c l i
  let (lo, hi) := heavyChunks h o
  { o := o, mt := h.mt, nt := h.nt, ks := (foldKs h.mt h.nt).getD 1, lo := lo, hi := hi, k := h.k, west := west,
    north := north, pre := pre }

/-- Tile t of a stage with more than four tiles open has place t mod T_LIVE: its image goes to the spill region from place 4
on, and a change of tiles that touches the region counts in ARR_SPILL_SWAPS (R138).
DESIGN CHOICE (notes/assumptions/89.md). -/
def spillTile (s : State) (c id : Nat) (l : LessonRun) (a t : Nat) (h : Heavy) (tr : TileRun) : State :=
  let place := fun (t : Nat) => t % max 1 h.tlive
  if h.tlive ≤ 4 then s
  else
    let s := if 0 < t && (place t ≥ 4 || place (t - 1) ≥ 4) then s.bump (if a = 0 then .sSpillSwaps else .vSpillSwaps) c
      else s
    if place t < 4 then s
    else
      let words := tr.image h.k s.free (checksOn s c a h.mode)
      match wrSp s c l (1024 * (h.spill + 520 * (place t - 4))) (words.flatMap (fun w => (natLe 8 w).map (fun b => (b, false)))) with
      | some s => { s with free := s.free + 66560 }
      | none => lessonFault s c id .scratchRange

/-- Tile t of heavy stage i of array a waits in the drain buffer for its split combine (R237, R329). -/
def holdTile (s : State) (c id i a : Nat) (h : Heavy) (t : Nat) (tile : CTile) : State :=
  let s := setFlag (updLesson s c id (fun l => { l with tiles := l.tiles ++ [(i, t, tile)] })) c id
    a i true
  settleAll (s.updCore c (fun k => { k with
    combineWaits := k.combineWaits ++ (List.range h.um1).map (fun u => (id, h.cctr + u, t + 1)) })) c

/-- The next tile of a chain's heavy stage drains, is checked, and goes to the stage that consumes it. -/
def chainTile (s : State) (c id i a : Nat) (bad : BitVec 4) : State :=
  match lessonAt s c id with
  | none => s
  | some l =>
    let g := stageAt l.stages i
    let hi := heavyIdx l.stages i
    let h := hrec l.desc hi
    let t := tilesDone l hi
    let (m, n) := tileOf g t
    match takeOperand s c id i m n true with
    | (s, none) => s
    | (s, some (west, b1)) =>
      match takeOperand s c id i m n false with
      | (s, none) => s
      | (s, some (north, b2)) =>
        match preloadOf s c l i t n with
        | (s, none) => lessonFault s c id .scratchRange
        | (s, some pre) =>
          let tr := tileRun s c l i west north pre
          let image := Map.get? l.resumed hi
          let part := match image with
            | none => tr.part
            | some (n, ws) => tr.resume ws n
          let own := if checksOn s c a h.mode then tr.fails (checkTol s c a) part image else []
          let (s, failed) := checksum s c a h.mode own bad
          if ltrap l.desc && (failed || b1 || b2 || west.any (fun r => r.any (fun e => e.poison)) ||
              north.any (fun r => r.any (fun e => e.poison))) then lessonFault s c id .dataPoisoned
          else
            let tile := tr.value part
            let tile : CTile := if failed || b1 || b2 then tile.map (fun r => r.map (fun e => (e.1, true))) else tile
            let s := s.bump (if a = 0 then .sTiles else .vTiles) c
            let s := updLesson s c id (fun l => { l with
              t0 := if hi = 0 then t + 1 else l.t0
              t1 := if hi = 0 then l.t1 else t + 1
              resumed := Map.erase l.resumed hi })
            let s := spillTile s c id l a t h tr
            if h.um1 != 0 && h.unit != 0 then sendCombine s c id h (g.tilesM * g.tilesN) t tile
            else if h.um1 != 0 then
              holdTile s c id i a h t tile
            else runFrom s c id (i + 1) (tilePlace l i t) (.f32 (chainTurn l.desc h tile))

/-- The S-array takes the next step of an Attend, or its V-array drains the next head (R250, R257). -/
def attRelease (s : State) (c id a : Nat) (bad : BitVec 4) : State :=
  match lessonAt s c id with
  | none => s
  | some l =>
    match l.att with
    | none => s
    | some r =>
      if a = 1 then
        let (s, failed) := if r.steps.isEmpty then checksum s c 1 0 [] bad else (s, false)
        attDrain s c id l r failed
      else
        match r.steps with
        | [] => s
        | st :: _ => if st.select then attSelect s c id l r st else attStep s c id l r st bad

/-- TILE_RELEASE (R123, R141, R142, R250, R256, R257): the array's current heavy stage takes the next tile whose operands
have come, drains it and hands it on; a stage that waited for its place may then go on. `bad` holds the quadrants in which a
fault of the array makes a check fail. -/
def execTileRelease (core : Fin 32) (vArray : Bool) (bad : BitVec 4) (s : State) : Host.Outcome State Fault Refusal :=
  let a := if vArray then 1 else 0
  let c := core.val
  .next (match arrayTurn s c a with
    | none => s
    | some id =>
      match lessonAt s c id with
      | none => s
      | some l =>
        if heavyDone s c l a then s
        else
          match l.att, heavyOn l a with
          | some _, some _ =>
            if a = 1 || arrayTurn s c 1 = some id then attRelease (resumeTile s c a id) c id a bad else s
          | none, some i =>
            if tileReady s c id l i then pumpSource (chainTile (resumeTile s c a id) c id i a bad) c id else s
          | _, none => s)

/-! ## Second sweep (R232) -/

/-- Tile t of the held block as the deferred stage takes it. -/
def heldTile (s : State) (c id : Nat) (l : LessonRun) (p : Nat) (at_ : TileAt) : State × Option CTile :=
  let g := stageAt l.stages p
  let sh := shapeAt l.desc l.stages p
  let hb := max 1 (bits (g.w 3) 32 8)
  let blkBytes := ceilDiv (sh.rows * sh.rowWidth * 4) 1024 * 1024
  let o := 1024 * bits (g.w 0) 10 14 + (at_.blk % hb) * blkBytes + 4 * (at_.col * sh.width)
  (List.range sh.rows).foldl (fun (q : State × Option CTile) r =>
    match q.2 with
    | none => q
    | some t =>
      match rdSp q.1 c l (o + 4 * r * sh.rowWidth) (4 * sh.width) with
      | (s, some bs) => (s, some (t ++ [elemsOf bs]))
      | (s, none) => (lessonFault s c id .scratchRange, none)) (s, some [])

/-- The tiles of row block m of the last heavy stage in the first heavy stage's production order (R232): columns that the first
stage does not have follow in increasing order. -/
def sweepTiles (l : LessonRun) (i m : Nat) : List Nat :=
  let along := fun (j : Nat) =>
    let g := stageAt l.stages j
    let h := hrec l.desc (heavyIdx l.stages j)
    (List.range (g.tilesM * g.tilesN)).filterMap (fun t =>
      let (b, col) := blockOf l.desc h g t
      if b = m then some (t, col) else none)
  let mine := along i
  let first := along ((heavies l.stages).headD i)
  first.filterMap (fun p => (mine.find? (fun x => x.2 = p.2)).map Prod.fst) ++
    mine.filterMap (fun x => if first.any (fun p => p.2 = x.2) then none else some x.1)

/-- SECOND_SWEEP (R232): a row block whose statistics are complete passes the deferred normalise and every later stage,
tile by tile in production order. -/
def execSecondSweep (core : Fin 32) (lesson m : Nat) (s : State) : Host.Outcome State Fault Refusal :=
  let c := core.val
  .next (match lessonAt s c lesson with
    | none => s
    | some l =>
      match (heavies l.stages).getLast? with
      | none => s
      | some i =>
        match deferredIn l i with
        | none => s
        | some p =>
          let ts := sweepTiles l i m
          let sh := shapeAt l.desc l.stages p
          if ts.isEmpty || !blockDone l i m || l.swept.contains m || !l.tiles.isEmpty ||
              !residualsReady l p l.stages.length sh.rows ts.length (fun j => (shapeAt l.desc l.stages j).width) then s
          else
            let s := updLesson s c lesson (fun l => { l with swept := l.swept ++ [m] })
            ts.foldl (fun s t =>
              if (lessonAt s c lesson).isNone then s
              else
                let at_ := tilePlace l i t
                match heldTile s c lesson l p at_ with
                | (s, some tile) => runFrom s c lesson p at_ (.f32 tile)
                | (s, none) => s) s)

/-! ## Combines (R134, R237, R262) -/

/-- Unit results combined in increasing unit (R134), by the combine of the cell mode (Table 5-8). -/
def combineUnits (o : CellOp) (t : CTile) (us : List CTile) : CTile :=
  us.foldl (fun acc u => acc.mapIdx (fun r j e =>
    let x := u.at r j
    let v := combine2 o { total := e.1, poison := e.2 } { total := x.1, poison := x.2 }
    (v.total, v.poison))) t

/-- The partial tiles of units 1 to U − 1 for tile t, in increasing unit, from the rows that COMBINE_ROW names (R134). -/
def unitTiles (s : State) (c : Nat) (l : LessonRun) (h : Heavy) (t total : Nat) : State × Option (List CTile) :=
  (List.range h.um1).foldl (fun (q : State × Option (List CTile)) u =>
    match q.2 with
    | none => q
    | some us =>
      match rdSp q.1 c l (1024 * (h.crow + (u * total + t) * combineRows h)) (h.mt * h.nt * 4) with
      | (s, none) => (s, none)
      | (s, some bs) =>
        let es := elemsOf bs
        (s, some (us ++ [(List.range h.mt).map (fun r => (es.drop (r * h.nt)).take h.nt)]))) (s, some [])

/-- SPLIT_COMBINE (R237): unit 0 combines its oldest held tile once every unit counter has reached it. -/
def execSplitCombine (core : Fin 32) (lesson : Nat) (s : State) : Host.Outcome State Fault Refusal :=
  let c := core.val
  .next (match lessonAt s c lesson with
    | none => s
    | some l =>
      match l.tiles with
      | [] => s
      | (i, t, tile) :: rest =>
        let g := stageAt l.stages i
        let hi := heavyIdx l.stages i
        let h := hrec l.desc hi
        let o := heavyOp s c l i
        let total := g.tilesM * g.tilesN
        let here := (List.range h.um1).all (fun u => t + 1 ≤ (s.counter c (h.cctr + u)).toNat)
        let rows := if h.drain && isBackward l.desc then h.nt else h.mt
        let e := (deferredIn l i).getD (segmentEnd l.stages (i + 1))
        if !here || !residualsReady l (i + 1) e rows 1 (fun j => (shapeAt l.desc l.stages j).width) then s
        else
          let (s, us) := unitTiles s c l h t total
          match us with
          | none => lessonFault s c lesson .scratchRange
          | some us =>
            let s := updLesson s c lesson (fun l => { l with tiles := rest, combined := Map.put l.combined hi (t + 1) })
            let s := if rest.any (fun q => q.1 == i) then s else setFlag s c lesson (g.kind - 4) i false
            let s := s.updCore c (fun k => { k with combineWaits := k.combineWaits.filter (fun p =>
              !(p.1 == lesson && h.cctr ≤ p.2.1 && p.2.1 < h.cctr + h.um1 && p.2.2 == t + 1)) })
            runFrom s c lesson (i + 1) (tilePlace l i t) (.f32 (chainTurn l.desc h (combineUnits o tile us))))

/-- ATTEND_COMBINE (R262): unit 0 of a split Attend combines its next head. -/
def execAttendCombine (core : Fin 32) (lesson : Nat) (s : State) : Host.Outcome State Fault Refusal :=
  .next (match lessonAt s core lesson with
    | some l => match l.att with
      | some r => attCombineHead s core lesson l r
      | none => s
    | none => s)

/-! ## Retirement (R235) -/

/-- Whether every stage of a Lesson has finished its last tile, every store stream has ended and every combine is
done. -/
def lessonFinished (s : State) (c id : Nat) (l : LessonRun) : Bool :=
  let bound := (List.range 16).any (fun n =>
    (streamAt s c n).bound && (streamAt s c n).lesson = id && !(l.att.isSome && n ≥ 14))
  let puts := s.remote.out.any (fun o => o.req.tag == id + 1 && (match o.who with
    | .stream c' _ => c' == c
    | _ => false))
  let heavy := match l.att with
    | some r => attFinished (attCfg s c l) r
    | none => (heavies l.stages).all (fun i =>
        let g := stageAt l.stages i
        tilesDone l (heavyIdx l.stages i) ≥ g.tilesM * g.tilesN &&
        (match deferredIn l i with
         | none => true
         | some _ =>
           let n := if (hrec l.desc (heavyIdx l.stages i)).drain && isBackward l.desc then g.tilesN else g.tilesM
           (List.range n).all (fun m => l.swept.contains m)))
  let upd := if isBackward l.desc && lbop l.desc = 5 then
      let w := auxWord s c l.desc
      queueLen l updateQueue ≥ 4 * (bits (w 6) 0 16 * bits (w 6) 16 16)
    else true
  l.arms.isEmpty && !bound && !puts && heavy && l.tiles.isEmpty && l.rotHeld.isEmpty && upd

/-- The saturations of a Lesson join the step's sum of its layer (R113, R235). -/
def addSaturation (s : State) (l : LessonRun) : State :=
  if layerEn l.desc && llayer l.desc < 128 then
    { s with sched := { s.sched with
      sat := Map.upd s.sched.sat (lrep l.desc * 128 + llayer l.desc) 0 (fun n => n + l.sat) } }
  else s

/-- LESSON_RETIRE (R235): saturation sums, DONE_CTR, the completion word, in this order; then the Lesson leaves its core.
-/
def execLessonRetire (core : Fin 32) (lesson : Nat) (s : State) : Host.Outcome State Fault Refusal :=
  let c := core.val
  .next (match lessonAt s c lesson with
    | none => s
    | some l =>
      if !lessonFinished s c lesson l then s
      else
        let upd := isBackward l.desc && lbop l.desc = 5
        let s := if upd then stageServing s c lesson l else s
        match lessonAt s c lesson with
        | none => s
        | some l =>
          let s := addSaturation s l
          let (s, code) := if bit (cmdWord l.desc 0) 23 then
              (let (s, _, code) := counterApply s c (bits (cmdWord l.desc 0) 24 8) false 1
               (s, code))
            else (s, FC.ok)
          let s := completeCmd s c l.ctx l.compl .ok s.sched.step
          let s := if isBackward l.desc then s.bump .bwdLessons c else s
          let s := if upd then
              let w := auxWord s c l.desc
              let f := (Fmt.ofCode? (bits (w 6) 32 5)).getD .bf16
              let serving : Serving :=
                { core := c, off := 1024 * bits (w 6) 37 14, len := bits (w 6) 0 16 * f.rowBytes (bits (w 6) 16 16),
                  addr := w 1, addrT := w 2, lenT := bits (w 6) 16 16 * f.rowBytes (bits (w 6) 0 16) }
              { s with sched := { s.sched with serving := s.sched.serving ++ [serving] } }
            else s
          let s := lessonDrop (lessonEnded s c l .ok) c lesson l
          if code = .ok then s else faultCtx s c l.ctx code)

/-! ## Context switches (R331 to R334) -/

/-- The image of the open tile of heavy stage i after n K-steps (R137); a tile whose operands have not come holds its start
values. What an earlier image marked stays marked. The answer holds the K-steps entered.
DEDUCED (notes/assumptions/63.md). -/
def openImage (s : State) (c id : Nat) (l : LessonRun) (i a n : Nat) : Nat × List Nat :=
  let hi := heavyIdx l.stages i
  let h := hrec l.desc hi
  let t := tilesDone l hi
  let (m, nn) := tileOf (stageAt l.stages i) t
  let ready := operandReady s c l i true && operandReady s c l i false
  let opRows := fun (west : Bool) => if ready then ((takeOperand s c id i m nn west).2.map Prod.fst).getD [] else []
  let pre := ((preloadOf s c l i t nn).2).getD (fun _ _ => (0, false))
  let tr := tileRun s c l i (opRows true) (opRows false) pre
  let steps := if ready then n else 0
  let words := tr.image steps s.free (checksOn s c a h.mode)
  match Map.get? l.resumed hi with
  | none => (steps, words)
  | some (_, old) => (steps, (words.zip old).map (fun p =>
      if (p.2.2 || bit p.2.1 7) && !bit p.1 7 then p.1 + 128 else p.1))

/-- The image of the V tile of a running Attend of one head: the partition totals of its rows, +0 where nothing has been
added. -/
def attendImage (s : State) (q : AttCfg) (l : LessonRun) (r : AttRun) : List Nat :=
  let h := hrec l.desc 1
  tileImage h.mt h.nt s.free (fun p i j =>
    let a := Map.get r.rows (q.head0 * 512 + i) { }
    let e := (a.tot.getD p []).getD j (0, false)
    e.1 * 2 ^ 32 + bnat e.2 * 128 + 32) none

/-- The open heavy stage of a context on an array: its Lesson, when it is that Lesson's turn. -/
def openOn (s : State) (c a x : Nat) : Option (Nat × LessonRun) :=
  match arrayTurn s c a with
  | some id => match lessonAt s c id with
    | some l => if l.ctx = x && !heavyDone s c l a then some (id, l) else none
    | none => none
  | none => none

/-- The first Lesson of a context with a heavy stage ready for an array (R331). -/
def readyOn (s : State) (c a y : Nat) : Option (Nat × LessonRun) :=
  (s.core c).lessons.find? (fun p => p.2.ctx = y && !heavyDone s c p.2 a && (match heavyOn p.2 a, p.2.att with
    | none, _ => false
    | some i, none => tileReady s c p.1 p.2 i
    | some _, some r => !r.steps.isEmpty || a = 1))

/-- CONTEXT_SWITCH (R331 to R334): array 0 or 1 is taken from context X, blocked for CTX_SWITCH_DELAY cycles, and given to
context Y. `steps` is the number of K-steps of the open tile that had entered. -/
def execContextSwitch (core : Fin 32) (vArray : Bool) (x y : Fin 8) (steps : Nat) (s : State) :
    Host.Outcome State Fault Refusal :=
  let c := core.val
  let a := if vArray then 1 else 0
  let k := s.ctx c x
  .next (match openOn s c a x, readyOn s c a y with
    | some (ix, lx), some (iy, _) =>
      let h := hrec lx.desc (heavyIdx lx.stages ((heavyOn lx a).getD 0))
      let row := s.ent .ctxSaveRow c x.val
      let area := row != 0xFFFF
      let places := ((s.core c).heldTiles.filter (fun t => t.array == a && t.inMem)).length
      if (k.state != .blocked && k.state != .switched) || x = y || h.tlive != 1 || lresident lx.desc ||
          (lx.att.isSome && a = 1 && !area) || (!area && places ≥ 4) then s
      else
        let (n, words) := match lx.att with
          | some r => (0, if a = 1 then attendImage s (attCfg s c lx) lx r
              else tileImage 0 0 s.free (fun _ _ _ => 0) none)
          | none => openImage s c ix lx ((heavyOn lx a).getD 0) a steps
        let s := { s with free := s.free + 66560 }
        let s := if area then saveImage s c (row + 520 * a) words else s
        let s := match lx.att with
          | some r => if area then saveSoftmax s c row (attCfg s c lx) r else s
          | none => s
        let held : HeldTile := { array := a, ctx := x.val, lesson := ix, inMem := !area, steps := n,
                                 image := if area then [] else words.map (fun w => (w, false)) }
        let s := s.updCore c (fun q => { q with
          heldTiles := q.heldTiles ++ [held]
          flagOwner := q.flagOwner.filter (fun p => p.2.ctx != x.val)
          holder := Map.put q.holder a iy })
        let s := setCtxState s c x .switched
        (resumeTile s c a iy).bump .ctxSwitches c
    | _, _ => s)

/-! ## Recess (R335) -/

/-- RECESS_ENTRY (R335): a core none of whose contexts is RUNNING enters Recess. -/
def execRecessEntry (core : Fin 32) (s : State) : Host.Outcome State Fault Refusal :=
  let c := core.val
  let running := (List.range 8).any (fun x => (s.ctx c x).state = .running)
  .next (if (s.core c).recess || running || !s.corePresent c || (s.core c).inReset then s
    else (s.updCore c (fun k => { k with recess := true })).bump .recessEntries c)

end Sys2Proof.Machine
end

