-- ==== Sys2Proof/Machine/Streams.lean ====
section
/-!
DEFINITION. Stream programs (R195 to R206): arming, the stream instructions, delivery of an EMIT, the end of a stream, the
replies of remote parts, and the landing of a weight-load Lesson's slice in the ring region (R209, R210).
-/

namespace Sys2Proof.Machine

open Sys2Proof

/-! ## The ring region of a core (R208 to R210) -/

/-- The enabled cores of a cluster in increasing number: the positions of its ring (R208). -/
def ringCores (s : State) (k : Nat) : List Nat := ((List.range 8).map (· + 8 * k)).filter (fun c => s.coreFused c)

/-- The position of a core in its ring. -/
def ringPos (s : State) (c : Nat) : Nat := (ringCores s (c / 8)).findIdx (· == c)

/-- Scratchpad offset of ring buffer b of a core's cluster. -/
def ringOff (s : State) (c b : Nat) : Nat := 1024 * (s.ent .ringBaseRow (c / 8) + b * s.ent .ringSliceRows (c / 8))

/-- Bytes of a ring buffer. -/
def ringBytes (s : State) (c : Nat) : Nat := 1024 * s.ent .ringSliceRows (c / 8)

/-- The buffer for a slice of a layer: the one the table names for it, else the lowest that no layer holds and that is
not the spare.
DEDUCED (notes/assumptions/62.md). -/
def ringPlace (s : State) (c rep layer : Nat) : Option Nat :=
  let k := s.core c
  match k.ring.find? (fun r => r.rep == rep && r.layer == layer) with
  | some r => some r.buf
  | none => (List.range (s.ent .ringLayers (c / 8) + 1)).find? (fun b =>
      b != k.ringSpare && !k.ring.any (fun r => r.buf == b) && s.ent .ringSliceRows (c / 8) != 0)

/-! ## Arming (R196 to R198, R202) -/

/-- The engine queues, DEST 1 to 6, that a load program delivers to. -/
def progDests (p : List (BitVec 128)) : List Nat :=
  (progBody p).filterMap (fun i =>
    let d := insF i 116 4
    if insOp i = 8 && 1 ≤ d && d ≤ 6 then some d else none)

/-- Whether an earlier arming waits for the same stream: an earlier stage of the Lesson, or an earlier Lesson. -/
def armBehind (s : State) (c id stage n : Nat) : Bool :=
  (s.core c).lessons.any (fun p => p.2.arms.any (fun j =>
    (stageAt p.2.stages j).stream == n && (p.1 < id || (p.1 == id && j < stage))))

/-- Whether a destination queue of a load program is bound to another stream (R196). -/
def destBusy (s : State) (c : Nat) (dests : List Nat) : Bool :=
  (List.range 16).any (fun n =>
    let t := streamAt s c n
    t.bound && !bit t.arm.toNat 37 && (progDests t.prog).any (fun d => dests.contains d))

/-- STREAM_ARM (R196 to R198): the arm record of a Lesson's stage binds its stream, loads or re-arms its program and
starts it; it waits while the stream or a destination queue is bound, and while the sequence that it would walk is HELD
(R58). -/
def execStreamArm (core : Fin 32) (lesson stage : Nat) (s : State) : Host.Outcome State Fault Refusal :=
  let c := core.val
  .next (match lessonAt s c lesson with
    | none => s
    | some l =>
      let g := stageAt l.stages stage
      let n := g.stream
      let t := streamAt s c n
      let a := g.arm.toNat
      if !l.arms.contains stage || t.bound || armBehind s c lesson stage n then s
      else
        let load := bit a 39
        let off := bits (g.aw 1) 0 24
        let s := if load then s.settle (scratchAddr c off) 512 else s
        let prog : FC × List (BitVec 128) :=
          if load then
            if spMarked s c off 512 then (.dataPoisoned, [])
            else
              let p := progAt s c off
              (progCode (bit a 37) (bit a 14) p, p)
          else match t.parked with
            | some (tag, p) =>
              if tag.toNat = bits a 48 16 then (progCode (bit a 37) (bit a 14) p, p) else (.streamProgram, [])
            | none => (.streamProgram, [])
        match prog with
        | (.ok, p) =>
          let seqEn := bit a 14
          let seq := bits (g.aw 1) 32 18
          if (!bit a 37 && destBusy s c (progDests p)) || (seqEn && (s.desc seq).held) then s
          else
            let ring := lkind l.desc = 2
            let place := if ring then ringPlace s c (lrep l.desc) (llayer l.desc) else none
            if ring && place.isNone then lessonFault s c lesson .valueRange
            else
              let d := match place with
                | some b => ringOff s c b
                | none => bits (g.aw 6) 32 24
              let own := bit a 13 && l.att.isSome && l.seqs.contains seq
              let ext := if seqEn then extentOf s seq own else 0
              let ep := (s.desc seq).epoch
              let s := if seqEn then walkBegin s seq (.lesson c lesson) else s
              let s := updStream s c n (fun t =>
                { bound := true, lesson := lesson, stage := stage, arm := g.arm, prog := p, a := t.a,
                  b := (List.range 4).map (fun i => g.aw (2 + i)), d := d, extent := ext, epoch := ep })
              let s := updLesson s c lesson (fun l => { l with
                arms := l.arms.filter (· != stage), ringStart := if ring then some d else none })
              noteBound (s.bump (if load then .seProgramLoads else .seRearms) c) c
        | (code, _) => lessonFault s c lesson code)

/-! ## Registers of a stream -/

/-- Address register i. -/
def Stream.areg (t : Stream) (i : Nat) : Nat := t.a.getD i 0

/-- Address register i set. -/
def Stream.setA (t : Stream) (i v : Nat) : Stream := { t with a := t.a.set i v }

/-- An address with a signed offset: bits [47:0] modulo 2^48, the node kept (R195). -/
def addrAdd (a : Nat) (x : Int) : Nat :=
  a / 2 ^ 48 * 2 ^ 48 + ((((a % 2 ^ 48 : Nat) : Int) + x) % (2 ^ 48 : Int)).toNat

/-- A two's-complement 48-bit field of an instruction. -/
def insS (i : BitVec 128) (lo : Nat) : Int := signedOf 48 (insF i lo 48)

/-- The instruction at a stream's pc. -/
def Stream.ins (t : Stream) : BitVec 128 := t.prog.getD t.pc 0

/-- Whether a stream can execute its next instruction with opcode op. -/
def Stream.at? (t : Stream) (op : Nat) : Bool :=
  t.bound && !t.ended && !t.prog.isEmpty && t.parts.isEmpty && insOp t.ins == op

/-- A stream instruction that changes only the stream's registers, and advances. -/
def streamStep (s : State) (core : Fin 32) (n : Fin 16) (op : Nat) (f : Stream → BitVec 128 → Stream) :
    Host.Outcome State Fault Refusal :=
  let t := streamAt s core n
  .next (if t.at? op then updStream s core n (fun t => f t t.ins) else s)

/-- END (R199, R204): the program is done; the stream ends once every delivery has landed. -/
def execEnd (core : Fin 32) (stream : Fin 16) (s : State) : Host.Outcome State Fault Refusal :=
  streamStep s core stream 0 (fun t _ => { t with ended := true })

/-- Address at the start of an iteration of a Hilbert level (R200). -/
def hilbertAddr (l : Loop) : Nat :=
  let n := Nat.log2 l.count / 2
  let (x, y) := d2xy n l.idx
  addrAdd l.saved ((x : Int) * l.sx + (y : Int) * l.sy)

/-- LOOP (R200). -/
def execLoop (core : Fin 32) (stream : Fin 16) (s : State) : Host.Outcome State Fault Refusal :=
  streamStep s core stream 1 (fun t i =>
    let r := insF i 121 2
    { t with pc := t.pc + 1, loops := { body := t.pc + 1, count := insF i 96 25, areg := r, sx := insS i 0, sy := 0,
                                        saved := t.areg r, idx := 0, hilbert := false } :: t.loops })

/-- HLOOP (R200). -/
def execHloop (core : Fin 32) (stream : Fin 16) (s : State) : Host.Outcome State Fault Refusal :=
  streamStep s core stream 3 (fun t i =>
    let r := insF i 121 2
    let l : Loop := { body := t.pc + 1, count := 4 ^ insF i 117 4, areg := r, sx := insS i 0, sy := insS i 48,
                      saved := t.areg r, idx := 0, hilbert := true }
    { t.setA r (hilbertAddr l) with pc := t.pc + 1, loops := l :: t.loops })

/-- ENDL (R200). -/
def execEndl (core : Fin 32) (stream : Fin 16) (s : State) : Host.Outcome State Fault Refusal :=
  streamStep s core stream 2 (fun t _ =>
    match t.loops with
    | [] => { t with pc := t.pc + 1 }
    | l :: rest =>
      let l' := { l with idx := l.idx + 1 }
      if l'.idx < l.count then
        let v := if l.hilbert then hilbertAddr l' else addrAdd (t.areg l.areg) l.sx
        { t.setA l.areg v with pc := l.body, loops := l' :: rest }
      else { t.setA l.areg l.saved with pc := t.pc + 1, loops := rest })

/-- SETA (R199). -/
def execSeta (core : Fin 32) (stream : Fin 16) (s : State) : Host.Outcome State Fault Refusal :=
  streamStep s core stream 4 (fun t i =>
    { t.setA (insF i 121 2) (addrAdd (t.b.getD (insF i 119 2) 0) (insS i 0)) with pc := t.pc + 1 })

/-- ADDA (R199). -/
def execAdda (core : Fin 32) (stream : Fin 16) (s : State) : Host.Outcome State Fault Refusal :=
  streamStep s core stream 5 (fun t i =>
    { t.setA (insF i 121 2) (addrAdd (t.areg (insF i 121 2)) (insS i 0)) with pc := t.pc + 1 })

/-- SETD (R199). -/
def execSetd (core : Fin 32) (stream : Fin 16) (s : State) : Host.Outcome State Fault Refusal :=
  streamStep s core stream 6 (fun t i => { t with d := insF i 0 24, pc := t.pc + 1 })

/-! ## WALK (R201) -/

/-- The place after the ENDL that closes the level whose body starts at pc. -/
def afterEndl (p : List (BitVec 128)) (fuel pc depth : Nat) : Nat :=
  match fuel with
  | 0 => pc
  | f + 1 =>
    let op := insOp (p.getD pc 0)
    if op = 1 || op = 3 then afterEndl p f (pc + 1) (depth + 1)
    else if op = 2 then (if depth = 0 then pc + 1 else afterEndl p f (pc + 1) (depth - 1))
    else afterEndl p f (pc + 1) depth

/-- A WALK at the end of the extent ends the loop at a level: its register is restored and execution continues after its
ENDL. A LEVEL 7 outside every loop ends the program. -/
def endLoopAt (t : Stream) (level : Nat) : Stream :=
  let drop := if level = 7 then 0 else t.loops.length - 1 - level
  match t.loops.drop drop with
  | [] => { t with ended := true }
  | l :: rest => { t.setA l.areg l.saved with pc := afterEndl t.prog 32 l.body 0, loops := rest }

/-- Result address of a WALK from a frame's global address (R201). -/
def walkAddr (lay : Layout) (base part z : Nat) : Nat :=
  let q := z % lay.perPage
  base + (match part with
    | 0 => lay.rowOff q 0 false
    | 1 => lay.rowOff q 0 true
    | 2 => 0x100
    | _ => lay.sumOff q)

/-- WALK (R201): a slot page is translated into an address register. -/
def execWalk (core : Fin 32) (stream : Fin 16) (s : State) : Host.Outcome State Fault Refusal :=
  let c := core.val
  let n := stream.val
  let t := streamAt s c n
  .next (if !t.at? 7 then s
    else
      match lessonAt s c t.lesson with
      | none => s
      | some l =>
        let i := t.ins
        let r := insF i 121 2
        let level := insF i 118 3
        let z := insF i 104 12
        let off := insF i 0 48
        let seq := bits t.arm.toNat 96 18
        -- the slot page: a loop index, or the next word of a list
        let page : State × FC × Option Nat :=
          if level = 7 then
            match rdSp s c l (t.areg 3 % 2 ^ 24) 4 with
            | (s, none) => (s, .scratchRange, none)
            | (s, some w) =>
              let v := leNat (mbytes w)
              if w.any Prod.snd then (s, .dataPoisoned, none)
              else (updStream s c n (fun t => t.setA 3 (addrAdd (t.areg 3) 4)), .ok, if v = 0xFFFFFFFF then none else some v)
          else
            (s, .ok, some ((((t.loops.drop (t.loops.length - 1 - level)).head?.map (fun q => q.idx)).getD 0 + off) % 2 ^ 48))
        match page with
        | (s, .ok, none) => updStream s c n (fun t => endLoopAt t level)
        | (s1, .ok, some sp) =>
          if 256 * sp ≥ t.extent then updStream s1 c n (fun t => endLoopAt t level)
          else
            match seqLayout s1 seq with
            | none => lessonFaultSeq s1 c t.lesson .chartMalformed (some seq)
            | some lay =>
              match translate s1 c t.lesson seq t.epoch (chartPage lay sp z) with
              | (s2, .entry e) =>
                updStream s2 c n (fun t =>
                  { t.setA r (walkAddr lay (frameGlobal s2 e) (insF i 116 2) z) with
                    pc := t.pc + 1, pages := (e, sp) :: t.pages.filter (· != (e, sp)) })
              -- an assisted walk: nothing but its request has happened, and the WALK is tried again when it is answered
              | (s2, .wait) => if level = 7 then updStream s2 c n (fun t' => t'.setA 3 (t.areg 3)) else s2
              | (s2, .fault code) => lessonFaultSeq s2 c t.lesson code (blamed code false seq)
        | (s, code, _) => lessonFault s c t.lesson code)

/-! ## EMIT: data to a destination (R203, R205, R206) -/

/-- Bytes up to and including the first poisoned word. -/
def throughPoison (a : Nat) (bs : List MByte) : List MByte :=
  match bs.findIdx? Prod.snd with
  | some i => bs.take ((a + i) / 16 * 16 + 16 - a)
  | none => bs

/-- Whether a stream stops at poison: TRAP_POISON of its record or of its Lesson (R206, R236).
DEDUCED (notes/assumptions/58.md). -/
def streamTraps (t : Stream) (l : LessonRun) : Bool := bit t.arm.toNat 36 || ltrap l.desc

/-- Whether a range lies in the scratchpad of core c itself. -/
def ownScratch (c a : Nat) : Bool := scratchBase + c * 0x1000000 ≤ a && a < scratchBase + c * 0x1000000 + scratchSize

/-- An EMIT has moved its data: counts, POST, and the next instruction. -/
def emitDone (s : State) (c n : Nat) : State :=
  updStream s c n (fun t =>
    let i := t.ins
    let len := 16 * (insF i 96 16 + 1)
    let t := if bit i.toNat 120 then t.setA (insF i 121 2) (addrAdd (t.areg (insF i 121 2)) len) else t
    { t with pc := t.pc + 1, parts := [] })

/-- Data of a load stream's EMIT reaches its destination (R203, R185, R193, R206). `g` is the global source address. -/
def deliver (s : State) (c n : Nat) (l : LessonRun) (g : Nat) (data : List MByte) : State :=
  let t := streamAt s c n
  let id := t.lesson
  let a := t.arm.toNat
  let dest := insF t.ins 116 4
  let trap := streamTraps t l && data.any Prod.snd
  let bs := if trap then throughPoison (g % 2 ^ 48) data else data
  let s := noteLines s c (g % 2 ^ 48) bs
  let localHbm := isLocal s (g / 2 ^ 48) && g % 2 ^ 48 < hbmEnd
  let weight := bit a 41 && localHbm
  let partLine := weight && !trap && !wholeLines t.d bs.length
  let finish := fun (s : State) => if trap then lessonFault s c id .dataPoisoned else emitDone s c n
  let advance := fun (s : State) => updStream s c n (fun t => { t with d := (t.d + data.length) % 2 ^ 24 })
  match dest with
  | 0 =>
    if partLine then lessonFault s c id .scratchRange
    else if l.ringStart.any (fun st => t.d + bs.length > st + ringBytes s c) then lessonFault s c id .valueRange
    else
      match wrSp s c l t.d bs with
      | none => lessonFault s c id .scratchRange
      | some s' =>
        finish (advance (if weight then weightFill s c t.d (mbytes bs) (marksOf (scratchAddr c t.d) bs) (g % 2 ^ 48)
          else s'))
  | 7 =>
    let mask := bits a 16 8
    let code := mcastCode s (c / 8) mask
    if code != .ok then lessonFault s c id code
    else if t.d + bs.length > scratchSize || partLine ||
        (bit mask (c % 8) && !inRanges (runWrites l) t.d bs.length) then
      lessonFault s c id .scratchRange
    else
      let s := s.bump .mcastRequests (c / 8)
      let (s, code) := mcastDeliver s c mask t.d (bits a 24 8) (mbytes bs) (marksOf t.d bs)
        (if weight then some (g % 2 ^ 48) else none)
      if code != .ok then lessonFault s c id code else finish (advance s)
  | d =>
    let key := if d ≤ 4 then d else 8 + t.stage
    let s := updLesson s c id (fun l => { l with bufs := Map.upd l.bufs key [] (fun q => q ++ bs) })
    let s := setFlag s c id 4 (queueStage l key) true
    pumpSource (finish s) c id

/-- The sequence that a stream walks. -/
def walkSeq (t : Stream) : Nat := bits t.arm.toNat 96 18

/-- Whether a global address lies in a page that a WALK of the stream has named on another node (R53). -/
def walkedRemote (s : State) (t : Stream) (g : Nat) : Bool :=
  match seqLayout s (walkSeq t) with
  | some lay => (t.pages.find? (fun p => frameGlobal s p.1 ≤ g && g < frameGlobal s p.1 + lay.pageBytes)).any
      (fun p => eRemote p.1)
  | none => false

/-- Whether the walk of a stream carries another epoch than its sequence has now (R57, R205). -/
def streamStale (s : State) (t : Stream) : Bool := bit t.arm.toNat 14 && (s.desc (walkSeq t)).epoch != t.epoch

/-- A walk of a superseded epoch faults its Lesson (R59). -/
def staleFault (s : State) (c : Nat) (t : Stream) : State := lessonFaultSeq s c t.lesson .chartEpoch (some (walkSeq t))

/-- The local bytes of a load stream's EMIT, line by line (R472, R175, R189). -/
def readLocal (s : State) (c n : Nat) (l : LessonRun) (g len : Nat) : State × FC × List MByte :=
  let t := streamAt s c n
  let a := g % 2 ^ 48
  let size := 2 ^ (((s.charts.parts.map Prod.snd).find? (fun p => p.base ≤ a && a < p.base + p.size)).map
    (fun p => p.log2)).getD 0
  let shared := t.pages.any (fun p => eShared p.1 && !eRemote p.1 && eFrame p.1 ≤ a && a + len ≤ eFrame p.1 + size)
  if ownScratch c a && !inRanges (runReads l) (a - scratchAddr c 0) len then (s, .scratchRange, [])
  else
    (linePieces (len + 1) a len).foldl (fun (acc : State × FC × List MByte) p =>
      let (s, code, out) := acc
      if code != .ok then acc
      else
        let x := a + p.1
        let rq : Req := { origin := .inside (.stream (Fin.ofNat 32 c) (Fin.ofNat 8 l.ctx) (Fin.ofNat 16 n)),
                          target := BitVec.ofNat 64 (g / 2 ^ 48 * 2 ^ 48 + x), len := p.2 }
        match insideCode s .get rq with
        | .ok =>
          if x < hbmEnd then
            let (s, d, m, code) := if shared then commonsRead s (c / 8) x p.2
              else hbmRead s (c / 8) (bit t.arm.toNat 40) x p.2
            (countHbm s c l x p.2, code, out ++ withMarks x d m)
          else
            match serveInside s .get rq with
            | (s, some r) => (s, r.code, out ++ withMarks x r.data r.poison)
            | (s, none) => (s, .ok, out ++ withMarks x (zeros p.2) [])
        | code => (s, code, out)) (s, .ok, [])

/-! ## EMIT: stores, with the chart's rules (R41, R34, R35, R203) -/

/-- Of 256 pieces of `len` bytes from `lo` on, those that [o, o + n) touches. -/
def touchedPieces (lo len o n : Nat) : List Nat :=
  let hi := lo + 256 * len
  if n = 0 || len = 0 || o + n ≤ lo || hi ≤ o then []
  else
    let first := (max o lo - lo) / len
    let last := (min (o + n) hi - 1 - lo) / len
    (List.range (last + 1 - first)).map (fun j => first + j)

/-- Slots of a plane area whose K (or V) rows a store of [o, o + n) of a frame touches, as (plane area, slot). -/
def touchedRows (lay : Layout) (planes o n : Nat) (v : Bool) : List (Nat × Nat) :=
  (List.range planes).flatMap (fun q => (touchedPieces (lay.rowOff q 0 v) lay.row o n).map (fun j => (q, j)))

/-- Slots of a plane area whose K side words such a store touches. -/
def touchedSides (lay : Layout) (planes o n : Nat) : List (Nat × Nat) :=
  if !lay.outlier then []
  else (List.range planes).flatMap (fun q =>
    (touchedPieces (lay.sideOff q 0 false) (lay.width / 32 * 4) o n).map (fun j => (q, j)))

/-- The metadata row of slot j of slot page sp when it is one that this step appends (R41); `none` for another slot. -/
def appendRow (s : State) (seq sp j : Nat) : Option Nat :=
  let d := s.desc seq
  let slot := 256 * sp + j
  if slot < d.committedLen || slot ≥ d.committedLen + d.appendLen + d.draftLen then none
  else
    let i := slot - d.committedLen
    some ((d.nextPos + i) % 2 ^ 48 * 2 ^ 80 + bnat (i ≥ d.appendLen) * 2 + 1)

/-- After a store of [a, a + n) into a page: metadata rows of appended slots, and the summaries of its K rows, whose outliers
its side words hold. -/
def chartStored (s : State) (c seq : Nat) (lay : Layout) (frame sp a n : Nat) : State :=
  let o := a - frame
  let ks := touchedRows lay lay.perPage o n false
  let vs := touchedRows lay lay.perPage o n true
  let slots := ((ks ++ vs).map Prod.snd).foldl (fun l j => insertNat j l) []
  let s := slots.foldl (fun s j =>
    match appendRow s seq sp j with
    | some row => s.write (frame + 0x100 + 16 * j) (natLe 16 row) [] (some (c / 8))
    | none => s) s
  if !lay.summary then s
  else
    (List.range lay.perPage).foldl (fun s q =>
      let js := ((ks ++ touchedSides lay lay.perPage o n).filter (fun p => p.1 == q)).foldl (fun l p => insertNat p.2 l) []
      if js.isEmpty then s else widenSummary s lay frame q js) s

/-- A store stream's EMIT writes its data, line by line. Local writes are checked and performed at once; lines for
another node are sent as puts, and their acknowledges are outstanding (R203, R204). -/
def writeLines (s : State) (c n : Nat) (l : LessonRun) (g : Nat) (data : List MByte) : State × FC :=
  let t := streamAt s c n
  let id := t.lesson
  let node := g / 2 ^ 48
  let a := g % 2 ^ 48
  let iss : Issuer := .stream (Fin.ofNat 32 c) (Fin.ofNat 8 l.ctx) (Fin.ofNat 16 n)
  if isLocal s node && ownScratch c a && !inRanges (runWrites l) (a - scratchAddr c 0) data.length then
    (s, .scratchRange)
  else
    (linePieces (data.length + 1) a data.length).foldl (fun (acc : State × FC) p =>
      let (s, code) := acc
      if code != .ok || (lessonAt s c id).isNone then acc
      else
        let d := mslice data p.1 p.2
        let x := a + p.1
        let rq : Req := { origin := .inside iss, tenant := BitVec.ofNat 12 (s.ctx c l.ctx).tenant,
                          target := BitVec.ofNat 64 (node * 2 ^ 48 + x), len := p.2, data := mbytes d,
                          poison := marksOf x d }
        if outMuted s l (node * 2 ^ 48 + x) p.2 then acc
        else if isLocal s node then
          match serveInside s .put rq with
          | (s, some r) => (countHbm s c l x p.2, r.code)
          | (s, none) => (s, .ok)
        else
          match sendOut s .put rq iss (.stream c n) with
          | (s, some r) => (s, r.code)
          | (s, none) => (updStream s c n (fun t => { t with acks := t.acks + 1 }), .ok)) (s, .ok)

/-- The page that a store address lies in, of those that the stream's WALKs have named: entry and slot page (R41). -/
def storePage (s : State) (t : Stream) (lay : Layout) (g : Nat) : Option (Nat × Nat) :=
  t.pages.find? (fun p => frameGlobal s p.1 ≤ g && g < frameGlobal s p.1 + lay.pageBytes)

/-- The data of a store stream's EMIT: from the scratchpad at D, or from the drain data of its stage. -/
def storeData (s : State) (c n : Nat) (l : LessonRun) (len : Nat) : State × FC × Option (List MByte) :=
  let t := streamAt s c n
  if insF t.ins 116 4 = 0 then
    match rdSp s c l t.d len with
    | (s, some d) => (updStream s c n (fun t => { t with d := (t.d + len) % 2 ^ 24 }), .ok, some d)
    | (s, none) => (s, .scratchRange, none)
  else
    let q := Map.get l.outs t.stage []
    if q.length < len then (s, .ok, none)
    else
      let s := updLesson s c t.lesson (fun l => { l with outs := Map.put l.outs t.stage (q.drop len) })
      (if q.length = len then setFlag s c t.lesson (stageEngine l.stages (t.stage - 1)) t.stage false else s, .ok, some (q.take len))

/-- An EMIT of a store stream (R203): it waits until the data is there. -/
def emitStore (s : State) (c n : Nat) (l : LessonRun) : State :=
  let t := streamAt s c n
  let id := t.lesson
  let i := t.ins
  let len := 16 * (insF i 96 16 + 1)
  let g := t.areg (insF i 121 2)
  let seq := bits t.arm.toNat 96 18
  let lay := if bit t.arm.toNat 14 then seqLayout s seq else none
  let page := lay.bind (fun y => storePage s t y g)
  match page with
  | some (e, _) =>
    if eShared e || eRemote e then lessonFaultSeq s c id .chartRemoteWrite (some seq)
    else go s t id i len g seq lay page
  | none => go s t id i len g seq lay page
where
  /-- The move itself, once the chart allows it. -/
  go (s : State) (t : Stream) (id : Nat) (_ : BitVec 128) (len g seq : Nat) (lay : Option Layout)
      (page : Option (Nat × Nat)) : State :=
    match storeData s c n l len with
    | (s, .ok, none) => s
    | (s, .ok, some data) =>
      let trap := streamTraps t l && data.any Prod.snd
      let bs := if trap then throughPoison (g % 2 ^ 48) data else data
      let s := s.bump .seLinesOut c 0 (linesOf (g % 2 ^ 48) bs.length)
      let s := s.bump .sePoisonLines c 0 (poisonLines (g % 2 ^ 48) bs)
      match writeLines s c n l g bs with
      | (s, .ok) =>
        if trap then lessonFault s c id .dataPoisoned
        else
          emitDone (match lay, page with
            | some y, some (e, sp) => chartStored s c seq y (eFrame e) sp (g % 2 ^ 48) bs.length
            | _, _ => s) c n
      | (s, code) => lessonFaultSeq s c id code (blamed code false seq)
    | (s, code, _) => lessonFault s c id code

/-- An EMIT of a load stream (R203): local data is delivered at once; lines of another node are requested, and delivered
when all have come. -/
def emitLoad (s : State) (c n : Nat) (l : LessonRun) : State :=
  let t := streamAt s c n
  let id := t.lesson
  let i := t.ins
  let len := 16 * (insF i 96 16 + 1)
  let g := t.areg (insF i 121 2)
  let node := g / 2 ^ 48
  let mask := if insF i 116 4 = 7 then mcastCode s (c / 8) (bits t.arm.toNat 16 8) else .ok
  if mask != .ok then lessonFault s c id mask
  else if isLocal s node then
    match readLocal s c n l g len with
    | (s, .ok, data) => deliver s c n l g data
    | (s, code, _) => lessonFault s c id code
  else
    let iss : Issuer := .stream (Fin.ofNat 32 c) (Fin.ofNat 8 l.ctx) (Fin.ofNat 16 n)
    let (s, code) := (linePieces (len + 1) (g % 2 ^ 48) len).foldl (fun (acc : State × FC) p =>
      let (s, code) := acc
      if code != .ok then acc
      else
        let rq : Req := { origin := .inside iss, tenant := BitVec.ofNat 12 (s.ctx c l.ctx).tenant,
                          target := BitVec.ofNat 64 (g + p.1), len := p.2 }
        let num := s.remote.nextReq
        match sendOut s .get rq iss (.stream c n) with
        | (s, some r) => (s, r.code)
        | (s, none) => (updStream s c n (fun t =>
            { t with parts := t.parts ++ [{ num := num, off := p.1, data := none }] }), .ok)) (s, .ok)
    if code = .ok then s
    else lessonFaultSeq s c id code (if bit t.arm.toNat 14 then blamed code (walkedRemote s t g) (walkSeq t) else none)

/-- EMIT (R203). While its context is switched out, a stream stays at the EMIT (R204, R330); a walk whose sequence has taken
another epoch faults its Lesson (R59). -/
def execEmit (core : Fin 32) (stream : Fin 16) (s : State) : Host.Outcome State Fault Refusal :=
  let t := streamAt s core stream
  .next (if !t.at? 8 then s
    else match lessonAt s core t.lesson with
      | none => s
      | some l =>
        if (s.ctx core l.ctx).state = .switched then s
        else if streamStale s t then staleFault s core t
        else if bit t.arm.toNat 37 then emitStore s core stream l else emitLoad s core stream l)

/-- The reply of a request that a stream, or a Lesson through a stream, sent to another node (R203, R237, R261): data of a
load EMIT is kept until every line is in, an acknowledge of a store is counted off, a refusal faults the Lesson. -/
def streamReply (s : State) (c n : Nat) (num opCode tag : Nat) (ans : Ans) : State :=
  if tag != 0 then (if ans.code = .ok then s else lessonFault s c (tag - 1) ans.code)
  else
    let t := streamAt s c n
    let id := t.lesson
    if !t.bound then s.discard
    else if streamStale s t then staleFault s.discard c t
    else if ans.code != .ok then
      let remote := opCode = 2 && walkedRemote s t (t.areg (insF t.ins 121 2))
      lessonFaultSeq s c id ans.code (if bit t.arm.toNat 14 then blamed ans.code remote (walkSeq t) else none)
    else if opCode != 2 then updStream s c n (fun t => { t with acks := t.acks - 1 })
    else
      let g := t.areg (insF t.ins 121 2)
      let parts := t.parts.map (fun p =>
        if p.num = num then { p with data := some (withMarks (g % 2 ^ 48 + p.off) ans.data ans.poison) } else p)
      let s := updStream s c n (fun t => { t with parts := parts })
      if parts.any (fun p => p.data.isNone) then s
      else match lessonAt s c id with
        | some l => deliver s c n l g (parts.flatMap (fun p => p.data.getD []))
        | none => s

/-! ## MARK, WAIT and the end (R199, R204, R328) -/

/-- A counter of the core increments for a stream; a refusal faults the context that bound it (R325, R327). -/
def streamCount (s : State) (c ctr ctx : Nat) : State :=
  let (s, _, code) := counterApply s c ctr false 1
  if code = .ok then s else faultCtx s c ctx code

/-- MARK (R204): the counter increments once every earlier EMIT has landed. -/
def execMark (core : Fin 32) (stream : Fin 16) (s : State) : Host.Outcome State Fault Refusal :=
  let t := streamAt s core stream
  .next (if !t.at? 9 || t.acks != 0 then s
    else match lessonAt s core t.lesson with
      | none => s
      | some l =>
        streamCount (updStream s core stream (fun t => { t with pc := t.pc + 1 })) core (insF t.ins 115 8) l.ctx)

/-- WAIT (R199, R328): the stream stops until the counter holds at least N. -/
def execWait (core : Fin 32) (stream : Fin 16) (s : State) : Host.Outcome State Fault Refusal :=
  let t := streamAt s core stream
  let ctr := insF t.ins 115 8
  let n := insF t.ins 83 32
  .next (if !t.at? 10 then s
    else if n ≤ (s.counter core ctr).toNat then
      settleAll ((updStream s core stream (fun t => { t with pc := t.pc + 1 })).updCore core (fun k =>
        { k with waits := Map.erase k.waits stream })) core
    else settleAll (s.updCore core (fun k => { k with waits := Map.put k.waits stream (ctr, n) })) core)

/-- A weight-load Lesson's slice is complete: its length is checked and the ring table names it (R210). -/
def ringLoaded (s : State) (c id : Nat) (l : LessonRun) (t : Stream) : State :=
  match l.ringStart with
  | none => s
  | some st =>
    let len := t.d - st
    if len = 0 || len % 256 != 0 || len > ringBytes s c then lessonFault s c id .valueRange
    else
      let rep := lrep l.desc
      let layer := llayer l.desc
      let e : RingEnt :=
        { rep := rep, layer := layer, buf := (st / 1024 - s.ent .ringBaseRow (c / 8)) / max 1 (s.ent .ringSliceRows (c / 8)),
          slice := ringPos s c, len := len, fmt := bits t.arm.toNat 43 5, side := bit t.arm.toNat 42,
          stream := bits t.arm.toNat 32 4 }
      s.updCore c (fun k => { k with
        ring := k.ring.filter (fun r => !(r.rep == rep && r.layer == layer)) ++ [e] })

/-- STREAM_END (R204): a stream that reached END and whose deliveries have landed ends: DONE_CTR increments when DONE_EN
is 1. -/
def execStreamEnd (core : Fin 32) (stream : Fin 16) (s : State) : Host.Outcome State Fault Refusal :=
  let t := streamAt s core stream
  let a := t.arm.toNat
  .next (if !t.bound || !t.ended || !t.parts.isEmpty || t.acks != 0 then s
    else match lessonAt s core t.lesson with
      | none => s
      | some l =>
        if streamStale s t then staleFault s core t
        else
        let s := streamRelease s core stream
        let s := if bit a 15 then streamCount s core (bits a 24 8) l.ctx else s
        pumpSource (ringLoaded s core t.lesson l t) core t.lesson)

end Sys2Proof.Machine
end

