-- ==== Sys2Proof/Machine/Rings.lean ====
section
/-!
DEFINITION. Weight rotation on the cluster ring (R208 to R213): a pass sends the current slice of a layer to the
successor's spare buffer, and its completion exchanges buffer and spare.
-/

namespace Sys2Proof.Machine

open Sys2Proof

/-- The successor of a core on its ring (R208). -/
def ringNext (s : State) (c : Nat) : Nat :=
  let cs := ringCores s (c / 8)
  cs.getD ((ringPos s c + 1) % max 1 cs.length) c

/-- The entry of a layer in a core's ring table. -/
def ringEntry (s : State) (c rep layer : Nat) : Option RingEnt :=
  (s.core c).ring.find? (fun r => r.rep == rep && r.layer == layer)

/-- The open pass of a layer on a core. -/
def ringPass (s : State) (c rep layer : Nat) : Option RingPass :=
  (s.core c).ringPasses.find? (fun p => p.rep == rep && p.layer == layer)

/-- The open pass of a layer replaced, or added. -/
def setPass (s : State) (c : Nat) (p : RingPass) : State :=
  s.updCore c (fun k => { k with
    ringPasses := k.ringPasses.filter (fun q => !(q.rep == p.rep && q.layer == p.layer)) ++ [p] })

/-- The ring of a cluster is emptied on every core (R209, R213); with `faults`, every stage that waits on it faults its
Lesson with FC_TARGET_RESET. -/
def ringEmpty (s : State) (k : Nat) (faults : Bool) : State :=
  (List.range 8).foldl (fun s i =>
    let c := 8 * k + i
    let waiting := (s.core c).lessons.filter (fun p => (heavies p.2.stages).any (fun h =>
      (operandSrc p.2.stages h false).isRing && !heavyDone s c p.2 ((stageAt p.2.stages h).kind - 4)))
    let s := s.updCore c (fun q => { q with ring := [], ringPasses := [], ringSpare := 0 })
    if faults then waiting.foldl (fun s p => lessonFault s c p.1 .targetReset) s else s) s

/-- A slice lands line by line in a buffer of another core: a weight line with its HOME and the CRC it travelled with,
checked on arrival and repaired from HOME when it fails (R185, R211). -/
def sendSlice (s : State) (c0 off0 c1 off1 len : Nat) : State :=
  (List.range (len / 256)).foldl (fun s i =>
    let a := scratchAddr c0 (off0 + 256 * i)
    let o := off1 + 256 * i
    let b := scratchAddr c1 o
    let tag := Map.get? s.wtags (a / 256)
    let (s, d, marks) := s.read a 256
    match tag with
    | none => s.write b d marks (some (c1 / 8))
    | some w =>
      let s := weightFill s c1 o d marks w.home (some [w.crc])
      if lineDamaged s b then (refetchLine s b).bump .ringCrcFaults (c1 / 8) else s) s

/-- Whether a using stage of a Lesson has retired: it has released its last tile, or the Lesson has left its core. -/
def ringStageDone (s : State) (c id i : Nat) : Bool :=
  match lessonAt s c id with
  | none => true
  | some l =>
    let g := stageAt l.stages i
    tilesDone l (heavyIdx l.stages i) ≥ g.tilesM * g.tilesN

/-- RING_PASS (R211): the pass of the layer that a Lesson's heavy stage uses begins on its core, and the slice goes to the
successor's spare once that is free. -/
def execRingPass (core : Fin 32) (lesson : Nat) (s : State) : Host.Outcome State Fault Refusal :=
  let c := core.val
  .next (match lessonAt s c lesson with
    | none => s
    | some l =>
      let rep := lrep l.desc
      let layer := llayer l.desc
      let use := (heavies l.stages).find? (fun h =>
        (operandSrc l.stages h false).isRing && !ringStageDone s c lesson h)
      match use, ringEntry s c rep layer with
      | some h, some e =>
        let p := (ringPass s c rep layer).getD { rep := rep, layer := layer, lesson := lesson, begun := false }
        if p.begun && (p.lesson != lesson || p.stage != h || p.sent) then s
        else
          let p := { p with begun := true, lesson := lesson, stage := h }
          let s := setPass s c p
          let d := ringNext s c
          if (s.core d).inReset || (s.core d).gated then lessonFault s c lesson .targetReset
          else if (s.core d).ringPasses.any (fun q => q.arrived.isSome) then s
          else
            let spare := (s.core d).ringSpare
            let s := sendSlice s c (ringOff s c e.buf) d (ringOff s d spare) e.len
            let q := (ringPass s d rep layer).getD { rep := rep, layer := layer, lesson := 0, begun := false }
            let s := setPass s d { q with arrived := some { e with buf := spare } }
            match ringPass s c rep layer with
            | some p => setPass s c { p with sent := true }
            | none => s
      | some _, none => lessonFault s c lesson .ringAbsent
      | none, _ => s)

/-- RING_PASS_COMPLETE (R211): the send is acknowledged, the arrival has landed and the using stage has retired: the table
names the arrival's buffer, the departed buffer becomes the spare. -/
def execRingPassComplete (core : Fin 32) (rep : BitVec 12) (layer : BitVec 8) (s : State) :
    Host.Outcome State Fault Refusal :=
  let c := core.val
  .next (match ringPass s c rep.toNat layer.toNat, ringEntry s c rep.toNat layer.toNat with
    | some p, some e =>
      match p.arrived with
      | some a =>
        if !p.begun || !p.sent || !ringStageDone s c p.lesson p.stage then s
        else
          (s.updCore c (fun k => { k with
            ring := k.ring.map (fun r => if r.rep == p.rep && r.layer == p.layer then a else r)
            ringSpare := e.buf
            ringPasses := k.ringPasses.filter (fun q => !(q.rep == p.rep && q.layer == p.layer)) })).bump .ringPasses (c / 8)
      | none => s
    | _, _ => s)

end Sys2Proof.Machine
end

