-- ==== Sys2Proof/Machine/Values.lean ====
section
/-!
DEFINITION. Values of dictionary entries: the entry's own checks, the bounds that name other entries, the checks of the
owning chapters on sets of entries (R25, R26, R28, R73, R97), base and effective values (R385), and what takes effect with
a value.
-/

namespace Sys2Proof.Machine

open Sys2Proof

/-! ## Views -/

/-- Effective value of the entry at a key. -/
def effAt (s : State) (key : Nat) : Nat :=
  match Map.get? s.dict.eff key with
  | some v => v
  | none => keyDefault key

/-- Base value of the entry at a key (R385). -/
def baseAt (s : State) (key : Nat) : Nat :=
  match Map.get? s.dict.base key with
  | some v => v
  | none => keyDefault key

/-- A view of values with the value at one key replaced. -/
def viewWith (w : Nat → Nat) (key v : Nat) (k : Nat) : Nat := if k = key then v else w k

/-! ## The entry's own checks -/

/-- Whether a range lies in one HBM quadrant (Table 1-6). -/
def inOneQuadrant (a n : Nat) : Bool := n != 0 && a + n ≤ hbmEnd && a / 0x9000000000 == (a + n - 1) / 0x9000000000

/-- Whether a frequency triple lies in the ranges of Table 16-2. -/
def opFreqOk (v : Nat) : Bool :=
  let core := bits v 0 16
  let fab := bits v 16 16
  let cc := bits v 32 16
  300 ≤ core && core ≤ 940 && 750 ≤ fab && fab ≤ 1500 && 1200 ≤ cc && cc ≤ 2400

/-- Design limit of a rail in amperes (Table 17-1). -/
def designLimit (k : Nat) : Nat := [1450, 900, 150, 200].getD k 0

/-- Enabled cores (R13). -/
def enabledCores (s : State) : Nat := ((List.range 32).filter s.corePresent).length

/-- Whether a Timetable map may be held (R170): no port code from 0x8 to 0xE, and the SE owns a slot. -/
def slotMapOk (v : Nat) : Bool :=
  let owners := (List.range 8).map (fun k => bits v (4 * k) 4)
  owners.all (fun o => o < 8 || o == 15) && owners.contains 6

/-- What the entry's own chapter asks of a value beside its range, without regard to other entries. -/
def ownExtra (s : State) (n : Name) (k v : Nat) : Bool :=
  if n = .ttSlotMap then slotMapOk v
  else if n = .linkRole then v ≤ 4 || v == 15
  else if n = .pgIlim then designLimit k ≤ 10 * v && v ≤ designLimit k
  else if n = .pgStatic then f32 v != .nan && !Fp.lt (f32 v) .zero
  else if n = .pgCoef then f32 v != .nan && !Fp.lt (f32 v) .zero && !Fp.lt (Fp.ofInt 100 0) (f32 v)
  else if n = .pgBMin then v ≤ 16 * enabledCores s
  else if n = .pgOpFreq then opFreqOk v
  else if n = .reportBase then v == 0 || inOneQuadrant v 0x2021000
  else if n = .wfgBase || n = .traceBase || n = .repBase then v < hbmEnd
  else if n = .ctxSaveRow then v ≤ 11240 || v == 0xFFFF
  else if n = .schedDescBase then v % descTableSize == 0 && v + descTableSize ≤ hbmEnd
  else true

/-- The checks of an entry on a value by itself (R371 checks 7 and 8, R387): reserved bits, then the fixed range. -/
def ownCode (s : State) (e : Entry) (k v : Nat) : FC :=
  if v &&& e.res != 0 then .reservedNonzero
  else if v < e.lo || e.hi < v || v % e.mul != 0 || !ownExtra s e.name k v then e.err
  else .ok

/-! ## Bounds that name other entries -/

/-- Whether the ring region of cluster u passes the last row (R209). -/
def ringPasses (w : Nat → Nat) (u : Nat) : Bool :=
  12288 < w (Name.key .ringBaseRow u) + (w (Name.key .ringLayers u) + 1) * w (Name.key .ringSliceRows u)

/-- Whether an entry is one of the cluster's ring entries. -/
def isRing (n : Name) : Bool := n == .ringBaseRow || n == .ringSliceRows || n == .ringLayers

/-- Whether an entry selects the mode of a function (Table 3-8). -/
def isFnMode (e : Entry) : Bool := e.idx == 0x2100

/-- Whether the host's assist buffers are set (R97). -/
def hostBuffers (w : Nat → Nat) : Bool :=
  w (Name.key .fnHostRing) != 0 && w (Name.key .fnHostArg) != 0 && w (Name.key .fnAnswerBase) != 0

/-- The code of a value under the bounds that name other entries, judged in a view (R85, R97, R209, R387). -/
def boundCode (w : Nat → Nat) (e : Entry) (u k v : Nat) : FC :=
  if e.name = .schedPrefillChunk then if v ≤ w (Name.key .schedTokenBudget) then .ok else .schedConfig
  else if e.name = .pgStatic then
    if Fp.lt (Fp.ofInt (w (Name.key .pgIlim 0 k)) 0) (f32 v) then .valueRange else .ok
  else if isRing e.name then if ringPasses (viewWith w (e.name.key u k) v) u then .valueRange else .ok
  else if isFnMode e && v = 2 then if hostBuffers w then .ok else .schedConfig
  else .ok

/-- The value nearest to v that meets the bounds in a view (R387). Among ring entries the base row gives way first,
then the rows of a buffer. -/
def clampTo (w : Nat → Nat) (e : Entry) (u k v : Nat) : Nat :=
  if boundCode w e u k v = .ok then v
  else if e.name = .schedPrefillChunk then w (Name.key .schedTokenBudget) / 64 * 64
  else if e.name = .pgStatic then toF32 (Fp.ofInt (w (Name.key .pgIlim 0 k)) 0)
  else if e.name = .ringBaseRow then
    12288 - (w (Name.key .ringLayers u) + 1) * w (Name.key .ringSliceRows u)
  else if e.name = .ringSliceRows then (12288 - w (Name.key .ringBaseRow u)) / (w (Name.key .ringLayers u) + 1)
  else if isFnMode e then 1
  else v

/-! ## Partition set, node pool, descriptor table and answer buffers -/

/-- Partition p as a view describes it. -/
def viewPart (w : Nat → Nat) (p : Nat) : Part :=
  { base := w (Name.key .partBase p), size := w (Name.key .partSize p), log2 := w (Name.key .partFrameLog2 p) }

/-- Whether two ranges meet. -/
def meet (a n b m : Nat) : Bool := a < b + m && b < a + n && n != 0 && m != 0

/-- The conditions of R25 on one partition of a view. -/
def partOk (w : Nat → Nat) (p : Nat) : Bool :=
  let q := viewPart w p
  let frame := 2 ^ q.log2
  q.base % frame == 0 && q.size % frame == 0 && q.reserved < q.frames && inOneQuadrant q.base q.size &&
    !meet q.base q.size (w (Name.key .chartNodeBase)) (w (Name.key .chartNodeSize)) &&
    (List.range p).all (fun r => !meet q.base q.size (viewPart w r).base (viewPart w r).size)

/-- Whether a partition with allocated frames would change or leave the set (R26). -/
def partLive (s : State) (w : Nat → Nat) : Bool :=
  s.charts.parts.any (fun p => !p.2.alloc.isEmpty &&
    (w (Name.key .chartPartCount) ≤ p.1 || (viewPart w p.1).base != p.2.base || (viewPart w p.1).size != p.2.size ||
      (viewPart w p.1).log2 != p.2.log2))

/-- Whether a range meets a partition in use, the node pool or, when asked, the descriptor table of a view. -/
def meetsSets (w : Nat → Nat) (a n : Nat) (table : Bool) : Bool :=
  (List.range (w (Name.key .chartPartCount))).any (fun p => meet a n (viewPart w p).base (viewPart w p).size) ||
    meet a n (w (Name.key .chartNodeBase)) (w (Name.key .chartNodeSize)) ||
    (table && meet a n (w (Name.key .schedDescBase)) descTableSize)

/-- The checks of the owning chapters on the sets that a view describes: R25, R28, then R26, R28 on live nodes, R73 and
the answer buffers of R97, where a base of 0 names none. -/
def setCode (s : State) (w : Nat → Nat) : FC :=
  let pool := w (Name.key .chartNodeBase)
  let poolSize := w (Name.key .chartNodeSize)
  let desc := w (Name.key .schedDescBase)
  let ans := w (Name.key .fnAnswerBase)
  let ansLen := 64 * w (Name.key .fnAnswerSize)
  if !(List.range (w (Name.key .chartPartCount))).all (partOk w) then .chartMalformed
  else if pool % 4096 != 0 || poolSize % 4096 != 0 || hbmEnd < pool + poolSize then .chartMalformed
  else if partLive s w then .chartLive
  else if !s.charts.nodesAlloc.isEmpty && (pool != s.charts.nodeBase || poolSize != s.charts.nodeSize) then .chartLive
  else if desc % descTableSize != 0 || hbmEnd < desc + descTableSize || meetsSets w desc descTableSize false then
    .schedConfig
  else if ans != 0 && (hbmEnd < ans + ansLen || meetsSets w ans ansLen true) then .schedConfig
  else .ok

/-- Whether an entry belongs to the sets that `setCode` judges. -/
def inSets (n : Name) : Bool :=
  n == .chartPartCount || n == .chartNodeBase || n == .chartNodeSize || n == .partBase || n == .partSize ||
    n == .partFrameLog2 || n == .schedDescBase || n == .fnAnswerBase || n == .fnAnswerSize

/-- The descriptor table moves to another range of HBM (R73): the descriptors in force are written back, and those that
the new range holds come into force. -/
def moveTable (s : State) (to_ : Nat) : State :=
  let from_ := s.charts.descBase
  let mem := s.mem.filter (fun p => !(from_ ≤ p.1 && p.1 < from_ + descTableSize))
  let mem := s.charts.seqs.foldl (fun m p => memSetAll m (from_ + 128 * p.1) p.2.bytes) mem
  let seqs := (mem.filter (fun p => to_ ≤ p.1 && p.1 < to_ + descTableSize)).foldl (fun (q : FMap Desc) p =>
    let n := (p.1 - to_) / 128
    if Map.has q n then q
    else Map.put q n (Desc.ofBytes ((List.range 128).map (fun i => memByte mem (to_ + 128 * n + i))))) []
  { s with mem := mem, charts := { s.charts with seqs := seqs, descBase := to_ } }

/-- The sets in force follow the effective values: a partition that changed starts with every frame free.
DEDUCED (notes/assumptions/27.md). -/
def applySets (s : State) : State :=
  let w := effAt s
  let old := s.charts.parts
  let parts := (List.range (w (Name.key .chartPartCount))).foldl (fun (m : FMap Part) p =>
    let q := viewPart w p
    let keep := match Map.get? old p with
      | some o => if o.base = q.base && o.size = q.size && o.log2 = q.log2 then o else q
      | none => q
    Map.put m p keep) []
  let base := w (Name.key .schedDescBase)
  let s := if base = s.charts.descBase then s else moveTable s base
  { s with charts := { s.charts with
      parts := parts, nodeBase := w (Name.key .chartNodeBase), nodeSize := w (Name.key .chartNodeSize) } }

/-! ## Taking effect -/

/-- SCHED_PREFILL_CHUNK is clamped to the budget when that falls below it (R85). -/
def clampChunk (s : State) : State :=
  if s.ent .schedTokenBudget < s.ent .schedPrefillChunk then
    s.setEnt .schedPrefillChunk (s.ent .schedTokenBudget / 64 * 64)
  else s

/-- An effective value takes effect, with what its owning chapter attaches to a change: pinned ways (R191), the ring
(R209), the sets of chapters 2 and 3, the budget (R85), and a wire whose mask and scope make the block arrive (R340). -/
def takeEff (s : State) (key v : Nat) : State :=
  let old := effAt s key
  let s := { s with dict := { s.dict with eff := Map.put s.dict.eff key v } }
  match findEntry (key / 256) (key % 256) with
  | none => s
  | some (e, u, _) =>
    if e.name = .schedTokenBudget || e.name = .schedPrefillChunk then clampChunk s
    else if old = v then s
    else if e.name = .commonsPinWays then applyPinWays s u v
    else if isRing e.name then ringEmpty s u false
    else if inSets e.name then applySets s
    else if e.name = .rcMask || e.name = .rcScope then rcPropagate s u
    else s

/-- Whether a mode overlay may set the entry (R385). -/
def overlayable (e : Entry) (index : Nat) : Bool :=
  (e.acc == .rw || e.acc == .rws) && !e.selector && !e.selected &&
    ((0x2000 ≤ index && index < 0x3000) || (0x3000 ≤ index && index < 0x3400) || (0x4000 ≤ index && index < 0x4800) ||
      (0x7000 ≤ index && index < 0x7100) || index == 0x7840 || (0x8000 ≤ index && index < 0x9000))

/-- Whether the entry at a key keeps a base value (R385). -/
def keepsBase (key : Nat) : Bool :=
  match findEntry (key / 256) (key % 256) with
  | some (e, _, _) => e.acc == .rws || overlayable e (key / 256)
  | none => false

/-- A written value takes effect: it becomes the effective value and, for an entry that keeps one, the base value
(R385). -/
def takeWrite (s : State) (key v : Nat) : State :=
  takeEff (if keepsBase key then { s with dict := { s.dict with base := Map.put s.dict.base key v } } else s) key v

/-- The keys of every RWS entry of the block's enabled units, in increasing index and sub-index. -/
def rwsKeys (s : State) : List Nat :=
  let all := entryTable.foldl (fun (m : FMap Nat) e =>
    if e.acc != .rws then m
    else (List.range e.n).foldl (fun (m : FMap Nat) u =>
      if e.unit = .core && !s.coreFused u then m
      else (List.range e.len).foldl (fun m k => Map.put m (e.name.key u k) 0) m) m) []
  Map.keys all

end Sys2Proof.Machine
end

