-- ==== Sys2Proof/Machine/Overlays.lean ====
section
/-!
DEFINITION. Base images and overlays (R385 to R389, R448): validation of an image, the overlay store, the pending list,
and what action 2 of a step boundary applies.
-/

namespace Sys2Proof.Machine

open Sys2Proof

/-! ## Images (R386, R387) -/

/-- A 16-byte record of a MODE or BASE body. -/
structure Record where
  index : Nat
  sub : Nat
  res : Nat
  row : Nat
  value : Nat
  deriving DecidableEq, Repr

/-- RECORDS of an image. -/
def imgRecords (img : List Byte) : Nat := fieldAt img 8 2

/-- KIND of an image. -/
def imgKind (img : List Byte) : Nat := fieldAt img 2 1

/-- Record i of an image's body. -/
def imgRecord (img : List Byte) (i : Nat) : Record :=
  let o := 32 + 16 * i
  { index := fieldAt img o 2, sub := fieldAt img (o + 2) 1, res := fieldAt img (o + 3) 1, row := fieldAt img (o + 4) 4,
    value := fieldAt img (o + 8) 8 }

/-- The records of an image. -/
def imgBody (img : List Byte) : List Record := (List.range (imgRecords img)).map (imgRecord img)

/-- Whether a record is a table record (R386). -/
def Record.isTable (r : Record) : Bool := r.index == 0 && r.sub ≤ 1

/-- Key of the entry that a record names. -/
def Record.key (r : Record) : Nat := ekey r.index r.sub

/-- The image at a global address: its length comes from its header. A range that cannot be read, a mark (R441) and a
length outside Table 15-13 make it invalid. -/
def fetchImage (s : State) (fs : List Fetched) (addr : Nat) (maxLen : Nat) : State × FC × List Byte :=
  let (s, c0, head, m0) := fetchGlobal s fs addr 32
  if c0 != .ok then (s, c0, [])
  else
    let len := fieldAt head 4 4
    if m0.any (fun b => b) || len % 4 != 0 || len < 40 || maxLen < len then (s, .ovlInvalid, [])
    else
      let (s, c1, img, m1) := fetchGlobal s fs addr len
      if c1 != .ok then (s, c1, [])
      else if m1.any (fun b => b) then (s, .ovlInvalid, [])
      else (s, .ok, img)

/-- Header, LENGTH, CRC and KIND of an image, then its reserved header fields (R387).
DEDUCED (notes/assumptions/28.md). -/
def headerCode (img : List Byte) (number : Nat) (kinds : List Nat) : FC :=
  let len := img.length
  let kind := imgKind img
  let need := if kind = 1 then 0x2C + 4 else 32 + 16 * imgRecords img + 4
  if fieldAt img 0 2 != number || !kinds.contains kind || (kind == 1 && imgRecords img != 0) || len < need ||
      fieldAt img (len - 4) 4 != crc32c (img.take (len - 4)) then .ovlInvalid
  else if fieldAt img 3 1 != 0 || fieldAt img 0xA 2 != 0 || fieldAt img 0x10 16 != 0 then .reservedNonzero
  else .ok

/-- The body of a MODEL overlay (Table 15-14, R387). -/
def modelCode (img : List Byte) : FC :=
  let f := fun o n => fieldAt img o n
  let h := f 0x20 1
  let fmt := f 0x21 1
  let d := f 0x22 2
  let p := f 0x24 1
  let flags := f 0x25 1
  let scales := f 0x28 2
  if flags / 4 != 0 || f 0x2A 2 != 0 then .reservedNonzero
  else if 3 < fmt || (bit flags 0 && 1 < fmt) then .formatUnsupported
  else if h = 0 || d % 32 != 0 || d < 32 || 256 < d || (h * d) % 64 != 0 || p < 1 || 30 < p || 505 < scales ||
      img.length < 0x2C + 8 * scales + 4 then .ovlInvalid
  else .ok

/-- The entry that a record names, where its unit exists. -/
def recordEntry (s : State) (r : Record) : Option (Entry × Nat × Nat) :=
  match findEntry r.index r.sub with
  | some (e, u, k) => if e.unit = .core && !s.coreFused u then none else some (e, u, k)
  | none => none

/-- One record by itself (R386, R387). -/
def recordCode (s : State) (base : Bool) (r : Record) : FC :=
  if r.res != 0 then .reservedNonzero
  else if r.isTable && !base then if r.row + ceilDiv (tableSize r.sub) 1024 > 12288 then .valueRange else .ok
  else if r.row != 0 then .reservedNonzero
  else
    match recordEntry s r with
    | none => .dictNoEntry
    | some (e, _, k) =>
      if (if base then e.acc != .rws else !overlayable e r.index) then .accessDenied
      else if 2 ^ (8 * e.typ.size) ≤ r.value then .reservedNonzero
      else ownCode s e k r.value

/-- The records in order; two records that name one entry make the image invalid (R386). -/
def recordsCode (s : State) (base : Bool) (seen : List Nat) : List Record → FC
  | [] => .ok
  | r :: rs =>
    if seen.contains r.key then .ovlInvalid
    else
      match recordCode s base r with
      | .ok => recordsCode s base (r.key :: seen) rs
      | c => c

/-- The whole image of an overlay (R387). -/
def overlayCode (s : State) (img : List Byte) (number : Nat) : FC :=
  match headerCode img number [0, 1] with
  | .ok => if imgKind img = 1 then modelCode img else recordsCode s false [] (imgBody img)
  | c => c

/-! ## Loading and unloading (R388) -/

/-- Whether an overlay is active, or the repertoire entry of a sequence that is not FREE names it. -/
def overlayInUse (s : State) (n : Nat) : Bool :=
  s.mgmt.ovl.mode == n || s.mgmt.ovl.models.contains n ||
    s.charts.seqs.any (fun p => p.2.state != .free && bits (repWord s p.2.repertoire 0) 32 16 == n)

/-- Changes the overlay unit's state. -/
def State.updOvl (s : State) (f : Ovl → Ovl) : State := { s with mgmt := { s.mgmt with ovl := f s.mgmt.ovl } }

/-- LOAD: the image is copied from OVL_LOAD_ADDR and validated, then enters the store (R387, R388). -/
def loadOverlay (s : State) (fs : List Fetched) (n : Nat) : FC × State :=
  let (s, c, img) := fetchImage s fs (s.ent .ovlLoadAddr) 4096
  if c != .ok then (c, s)
  else
    match overlayCode s img n with
    | .ok =>
      let store := s.mgmt.ovl.store
      if overlayInUse s n then (.ovlInUse, s)
      else if !Map.has store n && 1024 ≤ store.length then (.ovlStoreFull, s)
      else (.ok, l2Written (s.updOvl (fun o => { o with store := Map.put o.store n img })) (l2Overlay n) img.length)
    | c => (c, s)

/-- UNLOAD: an overlay that is not in use leaves the store. -/
def unloadOverlay (s : State) (n : Nat) : FC × State :=
  if !Map.has s.mgmt.ovl.store n then (.ovlAbsent, s)
  else if overlayInUse s n then (.ovlInUse, s)
  else (.ok, s.updOvl (fun o => { o with store := Map.erase o.store n }))

/-- A write of OVL_CMD (R388): a value that the entry does not list is out of range, and 0xFFFF names no overlay but in
SET_MODE.
DEDUCED (notes/assumptions/29.md). -/
def overlayCommand (s : State) (fs : List Fetched) (v : Nat) : FC × State :=
  let op := bits v 0 8
  let n := bits v 8 16
  if op = 0 || 5 < op || (n = 0xFFFF && op != 3) then (.valueRange, s)
  else if op = 1 then loadOverlay s fs n
  else if op = 2 then unloadOverlay s n
  else if 64 ≤ s.mgmt.ovl.pending.length then (.ovlBusy, s)
  else (.ok, s.updOvl (fun o => { o with pending := o.pending ++ [{ op := op, num := n }] }))

/-! ## Effective values (R385) -/

/-- The value a mode overlay's records give the entry at a key. -/
def modeValue (rs : List Record) (key : Nat) : Option Nat :=
  (rs.find? (fun r => !r.isTable && r.key == key)).map (fun r => r.value)

/-- The keys whose effective value a switch forms: overlayable entries that hold a value or that the overlay names. -/
def switchKeys (s : State) (rs : List Record) : List Nat :=
  let ok := fun (k : Nat) => match findEntry (k / 256) (k % 256) with
    | some (e, _, _) => overlayable e (k / 256)
    | none => false
  let ks := ((Map.keys s.dict.eff ++ Map.keys s.dict.base ++ (rs.filter (fun r => !r.isTable)).map Record.key).filter
    ok)
  Map.keys (ks.foldl (fun (m : FMap Nat) k => Map.put m k 0) [])

/-- Every overlayable entry takes its effective value: the active mode overlay's record, else its base value; a value
that breaks a bound naming another entry is clamped (R385, R387), and a descriptor table base, or answer buffers, that the
records would put where R73 or R97 forbids leave the one in force. -/
def formEffective (s : State) : State :=
  let rs := match Map.get? s.mgmt.ovl.store s.mgmt.ovl.mode with
    | some img => imgBody img
    | none => []
  let ks := switchKeys s rs
  let raw := fun (key : Nat) => (modeValue rs key).getD (if ks.contains key then baseAt s key else effAt s key)
  let out : FMap Nat := ks.foldl (fun (m : FMap Nat) key =>
    let view := fun j => (Map.get? m j).getD (raw j)
    match findEntry (key / 256) (key % 256) with
    | some (e, u, k) => Map.put m key (clampTo view e u k (raw key))
    | none => m) []
  let ok := fun (m : FMap Nat) => setCode s (fun j => (Map.get? m j).getD (raw j)) == .ok
  let keep := fun (m : FMap Nat) (ns : List Name) => if ok m then m else
    ns.foldl (fun m n => Map.put m (Name.key n) (effAt s (Name.key n))) m
  (keep (keep out [.schedDescBase]) [.fnAnswerBase, .fnAnswerSize]).foldl (fun s p => takeEff s p.1 p.2) s

/-- The value that the entry at a key will hold once everything that waits has taken effect (R85): a waiting write, else
what a waiting base image and the last waiting SET_MODE make of it, else its value now. -/
def futureAt (s : State) (key : Nat) : Nat :=
  match s.dict.pend.reverse.find? (fun p => p.key == key) with
  | some p => p.value
  | none =>
    let modes := s.mgmt.ovl.pending.filter (fun q => q.op == 3)
    let rs := match Map.get? s.mgmt.ovl.store ((modes.getLast?.map (fun q => q.num)).getD s.mgmt.ovl.mode) with
      | some img => imgBody img
      | none => []
    let based := s.mgmt.ovl.base.bind (fun img => modeValue (imgBody img) key)
    if modes.isEmpty && based.isNone then effAt s key
    else
      match findEntry (key / 256) (key % 256) with
      | some (e, _, _) =>
        if overlayable e (key / 256) then (modeValue rs key).getD (based.getD (baseAt s key)) else based.getD (effAt s key)
      | none => effAt s key

/-- The table loads of a mode overlay: each image is copied to its row on every enabled core, and the load of R161 is
issued there; a refusal is raised as an event (R164, R388). -/
def tableLoads (s : State) (fs : List Fetched) (rs : List Record) : State :=
  (rs.filter Record.isTable).foldl (fun s r =>
    let (s, code, img, marks) := fetchGlobal s fs r.value (tableSize r.sub)
    s.presentCores.foldl (fun s c =>
      if code != .ok then (s.setCnt .sfuLoadStatus code.value c).raise code 1 c
      else
        let s := s.write (scratchAddr c (1024 * r.row)) img marks (some (c / 8))
        let (lc, s) := sfuLoad s c (r.sub + 1) r.row
        if lc = .ok then s else (s.setCnt .sfuLoadStatus lc.value c).raise lc 1 c) s) s

/-! ## Action 2 (R22, R388, R389) -/

/-- One command of the pending list applied (R388). -/
def applyOverlay (s : State) (fs : List Fetched) (q : OvlCmd) : FC × State :=
  if q.op = 3 && q.num = 0xFFFF then (.ok, formEffective (s.updOvl (fun o => { o with mode := 0xFFFF })))
  else
    match Map.get? s.mgmt.ovl.store q.num with
    | none => (.ovlAbsent, s)
    | some img =>
      let (s, lost) := l2Read s (l2Overlay q.num) img.length
      if lost then (.ovlInvalid, s)
      else if q.op = 3 then
        if imgKind img != 0 then (.ovlInvalid, s)
        else (.ok, tableLoads (formEffective (s.updOvl (fun o => { o with mode := q.num }))) fs (imgBody img))
      else if imgKind img != 1 then (.ovlInvalid, s)
      else if q.op = 5 then (.ok, s.updOvl (fun o => { o with models := o.models.filter (fun m => m != q.num) }))
      else
        let l := layoutOf q.num img 0 0
        if s.charts.parts.any (fun p => bit l.partMask p.1 && 2 ^ p.2.log2 < 0x1100 + l.perPage * l.stride) then
          (.pageOverflow, s)
        else (.ok, s.updOvl (fun o => { o with models := insertNat q.num o.models }))

/-- The codes of an image's records under the checks of the owning chapters: bounds judged against the image's own values
and the base values in force, the sets, and wires that are armed (R343, R389). -/
def baseCode (s : State) (rs : List Record) : FC :=
  let view := fun key => (modeValue rs key).getD (baseAt s key)
  let one := fun (r : Record) => match findEntry r.index r.sub with
    | some (e, u, k) =>
      if (e.name = .rcMask || e.name = .rcScope) && (s.wire u).armed && r.value != effAt s r.key then .rcBusy
      else boundCode view e u k r.value
    | none => .ok
  match rs.find? (fun r => one r != .ok) with
  | some r => one r
  | none => setCode s view

/-- A validated base image applies: every entry it names takes its value as base value, effective values are formed, and
a descriptor table base makes every descriptor FREE (R385, R389, R448). -/
def applyBase (s : State) (img : List Byte) : FC × State :=
  let rs := imgBody img
  match baseCode s rs with
  | .ok =>
    let s := rs.foldl (fun (s : State) r =>
      { s with dict := { s.dict with base := Map.put s.dict.base r.key r.value } }) s
    let mode := match Map.get? s.mgmt.ovl.store s.mgmt.ovl.mode with
      | some m => imgBody m
      | none => []
    let s := rs.foldl (fun s r => if (modeValue mode r.key).isSome then s else takeEff s r.key r.value) s
    let s := if rs.any (fun r => r.key == Name.key .schedDescBase) then
        { s with charts := { s.charts with seqs := [] } }
      else s
    (.ok, formEffective s)
  | c => (c, s)

/-- BASE_CMD 1 (R389): the image is validated; it applies at once before the first step, else in action 2 of the next
boundary. -/
def baseApply (s : State) (fs : List Fetched) : FC × State :=
  let (s, c, img) := fetchImage s fs (s.ent .baseAddr) 65536
  let code := if c != .ok then c else match headerCode img 0xFFFF [2] with
    | .ok => match recordsCode s true [] (imgBody img) with
      | .ok => baseCode s (imgBody img)
      | c => c
    | c => c
  if code != .ok then (code, s.setCnt .baseStatus code.value)
  else if s.sched.step = 0 && !s.sched.begun then
    let (c, s) := applyBase s img
    (c, s.setCnt .baseStatus c.value)
  else (.ok, s.updOvl (fun o => { o with base := some img }))

/-- The base image that holds every RWS base value (R389).
DEDUCED (notes/assumptions/30.md). -/
def baseImage (s : State) : List Byte :=
  let ks := rwsKeys s
  let len := 32 + 16 * ks.length + 4
  let img := natLe 2 0xFFFF ++ natLe 1 2 ++ natLe 1 0 ++ natLe 4 len ++ natLe 2 ks.length ++ natLe 2 0 ++ natLe 4 0 ++
    zeros 16 ++ ks.flatMap (fun k => natLe 2 (k / 256) ++ natLe 1 (k % 256) ++ natLe 1 0 ++ natLe 4 0 ++
      natLe 8 (baseAt s k))
  img ++ natLe 4 (crc32c img)

/-- A PUT by the Control Complex at a global address: its code as far as it is known when it is sent. -/
def ccPut (s : State) (addr : Nat) (bs : List Byte) : FC × State :=
  let r : Req := { origin := .inside (.ccCore 0), target := BitVec.ofNat 64 addr, len := bs.length, data := bs }
  if isLocal s r.node then
    let (s, a) := serveInside s .put r
    (match a with
      | some x => x.code
      | none => .ok, s)
  else
    let (s, a) := sendOut s .put r (.ccCore 0) .posted
    (match a with
      | some x => x.code
      | none => .ok, s)

/-- Bytes written from an address on by PUTs of the Control Complex; the first code that is not FC_OK ends the writing. -/
def ccPutAll (s : State) (addr : Nat) (bs : List Byte) : FC × State :=
  (putPieces (bs.length / 4096 + 2) addr bs.length).foldl (fun (q : FC × State) p =>
    if q.1 = .ok then ccPut q.2 (addr + p.1) (slice bs p.1 p.2) else q) (.ok, s)

/-- BASE_CMD 2 (R389): the image goes to BASE_ADDR by PUTs, the last one filled up with zeros to a whole word. -/
def baseSave (s : State) : FC × State :=
  let img := baseImage s
  let (c, s) := ccPutAll s (s.ent .baseAddr) (fit img ((img.length + 15) / 16 * 16))
  let s := s.setCnt .baseStatus c.value
  (c, if c = .ok then s.setCnt .baseLength img.length else s)

/-- A write of BASE_CMD (R389). -/
def baseCommand (s : State) (fs : List Fetched) (v : Nat) : FC × State :=
  if v = 1 then baseApply s fs else if v = 2 then baseSave s else (.valueRange, s)

/-- One serving copy goes from the staging region of a core to an address of this block, under the checks of a store: R20,
R55, R74, R408. A store that they refuse has no effect, and its code is raised as an event. -/
def serveCopy (s : State) (c off len addr : Nat) : State :=
  let (s, d, m) := s.read (scratchAddr c off) len
  let r : Req := { origin := .inside (.stream (Fin.ofNat 32 c) 0 0), target := BitVec.ofNat 64 addr, len := len, data := d,
                   poison := m }
  let code := match mapCheck s r.addr len with
    | .ok => effectCode s .put r
    | code => code
  if len = 0 then s
  else if code = .ok then s.write r.addr d m (some (c / 8))
  else s.raise code 1 c

/-- The serving copies of the updates that retired in the step, in retirement order (R288). -/
def writeServing (s : State) : State :=
  let s := s.sched.serving.foldl (fun s v =>
    (serveCopy (serveCopy s v.core v.off v.len v.addr) v.core (v.off + v.len) v.lenT v.addrT).bump .bwdUpdates v.core) s
  { s with sched := { s.sched with serving := [] } }

/-- Whether a waiting write takes effect in action 2: pinned ways, Timetable map, ring entries (R174, R191, R209). -/
def atAction2 (p : DictPend) : Bool := p.at_ == .boundary && p.key / 256 < 0x7000

/-- The waiting writes of a moment take effect in the order they were accepted. -/
def takePend (s : State) (now : DictPend → Bool) (apply : State → DictPend → State) : State :=
  let due := s.dict.pend.filter now
  let s := { s with dict := { s.dict with pend := s.dict.pend.filter (fun p => !now p) } }
  due.foldl apply s

/-- Action 2 of a step boundary (R22): waiting writes of this action, then a pending base image, then the pending list in
acceptance order, then the serving copies.
DEDUCED (notes/assumptions/31.md). -/
def action2 (s : State) (fs : List Fetched) : State :=
  let s := takePend s atAction2 (fun s p => takeWrite s p.key p.value)
  let s := match s.mgmt.ovl.base with
    | none => s
    | some img =>
      let (c, s) := applyBase (s.updOvl (fun o => { o with base := none })) img
      s.setCnt .baseStatus c.value
  let cmds := s.mgmt.ovl.pending
  let s := cmds.foldl (fun s q =>
    let (c, s) := applyOverlay s fs q
    let s := s.setCnt .ovlStatus c.value
    if c = .ok then s else s.raise c 0 0 (q.num * 256 + q.op)) (s.updOvl (fun o => { o with pending := [] }))
  writeServing s

end Sys2Proof.Machine
end

