-- ==== Sys2Proof/Machine/Scheduler.lean ====
section
/-!
DEFINITION. The step scheduler (chapter 3, R22 to R24): sequence commands, the five actions of a step boundary, admission,
batch formation, sequence groups and precision escalation.
-/

namespace Sys2Proof.Machine

open Sys2Proof

/-! ## Sequence commands (R80, R81) -/

/-- The operation that SEQ_OP and the operands A, B, C, D spell (Table 3-3); a set bit outside the named fields of an
operand that the operation uses is reserved. -/
def seqOpOf (op a b c d : Nat) : SeqOp :=
  if op = 1 then
    if a / 2 ^ 48 != 0 || bits a 4 12 != 0 || c / 2 ^ 32 != 0 then .reserved
    else .admitSeq (bits a 32 16) (bits a 16 16) (bits a 0 4) b c d
  else if op = 2 then if a / 2 ^ 32 != 0 || b / 2 ^ 16 != 0 then .reserved else .append a b c
  else if op = 3 then .suspend
  else if op = 4 then .resume
  else if op = 5 then .retire
  else if op = 6 then if a / 2 ^ 12 != 0 then .reserved else .repLoad a b
  else if op = 7 then if a / 2 ^ 12 != 0 || b / 2 ^ 8 != 0 then .reserved else .escClear a b
  else .reserved

/-- The completion word of a sequence command: the step at which it applied or was refused, and the code (R81). -/
def seqReport (s : State) (h : SeqHdr) (code : FC) : State :=
  completeCmd s (h.ctx.toNat / 8) (h.ctx.toNat % 8) h.compl code (s.sched.step % 2 ^ 32)

/-- ADMIT (Table 3-3): a free descriptor becomes QUEUED with an empty chart of depth 1. Without a free node for the empty root
the command is refused with FC_NODE_EXHAUSTED, which Table 3-3 does not list.
DESIGN CHOICE (notes/assumptions/97.md). -/
def seqAdmit (s : State) (h : SeqHdr) (rep tenant part out budget user : Nat) : FC × State :=
  let n := h.seq.toNat
  let old := s.desc n
  if old.state != .free then (.seqBusy, s)
  else if !repValid s rep then (.repInvalid, s)
  else if tenant > 4095 then (.tenantInvalid, s)
  else if s.ent .chartPartCount ≤ part then (.schedConfig, s)
  else
    match emptyRoot s n with
    | none => (.nodeExhausted, s)
    | some s1 =>
      let root := (s1.desc n).shadowRoot
      let d : Desc :=
        { state := .queued, epoch := old.epoch, chartDepth := 1, shadowDepth := 1, chartRoot := root, shadowRoot := root,
          partition := part, repertoire := rep, tenant := tenant, cls := (Map.get s.charts.tenants tenant { }).cls,
          pageBudget := budget, outAddr := out, context := h.ctx.toNat, user := user }
      let s1 := { s1 with charts := { s1.charts with
        pend := Map.erase s1.charts.pend n, nodesLive := insertNat root s1.charts.nodesLive } }
      (.ok, { (s1.updDesc n (fun _ => d)) with sched := { s1.sched with admitOrder := s1.sched.admitOrder ++ [n] } })

/-- Whether APPEND applies in a state (Table 3-3). -/
def SeqState.takesAppend : SeqState → Bool
  | .queued => true
  | .idle => true
  | .ready => true
  | .verdictWait => true
  | _ => false

/-- APPEND (Table 3-3, R78, R82): tokens are submitted; an IDLE sequence becomes READY. -/
def seqAppend (s : State) (n tokens drafts buf : Nat) : FC × State :=
  let d := s.desc n
  if d.pendingTokens + d.pendingDrafts > 0 then (.seqBusy, s)
  else if tokens = 0 || (drafts > 0 && tokens != 1) || s.ent .schedMaxDrafts < drafts ||
      (drafts > 0 && !bit (repWord s d.repertoire 0) 1) then (.draftRange, s)
  else if !d.state.takesAppend then (.seqState, s)
  else (.ok, s.updDesc n (fun d => { d with
    pendingTokens := tokens, pendingDrafts := drafts, tokenBuf := buf,
    state := if d.state = .idle then .ready else d.state }))

/-- READY with pending tokens, else IDLE (R78). -/
def readyOrIdle (d : Desc) : SeqState := if d.pendingTokens > 0 then .ready else .idle

/-- RETIRE (Table 3-3): a RELEASE is queued, and the sequence is RETIRING. A RELEASE that cannot be queued refuses the
command with its code. -/
def seqRetire (s : State) (n : Nat) : FC × State :=
  if (s.desc n).state = .queued then (.seqState, s)
  else if 4096 ≤ s.charts.editQ.length then (.editQueueFull, s)
  else
    let id := s.charts.nextEdit
    let h : EditHdr := { src := .internal, seq := BitVec.ofNat 18 n }
    let e : EditEntry := { id := id, hdr := h, op := .release, applied := true }
    let s1 := { s with charts := { s.charts with nextEdit := id + 1, editQ := s.charts.editQ ++ [e] } }
    match applyOp s1 id h .release with
    | (.ok, s2) =>
      let s2 := s2.updPend n (fun p => { p with dirty := true })
      (.ok, s2.updDesc n (fun d => { d with state := .retiring }))
    | (c, _) => (c, s)

/-- Whether a sequence that is not FREE names a repertoire entry. -/
def repNamed (s : State) (r : Nat) : Bool :=
  s.charts.seqs.any (fun p => p.2.state != .free && p.2.repertoire == r)

/-- The checks of R92 on a record of 256 bytes, then its reserved fields (R6). An EVICT field has the width of its 0x7840
entry, so none lies outside its range. -/
def repCode (s : State) (r : Nat) (img : List Byte) : FC :=
  let w := fun i => fieldAt img (8 * i) 8
  let cur := s.bytes (repAddr s r) 256
  let differs := (List.range 32).any (fun i => i != 3 && i != 4 && i != 7 && fieldAt cur (8 * i) 8 != w i)
  if repNamed s r && differs then .repInUse
  else if bits (w 0) 24 8 = 0 || 128 < bits (w 0) 24 8 || bits (w 0) 16 8 = 0 then .repMalformed
  else if bits (w 0) 48 16 != 0 || bits (w 0) 4 12 != 0 || bits (w 4) 56 8 != 0 || w 7 / 16 != 0 ||
      (List.range 24).any (fun i => w (8 + i) != 0) then .reservedNonzero
  else .ok

/-- REP_LOAD (R92). An entry beyond REP_COUNT is refused with FC_REP_INVALID, which Table 3-3 does not list for it.
DESIGN CHOICE (notes/assumptions/97.md). -/
def seqRepLoad (s : State) (fs : List Fetched) (r addr : Nat) : FC × State :=
  if s.ent .repCount ≤ r then (.repInvalid, s)
  else
    let (s, c, img, marks) := fetchGlobal s fs addr 256
    if c != .ok then (c, s)
    else if marks.any (fun b => b) then (.repMalformed, s)
    else
      match repCode s r img with
      | .ok => (.ok, s.write (repAddr s r) img)
      | c => (c, s)

/-- ESC_CLEAR (Table 3-3): bits of ESCALATED are cleared; a layer beyond the 128 has none. -/
def seqEscClear (s : State) (r layer : Nat) : FC × State :=
  if !repValid s r then (.repInvalid, s)
  else
    let esc := repWord s r 5 + repWord s r 6 * 2 ^ 64
    let esc := if layer = 0xFF then 0 else if layer < 128 && bit esc layer then esc - 2 ^ layer else esc
    (.ok, s.write (repAddr s r + 40) (natLe 16 esc))

/-- One sequence command applied (Table 3-3): its code and the state after it. -/
def applySeq (s : State) (h : SeqHdr) (op : SeqOp) : FC × State :=
  let n := h.seq.toNat
  let st := (s.desc n).state
  let live := fun (r : FC × State) => if st = .free then (.seqInvalid, s) else r
  match op with
  | .reserved => (.reservedNonzero, s)
  | .admitSeq rep tenant part out budget user => seqAdmit s h rep tenant part out budget user
  | .repLoad r addr => seqRepLoad s h.fetched r addr
  | .escClear r layer => seqEscClear s r layer
  | .append t m buf => live (seqAppend s n t m buf)
  | .suspend => live
      (if st = .queued || st = .faulted || st = .retiring then (.seqState, s)
       else (.ok, s.updDesc n (fun d => { d with state := .suspended })))
  | .resume => live
      (if st = .suspended || st = .faulted then
        (.ok, s.updDesc n (fun d => { d with state := readyOrIdle d, lastFc := .ok }))
       else (.seqState, s))
  | .retire => live (seqRetire s n)

/-- A sequence command applies and is reported once (R81). -/
def runSeq (s : State) (h : SeqHdr) (op : SeqOp) : State :=
  let (c, s) := applySeq s h op
  seqReport s h c

/-- A sequence command that context `h.ctx` has submitted and counted waits for action 5 of the next boundary (R80). -/
def queueSeq (s : State) (h : SeqHdr) (op : SeqOp) : State :=
  let q := s.ctx (h.ctx.toNat / 8) (h.ctx.toNat % 8)
  { s with sched := { s.sched with cmds := s.sched.cmds ++ [{ hdr := h, num := q.count - 1, op := op }] } }

/-- ADMIT (Table 3-3). -/
def execAdmit (h : SeqHdr) (a b c d : U64) (s : State) : Host.Outcome State Fault Refusal :=
  .next (queueSeq s h (seqOpOf 1 a.toNat b.toNat c.toNat d.toNat))

/-- APPEND (Table 3-3). -/
def execAppend (h : SeqHdr) (a b c : U64) (s : State) : Host.Outcome State Fault Refusal :=
  .next (queueSeq s h (seqOpOf 2 a.toNat b.toNat c.toNat 0))

/-- SUSPEND (Table 3-3): the sequence stops after the running step. -/
def execSuspend (h : SeqHdr) (s : State) : Host.Outcome State Fault Refusal := .next (queueSeq s h .suspend)

/-- RESUME (Table 3-3). -/
def execResume (h : SeqHdr) (s : State) : Host.Outcome State Fault Refusal := .next (queueSeq s h .resume)

/-- RETIRE (Table 3-3). -/
def execRetire (h : SeqHdr) (s : State) : Host.Outcome State Fault Refusal := .next (queueSeq s h .retire)

/-- REP_LOAD (Table 3-3, R92). -/
def execRepLoad (h : SeqHdr) (a b : U64) (s : State) : Host.Outcome State Fault Refusal :=
  .next (queueSeq s h (seqOpOf 6 a.toNat b.toNat 0 0))

/-- ESC_CLEAR (Table 3-3). -/
def execEscClear (h : SeqHdr) (a b : U64) (s : State) : Host.Outcome State Fault Refusal :=
  .next (queueSeq s h (seqOpOf 7 a.toNat b.toNat 0 0))

/-! ## Before and in action 1 (R43, R58, R78, R79, R90) -/

/-- A boundary action is traced (Table 19-5). -/
def traceAction (s : State) (action : Nat) : State :=
  s.trace 7 { unit := 33, arg0 := action, arg1 := s.sched.step % 2 ^ 32 }

/-- Whether a placed sequence's part of the step is discarded: it faulted, or its group did (R79). -/
def discarded (s : State) (n : Nat) : Bool :=
  (s.desc n).state == .faulted || s.sched.groups.any (fun g => g.faulted && g.members.any (fun m => m.1 == n))

/-- One placed sequence at the boundary that ends its step: its tokens are consumed (R90), or its slots are given up
without commit (R79). -/
def settleOne (s : State) (p : Placed) : State :=
  if discarded s p.seq then
    s.updDesc p.seq (fun d => { d with
      appendLen := 0, draftLen := 0, verdict := false, draftAccept := 0,
      state := if d.state = .verdictWait then .ready else d.state })
  else
    s.updDesc p.seq (fun d => { d with
      pendingTokens := d.pendingTokens - p.appends, pendingDrafts := d.pendingDrafts - p.drafts,
      tokenBuf := (d.tokenBuf + 4 * (p.appends + p.drafts)) % 2 ^ 64 })

/-- The batch of the ended step is settled. -/
def settleBatch (s : State) : State :=
  let s := s.sched.batch.foldl settleOne s
  { s with sched := { s.sched with batch := [], groups := [], running := false } }

/-- A sequence whose RELEASE has committed becomes FREE: its empty chart is given back, edits queued since are cancelled,
and its descriptor keeps only EPOCH (R78). -/
def retireNow (s : State) (n : Nat) : State :=
  let d := s.desc n
  let p := s.pendOf n
  let nodes := (nodesOf s d.chartRoot d.chartDepth ++ p.nodes).eraseDups
  let s := nodes.foldl freeNode s
  let s := reportEdits s n s.charts.nextEdit .editCancelled
  let s := { s with charts := { s.charts with
    pend := Map.erase s.charts.pend n, released := s.charts.released.filter (fun m => m != n) } }
  s.updDesc n (fun d => { epoch := d.epoch })

/-- The state changes of action 1 (R78 items 1 and 2).
DEDUCED (notes/assumptions/50.md). -/
def transitions (s : State) : State :=
  let s := s.charts.seqs.foldl (fun s p =>
    let d := s.desc p.1
    if d.state = .verdictWait && d.draftLen = 0 then s.updDesc p.1 (fun d => { d with state := readyOrIdle d }) else s) s
  let s := s.charts.released.foldl (fun s n => if (s.desc n).state = .retiring then retireNow s n else s) s
  { s with charts := { s.charts with released := [] } }

/-- Routes return from ALT for ports that came up with the same peer (R365). -/
def routesReturn (s : State) : State :=
  if s.form.upPending.isEmpty then s
  else
    { s with form := { s.form with
      upPending := [], routes := s.form.routes.map (fun r => (r.1, withOnAlt s r.2)) } }

/-- What happens as a boundary begins: mode entries (R94), page budgets (R29) and routes (R365). -/
def boundaryBegins (s : State) : State :=
  let s := takePend s (fun p => p.at_ == .modeBoundary) (fun s p => takeWrite s p.key p.value)
  let s := takePend s (fun p => p.key == Name.key .seqPageBudget) (fun s p =>
    if (s.desc p.sel).state = .free then s else s.updDesc p.sel (fun d => { d with pageBudget := p.value }))
  routesReturn s

/-- Action 1 of R22: commits in sequence order, the state changes of R78, then eviction jobs (R66). -/
def action1 (s : State) : State :=
  let s := traceAction s 1
  let s := (Map.keys s.charts.seqs).foldl commitSeq s
  jobsAtBoundary (transitions s)

/-! ## Action 3: precision escalation (R93) -/

/-- Threshold of a repertoire entry: its own, the default where that is 0, or never. -/
def escThreshold (s : State) (r : Nat) : Option Nat :=
  let t := bits (repWord s r 4) 0 32
  if t = 0xFFFFFFFF then none else if t = 0 then some (s.ent .schedEscDefault) else some t

/-- Whether a layer's ESCALATED bit is set. -/
def escSet (s : State) (r layer : Nat) : Bool := bit (repWord s r (5 + layer / 64)) (layer % 64)

/-- A layer escalates: its bit is set, and the event names entry and layer. -/
def escalateLayer (s : State) (r layer : Nat) : State :=
  if !repValid s r || escSet s r layer then s
  else
    let i := 5 + layer / 64
    let s := s.write (repAddr s r + 8 * i) (natLe 8 (repWord s r i + 2 ^ (layer % 64)))
    s.raise .precisionEscalated 0 0 (r * 256 + layer)

/-- Action 3: every layer whose saturation sum of the step exceeds its threshold escalates, or in assisted mode asks; the
answers of earlier boundaries apply (R93, R95). -/
def action3 (s : State) : State :=
  let s := traceAction s 3
  let answers := s.sched.escalateAnswers
  let sums := s.sched.sat
  let s := { s with sched := { s.sched with escalateAnswers := [], sat := [] } }
  let s := answers.foldl (fun s a => escalateLayer s a.1 a.2) s
  let mode := s.ent .fnModeEscalation
  let s := sums.foldl (fun s p =>
    let r := p.1 / 128
    let layer := p.1 % 128
    match escThreshold s r with
    | none => s
    | some t =>
      if p.2 ≤ t || !repValid s r || escSet s r layer then s
      else if mode = 0 then escalateLayer s r layer
      else
        let (c, s) := raiseAssist s .escalation mode (.escalate r layer) r layer (natLe 4 (min p.2 0xFFFFFFFF))
        if c = .ok then s else s.raise c) s
  forwardAssists s

/-! ## Action 4 and the start of action 5 (R23, R80, R85) -/

/-- Action 4: the command counter of every context is sampled. -/
def action4 (s : State) : State :=
  let s := traceAction s 4
  let sampled : FMap U32 := s.cores.foldl (fun (m : FMap U32) c =>
    c.2.ctxs.foldl (fun (m : FMap U32) x => Map.put m (8 * c.1 + x.1) x.2.count) m) []
  { s with sched := { s.sched with sampled := sampled } }

/-- A waiting write of a scheduler or tenant entry takes effect (R85). -/
def takeSched (s : State) (p : DictPend) : State :=
  let upd := fun (f : Tenant → Tenant) =>
    { s with charts := { s.charts with tenants := Map.upd s.charts.tenants p.sel { } f } }
  if p.key = Name.key .tenantClass then upd (fun t => { t with cls := p.value })
  else if p.key = Name.key .tenantMaxSeq then upd (fun t => { t with maxSeq := p.value })
  else if p.key = Name.key .tenantTokenShare then upd (fun t => { t with tokenShare := p.value })
  else if p.key = Name.key .tenantFrameQuota then upd (fun t => { t with frameQuota := p.value })
  else takeWrite s p.key p.value

/-- Whether a waiting sequence command was counted before the sample (R23, R80). -/
def countedBefore (s : State) (w : WaitingSeqCmd) : Bool :=
  let c := Map.get s.sched.sampled w.hdr.ctx.toNat 0
  let diff := (c - w.num).toNat
  1 ≤ diff && diff ≤ 2 ^ 31

/-- The sampled sequence commands apply, in increasing context number and window order (R80). -/
def applyCmds (s : State) : State :=
  let due := s.sched.cmds.filter (countedBefore s)
  let s := { s with sched := { s.sched with cmds := s.sched.cmds.filter (fun w => !countedBefore s w) } }
  (List.range 256).foldl (fun s c =>
    (due.filter (fun w => w.hdr.ctx.toNat == c)).foldl (fun s w => runSeq s w.hdr w.op) s) s

/-! ## Admission (R89) -/

/-- Sequences of a tenant that are not FREE (TENANT_SEQ_COUNT, Table 3-4). -/
def tenantSeqs (s : State) (t : Nat) : Nat :=
  (s.charts.seqs.filter (fun p => p.2.tenant == t && p.2.state != SeqState.free)).length

/-- Free frames of a sequence's partition. -/
def partFree (s : State) (p : Nat) : Nat :=
  match Map.get? s.charts.parts p with
  | some q => q.free
  | none => 0

/-- Places of the descriptor cache (R76). -/
def cachePlaces : Nat := 16384

/-- Whether the cache holds a descriptor: pinned, while the sequence is in the batch (R76). -/
def pinned (s : State) (n : Nat) : Bool := s.sched.batch.any (fun p => p.seq == n)

/-- The descriptor that leaves a full cache: the unpinned one with the oldest LAST_STEP, ties to the lower number (R76). -/
def cacheVictim (s : State) : Option Nat :=
  let age := fun (n : Nat) => (s.sched.step % 2 ^ 32 + 2 ^ 32 - (s.desc n).lastStep) % 2 ^ 32
  (s.sched.descCache.filter (fun n => !pinned s n)).foldl (fun b n =>
    match b with
    | none => some n
    | some m => if age m < age n then some n else some m) none

/-- A descriptor is looked at by the scheduler: on a miss it is fetched from HBM into a place of the cache, whose old holder
is written back whole (R76). What a miss reads of a poisoned word faults the sequence (R441).
DESIGN CHOICE (notes/assumptions/44.md). -/
def fetchDesc (s : State) (n : Nat) : State :=
  if s.sched.descCache.contains n then s
  else
    let s := if s.sched.descCache.length < cachePlaces then s
      else match cacheVictim s with
        | none => s
        | some m => setMarks { s with sched := { s.sched with descCache := s.sched.descCache.filter (fun k => k != m) } }
            (s.charts.descBase + 128 * m) 128 []
    let s := hbmSettle s (s.charts.descBase + 128 * n) 128
    if s.anyMark (s.charts.descBase + 128 * n) 128 then
      (s.updDesc n (fun d => { d with state := .faulted, lastFc := .dataPoisoned })).raise .dataPoisoned 6 0 n
    else if s.sched.descCache.length < cachePlaces then
      { s with sched := { s.sched with descCache := insertNat n s.sched.descCache } }
    else s

/-- The conditions of R89 on a queued sequence, but for its place in the descriptor cache. TENANT_MAX_SEQ counts the tenant's
other sequences that are not FREE.
DEDUCED (notes/assumptions/49.md). -/
def admissible (s : State) (n : Nat) : Bool :=
  let d := s.desc n
  let t := Map.get s.charts.tenants d.tenant { }
  d.state == .queued && tenantSeqs s d.tenant - 1 < t.maxSeq &&
    (t.frameQuota == 0 || framesHeld s d.tenant < t.frameQuota) &&
    (match seqLayout s n with
     | some l => l.pg ≤ partFree s d.partition
     | none => false)

/-- A queued sequence is admitted with the class its tenant has now (R78 item 4, R83, R89). -/
def admitOne (s : State) (n : Nat) : State :=
  let s := fetchDesc s n
  let s := s.updDesc n (fun d => { d with
    state := if d.state = .faulted then .faulted else readyOrIdle d, lastStep := s.sched.step % 2 ^ 32,
    cls := (Map.get s.charts.tenants d.tenant { }).cls })
  { s with sched := { s.sched with admitOrder := s.sched.admitOrder.filter (fun m => m != n) } }

/-- Sequences of a list admitted in order while the step's limit lasts; `strict` raises an event for one that may not be
admitted (R95). -/
def admitList (s : State) (ns : List Nat) (room : Nat) (strict : Bool) : State × Nat :=
  ns.foldl (fun (q : State × Nat) n =>
    if q.2 > 0 && admissible q.1 n then (admitOne q.1 n, q.2 - 1)
    else if strict then (q.1.raise .assistInvalid, q.2)
    else q) (s, room)

/-- The argument of an assisted admission (Table 3-11). -/
def admitArg (s : State) : List Byte :=
  s.sched.admitOrder.flatMap (fun n =>
    let d := s.desc n
    natLe 4 n ++ natLe 2 d.tenant ++ natLe 2 d.repertoire ++ natLe 4 (tenantSeqs s d.tenant) ++
      natLe 4 (framesHeld s d.tenant) ++ natLe 4 (partFree s d.partition) ++ zeros 12)

/-- Admission (R89): answers of an assisted admission apply first; hardware admits in ADMIT order, else firmware is
asked, with one request at a time. Each sequence admitted pins a place of the descriptor cache. -/
def admission (s : State) : State :=
  let s := { s with sched := { s.sched with
    admitOrder := s.sched.admitOrder.filter (fun n => (s.desc n).state == SeqState.queued) } }
  let answers := s.sched.admitAnswers
  let limit := Nat.min (s.ent .schedAdmitMax) cachePlaces
  let (s, room) := admitList { s with sched := { s.sched with admitAnswers := [] } } answers limit true
  let mode := s.ent .fnModeAdmission
  if mode = 0 then (admitList s s.sched.admitOrder room false).1
  else if s.sched.admitOrder.isEmpty || assistOpen s .admission then s
  else
    let (c, s) := raiseAssist s .admission mode .admission (s.ent .schedAdmitMax) 0 (admitArg s)
    if c = .ok then forwardAssists s else s.raise c

/-! ## Candidates and placement (R44, R60, R87, R88) -/

/-- A candidate of R87 with what R88 orders it by. -/
structure Cand where
  seq : Nat
  aged : Bool
  order : Nat
  age : Nat
  pend : Nat
  drafts : Nat
  tenant : Nat
  deriving DecidableEq, Repr

/-- Priority first, Standard second, Throughput third (Table 3-5). -/
def classOrder (cls : Nat) : Nat := [1, 0, 2].getD cls 3

/-- Whether one candidate comes before another in the order of R88. -/
def Cand.before (a b : Cand) : Bool :=
  if a.aged != b.aged then a.aged
  else if a.order != b.order then a.order < b.order
  else if a.age != b.age then a.age > b.age
  else a.seq < b.seq

/-- A candidate put in its place. -/
def insertCand (c : Cand) : List Cand → List Cand
  | [] => [c]
  | x :: r => if c.before x then c :: x :: r else x :: insertCand c r

/-- The home cluster of a partition: that of its quadrant (R90). -/
def homeCluster (s : State) (p : Nat) : Nat :=
  match Map.get? s.charts.parts p with
  | some q => q.base / 0x9000000000
  | none => 4

/-- Whether a reset command names a core or its cluster and has not ended, so that batch formation places no group there
(R450). -/
def quiescing (s : State) (c : Nat) : Bool :=
  s.sys.rstJobs.any (fun j => (j.unit == 0 && j.index == c) || (j.unit == 1 && j.index == c / 8))

/-- Whether a core can be given a group. -/
def takesGroups (s : State) (c : Nat) : Bool := s.corePresent c && !(s.core c).inReset && !quiescing s c

/-- Whether some core of a cluster can run Lessons. -/
def clusterRuns (s : State) (k : Nat) : Bool := k < 4 && (List.range 8).any (fun i => takesGroups s (8 * k + i))

/-- Whether a sequence is a candidate (R44, R68, R60, R87). One whose home cluster has no core that can take a group is none.
DESIGN CHOICE (notes/assumptions/97.md). -/
def isCandidate (s : State) (n : Nat) : Bool :=
  let d := s.desc n
  d.state == .ready && !d.held && d.draftLen == 0 && d.pendingTokens > 0 && !s.sched.noRoom.contains n &&
    !s.sched.exhausted.contains n && repValid s d.repertoire &&
    s.mgmt.ovl.models.contains (bits (repWord s d.repertoire 0) 32 16) && clusterRuns s (homeCluster s d.partition)

/-- The candidate that a sequence is. -/
def candOf (s : State) (n : Nat) : Cand :=
  let d := s.desc n
  let age := (s.sched.step % 2 ^ 32 + 2 ^ 32 - d.lastStep) % 2 ^ 32
  let lim := s.ent .schedAgeLimit
  { seq := n, aged := lim != 0 && lim ≤ age, order := classOrder d.cls, age := age, pend := d.pendingTokens,
    drafts := d.pendingDrafts, tenant := d.tenant }

/-- The descriptors of the sequences that may run are fetched before they are considered (R76); a poisoned one puts its
sequence in FAULTED (R441). -/
def fetchReady (s : State) : State :=
  s.charts.seqs.foldl (fun s p => if (s.desc p.1).state = .ready then fetchDesc s p.1 else s) s

/-- The candidates in the order of R88. -/
def candidates (s : State) : List Cand :=
  ((Map.keys s.charts.seqs).filter (isCandidate s)).foldl (fun l n => insertCand (candOf s n) l) []

/-- Withheld sequences come back: NO_ROOM when the private frames fit the budget (R68), exhaustion when the partition can
give a slot page and the pool a node (R60, R87).
DESIGN CHOICE (notes/assumptions/97.md). -/
def release (s : State) : State :=
  let budgetOk := fun n => (s.desc n).pageBudget == 0 || (s.desc n).privateFrames ≤ (s.desc n).pageBudget
  let resolved := fun n => (match seqLayout s n with
    | some l => l.pg ≤ partFree s (s.desc n).partition
    | none => true) && 0 < nodesFree s
  { s with sched := { s.sched with
      noRoom := s.sched.noRoom.filter (fun n => !budgetOk n),
      exhausted := s.sched.exhausted.filter (fun n => !resolved n) } }

/-- Slots from `start` on, at most `want`, that lie in mapped private pages of a committed chart. -/
def roomIn (fuel : Nat) (s : State) (root depth pg start want : Nat) : Nat :=
  match fuel with
  | 0 => 0
  | f + 1 =>
    if want = 0 then 0
    else
      let sp := start / 256
      let ok := (List.range pg).all (fun g =>
        let e := (lookup s root depth (sp * pg + g)).2
        eValid e && !eShared e && !eRemote e)
      if !ok then 0
      else
        let here := Nat.min want (256 * (sp + 1) - start)
        here + roomIn f s root depth pg (start + here) (want - here)

/-- A code other than exhaustion that a placement's edit meets faults the sequence (R79, R441). -/
def chartFault (s : State) (n : Nat) (c : FC) : State :=
  (s.updDesc n (fun d => { d with state := .faulted, lastFc := c, appendLen := 0, draftLen := 0 })).raise c 6 0 n

/-- The chart edits of a placement (R60): EXTEND with growth, tail pages and copy-on-write, committed at once without the
step's appends. With walkers the commit is held and batch formation leaves the sequence out (R58). Answers how many slots
the sequence may receive. -/
def placeEdits (s : State) (fs : List Fetched) (n a d : Nat) : State × Nat :=
  let q := s.desc n
  match seqLayout s n with
  | none => (s, 0)
  | some l =>
    let start := q.committedLen
    let got := roomIn (a + d + 1) s q.chartRoot q.chartDepth l.pg start (a + d)
    if a + d ≤ got then (s, got)
    else
      let s1 := s.updDesc n (fun q => { q with appendLen := a, draftLen := d })
      let h : EditHdr := { src := .internal, seq := BitVec.ofNat 18 n, fetched := fs }
      match applyOp s1 s.charts.nextEdit h (.extend (start + a + d)) with
      | (.ok, s2) =>
        let s2 := s2.updDesc n (fun q => { q with appendLen := 0, draftLen := 0 })
        if 0 < q.walkers then
          ((s2.updPend n (fun p => { p with dirty := true })).updDesc n (fun d => { d with held := true }), 0)
        else (commitNow s2 n, a + d)
      | (.frameExhausted, _) =>
        (({ s with sched := { s.sched with exhausted := insertNat n s.sched.exhausted } }).raise .frameExhausted 6 0 n,
          got)
      | (.nodeExhausted, _) =>
        (({ s with sched := { s.sched with exhausted := insertNat n s.sched.exhausted } }).raise .nodeExhausted 6 0 n,
          got)
      | (c, _) => (chartFault s n c, 0)

/-- A sequence is placed with up to a appends and d drafts (R88): APPEND_LEN, DRAFT_LEN, LAST_STEP and the batch. The
tokens it received are the second result. -/
def place (s : State) (fs : List Fetched) (n a d : Nat) : State × Nat :=
  let (s, got) := placeEdits s fs n a d
  let a' := Nat.min a got
  let d' := Nat.min d (got - a')
  if a' + d' = 0 then (s, 0)
  else
    let s := s.updDesc n (fun q => { q with
      appendLen := a', draftLen := d', lastStep := s.sched.step % 2 ^ 32,
      state := if d' = 0 then q.state else .verdictWait })
    ({ s with sched := { s.sched with batch := s.sched.batch ++ [{ seq := n, appends := a', drafts := d' }] } }, a' + d')

/-- Progress of batch formation: the token room B, what pass 1 may still use, and each tenant's tokens. -/
structure Room where
  b : Nat
  dcap : Nat
  used : FMap Nat := []
  deriving DecidableEq, Repr

/-- Tokens that a tenant may still receive in the step (R88). -/
def tenantRoom (s : State) (r : Room) (t : Nat) : Nat :=
  let share := (Map.get s.charts.tenants t { }).tokenShare
  if share = 0 then r.b else share * s.ent .schedTokenBudget / 1000 - Map.get r.used t 0

/-- Tokens taken from the room. -/
def Room.take (r : Room) (t got : Nat) (decode : Bool) : Room :=
  { b := r.b - got, dcap := if decode then r.dcap - got else r.dcap, used := Map.upd r.used t 0 (fun v => v + got) }

/-- Pass 1 takes one decode (R88). -/
def passDecode (fs : List Fetched) (q : State × Room) (c : Cand) : State × Room :=
  let cost := 1 + c.drafts
  if cost ≤ Nat.min q.2.dcap q.2.b && q.1.sched.batch.length < q.1.ent .schedMaxBatch && cost ≤ tenantRoom q.1 q.2 c.tenant
  then
    let (s, got) := place q.1 fs c.seq 1 c.drafts
    (s, q.2.take c.tenant got true)
  else q

/-- Pass 2 takes one prefill (R88). -/
def passPrefill (fs : List Fetched) (q : State × Room) (c : Cand) : State × Room :=
  let lim := Nat.min (Nat.min c.pend (q.1.ent .schedPrefillChunk)) (Nat.min q.2.b (tenantRoom q.1 q.2 c.tenant))
  let n := if lim < c.pend then lim - lim % 64 else lim
  if n = 0 || (n < c.pend && n < q.1.ent .schedPrefillMin) || q.1.ent .schedMaxBatch ≤ q.1.sched.batch.length then q
  else
    let (s, got) := place q.1 fs c.seq n 0
    (s, q.2.take c.tenant got false)

/-- Hardware batch formation (R88). -/
def formBatch (s : State) (fs : List Fetched) : State :=
  let cs := candidates s
  let dec := cs.filter (fun c => c.pend == 1)
  let pre := cs.filter (fun c => c.pend != 1)
  let b := s.ent .schedTokenBudget
  let dcap := if pre.isEmpty then b else b - b * s.ent .schedPrefillShare / 100
  let q := dec.foldl (passDecode fs) (s, { b := b, dcap := dcap })
  (pre.foldl (passPrefill fs) q).1

/-! ## Sequence groups (R90) -/

/-- Rows that one token of a model brings to Attend. -/
def foldOf (rep : Nat) : Nat := Nat.max 1 (Config.foldRows rep).toNat

/-- The rows of a sequence split into groups of its own. -/
def ownGroups (fuel seq rep cluster fold perGroup tokens : Nat) : List Group :=
  match fuel with
  | 0 => []
  | f + 1 =>
    if tokens = 0 then []
    else
      let t := Nat.min tokens perGroup
      { rep := rep, cluster := cluster, core := 0, members := [(seq, t)], rows := t * fold, own := true } ::
        ownGroups f seq rep cluster fold perGroup (tokens - t)

/-- One placed sequence packed: into the open group of its cluster and repertoire entry (the last one), into a new one, or
into groups of its own. -/
def packOne (s : State) (limit : Nat) (gs : List Group) (p : Placed) : List Group :=
  let d := s.desc p.seq
  let k := homeCluster s d.partition
  let fold := foldOf d.repertoire
  let tokens := p.appends + p.drafts
  if limit < tokens * fold then
    gs ++ ownGroups tokens p.seq d.repertoire k fold (Nat.max 1 (limit / fold)) tokens
  else
    let same := fun (g : Group) => g.rep == d.repertoire && g.cluster == k && !g.own
    match (gs.filter same).getLast? with
    | some g =>
      if g.rows + tokens * fold ≤ limit then
        (gs.reverse.replace g { g with members := g.members ++ [(p.seq, tokens)], rows := g.rows + tokens * fold }).reverse
      else gs ++ [{ rep := d.repertoire, cluster := k, core := 0, members := [(p.seq, tokens)], rows := tokens * fold }]
    | none => gs ++ [{ rep := d.repertoire, cluster := k, core := 0, members := [(p.seq, tokens)], rows := tokens * fold }]

/-- The core of a cluster with the fewest rows placed so far; ties go to the lower number (R90). -/
def leastCore (s : State) (rows : FMap Nat) (k : Nat) : Nat :=
  let cs := (List.range 8).filterMap (fun i =>
    if takesGroups s (8 * k + i) then some (8 * k + i) else none)
  cs.foldl (fun b c => if Map.get rows c 0 < Map.get rows b 0 then c else b) (cs.headD (8 * k))

/-- The groups of a batch with their cores.
DEDUCED (notes/assumptions/48.md). -/
def makeGroups (s : State) : List Group :=
  let gs := s.sched.batch.foldl (packOne s (s.ent .schedGroupRows)) []
  (gs.foldl (fun (q : List Group × FMap Nat) g =>
    let c := leastCore s q.2 g.cluster
    (q.1 ++ [{ g with core := c }], Map.upd q.2 c 0 (fun v => v + g.rows))) ([], [])).1

/-- The step of the new batch begins: its groups are formed and each tenant with a placed sequence counts the step; with
no batch the step is empty (R90, R91). -/
def beginStep (s : State) : State :=
  let s := { s with sched := { s.sched with batchWait := false, doneSent := false, membersDone := [] } }
  if s.sched.batch.isEmpty then { s with sched := { s.sched with running := false, empty := true } }
  else
    let ts := (s.sched.batch.map (fun p => (s.desc p.seq).tenant)).eraseDups
    let s := ts.foldl (fun s t => s.bumpTnt .tntSteps t) s
    { s with sched := { s.sched with running := true, begun := true, empty := false, groups := makeGroups s } }

/-! ## Assisted batch formation (R95, Table 3-11) -/

/-- The argument of an assisted batch formation. -/
def batchArg (s : State) : List Byte :=
  ((Map.keys s.charts.seqs).filter (isCandidate s)).flatMap (fun n =>
    let d := s.desc n
    natLe 4 n ++ natLe 1 d.cls ++ natLe 1 0 ++ natLe 2 d.tenant ++ natLe 4 d.pendingTokens ++ natLe 2 d.pendingDrafts ++
      natLe 2 d.repertoire ++ natLe 4 d.lastStep ++ zeros 12)

/-- The entries of a batch answer: sequence, APPEND_LEN, DRAFT_LEN. -/
def batchAnswer (bs : List Byte) : List Placed :=
  (List.range (bs.length / 16)).map (fun i =>
    { seq := fieldAt bs (16 * i) 4, appends := fieldAt bs (16 * i + 4) 4, drafts := fieldAt bs (16 * i + 8) 2 })

/-- Whether one list of sequences comes in the order of another. -/
def inOrder : List Nat → List Nat → Bool
  | [], _ => true
  | _ :: _, [] => false
  | a :: r, b :: l => if a = b then inOrder r l else inOrder (a :: r) l

/-- Whether an answered batch keeps R87 and R88: candidates only, each once, in the order of the passes, within the batch
size, the token room, the decodes' room, the tenant shares and the chunk rules. -/
def batchOk (s : State) (ps : List Placed) : Bool :=
  let cs := candidates s
  let budget := s.ent .schedTokenBudget
  let tokens := fun (l : List Placed) => l.foldl (fun m p => m + p.appends + p.drafts) 0
  let pre := cs.any (fun c => c.pend != 1)
  let dcap := if pre then budget - budget * s.ent .schedPrefillShare / 100 else budget
  let isDecode := fun (p : Placed) => (s.desc p.seq).pendingTokens == 1
  let one := fun (p : Placed) => match cs.find? (fun c => c.seq == p.seq) with
    | none => false
    | some c =>
      if c.pend = 1 then p.appends == 1 && p.drafts == c.drafts
      else p.drafts == 0 && 0 < p.appends && p.appends ≤ c.pend && p.appends ≤ s.ent .schedPrefillChunk &&
        (p.appends == c.pend || (p.appends % 64 == 0 && s.ent .schedPrefillMin ≤ p.appends))
  let share := fun (t : Nat) =>
    let sh := (Map.get s.charts.tenants t { }).tokenShare
    sh == 0 || tokens (ps.filter (fun p => (s.desc p.seq).tenant == t)) ≤ sh * budget / 1000
  let passes := (cs.filter (fun c => c.pend == 1) ++ cs.filter (fun c => c.pend != 1)).map (fun c => c.seq)
  ps.all one && inOrder (ps.map (fun p => p.seq)) passes && ps.length ≤ s.ent .schedMaxBatch &&
    tokens ps ≤ budget && tokens (ps.filter isDecode) ≤ dcap && ps.all (fun p => share (s.desc p.seq).tenant)

/-! ## Actions 4 and 5, and the boundary -/

/-- Action 5: waiting scheduler writes, sequence commands, admission, then the batch (R22, R78, R85, R95). -/
def action5 (s : State) (fs : List Fetched) : State :=
  let s := traceAction s 5
  let s := takePend s (fun p => p.at_ == .boundary && 0x7000 ≤ p.key / 256) takeSched
  let s := s.charts.seqs.foldl (fun s p =>
    if (s.desc p.1).state = .ready && (s.desc p.1).pendingTokens = 0 then
      s.updDesc p.1 (fun d => { d with state := .idle })
    else s) s
  let s := admission (applyCmds s)
  let s := release (fetchReady s)
  let mode := s.ent .fnModeBatch
  if mode = 0 || (candidates s).isEmpty then beginStep (formBatch s fs)
  else
    match raiseAssist s .batch mode .batch (s.ent .schedTokenBudget) (s.ent .schedMaxBatch) (batchArg s) with
    | (.ok, s) => forwardAssists { s with sched := { s.sched with batchWait := true } }
    | (c, s) => beginStep (s.raise c)

/-- Actions 4 and 5 (R91). -/
def actions45 (s : State) (fs : List Fetched) : State := action5 (action4 s) fs

/-- The step that a boundary closes is settled, and SCHED_STEP takes the number of the next; none is closed by the boundary
before the first step. -/
def endStep (s : State) (next : Option Nat) : State :=
  match next with
  | some v =>
    let s := settleBatch s
    { s with sched := { s.sched with step := v } }
  | none => s

/-- A step boundary (R22, R86): the ended step is settled, SCHED_STEP takes its new value where a non-empty step ended,
and the five actions follow; a requested operating point waits at `ck_hold` between actions 3 and 4 (R434). -/
def boundary (s : State) (fs : List Fetched) (next : Option Nat) : State :=
  let s := action3 (action2 (traceAction (action1 (boundaryBegins (endStep s next))) 2) fs)
  match s.sys.gov.opPending with
  | some n =>
    { s with sys := { s.sys with gov := { s.sys.gov with
        opPending := none, opWaiting := some n, opTimedOut := false, ckHold := true } } }
  | none => actions45 s fs

/-- Whether the step has ended on this block (R22): no Lesson runs on any core. The stores and split combines of a Lesson
are done when it retires. -/
def stepEnded (s : State) : Bool := s.cores.all (fun c => c.2.lessons.isEmpty)

/-- Whether a boundary action may begin: no Report Card is landing (R344), no batch answer and no change of operating point
is awaited, and the block does not hold for a lost head (R366). -/
def boundaryFree (s : State) : Bool :=
  s.sys.cards.isEmpty && !s.sched.batchWait && s.sys.gov.opWaiting.isNone && !s.form.headLost

end Sys2Proof.Machine
end

