-- ==== Sys2Proof/Machine/Forms.lean ====
section
/-!
DEFINITION. Forms (chapter 14): step alignment, heartbeats and loss (R24, R363, R366), and enumeration (R347 to R355).
-/

namespace Sys2Proof.Machine

open Sys2Proof

/-! ## Place in the Form -/

/-- Levels of the Form that the block has joined. -/
def formLevels (s : State) : Nat := if s.form.committed then s.form.levels.length else 0

/-- Whether the block works alone: it holds no place in a Form. -/
def alone (s : State) : Bool := formLevels s == 0

/-- The highest level whose Form this block heads. -/
def headOf (s : State) : Nat := headLevel s (formLevels s)

/-- Whether the block is the top head. -/
def isTopHead (s : State) : Bool := headOf s == formLevels s

/-- The head that this block reports to: that of the lowest level it does not head. -/
def ownHead (s : State) : Nat := headNode s (headOf s + 1)

/-- Every member that this block waits for, over the levels it heads, without the lost ones. -/
def myMembers (s : State) : List Nat :=
  ((List.range (headOf s)).flatMap (fun j => membersOf s (j + 1))).filter (fun n => !isLost s n)

/-! ## Step alignment (R363) -/

/-- STEP_GO to every member of this block. -/
def passGo (s : State) (empty : Bool) (step : Nat) : State :=
  (myMembers s).foldl (fun s m => sendSync s m 4 (headOf s) (bnat empty) 0 0 step) s

/-- Whether every member has reported the end of the step. -/
def membersDone (s : State) : Bool := (myMembers s).all (fun m => s.sched.membersDone.any (fun d => d.1 == m))

/-- Whether the step was empty on this block and on every member that reported. -/
def allEmpty (s : State) : Bool :=
  !s.sched.running && (myMembers s).all (fun m => s.sched.membersDone.contains (m, true))

/-- The end of the step is acted on: a lone block acts at its boundary, a member reports to its head, the top head sends
STEP_GO and acts; a step that was empty everywhere goes on waiting (R22, R91, R363).
DESIGN CHOICE (notes/assumptions/37.md). -/
def alignStep (s : State) (fs : List Fetched) : State :=
  if !stepEnded s || !boundaryFree s then s
  else if alone s then
    if s.sched.running then boundary s fs (some (s.sched.step + 1))
    else if s.sched.begun then s
    else boundary s fs none
  else if s.sched.goPending then
    boundary { s with sched := { s.sched with goPending := false } } fs (some (s.sched.step + 1))
  else if !membersDone s then s
  else if isTopHead s then
    if allEmpty s then s else boundary (passGo s false s.sched.step) fs (some (s.sched.step + 1))
  else if s.sched.doneSent then s
  else
    sendSync { s with sched := { s.sched with doneSent := true } } (ownHead s) 3 (headOf s + 1) (bnat (allEmpty s)) 0 0
      s.sched.step

/-- STEP_BOUNDARY (R22): the Lessons, stores and split combines of the step are done. -/
def execStepBoundary (fs : List Fetched) (s : State) : Host.Outcome State Fault Refusal := .next (alignStep s fs)

/-- Whether a command counter has incremented since the last sample, or a sequence command submitted since waits (R91). -/
def counterMoved (s : State) : Bool :=
  s.cores.any (fun c => c.2.ctxs.any (fun x => x.2.count != Map.get s.sched.sampled (8 * c.1 + x.1) 0)) ||
    s.sched.cmds.any (countedBefore s)

/-- Actions 4 and 5 repeat on an empty step, at the top head for the whole Form (R91, R363). -/
def repeatEmpty (s : State) (fs : List Fetched) : State :=
  if alone s then actions45 s fs
  else if membersDone s && allEmpty s then actions45 (passGo s true s.sched.step) fs
  else s

/-- STEP_RETRY (R91): a command counter incremented during an empty step. A member sends WAKE toward the top head. -/
def execStepRetry (fs : List Fetched) (s : State) : Host.Outcome State Fault Refusal :=
  .next (if s.sched.running || !boundaryFree s || !counterMoved s then s
    else if isTopHead s then repeatEmpty s fs
    else sendSync s (ownHead s) 5 (headOf s + 1) 0 0)

/-- STEP_DONE (R363): a member of this head has ended the step; `empty` is WIRE_FLAGS[0]. -/
def execStepDone (node : U16) (step : U64) (empty : Bool) (fs : List Fetched) (s : State) :
    Host.Outcome State Fault Refusal :=
  .next (if !(myMembers s).contains node.toNat || step.toNat != s.sched.step then s
    else
      alignStep { s with sched := { s.sched with
        membersDone := (s.sched.membersDone.filter (fun d => d.1 != node.toNat)) ++ [(node.toNat, empty)] } } fs)

/-- STEP_GO (R363): the head's go for a step. It is passed on to this block's members; the block then acts, or, after an
all-empty step, repeats actions 4 and 5. -/
def execStepGo (step : U64) (empty : Bool) (fs : List Fetched) (s : State) : Host.Outcome State Fault Refusal :=
  .next (if alone s || isTopHead s || !s.sched.doneSent || step.toNat != s.sched.step then s
    else
      let s := passGo s empty s.sched.step
      if empty then (if boundaryFree s then actions45 s fs else s)
      else alignStep { s with sched := { s.sched with goPending := true } } fs)

/-- WAKE (R363): the top head sends STEP_GO again after an all-empty step; another head passes the message on. -/
def execWake (fs : List Fetched) (s : State) : Host.Outcome State Fault Refusal :=
  .next (if alone s then s
    else if !isTopHead s then sendSync s (ownHead s) 5 (headOf s + 1) 0 0
    else if s.sched.running || !boundaryFree s then s
    else repeatEmpty s fs)

/-! ## Heartbeats and loss (R363, R366) -/

/-- HEARTBEAT: the time of the last one of a node is kept. -/
def execHeartbeat (node : U16) (s : State) : Host.Outcome State Fault Refusal :=
  .next (if !s.form.committed then s
    else { s with form := { s.form with
      beats := (s.form.beats.filter (fun b => b.1 != node.toNat)) ++ [(node.toNat, s.sys.uptime)] } })

/-- HEARTBEAT_TIMER: every 100 µs a block sends HEARTBEAT to its head and to its members. -/
def execHeartbeatTimer (s : State) : Host.Outcome State Fault Refusal :=
  .next (if alone s then s
    else
      let s := if isTopHead s then s else sendSync s (ownHead s) 6 (headOf s + 1) 0 0
      (myMembers s).foldl (fun s m => sendSync s m 6 (headOf s) 0 0) s)

/-- Whether no heartbeat of a node has come for FORM_LOSS_TIMEOUT. -/
def silent (s : State) (node : Nat) : Bool :=
  match s.form.beats.find? (fun b => b.1 == node) with
  | some b => b.2 + s.ent .formLossTimeout ≤ s.sys.uptime
  | none => true

/-- Whether every path to a node is down: no route, or no port of its entry up. -/
def pathDown (s : State) (node : Nat) : Bool :=
  match routeOf s node with
  | none => true
  | some (_, w) =>
    (entryPorts w).all (fun p => (s.port p).state != .up) && (s.port (bits w 20 5)).state != .up

/-- The node range that a member of a level stands for: itself, or the Form it heads, whose numbers run up to the next
member's head.
DEDUCED (notes/assumptions/38.md). -/
def memberRange (s : State) (j node : Nat) : Nat × Nat :=
  if j = 1 then (node, node)
  else
    let last := (s.form.levels.getD (j - 1) (0, 0, 0)).2.1.toNat
    let next := (membersOf s j).foldl (fun m h => if node < h && h ≤ m then h - 1 else m) last
    (node, next)

/-- A range of nodes is lost: routes into it become invalid, and step alignment and Roll Call count it as arrived
(R366). -/
def applyLoss (s : State) (lo hi : Nat) : State :=
  let cut := fun (e : U64) =>
    let w := e.toNat
    if lo ≤ bits w 32 16 && bits w 48 16 ≤ hi then BitVec.ofNat 64 (putBits w 31 1 0) else e
  let s := { s with form := { s.form with
    lost := s.form.lost ++ [(lo, hi)], routes := s.form.routes.map (fun r => (r.1, cut r.2)) } }
  (List.range 16).foldl rcPropagate s

/-- MEMBER_LOST (R366): a head declares a member lost and tells every block of the top Form. -/
def execMemberLost (node : U16) (fs : List Fetched) (s : State) : Host.Outcome State Fault Refusal :=
  let n := node.toNat
  .next (match (List.range (headOf s)).find? (fun j => (membersOf s (j + 1)).contains n) with
    | none => s
    | some j =>
      if isLost s n || !(silent s n || pathDown s n) then s
      else
        let (lo, hi) := memberRange s (j + 1) n
        let top := s.form.levels.getLastD (0, 0, 0)
        let all := ((List.range (top.2.1.toNat + 1 - top.1.toNat)).map (fun i => top.1.toNat + i)).filter (fun m =>
          m != s.form.node.toNat && !(lo ≤ m && m ≤ hi) && !isLost s m)
        let s := s.raise .memberLost
        let s := all.foldl (fun s m => sendSync s m 7 (j + 1) 0 0 hi lo) s
        alignStep (applyLoss s lo hi) fs)

/-- MEMBER_LOST_MESSAGE (R366): first and last node of the lost range. -/
def execMemberLostMessage (lo hi : U16) (fs : List Fetched) (s : State) : Host.Outcome State Fault Refusal :=
  .next (if alone s || s.form.lost.contains (lo.toNat, hi.toNat) then s
    else alignStep (applyLoss s lo.toNat hi.toNat) fs)

/-- HEAD_LOST (R366): no heartbeat from the head for FORM_LOSS_TIMEOUT; the block holds at its next boundary. -/
def execHeadLost (s : State) : Host.Outcome State Fault Refusal :=
  .next (if alone s || isTopHead s || s.form.headLost || !silent s (ownHead s) then s
    else ({ s with form := { s.form with headLost := true } }).raise .headLost)

/-! ## The link graph and its Forms (R351, R352) -/

/-- A block as enumeration sees it: its identity and port records. -/
abbrev GBlock := Nat × List PortRec

/-- This block's own port records. -/
def ownPorts (s : State) : List PortRec :=
  (List.range 24).filterMap (fun p =>
    if (s.port p).state = .up then
      some { port := p, peerId := (s.port p).peerId, peerPort := (s.port p).peerPort, role := s.ent .linkRole 0 p }
    else none)

/-- Every block of the graph.
DEDUCED (notes/assumptions/36.md). -/
def graphOf (s : State) (peers : List EnumPeer) : List GBlock :=
  (s.fuses.identity.toNat, ownPorts s) :: peers.map (fun p => (p.identity.toNat, p.ports))

/-- Ports of a block by identity. -/
def portsOf (g : List GBlock) (b : Nat) : List PortRec :=
  match g.find? (fun x => x.1 == b) with
  | some x => x.2
  | none => []

/-- Ports of a block with a role toward a set of blocks, in increasing number. -/
def portsTo (g : List GBlock) (b role : Nat) (set : List Nat) : List Nat :=
  ((portsOf g b).filter (fun p => p.role == role && set.contains p.peerId.toNat)).map (fun p => p.port)

/-- Two sets joined where they differ. -/
def joinSets (fs : List (List Nat)) (a b : Nat) : List (List Nat) :=
  match fs.find? (fun f => f.contains a), fs.find? (fun f => f.contains b) with
  | some x, some y => if x == y then fs else (x ++ y) :: fs.filter (fun f => f != x && f != y)
  | _, _ => fs

/-- The connected sets over links of a role, from the sets of the level below. -/
def joinRole (g : List GBlock) (role : Nat) (fs : List (List Nat)) : List (List Nat) :=
  g.foldl (fun fs b => (b.2.filter (fun p => p.role == role)).foldl (fun fs p => joinSets fs b.1 p.peerId.toNat) fs) fs

/-- The Forms of levels 1 to k, lowest level first (R351 step 2). -/
def formsUpTo (g : List GBlock) : Nat → List (List (List Nat))
  | 0 => []
  | k + 1 =>
    let below := formsUpTo g k
    below ++ [joinRole g (k + 1) (below.getLastD (g.map (fun b => [b.1])))]

/-- The highest role present among 1 to 4. -/
def topRole (g : List GBlock) : Nat :=
  g.foldl (fun m b => b.2.foldl (fun m p => if p.role ≤ 4 then Nat.max m p.role else m) m) 1

/-- The members of a Form of a level: the Forms of the level below that it contains, or its blocks. -/
def membersIn (forms : List (List (List Nat))) (k : Nat) (f : List Nat) : List (List Nat) :=
  if k = 1 then f.map (fun b => [b]) else (forms.getD (k - 2) []).filter (fun m => m.all f.contains)

/-- Head of a Form of a level: the top head where the Form contains it, else the least identity, level by level
(R351 step 3). -/
def headId (forms : List (List (List Nat))) (top : Nat) : Nat → List Nat → Nat
  | 0, f => f.headD 0
  | k + 1, f =>
    if f.contains top then top
    else
      let hs := (membersIn forms (k + 1) f).map (headId forms top k)
      hs.foldl Nat.min (hs.headD 0)

/-- A number put into a list in increasing order of a key. -/
def insertBy (key : List Nat → Nat) (x : List Nat) : List (List Nat) → List (List Nat)
  | [] => [x]
  | y :: r => if key x < key y then x :: y :: r else y :: insertBy key x r

/-- The members of a Form in numbering order: the head member, then increasing identity of their heads (R351 step 4). -/
def orderedMembers (forms : List (List (List Nat))) (top k : Nat) (f : List Nat) : List (List Nat) :=
  let h := headId forms top k f
  let ms := membersIn forms k f
  let key := fun (m : List Nat) => if m.contains h then 0 else headId forms top (k - 1) m + 1
  ms.foldl (fun l m => insertBy key m l) []

/-- The blocks of a Form in numbering order, depth first. -/
def numberOrder (forms : List (List (List Nat))) (top : Nat) : Nat → List Nat → List Nat
  | 0, f => f
  | k + 1, f => (orderedMembers forms top (k + 1) f).flatMap (numberOrder forms top k)

/-! ## Routes (R355) -/

/-- Layers of nodes by distance from a set, over an adjacency. -/
def layers (fuel : Nat) (adj : Nat → Nat → Bool) (all seen cur : List Nat) : List (List Nat) :=
  match fuel with
  | 0 => []
  | f + 1 =>
    if cur.isEmpty then []
    else
      let seen := seen ++ cur
      let next := all.filter (fun x => !seen.contains x && cur.any (fun c => adj x c))
      cur :: layers f adj all seen next

/-- The neighbours of a node that are one step nearer to a destination. -/
def nextHops (adj : Nat → Nat → Bool) (all : List Nat) (from_ to_ : Nat) : List Nat :=
  let ls := layers 20 adj all [] [to_]
  match ls.findIdx? (fun l => l.contains from_) with
  | some (i + 1) => (ls.getD i []).filter (fun x => adj from_ x)
  | _ => []

/-- A route entry (Table 14-2) over up to four ports. -/
def routeWord (lo hi alt : Nat) (ports : List Nat) : U64 :=
  let ps := ports.take 4
  BitVec.ofNat 64 (hi * 2 ^ 48 + lo * 2 ^ 32 + 2 ^ 31 + (ps.length - 1) * 2 ^ 28 + alt * 2 ^ 20 +
    ps.getD 3 0 * 2 ^ 15 + ps.getD 2 0 * 2 ^ 10 + ps.getD 1 0 * 2 ^ 5 + ps.getD 0 0)

/-- The port that a table takes for a node (R354). -/
def portToward (rs : List U64) (n : Nat) : Option Nat :=
  (rs.find? (fun e => bits e.toNat 32 16 ≤ n && n ≤ bits e.toNat 48 16)).map (fun e =>
    bits e.toNat (5 * (n % (bits e.toNat 28 2 + 1))) 5)

/-- Everything enumeration has settled: graph, Forms, top head, node order. -/
structure Plan where
  g : List GBlock
  forms : List (List (List Nat))
  top : Nat
  order : List Nat
  deriving DecidableEq, Repr

/-- Node number of a block. -/
def Plan.node (p : Plan) (b : Nat) : Nat := p.order.findIdx (fun x => x == b) + 1

/-- Node range of a Form. -/
def Plan.range (p : Plan) (f : List Nat) : Nat × Nat :=
  let ns := f.map p.node
  (ns.foldl Nat.min (ns.headD 0), ns.foldl Nat.max 0)

/-- The Form of a level that contains a block. -/
def Plan.formOf (p : Plan) (k b : Nat) : List Nat :=
  if k = 0 then [b] else ((p.forms.getD (k - 1) []).find? (fun f => f.contains b)).getD [b]

/-- Whether two blocks share a link of a role. -/
def Plan.linked (p : Plan) (role a b : Nat) : Bool := !(portsTo p.g a role [b]).isEmpty

/-- The route of a block to another block of its level-1 Form: its direct port, else toward a member nearer to it; ALT is a
spare link or a path through another member. -/
def Plan.route1 (p : Plan) (b d : Nat) : Option U64 :=
  let f := p.formOf 1 b
  let direct := portsTo p.g b 1 [d]
  let spare := portsTo p.g b 15 [d]
  let hops := (nextHops (p.linked 1) f b d).flatMap (fun m => if m == d then [] else portsTo p.g b 1 [m])
  let around := (f.filter (fun m => m != b && m != d && p.linked 1 b m && p.linked 1 m d)).flatMap (fun m =>
    portsTo p.g b 1 [m])
  let n := p.node d
  match direct ++ hops with
  | [] => none
  | q :: _ => some (routeWord n n ((spare ++ (around.filter (fun x => x != q))).headD q) [q])

/-- The route of a block to a member Form of level k − 1 of its level-k Form (R355): its own links when it owns some, else
the lower-level ports toward the owners. -/
def Plan.routeK (p : Plan) (rs : List U64) (k b : Nat) (dest : List Nat) : Option U64 :=
  let own := p.formOf (k - 1) b
  let ms := membersIn p.forms k (p.formOf k b)
  let adj := fun (i j : Nat) => (ms.getD i []).any (fun x => !(portsTo p.g x k (ms.getD j [])).isEmpty)
  let idx := List.range ms.length
  let hop := nextHops adj idx (ms.findIdx (fun m => m == own)) (ms.findIdx (fun m => m == dest))
  match hop with
  | [] => none
  | h :: _ =>
    let via := ms.getD h []
    let owners := ((p.order.filter own.contains).filter (fun x => !(portsTo p.g x k via).isEmpty))
    let mine := portsTo p.g b k via
    let toward := fun (x : Nat) => portToward rs (p.node x)
    let (lo, hi) := p.range dest
    let spare := portsTo p.g b 15 via
    if mine.isEmpty then
      match owners.filterMap toward with
      | [] => none
      | q :: r => some (routeWord lo hi ((r.drop 3 ++ r ++ spare).headD q) (q :: r))
    else
      let after := (owners.dropWhile (fun x => x != b)).drop 1 ++ owners.takeWhile (fun x => x != b)
      some (routeWord lo hi ((after.filterMap toward ++ spare).headD (mine.headD 0)) mine)

/-- The route table of a block, level by level. -/
def Plan.routes (p : Plan) (b : Nat) : List U64 :=
  let lvl1 := ((p.formOf 1 b).filter (fun d => d != b)).filterMap (p.route1 b)
  (List.range (p.forms.length - 1)).foldl (fun rs i =>
    let k := i + 2
    let own := p.formOf (k - 1) b
    rs ++ ((membersIn p.forms k (p.formOf k b)).filter (fun m => m != own)).filterMap (p.routeK rs k b)) lvl1

/-- The assignment of a block (R351 step 6). -/
def Plan.assign (p : Plan) (b : Nat) : Assignment :=
  let ks := (List.range p.forms.length).map (fun i => i + 1)
  { node := BitVec.ofNat 16 (p.node b),
    levels := ks.map (fun k =>
      let f := p.formOf k b
      let (lo, hi) := p.range f
      (BitVec.ofNat 16 lo, BitVec.ofNat 16 hi, BitVec.ofNat 16 (p.node (headId p.forms p.top k f)))),
    routes := (p.routes b).zipIdx.map (fun r => (r.2, r.1)),
    members := ks.map (fun k =>
      let f := p.formOf k b
      if headId p.forms p.top k f != b then []
      else ((membersIn p.forms k f).map (fun m => headId p.forms p.top (k - 1) m)).filterMap (fun h =>
        if h == b then none else some (BitVec.ofNat 16 (p.node h)))),
    blocks := BitVec.ofNat 16 p.order.length }

/-- Missing links: pairs of a level-1 Form, or of members of a higher Form, that no link joins (R352). -/
def Plan.missing (p : Plan) : Nat :=
  (List.range p.forms.length).foldl (fun n i =>
    let k := i + 1
    (p.forms.getD i []).foldl (fun n f =>
      let ms := membersIn p.forms k f
      let pairs := (List.range ms.length).flatMap (fun a => (List.range a).map (fun b => (ms.getD a [], ms.getD b [])))
      n + (pairs.filter (fun q => !q.1.any (fun x => !(portsTo p.g x k q.2).isEmpty))).length) n) 0

/-- The plan of an enumeration, or the code of Table R352 with which it fails. -/
def makePlan (s : State) (peers : List EnumPeer) : FC × Plan :=
  let g := graphOf s peers
  let k := topRole g
  let forms := formsUpTo g k
  let top := s.fuses.identity.toNat
  let ids := g.map (fun b => b.1)
  let sizes := (List.range k).all (fun i => (forms.getD i []).all (fun f => (membersIn forms (i + 1) f).length ≤ 16))
  let deeper := g.any (fun b => b.2.any (fun q => 4 < q.role && q.role != 15))
  let p : Plan := { g := g, forms := forms, top := top, order := numberOrder forms top k ids }
  if ids.eraseDups.length != ids.length then (.enumDuplicate, p)
  else if !sizes || deeper || (forms.getLastD []).length != 1 || 65534 < ids.length then (.enumTopology, p)
  else (.ok, p)

/-! ## Assignment, commit and release (R350 to R352) -/

/-- ENUM_STATUS set. -/
def setEnumStatus (s : State) (c : FC) : State := s.setCnt .enumStatus c.value

/-- A staged assignment takes effect: the block opens its data and sync channels (R351 step 7), link roles come into
force (R348), the heartbeats of head and members count from now, and wires without local participants arrive (R340). -/
def commitForm (s : State) : State :=
  match s.form.staged with
  | none => s
  | some a =>
    let routes := a.routes.foldl (fun (m : FMap U64) r => Map.put m r.1 (withOnAlt s r.2)) []
    let members := (a.members.zipIdx).foldl (fun (m : FMap (List Nat)) q =>
      if q.2 = 0 then m else Map.put m (q.2 + 1) (q.1.map (fun n => n.toNat))) []
    let s := { s with form := { node := a.node, committed := true, levels := a.levels, routes := routes, members := members } }
    let s := s.setCnt .enumBlocks a.blocks.toNat
    let s := (List.range 24).foldl (fun s p =>
      let r := s.ent .linkRole 0 p
      s.updPort p (fun q => { q with role := some r, state := if r = 0 then .heldDown else q.state })) s
    let watch := (if isTopHead s then [] else [ownHead s]) ++ myMembers s
    let s := { s with
      form := { s.form with beats := watch.map (fun n => (n, s.sys.uptime)) }
      sched := { s.sched with doneSent := false, membersDone := [], goPending := false } }
    (List.range 16).foldl rcPropagate s

/-- The block returns to the state of R350: no number, no routes, channels closed. -/
def releaseForm (s : State) : State :=
  let s := { s with form := { }, sched := { s.sched with doneSent := false, membersDone := [], goPending := false } }
  s.setCnt .enumBlocks 0

/-- ENUM_CMD = 1 (R351, R352): firmware plans the Form from the port records, sends every block its assignment and, when all
have acknowledged, the commit. -/
def enumStart (s : State) (peers : List EnumPeer) : FC × State :=
  if !alone s && !isTopHead s then (.valueRange, s)
  else if s.form.node != 0 then (.ok, setEnumStatus s .enumBusy)
  else
    let (c, p) := makePlan s peers
    if c != .ok then (.ok, setEnumStatus s c)
    else
      let s := peers.foldl (fun s q => s.emit (.enumAssign q.identity (p.assign q.identity.toNat))) s
      if peers.any (fun q => q.assignCode != .ok) then (.ok, setEnumStatus s .authFailed)
      else
        let s := (List.range p.missing).foldl (fun s _ => s.raise .formDegraded) s
        let s := { s with form := { s.form with staged := some (p.assign s.fuses.identity.toNat) } }
        let s := if peers.isEmpty then s else s.emit (.enumCommit true)
        (.ok, setEnumStatus (commitForm s) .ok)

/-- ENUM_CMD = 2 (R352): every number is released. -/
def enumRelease (s : State) : FC × State :=
  let s := if (myMembers s).isEmpty then s else s.emit (.enumCommit false)
  (.ok, releaseForm s)

/-- ENUM_ASSIGN (R351): the directed message with this block's number, ranges, heads and routes; `tagOk` tells whether its
authentication holds. -/
def execEnumAssign (a : Assignment) (tagOk : Bool) (s : State) : Host.Outcome State Fault Refusal :=
  .next (if tagOk then { s with form := { s.form with staged := some a } } else s)

/-- ENUM_COMMIT (R351): the block takes its assignment and passes the commit on to its members. -/
def execEnumCommit (s : State) : Host.Outcome State Fault Refusal :=
  .next (if s.form.staged.isNone then s
    else
      let s := commitForm s
      if (myMembers s).isEmpty then s else s.emit (.enumCommit true))

/-- The route entry that ROUTE_SELECT names is written (R354): its port numbers are 0 to 23. -/
def writeRoute (s : State) (v : Nat) : FC × State :=
  if [0, 5, 10, 15, 20].any (fun i => 23 < bits v i 5) then (.valueRange, s)
  else (.ok, { s with form := { s.form with routes := Map.put s.form.routes (s.ent .routeSelect) (withOnAlt s (BitVec.ofNat 64 v)) } })

end Sys2Proof.Machine
end

