-- ==== Sys2Proof/Machine/Links.lean ====
section
/-!
DEFINITION. Gaith Link ports (chapter 14, R350, R354, R356 to R360, R365, R409): flits, link-level retry, credits, packets
and relays. A packet that has arrived whole for this block frees its buffer here; what it asks is the command of its own
row (PUT, REPLY, SYNC_ARRIVE and the others), as notes/assumptions/33.md says.
-/

namespace Sys2Proof.Machine

open Sys2Proof

/-! ## Flits (R356, R357) -/

/-- Classes of Table 14-3 by their VC code. -/
def vcReq : Nat := 0
/-- DATA_RSP. -/
def vcRsp : Nat := 1
/-- SYNC. -/
def vcSync : Nat := 2
/-- MGMT. -/
def vcMgmt : Nat := 3
/-- IDLE. -/
def vcIdle : Nat := 7

/-- A field of a flit's header. -/
def Flit.get (f : Flit) (lo w : Nat) : Nat := bits f.header.toNat lo w

/-- A flit with a field of its header replaced. -/
def Flit.set (f : Flit) (lo w v : Nat) : Flit := { f with header := BitVec.ofNat 96 (putBits f.header.toNat lo w v) }

/-- The CRC of a flit: over the header bytes and then the payload (R357). -/
def Flit.crcOf (f : Flit) : Nat := crc32 (natLe 12 f.header.toNat ++ f.payload)

/-- Whether a flit passes its check: no mark of the PHY and a matching CRC (R357, R409). -/
def Flit.good (f : Flit) : Bool := !f.phyErr && f.payload.length == 256 && f.crc.toNat == Sys2Proof.Machine.Flit.crcOf f

/-- A flit with its CRC word. -/
def sealed (f : Flit) : Flit := { f with crc := BitVec.ofNat 32 (Sys2Proof.Machine.Flit.crcOf f) }

/-- POISON of one flit: bit i marks payload word i; the marks are those of the packet's 16-byte words. -/
def poisonField (marks : List Bool) : Nat := (marks.take 16).zipIdx.foldl (fun n m => n + bnat m.1 * 2 ^ m.2) 0

/-- The flits of a packet in one class: FIRST on the first, LAST on the last (R356, R360). -/
def flitsOf (fuel : Nat) (vc dest src hops : Nat) (first : Bool) (bs : List Byte) (marks : List Bool) : List Flit :=
  match fuel with
  | 0 => []
  | n + 1 =>
    let last := bs.length ≤ 256
    let h := vc * 2 ^ 93 + bnat first * 2 ^ 92 + bnat last * 2 ^ 91 + dest * 2 ^ 40 + src * 2 ^ 24 +
      poisonField marks * 2 ^ 8 + hops * 2 ^ 3
    let f : Flit := { header := BitVec.ofNat 96 h, payload := fit bs 256, crc := 0 }
    f :: (if last then [] else flitsOf n vc dest src hops false (bs.drop 256) (marks.drop 16))

/-! ## Packets (R360, R362) -/

/-- The data a request carries (R360). -/
def requestData (op : Nat) (r : Req) : List Byte × List Bool :=
  match Kind.ofCode? op with
  | some .put => (fit r.data r.len, r.poison)
  | some .cput => (fit r.data r.len, r.poison)
  | some .add => (natLe 8 r.operand.toNat, [])
  | some .max => (natLe 8 r.operand.toNat, [])
  | some .cmpcnt => (natLe 16 r.value.toNat ++ natLe 16 r.mask.toNat, [])
  | _ => ([], [])

/-- ATYPE of Table 12-8. -/
def atypeCode : AType → Nat
  | .u32 => 0
  | .u64 => 1
  | .i32 => 2
  | .i64 => 3
  | .f32 => 4

/-- PRED of Table 12-8. -/
def predCode : Pred → Nat
  | .eq => 0
  | .ne => 1
  | .ltu => 2
  | .geu => 3

/-- Word 3 of the packet header: the fields of Table 12-8 word 0 at their bit positions. -/
def headWord3 (r : Req) : Nat :=
  atypeCode r.atype * 2 ^ 16 + bnat r.fetch * 2 ^ 20 + predCode r.pred * 2 ^ 22 + r.elem.toNat * 2 ^ 24 +
    r.ctr.toNat * 2 ^ 27 + r.ctrCore.toNat * 2 ^ 35

/-- The 32-byte header of Table 14-4. -/
def packetHead (target op wepoch tenant sseq stream uepoch code len word3 : Nat) : List Byte :=
  natLe 8 target ++ natLe 8 (op * 2 ^ 56 + wepoch * 2 ^ 48 + tenant * 2 ^ 32 + sseq * 2 ^ 16 + stream) ++
    natLe 8 (uepoch * 2 ^ 32 + code * 2 ^ 16 + len) ++ natLe 8 word3

/-- The flits of a request for another block. -/
def requestFlits (op : Nat) (r : Req) (hops : Nat) : List Flit :=
  match r.origin with
  | .inside _ => []
  | .arrival node stream sseq we ue =>
    let (d, m) := requestData op r
    flitsOf 32 vcReq r.node node.toNat hops true
      (packetHead r.target.toNat op we.toNat r.tenant.toNat sseq.toNat stream.toNat ue.toNat 0 r.len (headWord3 r) ++ d)
      ([false, false] ++ m)

/-- The flits of a reply (R360): OP with bit 7, the request's epochs and numbers, and CODE. -/
def replyFlits (src : Nat) (o : Origin) (target tenant op : Nat) (code : FC) (data : List Byte) (marks : List Bool) :
    List Flit :=
  match o with
  | .inside _ => []
  | .arrival node stream sseq we ue =>
    flitsOf 32 vcRsp node.toNat src 0 true
      (packetHead target (op + 128) we.toNat tenant sseq.toNat stream.toNat ue.toNat code.value data.length 0 ++ data)
      ([false, false] ++ marks)

/-- The flit of one sync message (Table 14-6). -/
def syncFlit (src dest type level flags gen node high arg : Nat) : List Flit :=
  flitsOf 1 vcSync dest src 0 true
    (natLe 16 (type * 2 ^ 120 + level * 2 ^ 112 + flags * 2 ^ 104 + gen * 2 ^ 96 + node * 2 ^ 80 + high * 2 ^ 64 + arg)) []

/-! ## Sending (R358, R359) -/

/-- Flits queued on a port in their class. -/
def queueFlits (s : State) (port : Nat) (fs : List Flit) : State :=
  s.updPort port (fun q => { q with tx := fs.foldl (fun t f => Map.upd t (Flit.get f 93 3) [] (· ++ [f])) q.tx })

/-- Flits for a node queued on its port, on ALT with ON_ALT set, or dropped and counted when both are down; a relay that
would leave on the port the packet came by is dropped (R354, R365). -/
def routeFlits (s : State) (dest : Nat) (came : Option Nat) (fs : List Flit) : State :=
  match egress s dest with
  | none => match came with
    | some c => s.bump .linkFlitsLost c 0 fs.length
    | none => s
  | some (e, p, out) =>
    let s := if out == some p then s else setOnAlt s e
    match out with
    | none => s.bump .linkFlitsLost p 0 fs.length
    | some q => if came == some q then s.bump .linkFlitsLost q 0 fs.length else queueFlits s q fs

/-- The packet of one output of the block, on the port that the request was given or on the route to its node.
DEDUCED (notes/assumptions/34.md). -/
def packetise (s : State) (o : Output) : State :=
  match o with
  | .linkReq p _ op r => queueFlits s p (requestFlits op r 0)
  | .relay p op r => queueFlits s p (requestFlits op r 1)
  | .reply (.arrival node st q we ue) target tenant op code data marks =>
    if isLocal s node.toNat || st.toNat / 4096 = 3 then s
    else routeFlits s node.toNat none
      (replyFlits s.form.node.toNat (.arrival node st q we ue) target tenant op code data marks)
  | .sync dest type level flags gen node high arg =>
    routeFlits s dest none (syncFlit s.form.node.toNat dest type level flags gen node high arg)
  | _ => s

/-- The class that sends next among those with a flit and a credit (R359). -/
def nextClass (q : Port) : Option Nat :=
  let can := fun c => !(Map.get q.tx c []).isEmpty && 0 < Map.get q.credits c 0 && q.replay.length < 1024
  if can vcMgmt && 15 ≤ q.sinceMgmt then some vcMgmt
  else if can vcSync then some vcSync
  else if can vcRsp && (!can vcReq || !q.lastRsp) then some vcRsp
  else if can vcReq then some vcReq
  else if can vcMgmt then some vcMgmt
  else none

/-- The class with credits to return, if any. -/
def dueClass (q : Port) : Option (Nat × Nat) := q.due.find? (fun p => p.2 != 0)

/-- A flit as it leaves the port: the acknowledgement and up to 63 credits of one class are filled in (R356, R358, R359). -/
def leaves (s : State) (port : Nat) (f : Flit) (nak : Bool) : State × Flit :=
  let q := s.port port
  let f := Flit.set (Flit.set (Flit.set f 67 12 q.rxNext.toNat) 66 1 1) 65 1 (bnat nak)
  let (f, due) := match dueClass q with
    | none => (Flit.set (Flit.set f 62 3 0) 56 6 0, q.due)
    | some (c, n) => (Flit.set (Flit.set f 62 3 c) 56 6 (min n 63), Map.put q.due c (n - min n 63))
  let f := sealed f
  ((s.updPort port (fun q => { q with due := due, unacked := 0 })).emit (.flit port f), f)

/-- An IDLE flit: acknowledgement and credits only; it takes no number and is never replayed. -/
def sendIdle (s : State) (port : Nat) (nak : Bool) : State :=
  (leaves s port { header := BitVec.ofNat 96 (vcIdle * 2 ^ 93), payload := zeros 256, crc := 0 } nak).1

/-- One sequenced flit of a class leaves: it takes the next number and a credit and enters the replay buffer. -/
def sendOne (s : State) (port c : Nat) : State :=
  let q := s.port port
  match Map.get q.tx c [] with
  | [] => s
  | f :: rest =>
    let s := s.updPort port (fun q => { q with
      tx := Map.put q.tx c rest, credits := Map.upd q.credits c 0 (fun n => n - 1), txSeq := q.txSeq + 1,
      sinceMgmt := if c = vcMgmt then 0 else q.sinceMgmt + 1,
      lastRsp := if c = vcRsp then true else if c = vcReq then false else q.lastRsp })
    let (s, f) := leaves s port (Flit.set f 79 12 q.txSeq.toNat) false
    (s.updPort port (fun q => { q with replay := q.replay ++ [f] })).bump .linkFlitsTx port

/-- A port sends what it can. -/
def drainPort (fuel : Nat) (s : State) (port : Nat) : State :=
  match fuel with
  | 0 => s
  | n + 1 =>
    if (s.port port).state != .up then s
    else match nextClass (s.port port) with
      | none => s
      | some c => drainPort n (sendOne s port c) port

/-- The packets of new outputs are queued, and every port that is up sends what its credits allow. -/
def linkPump (s : State) : State :=
  let fresh := s.outbox.drop s.sys.linkSeen
  let s := fresh.foldl packetise s
  let s := s.ports.foldl (fun s p => drainPort (p.2.tx.foldl (fun n t => n + t.2.length) 0) s p.1) s
  { s with sys := { s.sys with linkSeen := s.outbox.length } }

/-! ## A port goes down or comes up (R350, R365) -/

/-- Entries that name a port are marked as on ALT (Table 14-2). -/
def entriesOnAlt (s : State) (port : Nat) : State :=
  { s with form := { s.form with
    upPending := s.form.upPending.filter (· != port)
    routes := s.form.routes.map (fun r =>
      let w := r.2.toNat
      if bit w 31 && usesPort w port then (r.1, BitVec.ofNat 64 (putBits w 30 1 1)) else r) } }

/-- Numbers, buffers and credits of a port as a link begins. -/
def freshPort (q : Port) : Port :=
  { q with txSeq := 0, rxNext := 0, replay := [], unacked := 0, nakSent := false, replays := 0, replaySeq := 0,
           credits := [], rx := [], tx := [], due := [], sinceMgmt := 0, lastRsp := false }

/-- A port goes down (R365): its buffers are discarded and counted, traffic moves to ALT, and the event is raised. -/
def portDown (s : State) (port : Nat) : State :=
  let q := s.port port
  if q.state = .down then s
  else
    let lost := q.replay.length + q.tx.foldl (fun n t => n + t.2.length) 0
    let s := s.bump .linkFlitsLost port 0 lost
    let s := s.updPort port (fun q => { freshPort q with state := .down })
    ((entriesOnAlt s port).bump .linkDowns port).raise .linkDown 4 port

/-- The role of a port in force: that of the last enumeration, or the reset value of LINK_ROLE (R348). -/
def roleOf (s : State) (port : Nat) : Nat := (s.port port).role.getD (if port < 15 then 1 else 2)

/-- LINK_DOWN (R358, R365, R410): the replay limit is reached, no valid flit has come for 10 µs, or gl_phy_up has fallen;
`phyUp` is the level of gl_phy_up. -/
def execLinkDown (port : Fin 24) (phyUp : Bool) (s : State) : Host.Outcome State Fault Refusal :=
  .next ((portDown s port.val).updPort port.val (fun q => { q with phyUp := phyUp }))

/-- The receive buffers of a port in flits, by class: DATA_REQ, DATA_RSP, SYNC, MGMT (R359). -/
def receiveCredits : List Nat := [384, 384, 16, 32]

/-- LINK_UP (R350, R365, R410): gl_phy_up rises, and the port sends HELLO; a port of role 0 stays down (R348), and
so does one whose clock is lost (R395). -/
def execLinkUp (port : Fin 24) (s : State) : Host.Outcome State Fault Refusal :=
  let role := roleOf s port.val
  .next (if (s.port port.val).state = .up || !s.sys.ckPresent.getLsbD (32 + port.val) then s
    else
      let s := s.updPort port.val (fun q =>
        { freshPort q with phyUp := true, state := if role = 0 then .heldDown else .training })
      if role = 0 then s else s.emit (.hello port.val s.fuses.identity role receiveCredits))

/-- HELLO (R350, R365): the peer's identity, port number and role, and its receive credits by class. Another role, or,
once the block has its place, another peer than the one recorded, holds the port down; the entries of a port that comes up
again return from ALT at the next boundary.
DEDUCED (notes/assumptions/35.md). -/
def execHello (port : Fin 24) (identity : U64) (peerPort : BitVec 8) (role : BitVec 8) (req rsp sync mgmt : Nat)
    (s : State) : Host.Outcome State Fault Refusal :=
  let q := s.port port.val
  let same := q.peerId = identity && q.peerPort = peerPort.toNat && q.peerRole = role.toNat
  .next (if q.state != .training then s
    else if role.toNat != roleOf s port.val || (s.form.committed && q.known && !same) then
      (s.updPort port.val (fun q => { q with state := .heldDown })).raise .linkRole 4 port.val
    else
      let s := s.updPort port.val (fun q =>
        { q with state := .up, known := true, peerId := identity, peerPort := peerPort.toNat, peerRole := role.toNat,
                 credits := [(vcReq, req), (vcRsp, rsp), (vcSync, sync), (vcMgmt, mgmt)] })
      if s.form.committed && (q.known || s.form.routes.any (fun r => usesPort r.2.toNat port.val && bit r.2.toNat 30)) then
        { s with form := { s.form with upPending := insertNat port.val s.form.upPending } }
      else s)

/-! ## Receiving (R358, R359) -/

/-- A receiver that discards a flit sends one NAK until an acceptable flit comes. -/
def nakOnce (s : State) (port : Nat) : State :=
  if (s.port port).nakSent then s
  else (sendIdle s port true).updPort port (fun q => { q with nakSent := true })

/-- Flits before a number leave the replay buffer; a number outside the buffer frees none. -/
def ackTo (s : State) (port : Nat) (n : BitVec 12) : State :=
  s.updPort port (fun q =>
    let count := (n - (q.txSeq - BitVec.ofNat 12 q.replay.length)).toNat
    if count ≤ q.replay.length then { q with replay := q.replay.drop count } else q)

/-- A NAK: the sender replays from the number it names; the port goes down after LINK_RETRY_MAX consecutive replays from one
number (R358). -/
def replayFrom (s : State) (port : Nat) (n : BitVec 12) : State :=
  let q := s.port port
  let times := if q.replays != 0 && q.replaySeq == n then q.replays + 1 else 1
  let s := (s.updPort port (fun q => { q with replays := times, replaySeq := n })).bump .linkReplays port
  if s.ent .linkRetryMax port ≤ times then portDown s port
  else
    let old := (n - (q.txSeq - BitVec.ofNat 12 q.replay.length)).toNat
    (q.replay.drop old).foldl (fun s f => (leaves s port f false).1) s

/-- Acknowledgement, NAK and credits of a good flit. -/
def takeControl (s : State) (port : Nat) (f : Flit) : State :=
  let n := BitVec.ofNat 12 (Flit.get f 67 12)
  let s := if Flit.get f 66 1 = 1 then ackTo s port n else s
  let c := Flit.get f 62 3
  let s := if c ≤ 3 then
      s.updPort port (fun q => { q with credits := Map.upd q.credits c 0 (· + Flit.get f 56 6) }) else s
  if Flit.get f 65 1 = 1 then replayFrom s port n else s

/-- A packet has arrived whole: before enumeration only directed management packets are taken; a packet for another node is
relayed with HOPS one higher, unless that reaches 31 (R350, R354, R359). -/
def packetArrived (s : State) (port : Nat) (fs : List Flit) : State :=
  match fs with
  | [] => s
  | f :: _ =>
    let vc := Flit.get f 93 3
    let dest := Flit.get f 40 16
    let hops := Flit.get f 3 5 + 1
    if vc = vcMgmt && dest = 0 then s
    else if !s.form.committed then s.bump .linkFlitsLost port 0 fs.length
    else if isLocal s dest || dest = 0xFFFF then s
    else if 31 ≤ hops then s.bump .linkFlitsLost port 0 fs.length
    else routeFlits s dest (some port) (fs.map (fun g => Flit.set g 3 5 hops))

/-- A flit with the expected number is accepted; it is acknowledged after 32 at the latest, and the last flit of a packet
frees the packet's places. -/
def acceptFlit (s : State) (port : Nat) (f : Flit) : State :=
  let c := Flit.get f 93 3
  let s := (s.updPort port (fun q => { q with
    rxNext := q.rxNext + 1, unacked := q.unacked + 1, nakSent := false,
    rx := Map.upd q.rx c [] (· ++ [f]) })).bump .linkFlitsRx port
  let s := if Flit.get f 91 1 = 1 then
      let fs := Map.get (s.port port).rx c []
      let s := s.updPort port (fun q => { q with rx := Map.put q.rx c [], due := Map.upd q.due c 0 (· + fs.length) })
      packetArrived s port fs
    else s
  if 32 ≤ (s.port port).unacked then sendIdle s port false else s

/-- A flit reaches a port: check, control fields, then acceptance in order (R357, R358). A class that Table 14-3 reserves
names no buffer, and its flit is dropped and counted. -/
def receiveFlit (s : State) (port : Nat) (f : Flit) : State :=
  let st := (s.port port).state
  if st != .up && st != .training then s.bump .linkFlitsLost port
  else if !Flit.good f then nakOnce (s.bump .linkCrcErrors port) port
  else
    let s := takeControl s port f
    if Flit.get f 93 3 = vcIdle || (s.port port).state = .down then s
    else if Flit.get f 79 12 != (s.port port).rxNext.toNat then nakOnce s port
    else if 3 < Flit.get f 93 3 then
      (s.updPort port (fun q => { q with rxNext := q.rxNext + 1, unacked := q.unacked + 1, nakSent := false })).bump
        .linkFlitsLost port
    else acceptFlit s port f

/-- FLIT_RECEIVE (R358). -/
def execFlitReceive (port : Fin 24) (f : Flit) (s : State) : Host.Outcome State Fault Refusal :=
  .next (linkPump (receiveFlit s port.val f))

/-- LINK_ACK_TIMER (R358): 100 ns have passed; a port with an unacknowledged flit acknowledges, and credits go back. -/
def execLinkAckTimer (port : Fin 24) (s : State) : Host.Outcome State Fault Refusal :=
  let s := linkPump s
  let q := s.port port.val
  .next (if q.state = .up && (q.unacked != 0 || (dueClass q).isSome) then sendIdle s port.val false else s)

end Sys2Proof.Machine
end

