-- ==== Sys2Proof/Machine/Reports.lean ====
section
/-!
DEFINITION. Roll Call rows, Report Cards and manual sets (R337 to R345).
-/

namespace Sys2Proof.Machine

open Sys2Proof

/-! ## Report Cards (R344, Tables 13-8 and 13-9) -/

/-- What a context waits for (Table 13-9): kind, counter and value. An issued Lesson's stream WAIT comes first, then its
combine, then its ring pass; a parked command waits for flags or for places. -/
def awaited (s : State) (c x : Nat) : Nat × Nat × Nat :=
  let k := s.core c
  let mine := (k.lessons.filter (fun p => p.2.ctx == x)).map Prod.fst
  let wait := k.waits.find? (fun p =>
    let st := Map.get k.streams p.1 { }
    st.bound && mine.contains st.lesson && (s.counter c p.2.1).toNat < p.2.2)
  let comb := k.combineWaits.find? (fun p => mine.contains p.1 && (s.counter c p.2.1).toNat < p.2.2)
  let ring := k.lessons.any (fun p => p.2.ctx == x && (heavies p.2.stages).any (fun i =>
    (operandSrc p.2.stages i false).isRing && !heavyDone s c p.2 ((stageAt p.2.stages i).kind - 4) &&
      !ringReady s c p.1 p.2 i))
  match wait, comb with
  | some (_, n, v), _ => (1, n, v)
  | none, some (_, n, v) => (2, n, v)
  | none, none =>
    if ring then (5, 0xFFFFFFFF, 0)
    else match (s.ctx c x).waiting with
      | none => (0, 0xFFFFFFFF, 0)
      | some w =>
        let nh := (heavies (readStages s c w.desc)).length
        let places := sbFull s c || (sbConflict s c (lreads w.desc nh) (lwrites w.desc nh)).isSome
        if cmdWord w.desc 0 % 256 = 1 && !places then (3, 0xFFFFFFFF, 0) else (4, 0xFFFFFFFF, 0)

/-- State of a stream in a card: 0 running, 1 WAIT, 2 suspended, 3 ended. -/
def streamCode (s : State) (c n : Nat) : Nat :=
  let k := s.core c
  let st := Map.get k.streams n { }
  let ctx := ((Map.get? k.lessons st.lesson).map (fun l => l.ctx)).getD 0
  if st.ended || !st.bound then 3
  else if Map.has k.waits n then 1
  else if (s.ctx c ctx).state = .switched || (s.ctx c ctx).state = .faulted then 2
  else 0

/-- A mask of the contexts in a state. -/
def ctxMask (s : State) (c : Nat) (st : CtxState) : Nat :=
  (List.range 8).foldl (fun n x => if (s.ctx c x).state = st then n + 2 ^ x else n) 0

/-- One context record of a core section. -/
def ctxRecord (s : State) (c x : Nat) : List Byte :=
  let k := s.ctx c x
  let (kind, n, v) := awaited s c x
  natLe 1 k.state.code ++ zeros 1 ++ natLe 2 k.tenant ++ natLe 4 k.count.toNat ++ natLe 4 k.done.toNat ++
    natLe 2 k.lastFault.value ++ zeros 2 ++ natLe 8 (s.sys.coreCycles - k.stateSince) ++ natLe 4 n ++ natLe 4 v ++
    natLe 4 (kind * 2 ^ 24) ++ natLe 4 (s.ent .ctxSaveRow c x) ++ zeros 24

/-- One flag owner word: held, context, producing and consuming engine, consuming stage place. -/
def ownerWord (k : Core) (f : Nat) : Nat :=
  match Map.get? k.flagOwner f with
  | none => 0
  | some o => 2 ^ 15 + (o.ctx % 8) * 2 ^ 12 + (o.producer % 16) * 2 ^ 8 + (o.consumer % 16) * 2 ^ 4 + o.stage % 16

/-- One stream record: a stream that waits for nothing shows counter and N as 0. -/
def streamRecord (s : State) (c n : Nat) : List Byte :=
  let k := s.core c
  let st := Map.get k.streams n { }
  let w := Map.get k.waits n (0, 0)
  let ctx := ((Map.get? k.lessons st.lesson).map (fun l => l.ctx)).getD 0
  natLe 1 (bnat st.bound) ++ natLe 1 (if st.bound then ctx else 0) ++ natLe 1 (streamCode s c n) ++ zeros 1 ++
    natLe 4 w.1 ++ natLe 4 w.2 ++ natLe 4 st.pc

/-- The bytes of a core section after its first four (Table 13-9). -/
def sectionBody (s : State) (c : Nat) : List Byte :=
  let k := s.core c
  let stall := (List.range 7).foldl (fun n e => n + s.cnt .stallCycles c (7 * e + 5)) 0
  natLe 4 k.epoch.toNat ++ natLe 8 (s.cnt .recessCycles c) ++ natLe 8 stall ++ zeros 40 ++ natLe 8 k.flags.toNat ++
    (List.range 64).flatMap (fun f => natLe 2 (ownerWord k f)) ++ zeros 56 ++
    (List.range 256).flatMap (fun n => natLe 4 (s.counter c n).toNat) ++
    (List.range 8).flatMap (ctxRecord s c) ++
    (List.range 16).flatMap (fun w => natLe 16 (Map.get k.arms w { }).toNat) ++
    (List.range 16).flatMap (streamRecord s c) ++ zeros 1792

/-- The state with the core as its reset leaves it, for the section of a gated core or one in reset: its epoch stays. -/
def asReset (s : State) (c : Nat) : State :=
  let e := (s.core c).epoch
  { s with cores := Map.put s.cores c { epoch := e },
           dict := { s.dict with
             eff := s.dict.eff.filter (fun p => p.1 / 256 != 0x4027 + 0x40 * c)
             cnt := s.dict.cnt.filter (fun p => p.1 / 16384 != (0x4000 + 0x40 * c) / 64) },
           sys := { s.sys with coreCycles := 0 } }

/-- Section of core c. -/
def coreSection (s : State) (c : Nat) : List Byte :=
  if !s.coreFused c then natLe 1 3 ++ zeros 4095
  else if !s.corePresent c || (s.core c).inReset then natLe 1 2 ++ zeros 3 ++ sectionBody (asReset s c) c
  else
    natLe 1 (bnat (s.core c).recess) ++ natLe 1 (ctxMask s c .running) ++ natLe 1 (ctxMask s c .blocked) ++
      natLe 1 (ctxMask s c .switched) ++ sectionBody s c

/-- Roll Call section of wire w. -/
def wireSection (s : State) (w : Nat) : List Byte :=
  let x := s.wire w
  natLe 8 (rcMask s w).toNat ++ natLe 8 x.arrived.toNat ++ natLe 1 x.gen.toNat ++ natLe 1 (s.ent .rcScope w) ++
    natLe 1 (bnat x.armed) ++ zeros 1 ++ natLe 4 (s.ent .rcTimeout w) ++
    natLe 8 (if x.armed then s.sys.coreCycles - x.armedAt else 0) ++ natLe 4 (s.cnt .rcSpurious w) ++
    natLe 4 (s.cnt .rcTimeouts w) ++ natLe 4 (s.cnt .rcLate w) ++ natLe 4 x.members.length ++ zeros 16

/-- The sequences of a card: the batch in increasing number, then the others with HELD = 1 or WALKERS above 0. -/
def cardSeqs (s : State) : List Nat :=
  let batch := if s.sched.running then s.sched.batch.foldl (fun l p => insertNat p.seq l) [] else []
  batch ++ (Map.keys s.charts.seqs).filter (fun n =>
    !batch.contains n && ((s.desc n).held || (s.desc n).walkers != 0))

/-- Everything of a card that T_cap fixes.
DEDUCED (notes/assumptions/70.md). -/
def cardBytes (s : State) (trigger : FC) (wire : Nat) (seqs : List Nat) : List Byte :=
  natLe 2 1 ++ natLe 2 s.form.node.toNat ++ natLe 2 trigger.value ++ natLe 1 wire ++ zeros 1 ++ natLe 8 s.sched.step ++
    natLe 8 s.sys.coreCycles ++ natLe 4 seqs.length ++ natLe 4 s.fuses.coreMask.toNat ++ zeros 224 ++
    (List.range 16).flatMap (wireSection s) ++ zeros (0x1000 - 0x500) ++
    (List.range 32).flatMap (coreSection s)

/-- Whether a boundary action is under way: action 5 waits for a batch answer, so a capture or a reset waits too (R344,
R453). -/
def actionOpen (s : State) : Bool := s.sched.batchWait

/-- The oldest waiting request is captured, when nothing hinders it; a Control Complex restart holds it (R454). -/
def cardPump (s : State) : State :=
  match s.sys.cards, s.sys.cardWait with
  | [], (t, w) :: rest =>
    if actionOpen s || s.sys.cc.restarting then s
    else
      let s := { s with sys := { s.sys with cardWait := rest } }
      if s.ent .reportBase = 0 then s
      else
        let seqs := cardSeqs s
        let job : CardJob := { trigger := t, base := s.ent .reportBase, bytes := cardBytes s t w seqs, seqs := seqs }
        { s with sys := { s.sys with cards := [job] } }
  | _, _ => s

/-- A card is asked for (R344); with no REPORT_BASE there is none. -/
def requestCard (s : State) (trigger : FC) (wire : Nat) : State :=
  if s.ent .reportBase = 0 then s
  else cardPump { s with sys := { s.sys with cardWait := s.sys.cardWait ++ [(trigger, wire)] } }

/-- A write of REPORT_CMD (R344). -/
def reportCommand (s : State) : FC × State :=
  if s.ent .reportBase = 0 then (.valueRange, s) else (.ok, requestCard s .ok 0xFF)

/-- The bytes of a card as it lands: the captured part, then each descriptor as it reads now. -/
def cardWhole (s : State) (j : CardJob) : List Byte := j.bytes ++ j.seqs.flatMap (fun n => (s.desc n).bytes)

/-- Bytes land at an HBM address granule by granule: what an MCC that is down serves does not land (R408); the first code
of a granule that did not. -/
def landAt (s : State) (base : Nat) (bs : List Byte) : State × FC :=
  (putPieces (bs.length / 4096 + 2) base bs.length).foldl (fun (acc : State × FC) p =>
    let (s, code) := acc
    let a := base + p.1
    if mapCheck s a p.2 != .ok then (s, if code = .ok then mapCheck s a p.2 else code)
    else if mcDown s a p.2 then (s, if code = .ok then .mcDown else code)
    else (s.write a (slice bs p.1 p.2), code)) (s, .ok)

/-- A card lands at its base. -/
def landCard (s : State) (j : CardJob) : State × FC := landAt s j.base (cardWhole s j)

/-- REPORT_CARD_LANDED (R344): the card has landed, or is abandoned with the code of the write that failed; the next
request is captured. -/
def execReportCardLanded (s : State) : Host.Outcome State Fault Refusal :=
  .next (match s.sys.cards with
    | [] => cardPump s
    | j :: rest =>
      let len := (cardWhole s j).length
      let (s, code) := landCard s j
      let s := { s with sys := { s.sys with cards := rest } }
      let s := if code != .ok then s.raise code
        else ((s.bump .reportCount).setCnt .reportTrigger j.trigger.value).setCnt .reportSize len
      cardPump s)

/-! ## Roll Call rows -/

/-- Least width of `rc_arrive`, in ck_core cycles (Table 16-5). -/
def rcArriveMin : Nat := 16

/-- RC_ARM (R337): a 16-byte PUT of an arm record by a stream of the core itself. -/
def execRcArm (core : Fin 32) (ctx : Fin 8) (stream : Fin 16) (w : Fin 16) (record : BitVec 128) (s : State) :
    Host.Outcome State Fault Refusal :=
  .next (request s .put
    { origin := .inside (.stream core ctx stream),
      target := BitVec.ofNat 64 (s.form.node.toNat * 2 ^ 48 + counterBase + core.val * 0x10000 + 0x3000 + 16 * w.val),
      tenant := BitVec.ofNat 12 (s.ctx core ctx).tenant, len := 16, data := natLe 16 record.toNat })

/-- A write of RC_CC_ARRIVE by the Control Complex (R338). -/
def ccArrive (s : State) (w v : Nat) : FC × State :=
  if v != (s.wire w).gen.toNat || !(rcMask s w).getLsbD 32 then (.valueRange, s)
  else (.ok, rcArrive (rcArmGen s w) w 32)

/-- RC_EXTERNAL_ARRIVE (R338, R341, R398): `rc_arrive` of a wire has been high for a number of ck_core cycles. A shorter pulse
is filtered; an arrival that no armed generation or no mask bit expects is spurious. -/
def execRcExternalArrive (w : Fin 16) (cycles : Nat) (s : State) : Host.Outcome State Fault Refusal :=
  .next (if cycles < rcArriveMin then s.bump .rcFiltered
    else if (s.wire w).armed && (rcMask s w).getLsbD 33 then rcArrive s w 33
    else s.bump .rcSpurious w)

/-- RC_COMPLETE (R339, R340): the wire's AND is complete at this block; a head sends RELEASE to its members first. -/
def execRcComplete (w : Fin 16) (s : State) : Host.Outcome State Fault Refusal :=
  .next (if rcReady s w then rcComplete (rcSendRelease s w (rcLevels s w)) w else s)

/-- RC_TIMEOUT (R342): a generation armed for RC_TIMEOUT microseconds is incomplete. -/
def execRcTimeout (w : Fin 16) (s : State) : Host.Outcome State Fault Refusal :=
  let x := s.wire w
  .next (if !x.armed || x.timedOut || s.ent .rcTimeout w = 0 then s
    else
      let s := s.updWire w (fun x => { x with timedOut := true })
      let s := (s.raise .rcTimeout 0 0 (w.val * 256 + x.gen.toNat)).bump .rcTimeouts w
      requestCard s .rcTimeout w)

/-- SYNC_ARRIVE (R340): a member's ARRIVE for a wire and generation reaches this head. Sync messages that arrive before
enumeration are dropped (R350). -/
def execSyncArrive (w : Fin 16) (gen : BitVec 8) (node : U16) (s : State) : Host.Outcome State Fault Refusal :=
  .next (if !s.form.committed then s
    else if gen != (s.wire w).gen then s.bump .rcSpurious w
    else rcPropagate (s.updWire w (fun x => { x with members := insertNat node.toNat x.members })) w)

/-- SYNC_RELEASE (R340): a member passes RELEASE to its own members and completes. -/
def execSyncRelease (w : Fin 16) (gen : BitVec 8) (s : State) : Host.Outcome State Fault Refusal :=
  .next (if !s.form.committed then s
    else if gen != (s.wire w).gen then s.bump .rcSpurious w
    else rcComplete (rcSendRelease s w (headLevel s (rcLevels s w))) w)

/-! ## Setting sync objects by hand (R345) -/

/-- The checks of SYNC_SET (Table 13-10). -/
def syncSetCode (s : State) (v : Nat) : FC :=
  let kind := bits v 29 3
  let core := bits v 24 5
  if bits v 8 16 != 0 || (kind == 1 && bits v 33 31 != 0) || (kind == 2 && bits v 40 24 != 0) then .reservedNonzero
  else if 2 < kind then .valueRange
  else if kind != 2 && !s.corePresent core then .unitAbsent
  else if kind = 1 && 63 < bits v 0 8 then .valueRange
  else if kind = 2 && (15 < bits v 0 8 || bits v 32 8 != (s.wire (bits v 0 8)).gen.toNat) then .valueRange
  else .ok

/-- n bytes of whatever a hand-over buffer holds, with their poison marks: free values. -/
def freeBytes (s : State) (n : Nat) : State × List MByte :=
  ({ s with free := s.free + n }, (List.range n).map (fun k =>
    ((Config.freeValue (s.free + k)).setWidth 8, (Config.freeValue (s.free + k)).getLsbD 8)))

/-- Bytes of Q that the next step of an Attend takes. -/
def attNeed (s : State) (c : Nat) (l : LessonRun) : Nat :=
  match l.att with
  | none => 0
  | some r => match r.steps with
    | [] => 0
    | st :: _ =>
      let q := attCfg s c l
      let n := ((r.entries[st.entry]?).map (fun e => e.ntok)).getD 0 * q.qpk
      if st.select then qNeed l (n * q.hcount) q.d else qNeed l n (if q.grad then 2 * q.d else q.d)

/-- The queue between a load and the stage after it, and the bytes of the next tile that it hands on (R220, R222). -/
def handQueue (s : State) (c : Nat) (l : LessonRun) (stage : Nat) : Option (Nat × Nat) :=
  let j := stage - 1
  let g := stageAt l.stages j
  if stage = 0 || g.kind != 1 || 2 < g.role then none
  else if g.role = 0 then some (8 + j, sourceNeed l j)
  else (nextHeavy l.stages j).map (fun i =>
    let west := g.role == 1
    let (n, e) := operandShape (hrec l.desc (heavyIdx l.stages i)) west
    (queueOf (stageAt l.stages i).kind west, if lkind l.desc = 1 then attNeed s c l else n * g.fmt.rowBytes e))

/-- Bytes of one tile that a stage hands to a store: of its output format, or of FP32. -/
def outBytes (l : LessonRun) (stage : Nat) : Nat :=
  let sh := shapeAt l.desc l.stages stage
  let g := stageAt l.stages (stage - 1)
  sh.rows * (if g.kind = 0xE then g.outFmt.rowBytes sh.width else 4 * sh.width)

/-- A flag set by hand: its consumer takes a tile from whatever the hand-over buffer holds, what is missing being free values
(Table 13-10). DEDUCED (notes/assumptions/68.md). -/
def handSet (s : State) (c : Nat) (o : FlagOwner) : State :=
  match lessonAt s c o.lesson with
  | none => s
  | some l =>
    let g := stageAt l.stages o.stage
    if g.heavy && o.producer = g.kind - 4 then
      let h := hrec l.desc (heavyIdx l.stages o.stage)
      let t := Map.get l.combined (heavyIdx l.stages o.stage) 0
      if l.tiles.any (fun q => q.1 == o.stage) || g.tilesM * g.tilesN ≤ t then s
      else
        let (s, bs) := freeBytes s (4 * h.mt * h.nt)
        holdTile s c o.lesson o.stage o.producer h t
          ((List.range h.mt).map (fun r => elemsOf (mslice bs (4 * h.nt * r) (4 * h.nt))))
    else if g.kind = 0xF then
      let (s, bs) := freeBytes s (outBytes l o.stage - (Map.get l.outs o.stage []).length)
      updLesson s c o.lesson (fun l => { l with outs := Map.upd l.outs o.stage [] (fun q => q ++ bs) })
    else if o.producer = 4 then
      match handQueue s c l o.stage with
      | none => s
      | some (key, need) =>
        let (s, bs) := freeBytes s (need - queueLen l key)
        pumpSource (updLesson s c o.lesson (fun l => { l with bufs := Map.upd l.bufs key [] (fun q => q ++ bs) })) c o.lesson
    else s

/-- A flag cleared by hand: what the hand-over buffer holds is not taken, and its producer may hand on the next tile (Table
13-10). DEDUCED (notes/assumptions/68.md). -/
def handClear (s : State) (c : Nat) (o : FlagOwner) : State :=
  match lessonAt s c o.lesson with
  | none => s
  | some l =>
    let g := stageAt l.stages o.stage
    if g.heavy && o.producer = g.kind - 4 then
      let h := hrec l.desc (heavyIdx l.stages o.stage)
      let s := updLesson s c o.lesson (fun l => { l with tiles := l.tiles.filter (fun q => q.1 != o.stage) })
      settleAll (s.updCore c (fun k => { k with combineWaits := k.combineWaits.filter (fun p =>
        !(p.1 == o.lesson && h.cctr ≤ p.2.1 && p.2.1 < h.cctr + h.um1)) })) c
    else if g.kind = 0xF then updLesson s c o.lesson (fun l => { l with outs := Map.erase l.outs o.stage })
    else if o.producer = 4 then
      match handQueue s c l o.stage with
      | none => s
      | some (key, _) => updLesson s c o.lesson (fun l => { l with bufs := Map.erase l.bufs key })
    else s

/-- A flag of a core set or cleared by hand (Table 13-10); one that a Lesson holds carries its tile with it. -/
def syncFlag (s : State) (c f : Nat) (v : Bool) : State :=
  let s := s.updCore c (fun k => { k with
    flags := if v then k.flags ||| BitVec.ofNat 64 (2 ^ f) else k.flags &&& ~~~ (BitVec.ofNat 64 (2 ^ f)) })
  match Map.get? (s.core c).flagOwner f with
  | none => s
  | some o => if v then handSet s c o else handClear s c o

/-- The object that SYNC_SET names takes its value; its core leaves Recess (R336). -/
def syncSetApply (s : State) (v : Nat) : State :=
  let core := bits v 24 5
  let i := bits v 0 8
  match bits v 29 3 with
  | 0 => rcCheck (leaveRecess (setCounter s core i (BitVec.ofNat 32 (bits v 32 32))) core) core
  | 1 => syncFlag (leaveRecess s core) core i (bit v 32)
  | _ => rcComplete s i

/-- A write of SYNC_SET that its source's authentication admits (R345, R471). -/
def syncSet (s : State) (v : Nat) : FC × State :=
  match syncSetCode s v with
  | .ok =>
    let wire := bits v 29 3 == 2
    let s := (syncSetApply s v).bump .syncSets
    (.ok, s.raise .syncManual (if wire then 0 else 1) (if wire then 0 else bits v 24 5) (v % 2 ^ 32))
  | c => (c, s)

end Sys2Proof.Machine
end

