-- ==== Sys2Proof/Machine/HostPort.lean ====
section
/-!
DEFINITION. Host transactions (R320, R321, R399 to R403) and memory ports (R404, R405, R408).
-/

namespace Sys2Proof.Machine

open Sys2Proof

/-- The lowest-numbered host aperture in use that covers a window offset (R312, R320). -/
def apertureAt (s : State) (off : Nat) : Option Rwt :=
  firstSome s.remote.rwt (fun p =>
    let e := p.2
    if bit e.attr 16 && bit e.attr 17 && e.size != 0 && e.hostOff ≤ off && off < e.hostOff + e.size then some e
    else none)

/-- Whether a local address lies in the command windows (Table 1-6). -/
def inWindows (a : Nat) : Bool := windowBase ≤ a && a < windowBase + 0x100000

/-- STREAM of the Host Port (Table 14-4): kind 3, index 0. -/
def hostStream : Nat := 0x3000

/-- A host request that an aperture maps to another block leaves under the aperture's epoch (R294, R320, R361). -/
def hostSendOut (s : State) (k : Kind) (r : Req) (we : BitVec 8) : State :=
  let n := r.node
  let key := hostStream * 65536 + n
  let q := Map.get s.remote.sseq key 0
  let sent := { r with origin := .arrival 0xFFFF (BitVec.ofNat 16 hostStream) q we 0 }
  let out : OutReq := { num := s.remote.nextReq, opCode := k.code, req := sent, unit := 36, uepoch := s.sys.cc.epoch,
                        node := n, who := .host r.tag }
  let s := { s with remote := { s.remote with
    sseq := Map.put s.remote.sseq key (q + 1), nextReq := s.remote.nextReq + 1, out := s.remote.out ++ [out] } }
  sendVia s n (fun p => .linkReq p out.num k.code sent)

/-- A host request that this block serves: one source stream, checked against a Hall Pass as every arrival (R294, R321). -/
def hostLocal (s : State) (k : Kind) (r : Req) (we : BitVec 8) : State :=
  let key := hostStream * 65536
  let q := Map.get s.remote.sseq key 0
  let s := { s with remote := { s.remote with sseq := Map.put s.remote.sseq key (q + 1) } }
  arrive s k { r with origin := .arrival 0xFFFF (BitVec.ofNat 16 hostStream) q we 0 } 0xFFFF
    (BitVec.ofNat 16 hostStream) q

/-- A host request at a window offset (R310, R320): `mk` gives the operation for a local address.
DEDUCED (notes/assumptions/39.md). -/
def hostRequest (s : State) (off : Nat) (mk : Nat → Kind) (r : Req) : State :=
  match apertureAt s off with
  | none =>
    let k := mk 0
    hostAnswer (logRefusal s off 0xFFFF 0 0xFFFF k.code 0 .windowClosed (k.span r) false) r.tag { code := .windowClosed }
  | some e =>
    let target := e.base + (off - e.hostOff)
    let k := mk (target % 2 ^ 48)
    let we := BitVec.ofNat 8 e.attr
    let r := { r with target := BitVec.ofNat 64 target, tenant := BitVec.ofNat 12 (bits e.attr 18 12) }
    if isLocal s r.node then hostLocal s k r we
    else if (routeOf s r.node).isNone then
      hostAnswer (logRefusal s target 0xFFFF r.tenant.toNat 0xFFFF k.code we.toNat .nodeUnreachable (k.span r) false)
        r.tag { code := .nodeUnreachable }
    else hostSendOut s k r we

/-- HP_POISON_IN counts a host transaction with a poisoned word (Table 16-15). -/
def notePoison (s : State) (poison : List Bool) : State := if poison.any (fun b => b) then s.bump .hpPoisonIn else s

/-- Reads and FetchAdds of the host that are open: sent on and not yet answered (R400). -/
def hostOpen (s : State) : Nat :=
  (s.remote.out.filter (fun o => match o.who with
    | .host tag => tag / 2 ^ 30 != 0
    | _ => false)).length

/-- Whether the Host Port takes a transaction: its link is up, and fewer than 256 reads and FetchAdds are open (R400, R401).
One that is not taken has no effect; its sender holds it and presents it again.
DESIGN CHOICE (notes/assumptions/94.md). -/
def hostReady (s : State) : Bool := s.sys.hpUp && decide (hostOpen s < 256)

/-- HOST_MWR (R321, R400): a PUT, or a CPUT into a command window. -/
def execHostMwr (off : BitVec 40) (data : List Byte) (poison : List Bool) (s : State) :
    Host.Outcome State Fault Refusal :=
  .next (if !hostReady s then s
    else hostRequest (notePoison s poison) off.toNat (fun a => if inWindows a then .cput else .put)
      { origin := .inside .writer, target := 0, len := data.length, data := data, poison := poison, tag := hostTag 0 0 0 })

/-- HOST_MRD (R321): a GET. -/
def execHostMrd (tag : BitVec 14) (rid : U16) (off : BitVec 40) (len : Nat) (s : State) :
    Host.Outcome State Fault Refusal :=
  .next (if !hostReady s then s
    else hostRequest s off.toNat (fun _ => .get)
      { origin := .inside .writer, target := 0, len := len, tag := hostTag 1 tag.toNat rid.toNat })

/-- An unsupported-request completion (R400). -/
def answerUr (s : State) (tag rid : Nat) : State := (s.emit (.hostCplUr tag rid)).bump .hpUrCount

/-- HOST_FADD (R321, R400): an ADD with FETCH of 4 or 8 bytes; a LEN that FA64 does not name, or a poisoned
operand, is not performed. -/
def execHostFadd (tag : BitVec 14) (rid : U16) (off : BitVec 40) (fa64 : Bool) (len : Nat) (operand : U64)
    (poison : List Bool) (s : State) : Host.Outcome State Fault Refusal :=
  .next (if !hostReady s then s
    else
      let s := notePoison s poison
      if len != (if fa64 then 8 else 4) || poison.any (fun b => b) then answerUr s tag.toNat rid.toNat
      else hostRequest s off.toNat (fun _ => .add)
        { origin := .inside .writer, target := 0, len := len, atype := if fa64 then .u64 else .u32, fetch := true,
          operand := operand, tag := hostTag (if fa64 then 3 else 2) tag.toNat rid.toNat })

/-- HOST_ATOMIC_OTHER (R321, R400): Swap, CAS or a reserved KIND is answered with CPL_UR and not performed. -/
def execHostAtomicOther (tag : BitVec 14) (rid : U16) (s : State) : Host.Outcome State Fault Refusal :=
  .next (if !hostReady s then s else answerUr s tag.toNat rid.toNat)

/-! ## Memory ports (R405, R408) -/

/-- MCC_UP (R405): `mc<nn>_phy_ready` has risen, the stack is one that Table 16-10 supports, and the MCC has programmed it. -/
def execMccUp (n : Fin 24) (s : State) : Host.Outcome State Fault Refusal :=
  .next (if (s.mcc n).state = .initialising then s.updMcc n (fun m => { m with state := .up }) else s)

/-- An MCC goes down with a cause of R471 (R408). -/
def mccDown (s : State) (n cause : Nat) : State :=
  (s.updMcc n (fun m => { m with state := .down })).raise .mcDown 3 n cause

/-- MCC_DOWN (R408, R471): cause 1 not ready within 10 ms, 2 the height or density check, while it initialises; 3
`mc<nn>_phy_err` rises while it is up. The loss of its clock is a CLOCK_LOSS. -/
def execMccDown (n : Fin 24) (cause : Fin 4) (s : State) : Host.Outcome State Fault Refusal :=
  let st := (s.mcc n).state
  .next (if cause.val = 3 then
      let s := s.bump .mcPhyErrors n
      if st = .up then mccDown s n 3 else s
    else if cause.val != 0 && st = .initialising then mccDown s n cause.val
    else s)

/-- MC_TEMP_READ (R405): the temperature that the stack reports. -/
def execMcTempRead (n : Fin 24) (temp : BitVec 8) (s : State) : Host.Outcome State Fault Refusal :=
  .next (if (s.mcc n).state = .up then s.updMcc n (fun m => { m with temp := temp.toNat }) else s)

end Sys2Proof.Machine
end

