-- ==== Sys2Proof/Machine/Power.lean ====
section
/-!
DEFINITION. The Power Governor (chapter 17), in exact rational numbers: the spec rounds only where an entry shows a value
(notes/assumptions/40.md).
-/

namespace Sys2Proof.Machine

open Sys2Proof

/-! ## Numbers -/

/-- A finite floating-point value as a rational; the entries of the Governor hold no other. -/
def ratOf (x : Fp) : Rat :=
  match x with
  | .fin n m e =>
    let v : Rat := if e ≥ 0 then (m * 2 ^ e.toNat : Nat) else mkRat m (2 ^ (-e).toNat)
    if n then -v else v
  | _ => 0

/-- The binary32 word nearest a rational. -/
def ratToF32 (q : Rat) : Nat :=
  let n := q.num.natAbs
  let d := q.den
  let sh : Int := 30 + (Nat.log2 d : Int) - Nat.log2 n
  let top := if sh ≥ 0 then n * 2 ^ sh.toNat else n
  let bot := if sh ≥ 0 then d else d * 2 ^ (-sh).toNat
  toF32 (.fin (q < 0) (2 * (top / bot) + bnat (top % bot != 0)) (-sh - 1))

/-- The value of an F32 entry. -/
def State.entRat (s : State) (n : Name) (k : Nat) : Rat := ratOf (f32 (s.ent n 0 k))

/-- Rail k. -/
def State.rail (s : State) (k : Nat) : Rail := Map.get s.sys.gov.rails k { }

/-- The Governor changed. -/
def State.updGov (s : State) (f : Gov → Gov) : State := { s with sys := { s.sys with gov := f s.sys.gov } }

/-- Rail k changed. -/
def State.updRail (s : State) (k : Nat) (f : Rail → Rail) : State :=
  s.updGov (fun g => { g with rails := Map.upd g.rails k { } f })

/-- ck_core of the operating point in force, MHz (Table 17-6). -/
def coreMHz (s : State) : Nat := bits (s.ent .pgOpFreq 0 s.sys.gov.opActive) 0 16

/-! ## Estimate and measurement (R418 to R422) -/

/-- The rail of an activity event (Table 17-2). -/
def eventRail (e : Nat) : Nat := if e < 2 then 0 else if e < 7 then 1 else if e < 10 then 3 else 2

/-- D_k of a period in amperes: one nC per period is 4 mA (R418). -/
def dynamicOf (s : State) (events : List Nat) (k : Nat) : Rat :=
  ((List.range 11).filter (fun e => eventRail e == k)).foldl
    (fun t e => t + (events.getD e 0 : Nat) * s.entRat .pgCoef e) 0 * mkRat 4 1000

/-- M_k of a period: the mean of its valid samples, or the last one while the telemetry stays valid (R419). -/
def measuredOf (r : Rail) : Option Rat :=
  if !r.tlmValid then none
  else if r.samples.isEmpty then r.last.map (fun x => mkRat x.1 8)
  else some (mkRat (r.samples.foldl (fun t x => t + x.1) 0) (8 * r.samples.length))

/-- Nominal voltage of a rail (Table 17-1). -/
def nominalVolts (k : Nat) : Rat := mkRat ([70, 75, 80, 75].getD k 0) 100

/-- V_k of a period (R423). -/
def voltsOf (r : Rail) (k : Nat) : Rat :=
  if !r.tlmValid then nominalVolts k
  else if r.samples.isEmpty then (r.last.map (fun x => mkRat x.2 2000)).getD (nominalVolts k)
  else mkRat (r.samples.foldl (fun t x => t + x.2) 0) (2000 * r.samples.length)

/-- A number held in a range. -/
def clampRat (lo hi x : Rat) : Rat := if x < lo then lo else if hi < x then hi else x

/-- The magnitude of a rational. -/
def absRat (x : Rat) : Rat := if x < 0 then -x else x

/-- The governed current of a period (Table 17-3); with no measurement yet, the estimate. -/
def governed (state : Nat) (m : Option Rat) (e : Rat) : Rat :=
  match state, m with
  | 0, some m => m
  | 1, some m => if m < e then e else m
  | _, _ => e

/-- Whether a period disagrees, or is neutral (`none`) (R422). -/
def disagrees (pct limit : Nat) (e m : Rat) : Option Bool :=
  let small := mkRat (5 * limit) 100
  if e < small && m < small then none else some (mkRat (pct : Int) 100 * m < absRat (e - m))

/-- The rail's counts and state after a period (R422), and the events they raise. -/
def judge (s : State) (k : Nat) (verdict : Option Bool) : State :=
  let r := s.rail k
  match verdict, r.state with
  | some true, 0 =>
    if r.disagree + 1 < 64 then s.updRail k (fun r => { r with disagree := r.disagree + 1 })
    else ((s.updRail k (fun r => { r with state := 1, disagree := 0, agree := 0 })).bump .pgCalFails).raise .pgCalFailed 0 0 k
  | some true, 1 => s.updRail k (fun r => { r with agree := 0 })
  | some false, 0 => s.updRail k (fun r => { r with disagree := 0 })
  | _, 1 =>
    if r.agree + 1 < 4096 then s.updRail k (fun r => { r with agree := r.agree + 1 })
    else (s.updRail k (fun r => { r with state := 0, disagree := 0, agree := 0 })).bump .pgCalRecoveries
  | _, _ => s

/-- The end of a period for one rail: E, M, I, calibration and state.
DEDUCED (notes/assumptions/41.md). -/
def endRail (s : State) (events : List Nat) (k : Nat) : State :=
  let r := s.rail k
  let limit := s.ent .pgIlim 0 k
  let d := dynamicOf s events k
  let e := s.entRat .pgStatic k + r.kappa * d
  let m := measuredOf r
  let i := governed r.state m e
  let kappa := match m with
    | some m => if mkRat (5 * limit) 100 ≤ d && 0 < d then clampRat (1 / 2) 2 (r.kappa + (m - e) / (16 * d)) else r.kappa
    | none => r.kappa
  let s := s.updRail k (fun r => { r with kappa := kappa, iGov := i, iEst := e, iMeas := m.getD 0 })
  match m with
  | none => s
  | some m => judge s k (disagrees (s.ent .pgDisagreePct) limit e m)

/-! ## Limits, targets and the array budget (R423 to R425) -/

/-- Block power of a period (R423). -/
def periodPower (s : State) : Rat :=
  (List.range 4).foldl (fun t k => t + voltsOf (s.rail k) k * (s.rail k).iGov) 0

/-- The mean power over the last 4,000 periods, or over those since reset. -/
def meanPower (h : List Rat) : Rat := h.foldl (· + ·) 0 / (max 1 h.length : Nat)

/-- The sustained factor after a period (R423). -/
def sustain (f power : Rat) (limit : Nat) : Rat :=
  if (limit : Rat) < power then clampRat (1 / 2) 1 (f - 1 / 64)
  else if power < mkRat (98 * limit) 100 then clampRat (1 / 2) 1 (f + 1 / 256)
  else f

/-- L_k (R423). -/
def limitOf (s : State) (k : Nat) : Rat :=
  let d := if (s.rail k).state = 0 then 0 else s.ent .pgDeratePct
  (s.ent .pgIlim 0 k : Nat) * s.sys.gov.f * (1 - mkRat d 100)

/-- S_k with the period just ended, then T_k of the next one; a window that ends starts a new sum (R424). -/
def targetRail (s : State) (k : Nat) : State :=
  let j := s.sys.gov.period % 8
  let l := limitOf s k
  let sum := (s.rail k).sum + (s.rail k).iGov
  s.updRail k (fun r => { r with
    sum := if j = 7 then 0 else sum
    target := if j = 7 then l else (8 * l - sum) / ((7 - j : Nat) : Rat) })

/-- Amperes per level: c of R424. -/
def amperesPerLevel (s : State) : Rat :=
  (s.rail 0).kappa * s.entRat .pgCoef 0 * mkRat (coreMHz s) 1000

/-- The budget that R424 alone gives; with no draw per level nothing limits it. -/
def budgetOf (s : State) : Nat :=
  let full := 16 * enabledCores s
  let c := amperesPerLevel s
  if c = 0 then full
  else
    let room := (((s.rail 0).target - s.entRat .pgStatic 0) / c).floor
    min full (max (s.ent .pgBMin) room.toNat)

/-- Whether the alert counts as asserted: the input, or a chattering one (R431, R433). -/
def alertOn (s : State) : Bool := s.sys.gov.alert || s.sys.gov.chatter

/-- The budget after the clips of an alert and of a stuck one (R431, R432). -/
def clipBudget (s : State) (b : Nat) : Nat :=
  let b := if alertOn s then min b (max (s.ent .pgBMin) (s.ent .pgAlertLevel)) else b
  if s.sys.gov.stuck then min b (s.ent .pgBMin) else b

/-- Whether a rail causes issue hold (R425). -/
def railHolds (s : State) (k : Nat) : Bool :=
  let r := s.rail k
  if k = 0 then r.target < s.entRat .pgStatic 0 + amperesPerLevel s * (s.ent .pgBMin : Nat)
  else r.target < r.iGov

/-! ## Shares, loans and caps (R427 to R430) -/

/-- The enabled cores from the window pointer on, wrapping. -/
def fromPointer (s : State) : List Nat :=
  let cs := (List.range 32).filter s.corePresent
  let p := s.sys.gov.pointer % max 1 cs.length
  cs.drop p ++ cs.take p

/-- Arrays of a core that hold issued work: a Lesson in flight has a heavy stage there that has not released its last
tile. -/
def busyArrays (s : State) (c : Nat) : List Nat :=
  [0, 1].filter (fun a => (s.core c).lessons.any (fun p => (heavyOn p.2 a).isSome && !heavyDone s c p.2 a))

/-- Shares of the cores: equal, with the remainder to the first ones from the pointer (R427). -/
def sharesOf (s : State) (b : Nat) : FMap Nat :=
  let cs := fromPointer s
  let n := max 1 cs.length
  cs.zipIdx.foldl (fun m p => Map.put m p.1 (b / n + (if p.2 < b % n then 1 else 0))) []

/-- Loans out of the shares of cores in Recess (R428): allotments by core, and the levels lent. -/
def lend (s : State) (shares : FMap Nat) : FMap Nat × Nat :=
  let cs := fromPointer s
  let pool := (cs.filter (fun c => (s.core c).recess)).foldl (fun n c => n + Map.get shares c 0) 0
  let (allot, left) := cs.foldl (fun (acc : FMap Nat × Nat) c =>
    let share := Map.get shares c 0
    let n := (busyArrays s c).length
    if (s.core c).recess || n = 0 then (Map.put acc.1 c share, acc.2)
    else
      let loan := min (8 * n - share) acc.2
      (Map.put acc.1 c (share + loan), acc.2 - loan)) ([], pool)
  (allot, pool - left)

/-- The caps of a core's S-array and V-array (R428, R430). -/
def capsOf (s : State) (c : Nat) : Nat × Nat :=
  let a := Map.get s.sys.gov.allot c 16
  if (s.core c).recess then (0, 0)
  else match busyArrays s c with
    | [0] => (min 8 a, min 8 (a - min 8 a))
    | [1] => (min 8 (a - min 8 a), min 8 a)
    | _ => (min 8 ((a + 1) / 2), min 8 (a / 2))

/-- `pg_ilim_n` for the coming period (R426). -/
def ilimOut (s : State) : Nat :=
  let capped := (List.range 32).any (fun c => s.corePresent c &&
    (busyArrays s c).any (fun a => (if a = 0 then (capsOf s c).1 else (capsOf s c).2) < 8))
  (List.range 4).foldl (fun n k =>
    let low := (k == 0 && capped) || (k != 0 && Map.get s.sys.gov.holdRail k 0 == 1) || (s.rail k).state == 1
    if low then n else n + 2 ^ k) 0

/-- Shares, loans and outputs of the coming period follow its budget. -/
def allotPeriod (s : State) (newWindow : Bool) : State :=
  let n := max 1 (enabledCores s)
  let s := if newWindow then
      s.updGov (fun g => { g with pointer := (g.pointer + g.lastRem) % n, lastRem := g.b % n })
    else s
  let (allot, lent) := lend s (sharesOf s s.sys.gov.b)
  let s := (s.updGov (fun g => { g with allot := allot })).bump .pgLentLevels 0 0 lent
  let s := s.updGov (fun g => { g with ilimN := ilimOut s })
  (List.range 4).foldl (fun s k => if bit s.sys.gov.ilimN k then s else s.bump .pgLimitedPeriods 0 k) s

/-- PERIOD_BOUNDARY (R417 to R430): the ended period is measured with the entries in force during it, then the writes that
wait take effect, and the coming period is decided. `events` counts the activity events of Table 17-2. -/
def execPeriodBoundary (events : List Nat) (s : State) : Host.Outcome State Fault Refusal :=
  let s := (List.range 4).foldl (fun s k => endRail s events k) s
  let s := s.updGov (fun g => { g with history := (g.history ++ [periodPower s]).drop (g.history.length + 1 - 4000) })
  let s := if alertOn s then s.bump .pgAlertPeriods else s
  let s := takePend s (fun p => p.at_ == .period) (fun s p => takeWrite s p.key p.value)
  let s := s.updGov (fun g => { g with f := sustain g.f (meanPower g.history) (s.ent .pgPwrLimit) })
  let last := s.sys.gov.period % 8 == 7
  let s := (List.range 4).foldl targetRail s
  let s := s.updGov (fun g => { g with bUnclipped := budgetOf s, b := clipBudget s (budgetOf s) })
  let holds := (List.range 4).filter (railHolds s)
  let s := s.updGov (fun g => { g with
    hold := !holds.isEmpty, holdRail := holds.map (fun k => (k, 1)), period := g.period + 1 })
  let s := if s.sys.gov.hold then s.bump .pgHoldPeriods else s
  let s := allotPeriod s last
  .next ((List.range 4).foldl (fun s k => s.updRail k (fun r => { r with samples := [] })) s)

/-! ## Telemetry (R412, R419, R421) -/

/-- TELEMETRY_SAMPLE: current, voltage and error mark of one sample. The fourth consecutive good one makes the telemetry
valid again, and the rail returns to the state it held before. -/
def execTelemetrySample (rail : Fin 4) (i : U16) (v : BitVec 12) (err : Bool) (s : State) :
    Host.Outcome State Fault Refusal :=
  let k := rail.val
  let r := s.rail k
  .next (if err then s.updRail k (fun r => { r with good := 0 })
    else
      let back := !r.tlmValid && r.good + 1 ≥ 4
      let s := if back then s.updRail k (fun r => { r with
          tlmValid := true, state := if r.state = 2 then r.prior else r.state, disagree := 0 }) else s
      s.updRail k (fun q => { q with
        good := min 4 (q.good + 1)
        samples := if q.tlmValid then q.samples ++ [(i.toNat, v.toNat)] else q.samples
        last := if q.tlmValid then some (i.toNat, v.toNat) else q.last }))

/-- TELEMETRY_INVALID (R412, R421): 1 µs has passed without a good sample. -/
def execTelemetryInvalid (rail : Fin 4) (s : State) : Host.Outcome State Fault Refusal :=
  let k := rail.val
  .next (if !(s.rail k).tlmValid then s
    else (s.updRail k (fun r => { r with
      tlmValid := false, good := 0, prior := r.state, state := 2, last := none })).raise .pgTlmInvalid)

/-! ## Alert (R431 to R433) -/

/-- The clip applies at once (R431). -/
def clipNow (s : State) : State := s.updGov (fun g => { g with b := clipBudget s g.bUnclipped })

/-- ALERT_ASSERT (R398, R431): `pg_alert_n` has been low for a number of ck_mgmt cycles; fewer than 20 are filtered.
DEDUCED (notes/assumptions/42.md). -/
def execAlertAssert (cycles : Nat) (s : State) : Host.Outcome State Fault Refusal :=
  .next (if cycles < 20 then s.bump .alertFiltered
    else clipNow (s.updGov (fun g => { g with alert := true, alertPin := true })))

/-- ALERT_DEASSERT (R431 to R433): the input is high; `held` tells whether it has been so for 1 ms, which ends a stuck or
chattering alert. The budget returns at the next boundary. -/
def execAlertDeassert (held : Bool) (s : State) : Host.Outcome State Fault Refusal :=
  .next (s.updGov (fun g => { g with
    alert := false, alertPin := false, stuck := g.stuck && !held, chatter := g.chatter && !held }))

/-- A change of operating point is requested (R434): before the boundary a later request replaces an earlier one. -/
def requestPoint (s : State) (n : Nat) : State := s.updGov (fun g => { g with opPending := some n })

/-- ALERT_STUCK (R432, R435): the input has been low for 10 ms. A change that waits at ck_hold becomes point 3. -/
def execAlertStuck (s : State) : Host.Outcome State Fault Refusal :=
  .next (if !s.sys.gov.alertPin || s.sys.gov.stuck then s
    else
      let s := (s.raise .alertStuck).updGov (fun g => { g with stuck := true })
      let s := clipNow (s.setEnt .pgOpSelect 3)
      if s.sys.gov.opWaiting.isSome then s.updGov (fun g => { g with opWaiting := some 3 }) else requestPoint s 3)

/-- ALERT_CHATTER (R433): more than PG_ALERT_CHATTER falling edges have passed the filter within 1 ms. -/
def execAlertChatter (edges : Nat) (s : State) : Host.Outcome State Fault Refusal :=
  .next (if edges ≤ s.ent .pgAlertChatter || s.sys.gov.chatter then s
    else clipNow ((s.raise .alertChatter).updGov (fun g => { g with chatter := true })))

/-! ## Operating points (R394, R434) -/

/-- An accepted write of PG_OP_SELECT. -/
def writeOpSelect (s : State) (v : Nat) : FC × State := (.ok, requestPoint (s.setEnt .pgOpSelect v) v)

/-- The change that waits at ck_hold has been acknowledged: the point is in force and the boundary goes on with action 4.
DEDUCED (notes/assumptions/43.md). -/
def pointChanged (s : State) (fs : List Fetched) : State :=
  match s.sys.gov.opWaiting with
  | none => s
  | some n =>
    cardPump (actions45 (s.updGov (fun g => { g with opActive := n, opWaiting := none, ckHold := false })) fs)

/-- OP_TIMEOUT (R434): 10 ms have passed since ck_hold rose; the event is raised once. -/
def execOpTimeout (s : State) : Host.Outcome State Fault Refusal :=
  .next (if s.sys.gov.opWaiting.isNone || s.sys.gov.opTimedOut then s
    else (s.updGov (fun g => { g with opTimedOut := true })).raise .opTimeout)

end Sys2Proof.Machine
end

