-- ==== Sys2Proof/Machine/Reset.lean ====
section
/-!
DEFINITION. Resets of cores, clusters and the Control Complex, firmware and the power-on sequence (R443 to R458).
-/

namespace Sys2Proof.Machine

open Sys2Proof

/-- `rst_req_n` falls with a cause, which is raised as an event (R447). -/
def requestReset (s : State) (cause : FC) : State := (lowerReq s cause).raise cause

/-- A code that the spec leaves open, from the free values.
DESIGN CHOICE (notes/assumptions/2.md). -/
def freeCode (s : State) : FC × State :=
  (FC.all.getD ((Config.freeValue s.free).toNat % FC.all.length) .ok, { s with free := s.free + 1 })

/-- RST_STATUS set. -/
def setRstStatus (s : State) (c : FC) : State := s.setCnt .rstStatus c.value

/-! ## A core is reset (R451, R452) -/

/-- What names the split that a Lesson belongs to: the combine counter and region of a split chain or Attend (R237,
R260). -/
def splitKeys (s : State) (c : Nat) (l : LessonRun) : List (Nat × Nat × Nat) :=
  let chain := (heavies l.stages).filterMap (fun i =>
    let h := hrec l.desc (heavyIdx l.stages i)
    if lkind l.desc = 0 && h.um1 != 0 then some (h.ccore, h.cctr, h.crow) else none)
  let att := if lkind l.desc = 1 && !isBackward l.desc then
      let q := attCfg s c l
      if q.um1 != 0 then [(32, q.cctr, q.caddr)] else []
    else []
  chain ++ att

/-- Lessons of other cores that share a split with a core's Lessons fault (R451). -/
def faultSplits (s : State) (c : Nat) : State :=
  let keys := (s.core c).lessons.flatMap (fun p => splitKeys s c p.2)
  let hit := s.cores.flatMap (fun k => if k.1 = c then []
    else (k.2.lessons.filter (fun p => (splitKeys s k.1 p.2).any (fun x => keys.contains x))).map (fun p => (k.1, p.1)))
  hit.foldl (fun s h => lessonFault s h.1 h.2 .targetReset) s

/-- A command of a context in flight, other than a Lesson, ends with FC_TARGET_RESET. -/
def endReset (s : State) (c x : Nat) (compl : Compl) : State :=
  faultCtx (completeCmd s c x compl .targetReset 0) c x .targetReset

/-- Every command in flight on a core faults with FC_TARGET_RESET (R451). -/
def faultWork (s : State) (c : Nat) : State :=
  let s := faultSplits s c
  let s := (s.core c).lessons.foldl (fun s p => lessonFault s c p.1 .targetReset) s
  (List.range 8).foldl (fun s x =>
    let s := (s.ctx c x).issued.foldl (fun s i => endReset s c x i.compl) s
    match (s.ctx c x).waiting with
    | some w => endReset s c x w.compl
    | none => s) s

/-- Sequence commands taken from a core's windows and not yet applied end with FC_TARGET_RESET. -/
def dropSeqCmds (s : State) (c : Nat) : State :=
  let mine := fun (w : WaitingSeqCmd) => w.hdr.ctx.toNat / 8 == c
  let s' := (s.sched.cmds.filter mine).foldl (fun s w => seqReport s w.hdr .targetReset) s
  { s' with sched := { s'.sched with cmds := s'.sched.cmds.filter (fun w => !mine w) } }

/-- Requests aimed at a core that are accepted and not yet performed end with FC_TARGET_RESET, and its passes close (R309,
R451). -/
def dropRequests (s : State) (c : Nat) : State :=
  let ops := (s.core c).suQ
  let s := ops.foldl (fun s o => answer (passDone s o.pass) o.origin o.tag { code := .targetReset }) s
  let incrs := s.remote.incrs.filter (fun i => i.core == c)
  let s := { s with remote := { s.remote with incrs := s.remote.incrs.filter (fun i => i.core != c) } }
  let s := incrs.foldl (fun s i => answer (passDone s i.pass) i.origin i.tag { code := .targetReset }) s
  closePassesOf { s with mcasts := s.mcasts.filter (fun m => m.core != c) } c

/-- VOLATILE entries of the units whose indices lie in [lo, lo + n) return to their defaults; BASE entries stay (R370). -/
def volatileReset (s : State) (lo n : Nat) : State :=
  let mine := fun (key : Nat) => lo ≤ key / 256 && key / 256 < lo + n
  let keep := fun (p : Nat × Nat) => !mine p.1 || (match findEntry (p.1 / 256) (p.1 % 256) with
    | some (e, _, _) => e.acc == .rws
    | none => false)
  let d := { s.dict with
    eff := s.dict.eff.filter keep, base := s.dict.base.filter keep,
    cnt := s.dict.cnt.filter (fun p => !mine p.1), pend := s.dict.pend.filter (fun p => !mine p.key) }
  formEffective { s with dict := d }

/-- A core as its reset leaves it (R452): its epoch advanced, its scratchpad cleared, everything else at reset values. -/
def clearCore (s : State) (c : Nat) : State :=
  let k : Core := { epoch := (s.core c).epoch, gated := (s.core c).gated, inReset := true, clearing := true }
  let ws := s.wires.map (fun (w : Nat × Wire) => (w.1, { w.2 with arrived := w.2.arrived &&& ~~~ (1#34 <<< c) }))
  let s := { s with
    cores := Map.put s.cores c k, wires := ws,
    sched := { s.sched with sampled := s.sched.sampled.filter (fun p => p.1 / 8 != c) } }
  clearRange (volatileReset s (0x4000 + 0x40 * c) 0x40) (scratchAddr c 0) scratchSize

/-- The reset of a core begins: the epoch first, then, when it is forced, its work and the requests aimed at it end
(R444, R451, R452). -/
def resetCore (s : State) (c : Nat) (forced : Bool) : State :=
  let s := s.updCore c (fun k => { k with epoch := k.epoch + 1, inReset := true })
  let s := if forced then dropSeqCmds (dropRequests (faultWork s c) c) c else s
  clearCore s c

/-- The cores of a unit that exist. -/
def unitCores (s : State) (j : RstJob) : List Nat :=
  let cs := if j.unit = 0 then [j.index] else (List.range 8).map (fun i => 8 * j.index + i)
  cs.filter s.coreFused

/-- The Commons of a cluster under reset: every line invalid, the pinned ways zero (R452). -/
def clearCommons (s : State) (k : Nat) : State :=
  let s := s.updCluster k (fun c => { c with epoch := c.epoch + 1, lines := [], inReset := true, commonsEpoch := 0 })
  clearRange (volatileReset s (0x3000 + 0x100 * k) 0x100) (pinWayBase k 0) (16 * 0x200000)

/-- A unit's reset begins (R450 to R452); a core's reset empties the ring of its cluster (R213). -/
def beginReset (s : State) (j : RstJob) : State :=
  let forced := j.op == 2
  let s := if j.unit = 1 then s.updCluster j.index (fun c => { c with inReset := true }) else s
  let s := (unitCores s j).foldl (fun s c => resetCore s c forced) s
  let s := ringEmpty s (if j.unit = 1 then j.index else j.index / 8) forced
  let s := if j.unit = 1 then clearCommons s j.index else s
  let s := if j.op != 3 then s
    else if j.unit = 1 then s.updCluster j.index (fun c => { c with gated := true })
    else s.updCore j.index (fun c => { c with gated := true })
  let others := s.sys.rstJobs.filter (fun q => !(q.unit == j.unit && q.index == j.index))
  { s with sys := { s.sys with rstJobs := others ++ [{ j with running := true }] } }

/-! ## The Control Complex restarts (R454 to R458) -/

/-- A Control Complex reset: its epoch advances, its firmware restarts, and requests it forwarded return to their queues. -/
def resetCc (s : State) : State :=
  let s := ccRun (s.updCc (fun c => { c with epoch := c.epoch + 1, restarting := true, staging := none, l2 := [] })) .starting
  { s with sys := { s.sys with phase := 5 },
           mgmt := { s.mgmt with assists := s.mgmt.assists.map (fun (a : Assist) => { a with place := none }) } }

/-- VERSION of a firmware image. -/
def fwVersion (img : List Byte) : Nat := fieldAt img 4 4

/-- The checks of a firmware image (R456): LENGTH, reserved bytes, the slot's FIRMWARE class and the TAG.
DEDUCED (notes/assumptions/78.md). -/
def fwCode (s : State) (slot : Nat) (img : List Byte) : FC :=
  let len := fieldAt img 0 4
  let k := keySlot s slot
  match k.cur with
  | none => .fwInvalid
  | some key =>
    if len % 16 != 0 || len < 64 || 4194304 < len || img.length != len then .fwInvalid
    else if (slice img 12 20).any (fun b => b != 0) || !bit k.perm 3 then .fwInvalid
    else if cmac64 key (img.take (len - 8)) != beNat ((img.drop (len - 8)).map (fun b => b.toNat)) then .fwInvalid
    else .ok

/-- A write of FW_CMD (R456, R457); `slot` is the key slot that authenticated it, 16 for a write of the Control Complex
itself, which no slot authenticates. -/
def fwCommand (s : State) (slot v : Nat) : FC × State :=
  let cc := s.sys.cc
  if cc.staging.isSome || cc.activating || cc.restarting then (.fwBusy, s)
  else if v = 1 then (.ok, s.updCc (fun c => { c with staging := some slot }))
  else if cc.staged.isEmpty || s.cnt .fwStatus != 0 then (.fwInvalid, s)
  else (.ok, resetCc (s.updCc (fun c => { swapImages c with activating := true })))

/-- FW_STAGE_COMPLETE (R456): the image has been read and is checked; FW_STATUS tells the outcome. -/
def execFwStageComplete (fs : List Fetched) (s : State) : Host.Outcome State Fault Refusal :=
  .next (match s.sys.cc.staging with
    | none => s
    | some slot =>
      let addr := s.ent .fwImageAddr
      let (s, c0, head, m0) := fetchGlobal s fs addr 32
      let len := fieldAt head 0 4
      let n := if len % 16 != 0 || len < 64 || 4194304 < len then 32 else len
      let (s, c1, img, m1) := fetchGlobal s fs addr n
      let bad := c0 != .ok || c1 != .ok || m0.any (fun b => b) || m1.any (fun b => b)
      let code := if bad then .fwInvalid else fwCode s slot img
      let s := l2Written (s.updCc (fun c => { c with staging := none, staged := if code = .ok then img else [] })) l2Staged n
      s.setCnt .fwStatus code.value)

/-! ## RST_CMD (R449 to R453) -/

/-- Whether the unit of a command is disabled by fuse or gated. -/
def unitAbsent (s : State) (unit index : Nat) : Bool :=
  (unit == 0 && !s.corePresent index) || (unit == 1 && !s.clusterPresent index)

/-- Whether the unit of a command is gated itself. -/
def unitGated (s : State) (unit index : Nat) : Bool :=
  (unit == 0 && (s.core index).gated) || (unit == 1 && (s.cluster index).gated)

/-- The checks of RST_CMD (R449, R453). -/
def rstCode (s : State) (op unit index : Nat) : FC :=
  let jobs := s.sys.rstJobs
  if op = 0 || 4 < op || 3 < unit then .valueRange
  else if unit = 3 then (if op = 2 then .ok else .valueRange)
  else if unit = 2 then (if 2 < op then .valueRange else if op = 1 && s.sys.cc.restarting then .resetBusy else .ok)
  else if (unit = 0 && 31 < index) || (unit = 1 && 3 < index) then .valueRange
  else if op = 4 && !unitGated s unit index then .valueRange
  else if unit = 0 && jobs.any (fun j => j.unit == 1 && j.index == index / 8 && j.running) then .resetBusy
  else if op = 4 then .ok
  else if unitAbsent s unit index then .unitAbsent
  else if op != 2 && jobs.any (fun j => j.unit == unit && j.index == index) then .resetBusy
  else .ok

/-- A gated unit is released (R450); one whose reset still runs is released when that ends (R452). -/
def ungate (s : State) (unit index : Nat) : State :=
  if s.sys.rstJobs.any (fun j => j.unit == unit && j.index == index && j.running) then
    if unit = 0 then s.updCore index (fun c => { c with gated := false })
    else s.updCluster index (fun c => { c with gated := false })
  else
  let s := if unit = 0 then s.updCore index (fun c => { c with gated := false, inReset := false, clearing := false })
    else (List.range 8).foldl (fun s i => s.updCore (8 * index + i) (fun c =>
        { c with inReset := false, clearing := false }))
      (s.updCluster index (fun c => { c with gated := false, inReset := false }))
  setRstStatus s .ok

/-- A write of RST_CMD (R449 to R453). FORCE_RESET of a unit supersedes its waiting command, and a cluster command those of
its cores.
DEDUCED (notes/assumptions/24.md). -/
def rstCommand (s : State) (v : Nat) : FC × State :=
  let op := bits v 0 8
  let unit := bits v 8 4
  let index := bits v 16 6
  match rstCode s op unit index with
  | .ok =>
    if unit = 3 then
      let (c, s) := freeCode s
      (.ok, requestReset s c)
    else if unit = 2 then (.ok, setRstStatus (resetCc s) .ok)
    else if op = 4 then (.ok, ungate s unit index)
    else
      let j : RstJob := { op := op, unit := unit, index := index, value := v }
      let superseded := fun (q : RstJob) => !q.running &&
        ((q.unit == unit && q.index == index) || (unit == 1 && q.unit == 0 && q.index / 8 == index))
      let s := { s with sys := { s.sys with rstJobs := s.sys.rstJobs.filter (fun q => !superseded q) } }
      if op = 2 && !actionOpen s then (.ok, beginReset s j)
      else (.ok, { s with sys := { s.sys with rstJobs := s.sys.rstJobs ++ [j] } })
  | c => (c, s)

/-- Whether a slice waits to be sent to a core by its predecessor on the ring (R211). -/
def ringAwaits (s : State) (c : Nat) : Bool :=
  (List.range 8).any (fun i =>
    let d := 8 * (c / 8) + i
    ringNext s d == c && (s.core d).ringPasses.any (fun p => p.begun && !p.sent))

/-- Whether a core is quiet (R450). -/
def coreQuiet (s : State) (c : Nat) : Bool :=
  let meets := fun (h : Pass) (a n : Nat) => h.base < a + n && a < h.base + h.size
  let k := s.core c
  s.remote.passes.all (fun p =>
    let h := p.2
    h.state == .closed || !(meets h (scratchAddr c 0) 0x1000000 || meets h (counterBase + c * 0x10000) 0x10000 ||
      meets h (windowBase + c * 0x8000) 0x8000 || (bits h.rights 8 8 != 0 && bits h.rights 24 5 == c))) &&
  (List.range 8).all (fun x => (s.ctx c x).state == .idle) && k.streams.all (fun p => !p.2.bound) &&
  s.mcasts.all (fun m => m.core != c && m.src != c) && k.ringPasses.isEmpty && !ringAwaits s c &&
  s.remote.out.all (fun o => o.unit != c) && k.suQ.isEmpty && s.remote.incrs.all (fun i => i.core != c)

/-- The waiting job of a unit. -/
def waitingJob (s : State) (cluster : Bool) (index : Nat) : Option RstJob :=
  s.sys.rstJobs.find? (fun j => j.unit == bnat cluster && j.index == index && !j.running)

/-- UNIT_QUIET (R450, R453): the unit whose command waits is quiet, or a forced reset waited for a boundary action to end;
the reset begins between boundary actions. -/
def execUnitQuiet (cluster : Bool) (index : Fin 32) (s : State) : Host.Outcome State Fault Refusal :=
  .next (match waitingJob s cluster index with
    | none => s
    | some j =>
      if actionOpen s || (j.op != 2 && !(unitCores s j).all (coreQuiet s)) then s else beginReset s j)

/-- QUIESCE_TIMEOUT (R450, R471): the unit has not become quiet in time; it is not reset, and placement resumes. -/
def execQuiesceTimeout (cluster : Bool) (index : Fin 32) (s : State) : Host.Outcome State Fault Refusal :=
  .next (match waitingJob s cluster index with
    | none => s
    | some j =>
      let s := { s with sys := { s.sys with
        rstJobs := s.sys.rstJobs.filter (fun q => !(q.unit == j.unit && q.index == j.index)) } }
      (setRstStatus s .quiesceTimeout).raise .quiesceTimeout (if cluster then 2 else 1) j.index j.value)

/-- CORE_RELEASE (R452): 12,352 cycles after its reset began a core is released; a cluster follows its last core, and
RST_STATUS reads FC_OK. -/
def execCoreRelease (core : Fin 32) (s : State) : Host.Outcome State Fault Refusal :=
  let c := core.val
  .next (if !(s.core c).inReset then s
    else
      let s := s.updCore c (fun k => { k with inReset := false, clearing := false })
      let mine := fun (j : RstJob) => j.running && ((j.unit == 0 && j.index == c) || (j.unit == 1 && j.index == c / 8))
      match s.sys.rstJobs.find? mine with
      | none => s
      | some j =>
        if (unitCores s j).any (fun i => (s.core i).inReset) then s
        else
          let s := if j.unit = 1 then s.updCluster j.index (fun k => { k with inReset := false }) else s
          setRstStatus { s with sys := { s.sys with rstJobs := s.sys.rstJobs.filter (fun q => !mine q) } } .ok)

/-! ## Power-on (R445) -/

/-- The domains leave reset (Table 18-4): `ck_hold` falls, every MCC raises its request, ports with a role raise their
enable, and RST_PHASE becomes 2.
DEDUCED (notes/assumptions/21.md). -/
def releaseDomains (s : State) : State :=
  if s.sys.phase != 1 then s
  else
    let s := { s with sys := { s.sys with phase := 2 } }
    let s := (List.range 24).foldl (fun s n =>
      ((s.updMcc n (fun m => { m with state := .initialising })).emit (.initReq n)).updPort n
        (fun q => { q with enable := roleOf s n != 0 })) s
    s.updGov (fun g => { g with ckHold := false })

/-- SCRATCHPAD_CLEAR_DONE (R445): every scratchpad is zero, with valid check bits and no weight lines, and cores take
commands. -/
def execScratchpadClearDone (s : State) : Host.Outcome State Fault Refusal :=
  let s := releaseDomains s
  .next ((List.range 32).foldl (fun s c =>
    if (s.core c).clearing && !(s.core c).inReset then
      (clearRange s (scratchAddr c 0) scratchSize).updCore c (fun k => { k with clearing := false })
    else s) s)

end Sys2Proof.Machine
end

