-- ==== Sys2Proof/Machine/Debug.lean ====
section
/-!
DEFINITION. Trace control, counter aggregation and the wait-for graph (R460 to R470).
-/

namespace Sys2Proof.Machine

open Sys2Proof

/-! ## Trace control (R465) -/

/-- Whether the ring that TRACE_BASE and TRACE_SIZE describe may be used. -/
def traceRingOk (s : State) : Bool :=
  let a := s.ent .traceBase
  let n := s.ent .traceSize
  a % 4096 == 0 && n % 4096 == 0 && 65536 ≤ n && inOneQuadrant a n && !meetsSets (effAt s) a n true

/-- A write of TRACE_CTL (R465): enabling starts an empty ring, disabling ends the trace. -/
def traceControl (s : State) (v : Nat) : FC × State :=
  if bit v 0 then
    if !traceRingOk s then (.valueRange, s)
    else (.ok, { s with sys := { s.sys with trace := { state := 1, wrap := bit v 1 } } })
  else (.ok, { s with sys := { s.sys with trace := { s.sys.trace with state := 0 } } })

/-! ## Counter aggregation (R463, R464) -/

/-- The aggregate that a counter is a source of, with its array position. -/
def aggregateOf (key : Nat) : Option (Name × Nat) :=
  if 2 ^ 24 ≤ key then (if key % 2 ^ 24 = Name.key .tntTokens then some (.blkTokens, 0) else none)
  else
    match findEntry (key / 256) (key % 256) with
    | some (e, _, k) =>
      if e.name = .stallCycles then some (.blkStallCycles, k)
      else if e.name = .engBusyCycles then some (.blkBusyCycles, k)
      else if e.name = .coreLessons then some (.blkLessons, 0)
      else none
    | none => none

/-- The source counters that differ from 0, with their values: the sample of a run. -/
def aggSample (s : State) : FMap Nat := s.dict.cnt.filter (fun p => (aggregateOf p.1).isSome)

/-- The increase of one source since the previous sample; a lower sample counts whole (R463). -/
def aggIncrease (prev : FMap Nat) (p : Nat × Nat) : Nat :=
  let old := Map.get prev p.1 0
  if old ≤ p.2 then p.2 - old else p.2

/-- The block's aggregates take the increases of a sample. -/
def aggBlock (s : State) (sample : FMap Nat) : State :=
  let prev := s.sys.aggPrev
  let s := sample.foldl (fun s p =>
    match aggregateOf p.1 with
    | some (n, k) => s.bump n 0 k (aggIncrease prev p)
    | none => s) s
  { s with sys := { s.sys with aggPrev := sample } }

/-- What the block itself adds to the Form's aggregates in a run: lessons, tokens, stall cycles by cause. -/
def ownIncrease (before after : State) : MemberAgg :=
  let grown := fun (n : Name) (k : Nat) => after.cnt n 0 k - before.cnt n 0 k
  { node := after.form.node, lessons := grown .blkLessons 0, tokens := grown .blkTokens 0,
    stalls := (List.range 7).map (fun k => (List.range 7).foldl (fun n e => n + grown .blkStallCycles (7 * e + k)) 0) }

/-- The Form's aggregates take the increases of a block that is not lost (R464). -/
def aggForm (s : State) (ms : List MemberAgg) : State :=
  let live := ms.filter (fun m => !isLost s m.node.toNat)
  let s := live.foldl (fun s m =>
    let s := (s.bump .formLessons 0 0 m.lessons).bump .formTokens 0 0 m.tokens
    (List.range 7).foldl (fun s k => s.bump .formStallCycles 0 k (m.stalls.getD k 0)) s) s
  s.setCnt .formAggBlocks (live.foldl (fun n m => n + m.blocks) 0)

/-- The sample of every source counter as the host gets it (Table 3-11): by increasing index and sub-index, then the tokens
by tenant. -/
def aggBytes (s : State) : List Byte :=
  ((List.range 32).filter s.coreFused).flatMap (fun c =>
    (List.range 49).flatMap (fun k => natLe 8 (s.cnt .stallCycles c k)) ++ natLe 8 (s.cnt .coreLessons c) ++
      (List.range 7).flatMap (fun e => natLe 8 (s.cnt .engBusyCycles c e))) ++
    (List.range 4096).flatMap (fun t => natLe 8 (s.tnt .tntTokens t))

/-- AGG_RUN (R463, R464): one aggregation run. In mode 2 the host keeps the aggregates; in mode 1 the firmware must run.
DEDUCED (notes/assumptions/73.md). -/
def execAggRun (members : List MemberAgg) (s : State) : Host.Outcome State Fault Refusal :=
  .next (match s.ent .fnModeCounterAgg with
    | 2 => forwardAssists (raiseAssist s .counterAgg 2 .agg (s.cnt .aggRuns) 0 (aggBytes s)).2
    | m =>
      if m = 1 && s.sys.phase < 4 then s
      else
        let s' := (aggBlock s (aggSample s)).setCnt .aggLastUs s.sys.uptime
        let s' := if headOf s' = 0 then s'
          else (myMembers s').foldl (fun s n => s.emit (.mgmtAsk n 2)) (aggForm s' (ownIncrease s s' :: members))
        s'.bump .aggRuns)

/-! ## Wait-for graphs (R468 to R470) -/

/-- What the assembly knows of one block: its node, its card when it delivered one, and what firmware reads beside it. -/
structure WfgBlock where
  node : Nat
  card : Option (List Byte)
  facts : CardFacts

/-- The counters, as (node, 256c + n), that a Lesson of a core names: DONE_CTR, its streams' DONE_CTR, and the combine
counter it counts on as a unit above 0 of a split. -/
def lessonNames (s : State) (c : Nat) (d : BitVec 1024) : List (Nat × Nat) :=
  let self := s.form.node.toNat
  let st := readStages s c d
  let w := cmdWord d 0
  let own := if bit w 23 then [(self, 256 * c + bits w 24 8)] else []
  let arms := st.filterMap (fun g =>
    if namesArm (lkind d = 1) g && bit (g.aw 0) 15 then some (self, 256 * c + bits (g.aw 0) 24 8) else none)
  let comb := if lkind d = 1 then
      (if isBackward d then []
       else
        let q := attCfg s c { ctx := 0, num := 0, desc := d, compl := { }, stages := st }
        if q.um1 = 0 || q.idx = 0 then []
        else [(q.caddr / 2 ^ 48, 256 * (combineCtr q q.idx).1 + (combineCtr q q.idx).2)])
    else (heavies st).filterMap (fun i =>
      let h := hrec d (heavyIdx st i)
      if h.um1 = 0 || h.unit = 0 then none else some (self, 256 * h.ccore + h.cctr + h.unit - 1))
  own ++ arms ++ comb

/-- The counters that a command names: those of a Lesson, or the counter of a local CPUT. -/
def commandNames (s : State) (c : Nat) (d : BitVec 1024) : List (Nat × Nat) :=
  let w := cmdWord d 0
  if w % 256 = 1 then lessonNames s c d
  else if w % 256 = 5 && bits w 8 8 = 3 && cmdWord d 1 / 2 ^ 48 = s.form.node.toNat then
    [(s.form.node.toNat, 256 * bits w 35 5 + bits w 27 8)]
  else []

/-- The issued and untaken commands of a context. -/
def contextCommands (s : State) (c x : Nat) : List (BitVec 1024) :=
  let k := s.ctx c x
  let issued := ((s.core c).lessons.filter (fun p => p.2.ctx == x)).map (fun p => p.2.desc)
  let parked := match k.waiting with
    | some w => [w.desc]
    | none => []
  let n := min 32 ((k.count - k.done).toNat)
  issued ++ parked ++ (List.range n).map (fun i =>
    BitVec.ofNat 1024 (s.num (slotAddr c x ((k.done.toNat + i) % 32)) 128))

/-- What firmware reads of this block beside its card. -/
def ownFacts (s : State) : CardFacts :=
  let places := (List.range 32).flatMap (fun c => (List.range 8).map (fun x => (c, x)))
  let lessonCtx := fun (c id : Nat) => (Map.get? (s.core c).lessons id).map (fun l => 8 * c + l.ctx)
  { produces := places.flatMap (fun p =>
      ((contextCommands s p.1 p.2).flatMap (commandNames s p.1)).eraseDups.map (fun n => (8 * p.1 + p.2, n))),
    holds := (List.range 32).flatMap (fun c =>
      (((s.core c).flagOwner.map (fun (f : Nat × FlagOwner) => (8 * c + f.2.ctx, 3))) ++
        ((s.core c).scoreboard.map (fun (b : SbPlace) => (8 * c + b.ctx, 4))) ++
        ((s.core c).ringPasses.filterMap (fun (r : RingPass) => (lessonCtx c r.lesson).map (fun x => (x, 5))))).eraseDups),
    walks := (s.charts.walks.filterMap (fun w =>
      match w.owner with
      | .lesson c id => if (s.desc w.seq).held then (lessonCtx c id).map (fun x => (w.seq, x)) else none
      | .evict => none)).eraseDups,
    inFlight := places.filterMap (fun p =>
      if s.sched.running && (s.core p.1).lessons.any (fun l => l.2.ctx == p.2) then some (8 * p.1 + p.2) else none),
    missing := if headOf s = 0 then [] else
      (myMembers s).filter (fun m => !s.sched.membersDone.any (fun d => d.1 == m)),
    ended := !s.sched.running || (stepEnded s && membersDone s) }

/-- Node ID (Table 19-8): kind 0 context, 1 counter, 2 wire, 3 sequence, 4 block. -/
def wfgId (kind node index : Nat) : Nat := kind * 2 ^ 60 + node * 2 ^ 44 + index

/-- An edge of the graph. -/
structure WfgEdge where
  src : Nat
  dst : Nat
  kind : Nat
  val : Nat := 0
  deriving DecidableEq, Repr

/-- Address in a card of the record of context n = 8c + x. -/
def cardCtx (n : Nat) : Nat := 0x1000 + 0x1000 * (n / 8) + 0x500 + 64 * (n % 8)

/-- Edges WAIT, HOLDER, PRODUCER, BARRIER, ABSENT, WALK and STEP of one block (Table 19-7). -/
def wfgEdges (b : WfgBlock) (card : List Byte) : List WfgEdge :=
  let ctx := fun (n : Nat) => wfgId 0 b.node n
  let all := List.range 256
  let waits := all.flatMap (fun n =>
    let r := slice card (cardCtx n) 64
    let kind := fieldAt r 35 1
    if kind = 1 || kind = 2 then
      [{ src := ctx n, dst := wfgId 1 b.node (256 * (n / 8) + fieldAt r 24 4), kind := 1, val := fieldAt r 28 4 }]
    else if 3 ≤ kind then
      (b.facts.holds.filter (fun h => h.2 == kind && h.1 / 8 == n / 8 && h.1 != n)).map (fun h =>
        { src := ctx n, dst := ctx h.1, kind := 2 })
    else [])
  let produced := b.facts.produces.map (fun p => { src := wfgId 1 p.2.1 p.2.2, dst := ctx p.1, kind := 3 : WfgEdge })
  let barriers := (List.range 32).flatMap (fun c => (List.range 16).filterMap (fun w =>
    let r := slice card (0x1000 + 0x1000 * c + 0x700 + 16 * w) 16
    if fieldAt r 2 1 % 2 = 1 then
      some { src := wfgId 1 b.node (256 * c + fieldAt r 8 1), dst := wfgId 2 b.node w, kind := 4 : WfgEdge }
    else none))
  let absent := (List.range 16).flatMap (fun w =>
    let mask := fieldAt card (0x100 + 64 * w) 4
    let arrived := fieldAt card (0x108 + 64 * w) 4
    (List.range 32).filterMap (fun c =>
      if !bit mask c || bit arrived c then none
      else
        let busy := (List.range 8).filter (fun x => fieldAt card (cardCtx (8 * c + x)) 1 != 0)
        let age := fun (x : Nat) => fieldAt card (cardCtx (8 * c + x) + 16) 8
        (busy.find? (fun x => busy.all (fun y => age y ≤ age x))).map (fun x =>
          { src := wfgId 2 b.node w, dst := ctx (8 * c + x), kind := 5 })))
  let walks := b.facts.walks.map (fun p => { src := wfgId 3 b.node p.1, dst := ctx p.2, kind := 6 : WfgEdge })
  let block := wfgId 4 b.node 0
  let step := if b.facts.ended then [] else
    b.facts.inFlight.map (fun n => { src := block, dst := ctx n, kind := 7 : WfgEdge }) ++
      b.facts.missing.map (fun m => { src := block, dst := wfgId 4 m 0, kind := 7 })
  waits ++ produced ++ barriers ++ absent ++ walks ++ step

/-- Nodes of one block: its BLOCK node and its contexts that are not IDLE. -/
def wfgOwnNodes (b : WfgBlock) (card : List Byte) : List Nat :=
  wfgId 4 b.node 0 :: ((List.range 256).filter (fun n => fieldAt card (cardCtx n) 1 != 0)).map (wfgId 0 b.node)

/-- Nodes that edges lead to. -/
def wfgSucc (es : List WfgEdge) (u : Nat) : List Nat := (es.filter (fun e => e.src == u)).map (fun e => e.dst)

/-- Nodes reached over at least one edge from the nodes of a front. -/
def wfgReach (es : List WfgEdge) : Nat → List Nat → List Nat → List Nat
  | 0, seen, _ => seen
  | k + 1, seen, front =>
    let next := ((front.flatMap (wfgSucc es)).eraseDups).filter (fun v => !seen.contains v)
    if next.isEmpty then seen else wfgReach es k (seen ++ next) next

/-- Cycle number of every node, 0 for none: nodes that reach each other share a number, from 1 in node order (R470). -/
def wfgCycles (ns : List Nat) (es : List WfgEdge) : FMap Nat × Nat :=
  let reach := ns.map (fun u => (u, wfgReach es ns.length [] [u]))
  let from_ := fun (u : Nat) => ((reach.find? (fun p => p.1 == u)).map Prod.snd).getD []
  ns.foldl (fun (q : FMap Nat × Nat) u =>
    if !(from_ u).contains u then q
    else match q.1.find? (fun p => (from_ u).contains p.1 && (from_ p.1).contains u) with
      | some p => (Map.put q.1 u p.2, q.2)
      | none => (Map.put q.1 u (q.2 + 1), q.2 + 1)) ([], 0)

/-- A finished node record's fields. -/
structure WfgNode where
  id : Nat
  state : Nat := 0
  flags : Nat := 0
  code : Nat := 0
  cycle : Nat := 0
  cycles : Nat := 0
  val : Nat := 0

/-- The 32 bytes of a node record. -/
def WfgNode.bytes (n : WfgNode) : List Byte :=
  natLe 8 n.id ++ natLe 1 n.state ++ natLe 1 n.flags ++ natLe 2 n.code ++ natLe 4 n.cycle ++ natLe 8 n.cycles ++
    natLe 4 n.val ++ zeros 4

/-- The 24 bytes of an edge record. -/
def WfgEdge.bytes (e : WfgEdge) : List Byte := natLe 8 e.src ++ natLe 8 e.dst ++ natLe 2 e.kind ++ zeros 2 ++ natLe 4 e.val

/-- Whether a node waits: a context that shows an awaited kind or is BLOCKED, a counter or a wire, a block that has not
ended its step. -/
def wfgWaiting (id : Nat) (r : List Byte) (ended : Bool) : Bool :=
  match id / 2 ^ 60 with
  | 0 => fieldAt r 35 1 != 0 || fieldAt r 0 1 == 2
  | 1 => true
  | 2 => true
  | 4 => !ended
  | _ => false

/-- One node of the graph with its flags (Table 19-8). -/
def wfgNode (bs : List WfgBlock) (es : List WfgEdge) (cyc : FMap Nat) (step : Nat) (id : Nat) : WfgNode :=
  let node := id / 2 ^ 44 % 65536
  let index := id % 2 ^ 44
  let cycle := Map.get cyc id 0
  match bs.find? (fun b => b.node == node) with
  | none => { id := id, cycle := cycle, flags := if cycle = 0 then 0 else 4 }
  | some b =>
    match b.card with
    | none => { id := id, cycle := cycle, flags := 16 + (if cycle = 0 then 0 else 4) }
    | some card =>
      let r := if id / 2 ^ 60 = 0 then slice card (cardCtx index) 64 else []
      let terminal := id / 2 ^ 60 == 0 && fieldAt r 0 1 == 4
      let orphan := wfgWaiting id r b.facts.ended && (wfgSucc es id).isEmpty && !terminal
      let skew := fieldAt card 8 8 != step
      { id := id, state := if id / 2 ^ 60 = 0 then fieldAt r 0 1 else 0,
        flags := bnat terminal + 2 * bnat orphan + 4 * bnat (cycle != 0) + 8 * bnat skew,
        code := if terminal then fieldAt r 12 2 else 0, cycle := cycle,
        cycles := if id / 2 ^ 60 = 0 then fieldAt r 16 8 else 0,
        val := if id / 2 ^ 60 = 0 then fieldAt r 28 4
          else if id / 2 ^ 60 = 1 then fieldAt card (0x1000 + 0x1000 * (index / 256) + 0x100 + 4 * (index % 256)) 4
          else 0 }

/-- The graph's records and totals, from the blocks with the top one first.
DEDUCED (notes/assumptions/71.md). -/
def wfgBytes (bs : List WfgBlock) : List (List Byte) :=
  let step := match bs.head?.bind (fun b => b.card) with
    | some card => fieldAt card 8 8
    | none => 0
  let seen := bs.filterMap (fun b => b.card.map (fun card => (b, card)))
  let es := seen.flatMap (fun p => wfgEdges p.1 p.2)
  let ns := (bs.map (fun b => wfgId 4 b.node 0) ++ seen.flatMap (fun p => wfgOwnNodes p.1 p.2) ++
    es.flatMap (fun e => [e.src, e.dst])).foldl (fun l n => insertNat n l) []
  let (cyc, found) := wfgCycles ns es
  let nodes := ns.map (wfgNode bs es cyc step)
  let count := fun (k : Nat) => (nodes.filter (fun n => bit n.flags k)).length
  let header := natLe 2 1 ++ natLe 2 ((bs.head?.map (fun b => b.node)).getD 0) ++ natLe 4 bs.length ++
    natLe 4 nodes.length ++ natLe 4 es.length ++ natLe 8 step ++ natLe 4 found ++ natLe 4 (count 1) ++ natLe 4 (count 0) ++
    zeros 28
  header :: (nodes.map WfgNode.bytes ++ es.map WfgEdge.bytes)

/-- The records that fit into a size, and whether all do. -/
def fitRecords (size : Nat) (rs : List (List Byte)) : List Byte × Bool :=
  rs.foldl (fun (q : List Byte × Bool) r =>
    if q.2 && q.1.length + r.length ≤ size then (q.1 ++ r, true) else (q.1, false)) ([], true)

/-- A set of cards is requested: this block's and, for a Form, every member's (R468). -/
def wfgRequest (s : State) (v : Nat) : State :=
  let s := requestCard s .ok 0xFF
  if v = 2 then (myMembers s).foldl (fun s n => s.emit (.mgmtAsk n 1)) s else s

/-- A write of WFG_CMD (R468): the cards are requested; in an assisted mode an assist request is raised. -/
def wfgCommand (s : State) (v : Nat) : FC × State :=
  if s.sys.wfg.isSome || (v = 2 && headOf s = 0) then (.valueRange, s)
  else
    let mode := s.ent .fnModeWaitGraph
    let (c, s') := if mode = 0 then (.ok, s) else raiseAssist s .waitGraph mode (.waitGraph v) v (s.ent .reportBase) []
    if c != .ok then (c, s)
    else
      let s := { s' with sys := { s'.sys with wfg := some v } }
      if mode = 2 then (.ok, forwardAssists s)
      else (.ok, wfgRequest s v)

/-- An assembly ends: WFG_STATUS, WFG_COUNT when a graph was written, its assist request leaves (R470). -/
def wfgEnd (s : State) (code : FC) (written : Bool) : State :=
  let s := s.setCnt .wfgStatus code.value
  let s := { s with sys := { s.sys with wfg := none, wfgSets := 0 } }
  let s := { s with mgmt := { s.mgmt with
    assists := s.mgmt.assists.filter (fun a => a.fn != .waitGraph)
    stalled := s.mgmt.stalled.filter (fun a => a.fn != .waitGraph) } }
  if written then s.bump .wfgCount else s

/-- What the assembly knows of the blocks it covers, this one first: its own card is the one that has landed. -/
def wfgBlocks (s : State) (v : Nat) (cards : List RemoteCard) : List WfgBlock :=
  let base := s.ent .reportBase
  { node := s.form.node.toNat, card := if base = 0 then none else some (s.bytes base 0x21000), facts := ownFacts s } ::
    (if v = 2 then cards.map (fun r => { node := r.node.toNat, card := r.card, facts := r.facts }) else [])

/-- Whether every card of a set carries the same SCHED_STEP (R468). -/
def wfgConsistent (bs : List WfgBlock) : Bool :=
  match bs.filterMap (fun b => b.card) with
  | [] => true
  | a :: rest => rest.all (fun c => fieldAt c 8 8 == fieldAt a 8 8)

/-- WFG_DONE (R468 to R470): the set of cards is complete. An inconsistent one is requested anew, up to three times; else the
graph is written. `cards` holds those of the other blocks of the Form. -/
def execWfgDone (cards : List RemoteCard) (s : State) : Host.Outcome State Fault Refusal :=
  .next (match s.sys.wfg with
    | none => s
    | some v =>
      if s.mgmt.assists.any (fun a => a.fn == .waitGraph && a.toHost) || !s.sys.cards.isEmpty || !s.sys.cardWait.isEmpty
      then s
      else
        let set := wfgBlocks s v cards
        if !wfgConsistent set && s.sys.wfgSets < 3 then
          wfgRequest { s with sys := { s.sys with wfgSets := s.sys.wfgSets + 1 } } v
        else
          let (bs, whole) := fitRecords (s.ent .wfgSize) (wfgBytes set)
          let (s, code) := landAt s (s.ent .wfgBase) bs
          if code != .ok then wfgEnd s code false else wfgEnd s (if whole then .ok else .valueRange) true)

end Sys2Proof.Machine
end

