-- ==== Sys2Proof/Machine/Assists.lean ====
section
/-!
DEFINITION. Answers of assist requests, from the Control Complex and from the host, and their timeout (R71, R94 to R97); key
rotation (R384).
-/

namespace Sys2Proof.Machine

open Sys2Proof

/-- The 32-bit numbers of an answer; the host's answer is padded with zeros to 16 bytes, so zeros at its end count as padding
but for a first number. -/
def answerList (host : Bool) (data : List Byte) : List Nat :=
  let ns := (List.range (data.length / 4)).map (fun i => fieldAt data (4 * i) 4)
  match ns with
  | [] => []
  | n :: rest => if host then n :: (rest.reverse.dropWhile (fun v => v == 0)).reverse else ns

/-! ## Assisted edits (R71, Table 3-11) -/

/-- The leaves of an edit answered by the host: (chart page, leaf entry). -/
def answerLeaves (data : List Byte) : List (Nat × Nat) :=
  (List.range (data.length / 16)).map (fun i => (fieldAt data (16 * i) 8, fieldAt data (16 * i + 8) 8))

/-- One leaf of the host's list goes into the shadow: VALID = 1 with FRAME = 0 asks for a private frame; another entry must
obey R38. -/
def answeredLeaf (s : State) (n : Nat) (ve : Nat × Nat) : FC × State :=
  let (v, e) := ve
  if v ≥ 2 ^ 63 then (.chartDepth, s)
  else
    andThen (growFor s n v) (fun s =>
      if eValid e && !eRemote e && eFrame e = 0 then
        match seqLayout s n with
        | none => (.chartMalformed, s)
        | some l =>
          match allocFrame s l (s.desc n).partition n (v % l.pg) (eCompacted e) with
          | none => (.frameExhausted, s)
          | some (s, pf, a) => setLeaf (claimFrame s n pf) n v (leafEntry a (eTail e) (eCompacted e))
      else
        match leafCode s e with
        | .ok => takeLeaf s n v e
        | c => (c, s))

/-- A page that a host's ATTACH shares from its source's private page turns that page into a shared one (R48). -/
def shareSource (s : State) (src : Nat) (ve : Nat × Nat) : FC × State :=
  let (code, e) := shadowEntry s src ve.1
  if code != .ok then (code, s)
  else if !eShared ve.2 || !eValid e || eShared e || eRemote e || eFrame e != eFrame ve.2 then (.ok, s)
  else
    match frameOf s (eFrame e) with
    | none => (.chartMalformed, s)
    | some pf =>
      let s := (claimBit s pf 0).updPend src (fun p => { p with
        bitsClaimed := p.bitsClaimed ++ [(pf.1, pf.2, 0)], dirty := true })
      setLeaf s src ve.1 (e + 4)

/-- What an operation does beside its leaves (Table 2-9, R48, R62), with its own refusals. -/
def editAround (s : State) (h : EditHdr) (op : EditOp) (leaves : List (Nat × Nat)) : FC × State :=
  let n := h.seq.toNat
  match op with
  | .attach src k =>
    if (s.desc src).state = .free then (.seqInvalid, s)
    else if k < 1 || (s.desc src).committedLen < k || editLen s n != 0 then (.attachRange, s)
    else
      match seqLayout s src with
      | none => (.chartMalformed, s)
      | some l =>
        let pos := nextPosBelow s h.fetched l.pg (s.desc src).shadowRoot (s.desc src).shadowDepth k
        andThen (steps leaves s (fun s ve => shareSource s src ve)) (fun s =>
          (pos.1, s.updPend n (fun p => { p with setLen := some (k, pos.2) })))
  | .remap p0 nOld nNew _ _ =>
    match seqLayout s n with
    | none => (.chartMalformed, s)
    | some l =>
      (remapCode s n l.pg p0 nOld nNew,
        s.updDesc n (fun d => { d with remappedPages := d.remappedPages + (nOld - nNew) }))
  | .truncate k =>
    match seqLayout s n with
    | none => (.chartMalformed, s)
    | some l =>
      let k := min k (editLen s n)
      let (c, pos) := nextPosBelow s h.fetched l.pg (s.desc n).shadowRoot (s.desc n).shadowDepth k
      let s := s.updPend n (fun p => { p with setLen := some (k, pos) })
      let s := s.updDesc n (fun d => { d with remappedPages := 0, verdict := false, draftAccept := 0 })
      (c, match Map.get? s.charts.jobs n with
        | some j => if k < evictEnd s n j.captured * 256 then jobEnd s n else s
        | none => s)
  | .setEntry v _ => (.ok, breakJob s n v)
  | _ => (.ok, s)

/-- Whether an operation changes leaves that a host may list (Table 2-9). -/
def EditOp.leaves : EditOp → Bool
  | .extend _ => true
  | .attach _ _ => true
  | .cow _ => true
  | .setEntry _ _ => true
  | .remap _ _ _ _ _ => true
  | .truncate _ => true
  | _ => false

/-- An edit that the host answered: an operation that names no leaf is performed as it stands, every other one takes its
leaves from the list. -/
def hostEdit (s : State) (e : EditEntry) (data : List Byte) : FC × State :=
  let leaves := answerLeaves data
  if !e.op.leaves then applyOp s e.id e.hdr e.op
  else andThen (editAround s e.hdr e.op leaves) (fun s =>
    steps leaves s (fun s ve => answeredLeaf s e.hdr.seq.toNat ve))

/-- An assisted edit is answered (R71): the Control Complex executes it, or builds the shadow from the host's list. -/
def answerEdit (s : State) (id : Nat) (host : Bool) (code : FC) (data : List Byte) : State :=
  match s.charts.editQ.find? (fun e => e.id == id) with
  | none => s
  | some e =>
    if e.applied then s
    else if code != .ok then dropEdit (editReport s e.hdr code) id
    else if host then jobPump (finishEdit s id e.hdr e.op (hostEdit s e data))
    else runEdit s id e.hdr e.op

/-! ## The other functions -/

/-- An assisted batch is answered (R95): it is placed when it keeps R87 and R88, else the step is empty. A request that
timed out makes the scheduler repeat actions 4 and 5. -/
def answerBatch (s : State) (fs : List Fetched) (code : FC) (data : List Byte) : State :=
  if !s.sched.batchWait then s
  else
    let ps := batchAnswer data
    if code = .ok && data.length % 16 = 0 && batchOk s ps then
      cardPump (beginStep (ps.foldl (fun s p => (place s fs p.seq p.appends p.drafts).1) s))
    else
      let s := cardPump (beginStep (s.raise (if code = .ok then .assistInvalid else code)))
      if code = .assistTimeout then actions45 s fs else s

/-- An assisted translation is answered with a leaf entry, to which R38 and R57 apply (R71). -/
def answerWalk (s : State) (c id seq : Nat) (epoch : U32) (page : Nat) (code : FC) (data : List Byte) : State :=
  let fault := fun (code : FC) => lessonFaultSeq s c id code (blamed code false seq)
  if code != .ok then fault code
  else if data.length < 8 then fault .chartMalformed
  else if (s.desc seq).epoch != epoch then fault .chartEpoch
  else
    let e := fieldAt data 0 8
    match leafCode s e with
    | .ok => if eValid e then tcInsert s c { seq := seq, epoch := epoch, page := page, entry := e } else fault .slotUnmapped
    | code => fault code

/-- Numbers in increasing order, each once. -/
def increasing : List Nat → Bool
  | a :: b :: rest => a < b && increasing (b :: rest)
  | _ => true

/-- An assisted page selection is answered with the page list (R267). -/
def answerSelect (s : State) (a : Assist) (c id : Nat) (code : FC) (data : List Byte) : State :=
  let seq := a.arg0 / 2 ^ 32
  match (lessonAt s c id).bind (fun l => l.att.map (fun r => (l, r))) with
  | none => s
  | some (l, r) =>
    match r.waiting.find? (fun i => ((r.entries[i]?).map (fun e => e.seq)) == some seq) with
    | none => s
    | some i =>
      if code != .ok then lessonFault s c id code
      else
        let pages := answerList a.toHost data
        let extent := ((r.entries[i]?).map (fun e => e.extent)).getD 0
        if !increasing pages || pages.any (fun k => ceilDiv extent 256 ≤ k) then
          lessonFault s c id .assistInvalid
        else attSelected s c id (attCfg s c l) i pages

/-- An assisted admission is answered: the sequences are admitted at the next boundary. -/
def answerAdmission (s : State) (host : Bool) (code : FC) (data : List Byte) : State :=
  if code != .ok then s.raise code
  else { s with sched := { s.sched with admitAnswers := s.sched.admitAnswers ++ answerList host data } }

/-- An assisted escalation is answered: 1 escalates the layer at the next boundary, 0 leaves it. -/
def answerEscalate (s : State) (r layer : Nat) (code : FC) (data : List Byte) : State :=
  if code != .ok then s.raise code
  else match data with
    | [] => s.raise .assistInvalid
    | b :: _ =>
      if b = 1 then { s with sched := { s.sched with escalateAnswers := s.sched.escalateAnswers ++ [(r, layer)] } }
      else if b = 0 then s
      else s.raise .assistInvalid

/-- An assist request that has left its queue is answered (R95).
DEDUCED (notes/assumptions/47.md). -/
def applyAnswer (s : State) (a : Assist) (fs : List Fetched) (code : FC) (data : List Byte) : State :=
  match a.who with
  | .admission => answerAdmission s a.toHost code data
  | .batch => answerBatch s fs code data
  | .evict n =>
    let s := if code != .ok then s.raise code 6 0 n else s
    jobPump (jobEnd s n)
  | .walk c id seq epoch page => answerWalk s c id seq epoch page code data
  | .edit id => answerEdit s id a.toHost code data
  | .select c id => answerSelect s a c id code data
  | .escalate r layer => answerEscalate s r layer code data
  | .waitGraph _ => wfgEnd s code (code == .ok)
  | .keySlot k => if code = .ok then (if rotationDue s k then rotateKey s k else s) else s.raise code 7 k
  | .agg => if code = .ok then s else s.raise code

/-- An outstanding request is answered: it leaves its queue, its place in the host's ring is free for the next. -/
def endAssist (s : State) (num : Nat) (fs : List Fetched) (code : FC) (data : List Byte) : State :=
  match s.mgmt.assists.find? (fun a => a.num == num) with
  | none => s
  | some a =>
    let s := unstall { s with mgmt := { s.mgmt with assists := s.mgmt.assists.filter (fun b => b.num != num) } }
    forwardAssists (applyAnswer s a fs code data)

/-- ASSIST_ANSWER (R71, R95): the Control Complex answers a request of mode 1. It answers a wait-for graph by WFG_DONE, unless
the answer is a code. -/
def execAssistAnswer (num : U32) (code : FC) (data : List Byte) (fs : List Fetched) (s : State) :
    Host.Outcome State Fault Refusal :=
  .next (match s.mgmt.assists.find? (fun a => a.num == num.toNat) with
    | none => s
    | some a =>
      if a.toHost || s.sys.phase != 4 || (a.fn == .waitGraph && code == .ok) then s
      else endAssist s num.toNat fs code data)

/-- ASSIST_TIMEOUT (R95, R97): FN_ASSIST_TIMEOUT has passed, for a forwarded request since the host's port accepted its
record, for one of the Control Complex since the end of its restart (R454). -/
def execAssistTimeout (num : U32) (fs : List Fetched) (s : State) : Host.Outcome State Fault Refusal :=
  .next (match s.mgmt.assists.find? (fun a => a.num == num.toNat) with
    | none => s
    | some a =>
      if (a.toHost && a.place.isNone) || (!a.toHost && s.sys.phase == 5) then s else endAssist s num.toNat fs .assistTimeout [])

/-- A write of FN_ASSIST_ANSWER by the host (R97).
DEDUCED (notes/assumptions/32.md). -/
def hostAssistAnswer (s : State) (fs : List Fetched) (v : Nat) : FC × State :=
  let num := bits v 32 32
  let len := 16 * bits v 16 16
  match s.mgmt.assists.find? (fun a => a.num == num), FC.ofValue? (bits v 0 16) with
  | some a, some code =>
    match a.place with
    | none => (.valueRange, s)
    | some n =>
      if answerMax s a.fn < len then (.valueRange, s)
      else
        let addr := s.ent .fnAnswerBase + n * s.ent .fnAnswerSize
        if mcDown s addr len then (.ok, endAssist s num fs (if code = .ok then .mcDown else code) [])
        else
          let (s, data, marks) := s.read addr len
          let code := if code = .ok && marks.any (fun b => b) then FC.dataPoisoned else code
          (.ok, endAssist s num fs code data)
  | _, _ => (.valueRange, s)

/-- Requests forwarded to the host end when its link goes down (R97, R401), those that stall before a full queue after those
in it. -/
def dropHostAssists (s : State) : State :=
  let late := s.mgmt.stalled.filter (fun a => a.toHost)
  let s := { s with mgmt := { s.mgmt with stalled := s.mgmt.stalled.filter (fun a => !a.toHost) } }
  let s := (s.mgmt.assists.filter (fun a => a.toHost)).foldl (fun s a => endAssist s a.num [] .nodeUnreachable []) s
  late.foldl (fun s a => applyAnswer s a [] .nodeUnreachable []) s

/-- KEY_ROTATION (R384): uptime has reached KEY_ROTATE_AT of a slot that holds a next key; the swap is the hardware's, or an
assist asks for it. -/
def execKeyRotation (slot : Fin 16) (s : State) : Host.Outcome State Fault Refusal :=
  .next (if !rotationDue s slot then s
    else
      let mode := s.ent .fnModeKeyRotation
      if mode = 0 then rotateKey s slot
      else if assistOpen s (.keySlot slot.val) then s
      else
        match raiseAssist s .keyRotation mode (.keySlot slot) slot (keySlot s slot).rotateAt [] with
        | (.ok, s) => forwardAssists s
        | (c, s) => s.raise c 7 slot)

end Sys2Proof.Machine
end

