-- ==== Sys2Proof/Machine/Commands.lean ====
section
/-!
DEFINITION. Commands taken from command windows, remote operation commands, and the replies of other nodes (R302, R315 to
R319).
-/

namespace Sys2Proof.Machine

open Sys2Proof

/-! ## Remote operation commands (R315, Table 12-8) -/

/-- RM_OP. -/
def ropOp (d : BitVec 1024) : Nat := bits (cmdWord d 0) 8 8

/-- LOCAL. -/
def ropLocal (d : BitVec 1024) : Nat := bits (cmdWord d 2) 0 24

/-- LEN. -/
def ropLen (d : BitVec 1024) : Nat := bits (cmdWord d 3) 0 13

/-- Bytes of LOCAL that a command moves or returns (R315, R316). -/
def ropBytes (d : BitVec 1024) : Nat :=
  match Kind.ofCode? (ropOp d) with
  | some .put => ropLen d
  | some .get => ropLen d
  | some .cput => ropLen d
  | some .add => if bit (cmdWord d 0) 20 then 16 else 0
  | some .max => if bit (cmdWord d 0) 20 then 16 else 0
  | _ => 0

/-- The checks of R315 in their order. -/
def ropCode (d : BitVec 1024) : FC :=
  let w := cmdWord d
  let resv := bits (w 0) 40 24 != 0 || bits (w 2) 24 40 != 0 || bits (w 3) 13 51 != 0 ||
    (List.range 7).any (fun i => w (9 + i) != 0)
  if (Kind.ofCode? (ropOp d)).isNone || resv then .reservedNonzero
  else if ropLocal d % 16 != 0 || 4 < bits (w 0) 16 4 || 4 < bits (w 0) 24 3 then .valueRange
  else if ropBytes d != 0 && scratchSize < ropLocal d + ropBytes d then .scratchRange
  else .ok

/-- Rows of LOCAL that a command reads. -/
def ropReads (d : BitVec 1024) : List (Nat × Nat) :=
  if ropOp d = 1 || ropOp d = 3 then rowsOf (ropLocal d) (ropBytes d) else []

/-- Rows of LOCAL that a command writes. -/
def ropWrites (d : BitVec 1024) : List (Nat × Nat) :=
  if ropOp d = 1 || ropOp d = 3 then [] else rowsOf (ropLocal d) (ropBytes d)

/-- The request that a command sends; its data is what LOCAL holds. -/
def ropRequest (s : State) (c : Fin 32) (x : Fin 8) (num : U32) (d : BitVec 1024) : State × Req :=
  let w := cmdWord d
  let o := w 0
  let (s, data, marks) := if (ropReads d).isEmpty then (s, [], []) else s.read (scratchAddr c (ropLocal d)) (ropBytes d)
  (s, { origin := .inside (.remoteOp c x), tenant := BitVec.ofNat 12 (s.ctx c x).tenant, target := BitVec.ofNat 64 (w 1),
        len := ropLen d, data := data, poison := marks,
        atype := [AType.u32, .u64, .i32, .i64, .f32].getD (bits o 16 4) .u32, fetch := bit o 20,
        operand := BitVec.ofNat 64 (w 5), elem := BitVec.ofNat 3 (bits o 24 3),
        pred := [Pred.eq, .ne, .ltu, .geu].getD (bits o 22 2) .eq,
        value := BitVec.ofNat 128 (w 5 + w 6 * 2 ^ 64), mask := BitVec.ofNat 128 (w 7 + w 8 * 2 ^ 64),
        ctr := BitVec.ofNat 8 (bits o 27 8), ctrCore := BitVec.ofNat 5 (bits o 35 5), cycle := s.sys.coreCycles,
        tag := num.toNat })

/-- A remote operation command issues, waits for its rows, or is refused (R176, R315). -/
def issueRop (s : State) (c : Fin 32) (x : Fin 8) (num : U32) (d : BitVec 1024) (compl : Compl) : State :=
  match ropCode d, Kind.ofCode? (ropOp d) with
  | .ok, some k =>
    if !sbFree s c (ropReads d) (ropWrites d) then parkCmd s c x num d compl
    else
      let (s, r) := ropRequest s c x num d
      let s := issued (sbTake s c x num (ropReads d) (ropWrites d)) c x
        { num := num, kind := .remoteOp, compl := compl, trap := bit (cmdWord d 0) 21,
          rop := some (ropOp d, ropLocal d, bnat r.fetch) }
      issueInside s k r (.remoteOp c x)
  | .ok, none => s
  | code, _ => refuseCmd s c x compl code

/-- REMOTE_OPERATION_COMMAND (R315, R316): a command of class 0x05 on its context. -/
def execRemoteOperationCommand (core : Fin 32) (ctx : Fin 8) (num : U32) (d : BitVec 1024) (s : State) :
    Host.Outcome State Fault Refusal :=
  .next (if canIssue s core ctx then issueRop s core ctx num d (complOf s core ctx d) else s)

/-! ## Taking a command (R319) -/

/-- A sequence command in a slot (R81): it waits for action 5, with what its reserved bits make of it. -/
def takeSeqCmd (s : State) (c : Fin 32) (x : Fin 8) (num : U32) (d : BitVec 1024) (compl : Compl) (fs : List Fetched) : State :=
  let w := cmdWord d
  let resv := bits (w 0) 50 14 != 0 || bits (w 0) 16 16 != 0 || (List.range 10).any (fun i => w (6 + i) != 0)
  let h : SeqHdr := { ctx := BitVec.ofNat 8 (8 * c.val + x.val), seq := BitVec.ofNat 18 (bits (w 0) 32 18), compl := compl,
                      fetched := fs }
  let op := if resv then SeqOp.reserved else seqOpOf (bits (w 0) 8 8) (w 1) (w 2) (w 3) (w 5)
  { s with sched := { s.sched with cmds := s.sched.cmds ++ [{ hdr := h, num := num, op := op }] } }

/-- A chart edit command in a slot (R61, Table 2-9): it enters the edit queue with the source of its slot (R59). -/
def takeEdit (s : State) (c : Fin 32) (x : Fin 8) (num : U32) (d : BitVec 1024) (compl : Compl) (fs : List Fetched) : State :=
  let w := cmdWord d
  let src := (Map.get? (s.ctx c x).slotSrc (num.toNat % 32)).getD (.ctx c x)
  let h : EditHdr := { src := src, seq := BitVec.ofNat 18 (bits (w 0) 32 18), compl := compl, fetched := fs }
  let resv := bits (w 0) 50 14 != 0 || bits (w 0) 16 16 != 0 || (List.range 11).any (fun i => w (5 + i) != 0)
  let a := w 1
  let wide := decide (2 ^ 48 ≤ a)
  if resv then editReport s h .reservedNonzero
  else match bits (w 0) 8 8 with
    | 1 => submitOrReserved s h wide (.extend a)
    | 2 => submitOrReserved s h (2 ^ 18 ≤ a || 2 ^ 48 ≤ w 2) (.attach a (w 2))
    | 3 => submitOrReserved s h false (.cow a)
    | 4 => submitOrReserved s h false (.grow a)
    | 5 => submitOrReserved s h false (.setEntry a (w 2))
    | 6 => submitRemap s h (BitVec.ofNat 64 a) (BitVec.ofNat 64 (w 2)) (BitVec.ofNat 64 (w 3))
    | 7 => submitOrReserved s h wide (.truncate a)
    | 8 => submitEdit s h .release
    | 9 => submitOrReserved s h wide (.draftCommit a)
    | 10 => submitEdit s h .draftRollback
    | 11 => submitOrReserved s h false (.evict a)
    | 12 => submitEdit s h .forceRelease
    | _ => editReport s h .reservedNonzero

/-- A taken command runs as its class decides; a class outside the table faults the context without a completion word. -/
def runTaken (s : State) (c : Fin 32) (x : Fin 8) (num : U32) (d : BitVec 1024) (compl : Compl) (fs : List Fetched)
    (hazard : Bool) : State :=
  match cmdWord d 0 % 256 with
  | 1 => issueLesson s c x num d compl fs hazard
  | 2 => takeSeqCmd s c x num d compl fs
  | 3 => takeEdit s c x num d compl fs
  | 4 => issueMsu s c x num d compl
  | 5 => issueRop s c x num d compl
  | _ => faultCtx s c x .reservedNonzero

/-- Whether a context may take or retry a command now (R319, R438, R445, R452). -/
def canTake (s : State) (c x : Nat) : Bool :=
  (s.ctx c x).state != .faulted && s.corePresent c && !(s.core c).clearing && !(s.core c).inReset

/-- CMD_TAKE (R176, R319): a command that waits tries to issue; else the context takes command CTX_CMD_DONE, whose slot it
frees. A slot that carries a poison mark faults the context (R441).
DEDUCED (notes/assumptions/51.md). -/
def execCmdTake (core : Fin 32) (ctx : Fin 8) (fs : List Fetched) (s : State) : Host.Outcome State Fault Refusal :=
  .next (if !canTake s core ctx then s
    else
      let q := s.ctx core ctx
      match q.waiting with
      | some w => runTaken (s.updCtx core ctx (fun q => { q with waiting := none })) core ctx w.num w.desc w.compl fs w.hazard
      | none =>
        if q.untaken = 0 || 32 < q.untaken then s
        else
          let (s, bytes, marks) := s.read (slotAddr core ctx (q.done.toNat % 32)) 128
          let d := BitVec.ofNat 1024 (leNat bytes)
          let s := s.updCtx core ctx (fun q => { q with done := q.done + 1 })
          if marks.any (fun b => b) then faultCtx s core ctx .dataPoisoned
          else
            ctxSettle (runTaken s core ctx q.done d (complOf s core ctx d) fs false) core ctx)

/-! ## Replies of other nodes (R302) -/

/-- What a reply does for the request it answers. -/
def takeReply (s : State) (o : OutReq) (ans : Ans) : State :=
  match o.who with
  | .remoteOp _ _ _ => answer s o.req.origin o.req.tag ans
  | .stream c n => streamReply s c n o.num o.opCode o.req.tag ans
  | .posted =>
    match o.req.origin with
    | .inside .writer => answer s o.req.origin o.req.tag ans
    | _ => s
  | .firmware => answer s o.req.origin o.req.tag ans
  | .host tag => hostAnswer s tag ans

/-- Whether a reply belongs to the run of its unit that sent the request: the unit epoch it carries still holds (R302,
R444). -/
def replyCurrent (s : State) (o : OutReq) : Bool :=
  match o.who with
  | .host _ => true
  | _ => o.uepoch == unitEpoch s o.unit

/-- An outstanding request ends with an answer, discarded and counted when its unit has taken another epoch (R8, R302).
DEDUCED (notes/assumptions/52.md). -/
def endRequest (s : State) (num : Nat) (ans : Ans) : State :=
  match s.remote.out.find? (fun o => o.num == num) with
  | none => s
  | some o =>
    let s := { s with remote := { s.remote with out := s.remote.out.filter (fun p => p.num != num) } }
    if replyCurrent s o then takeReply s o ans else s.discard

/-- REPLY (R294, R302): the reply to a request this block sent; one that answers no outstanding request, or carries the
epoch of an earlier run of its unit, is discarded. -/
def execReply (num : Nat) (code : FC) (data : List Byte) (poison : List Bool) (s : State) :
    Host.Outcome State Fault Refusal :=
  .next (if s.form.committed then endRequest s num { code := code, data := data, poison := poison } else s)

/-- REQUEST_TIMEOUT (R294): no reply within RMO_TIMEOUT. -/
def execRequestTimeout (num : Nat) (s : State) : Host.Outcome State Fault Refusal :=
  .next (endRequest s num { code := .nodeUnreachable })

end Sys2Proof.Machine
end

