-- ==== Sys2Proof/Machine/Dictionary.lean ====
section
/-!
DEFINITION. The object dictionary: values read and written, the checks of Table 15-4, ticks, QMFN frames, events polled
(R368 to R378, R460).
-/

namespace Sys2Proof.Machine

open Sys2Proof

/-! ## Values (R368) -/

/-- The value of the selector through which an entry is addressed; 0 for an entry that has none. -/
def selOf (s : State) (n : Name) : Nat :=
  match n.loc.1 with
  | 0x6810 => s.ent .routeSelect
  | 0x7080 => s.ent .tenantSelect
  | 0x7810 => s.ent .seqSelect
  | 0x9000 => s.ent .keySelect
  | 0x9100 => s.ent .hpSelect
  | 0x9140 => s.ent .rwtSelect
  | 0xA100 => s.ent .tntSelect
  | 0xA101 => s.ent .tntSelect
  | 0xC001 => s.ent .ovlSelect
  | _ => 0

/-- The bytes of an ASCII text. -/
def ascii (t : String) : List Byte := t.toList.map (fun c => BitVec.ofNat 8 c.toNat)

/-- State code of a link (Table 14-7). -/
def LinkState.code : LinkState → Nat
  | .down => 0
  | .training => 1
  | .up => 2
  | .heldDown => 3

/-- State code of an MCC (Table 16-13). -/
def MccState.code : MccState → Nat
  | .off => 0
  | .initialising => 1
  | .up => 2
  | .down => 3

/-- State code of a Hall Pass (Table 12-2). -/
def PassState.code : PassState → Nat
  | .closed => 0
  | .opened => 1
  | .draining => 2

/-- I3C_PID (R377). -/
def i3cPid (s : State) : Nat := 0x05A3 * 2 ^ 33 + 2 ^ 32 + crc32c (natLe 8 s.fuses.identity.toNat)

/-- CRC word of the active bank of an SFU table (Table 6-9). -/
def activeCrc (s : State) (c t : Nat) : Nat := fieldAt (sfuBank s c t (activeBank s c t)) (tableSize t - 4) 4

/-- CTX_STATE of a core (Table 13-11). -/
def ctxStateWord (s : State) (c : Nat) : Nat :=
  (List.range 8).foldl (fun n x => n + (s.ctx c x).state.code * 2 ^ (4 * x)) 0

/-- Sequences that satisfy a condition. -/
def countSeqs (s : State) (f : Desc → Bool) : Nat := (s.charts.seqs.filter (fun p => f p.2)).length

/-- Values of entries that describe identity, management and the block as a whole. -/
def readBlock (s : State) (n : Name) (u k : Nat) : Option Nat :=
  match n with
  | .idStepping => some s.fuses.stepping.toNat
  | .idFwVersion => some (fwVersion s.sys.cc.active)
  | .idCoreEnableMask => some s.fuses.coreMask.toNat
  | .idIdentity => some s.fuses.identity.toNat
  | .idNode => some s.form.node.toNat
  | .idDeviceKcv => some (keyCheck s.fuses.deviceKey)
  | .idBootNonce => some s.mgmt.nonce.toNat
  | .idUptimeUs => some s.sys.uptime
  | .i3cPid => some (i3cPid s)
  | .i3cDynAddr => some s.mgmt.i3c.dyn
  | .evtNextSeq => some (s.mgmt.nextEvent % 2 ^ 32)
  | .hpState => some (bnat s.sys.hpUp)
  | .rcGen => some (s.wire u).gen.toNat
  | .rcArrived => some (s.wire u).arrived.toNat
  | .ccEpoch => some s.sys.cc.epoch.toNat
  | .rstPhase => some s.sys.phase
  | .rstReqCause => some s.sys.rstCause.value
  | .fwStagedVersion => some (fwVersion s.sys.cc.staged)
  | .rstFiltered => some s.sys.rstFiltered
  | .ckPresent => some s.sys.ckPresent.toNat
  | .traceState => some s.sys.trace.state
  | .mcRateActive => some s.sys.rateActive
  | .mcUpMask => some ((List.range 24).foldl (fun m i => if (s.mcc i).state = .up then m + 2 ^ i else m) 0)
  | .mcState => some (s.mcc u).state.code
  | .mcStackTemp => some (s.mcc u).temp
  | .mcPoisonLines => some (s.mcc u).dir.length
  | .formLevels => some (formLevels s)
  | .formHead => some (s.form.levels.getD k (0, 0, 0)).2.2.toNat
  | .formRange =>
    let r := s.form.levels.getD k (0, 0, 0)
    some (r.2.1.toNat * 65536 + r.1.toNat)
  | .routeEntry => some (Map.get s.form.routes (s.ent .routeSelect) 0).toNat
  | .linkState => some (s.port u).state.code
  | .linkPeerId => some (s.port u).peerId.toNat
  | .linkPeerPort => some (s.port u).peerPort
  | .ovlModeActive => some s.mgmt.ovl.mode
  | .ovlModelsActive => some s.mgmt.ovl.models.length
  | .ovlPending => some s.mgmt.ovl.pending.length
  | .ovlLoaded => some s.mgmt.ovl.store.length
  | .ovlState =>
    let n := s.ent .ovlSelect
    some (if !Map.has s.mgmt.ovl.store n then 0
      else if s.mgmt.ovl.mode = n || s.mgmt.ovl.models.contains n then 2 else 1)
  | .ovlVersion => some (fieldAt ((Map.get? s.mgmt.ovl.store (s.ent .ovlSelect)).getD []) 12 4)
  | _ => none

/-- Values of core and cluster entries. -/
def readUnit (s : State) (n : Name) (u k : Nat) : Option Nat :=
  match n with
  | .commonsEpoch => some (s.cluster u).commonsEpoch.toNat
  | .clusterEpoch => some (s.cluster u).epoch.toNat
  | .coreEpoch => some (s.core u).epoch.toNat
  | .sfuActiveBank => some (s.core u).sfuActive
  | .sfuTable0Crc => some (activeCrc s u 0)
  | .sfuTable1Crc => some (activeCrc s u 1)
  | .spWeightLines => some (weightLines s u).length
  | .ctxTenant => some (s.ctx u k).tenant
  | .ctxCmdCount => some (s.ctx u k).count.toNat
  | .ctxCmdDone => some (s.ctx u k).done.toNat
  | .ctxState => some (ctxStateWord s u)
  | .pgCoreAllot => some (Map.get s.sys.gov.allot u 16)
  | _ => none

/-- Values of sequence, chart and power entries. -/
def readWork (s : State) (n : Name) (u k : Nat) : Option Nat :=
  let q := s.desc (s.ent .seqSelect)
  let t := Map.get s.charts.tenants (s.ent .tenantSelect) { }
  let g := s.sys.gov
  match n with
  | .schedStep => some s.sched.step
  | .schedSeqActive => some (countSeqs s (fun d => d.state != .free))
  | .schedQueued => some (countSeqs s (fun d => d.state == .queued))
  | .tenantClass => some t.cls
  | .tenantMaxSeq => some t.maxSeq
  | .tenantTokenShare => some t.tokenShare
  | .tenantFrameQuota => some t.frameQuota
  | .tenantSeqCount => some (countSeqs s (fun d => d.state != .free && d.tenant == s.ent .tenantSelect))
  | .tenantFramesHeld => some (framesHeld s (s.ent .tenantSelect))
  | .chartNodesFree => some (nodesFree s)
  | .chartEditQueueFree => some (4096 - s.charts.editQ.length)
  | .seqPageBudget => some q.pageBudget
  | .seqEpoch => some q.epoch.toNat
  | .seqCommittedLen => some q.committedLen
  | .seqDraftLen => some q.draftLen
  | .seqChartDepth => some q.chartDepth
  | .seqPrivateFrames => some q.privateFrames
  | .seqNextPos => some q.nextPos
  | .partFramesFree => some (((Map.get? s.charts.parts u).map Part.free).getD 0)
  | .pgKappa => some (ratToF32 (s.rail k).kappa)
  | .pgRailState => some (s.rail k).state
  | .pgIGov => some (ratToF32 (s.rail k).iGov)
  | .pgIEst => some (ratToF32 (s.rail k).iEst)
  | .pgIMeas => some (ratToF32 (s.rail k).iMeas)
  | .pgB => some g.b
  | .pgSustFactor => some (ratToF32 g.f)
  | .pgOpActive => some g.opActive
  | .pgPowerW => some (ratToF32 (meanPower g.history))
  | _ => none

/-- Values of key, pass, window and per-tenant entries. -/
def readSecurity (s : State) (n : Name) (_u k : Nat) : Option Nat :=
  let q := keySlot s (keySel s)
  let h := s.pass (hpSel s)
  let w := Map.get s.remote.rwt (s.ent .rwtSelect) { }
  let tnt := fun (n : Name) => some (s.tnt n (s.ent .tntSelect) k)
  match n with
  | .keyPerm => some q.perm
  | .keyState => some q.state
  | .keyRotateAt => some q.rotateAt
  | .keyKcv => some ((q.cur.map keyCheck).getD 0)
  | .authPairsUsed => some s.mgmt.authRecs.length
  | .hpBase => some h.base
  | .hpSize => some h.size
  | .hpSource => some h.source
  | .hpRights => some h.rights
  | .hpPassState => some h.state.code
  | .hpEpoch => some h.epoch.toNat
  | .hpInflight => some h.inflight
  | .hpArrivals => some h.arrivals
  | .rwtTargetBase => some w.base
  | .rwtSize => some w.size
  | .rwtAttr => some w.attr
  | .rwtHostOff => some w.hostOff
  | .tntTokens => tnt n
  | .tntSteps => tnt n
  | .tntLessons => tnt n
  | .tntHbmBytes => tnt n
  | .tntRefusals => tnt n
  | .tntFramesPeak => tnt n
  | .tntStallCycles => tnt n
  | _ => none

/-- The number an entry reads as: what the state holds for it, else its stored value.
DEDUCED (notes/assumptions/13.md). -/
def readNum (s : State) (e : Entry) (u k : Nat) : Nat :=
  match readBlock s e.name u k with
  | some v => v
  | none => match readUnit s e.name u k with
    | some v => v
    | none => match readWork s e.name u k with
      | some v => v
      | none => match readSecurity s e.name u k with
        | some v => v
        | none => if e.acc = .rw || e.acc = .rws || e.acc = .aw then s.ent e.name u k else s.cnt e.name u k

/-- The bytes of an entry. -/
def readBytes (s : State) (e : Entry) (u k : Nat) : List Byte :=
  match e.name with
  | .idVendor => ascii "Jorenauth"
  | .idPart => ascii "QX-G2A"
  | .hpLog => (Map.get? s.remote.log k).getD (zeros 32)
  | _ => natLe e.typ.size (readNum s e u k)

/-! ## Checks 3 to 6 (R369 to R371, R460) -/

/-- OP codes of Table 15-7. -/
def opRead : Nat := 1
/-- WRITE. -/
def opWrite : Nat := 2
/-- EVENT_POLL. -/
def opPoll : Nat := 3

/-- Whether the unit of an entry's instance exists (R13, R450). -/
def unitThere (s : State) (e : Entry) (u : Nat) : Bool :=
  match e.unit with
  | .core => s.corePresent u
  | .cluster => s.clusterPresent u
  | _ => true

/-- What a request reaches: sub-index 0 of an index, or an entry with its unit and array position. -/
inductive Target where
  | count (n : Nat)
  | entry (e : Entry) (u k : Nat)
  deriving DecidableEq, Repr

/-- Check 3 for a READ or WRITE. -/
def findTarget (s : State) (index sub : Nat) : FC × Option Target :=
  if sub = 0 then
    if highestSub index = 0 then (.dictNoEntry, none)
    else match findEntry index (highestSub index) with
      | some (e, u, _) => if unitThere s e u then (.ok, some (.count (highestSub index))) else (.unitAbsent, none)
      | none => (.dictNoEntry, none)
  else match findEntry index sub with
    | none => (.dictNoEntry, none)
    | some (e, u, k) => if unitThere s e u then (.ok, some (.entry e u k)) else (.unitAbsent, none)

/-- Whether the condition of an entry's counter set holds (Table 19-1). -/
def setReadable (s : State) (e : Entry) (u : Nat) (priv : Bool) (tenant : Option (BitVec 12)) : Bool :=
  match e.ctr with
  | 0 => true
  | 1 => priv || (match tenant with
      | some t => (List.range 8).all (fun x => (s.ctx u x).tenant == t.toNat)
      | none => false)
  | 2 => priv || (match tenant with
      | some t => t.toNat == s.ent .tntSelect
      | none => false)
  | 3 => priv
  | _ => priv && headOf s != 0

/-- Check 4 for a READ (Table 15-2). -/
def readAccess (s : State) (t : Target) (priv : Bool) (tenant : Option (BitVec 12)) : FC :=
  match t with
  | .count _ => .ok
  | .entry e u _ =>
    if e.acc = .wo || e.noRead || (e.acc = .prv && !priv) || !setReadable s e u priv tenant then .accessDenied else .ok

/-- Check 4 for a WRITE; `bare` tells that it carries no trailer. Two commands name their only source (R97, R338). -/
def writeAccess (src : DictSrc) (t : Target) (bare : Bool) : FC :=
  match t with
  | .count _ => .accessDenied
  | .entry e _ _ =>
    if e.acc = .ro || e.acc = .prv then .accessDenied
    else if e.name = .rcCcArrive && src != .cc then .accessDenied
    else if e.name = .fnAssistAnswer && src != .host then .accessDenied
    else if e.acc = .aw && bare && src != .cc then .authRequired
    else .ok

/-! ## Check 8 and the effect of a write -/

/-- A write waits for its moment; an earlier one of the same entry that still waits is replaced. -/
def waitWrite (s : State) (key sel v : Nat) (w : When) : State :=
  { s with dict := { s.dict with
    pend := s.dict.pend.filter (fun p => !(p.key == key && p.sel == sel)) ++ [{ key := key, sel := sel, value := v, at_ := w }] } }

/-- An entry without behaviour of its own takes a value: its bounds, the sets it belongs to, then its moment (R371). -/
def writePlain (s : State) (e : Entry) (u k v : Nat) : FC × State :=
  let key := e.name.key u k
  let bound := boundCode (futureAt s) e u k v
  let sets := if inSets e.name then setCode s (viewWith (effAt s) key v) else .ok
  if bound != .ok then (bound, s)
  else if sets != .ok then (sets, s)
  else if (e.name = .rcMask || e.name = .rcScope) && (s.wire u).armed then (.rcBusy, s)
  else match e.at_ with
    | some w => (.ok, waitWrite s key (if e.selected then selOf s e.name else 0) v w)
    | none => (.ok, takeWrite s key v)

/-- Commands of the dictionary and entries kept outside it (check 8 and effect). `by_` is the key slot that authenticated the
write. -/
def writeCommand (s : State) (h : Hdr) (by_ : Option Nat) (n : Name) (u k v : Nat) (payload : List Byte) :
    Option (FC × State) :=
  match n with
  | .fnAssistAnswer => some (hostAssistAnswer s h.fetched v)
  | .rcCcArrive => some (ccArrive s u v)
  | .rstCmd => some (rstCommand s v)
  | .fwCmd => some (fwCommand s (by_.getD 16) v)
  | .commonsInvalidate => some (.ok, commonsBumpEpoch s u)
  | .sfuLoadCmd => some (sfuCommand s u v)
  | .ctxTenant => some (writeCtxTenant s u k v)
  | .ctxCtl => some (writeCtxCtl s u k v)
  | .enumCmd =>
    some (if v = 1 then (if s.sys.phase = 3 then (.assistUnavailable, s) else enumStart s h.peers) else enumRelease s)
  | .routeEntry => some (writeRoute s v)
  | .keyWrapped => some (writeWrapped s by_ false payload)
  | .keyNextWrapped => some (writeWrapped s by_ true payload)
  | .keyPerm => some (writeKeyPerm s by_ v)
  | .keyRotateAt => some (writeRotateAt s v)
  | .keyZeroise => some (zeroiseKey s by_)
  | .hpBase => some (writePass s (fun p => { p with base := v }))
  | .hpSize => some (writePass s (fun p => { p with size := v }))
  | .hpSource => some (writePass s (fun p => { p with source := v }))
  | .hpRights => some (writePass s (fun p => { p with rights := v }))
  | .hpCmd => some (if v = 1 then openPass s (hpSel s) else closePass s (hpSel s))
  | .rwtTargetBase => some (.ok, writeRwt s (fun w => { w with base := v }))
  | .rwtSize => some (.ok, writeRwt s (fun w => { w with size := v }))
  | .rwtAttr => some (.ok, writeRwt s (fun w => { w with attr := v }))
  | .rwtHostOff => some (.ok, writeRwt s (fun w => { w with hostOff := v }))
  | .reportCmd => some (reportCommand s)
  | .syncSet => some (syncSet s v)
  | .wfgCmd => some (wfgCommand s v)
  | .traceCtl => some (traceControl s v)
  | .ovlCmd => some (overlayCommand s h.fetched v)
  | .baseCmd => some (baseCommand s h.fetched v)
  | .pgOpSelect => some (writeOpSelect s v)
  | _ => none

/-- Checks 7 and 8 and the effect of a write whose length is right. -/
def writeEntry (s : State) (h : Hdr) (by_ : Option Nat) (e : Entry) (u k : Nat) (payload : List Byte) : FC × State :=
  let v := leNat payload
  let raw := match e.typ with
    | .bytes _ => true
    | _ => false
  let own := if raw then FC.ok else ownCode s e k v
  if own != .ok then (own, s)
  else match writeCommand s h by_ e.name u k v payload with
    | some r => r
    | none => writePlain s e u k v

/-! ## Ticks (R372) -/

/-- Rank of a source among writes of one tick. -/
def srcRank : DictSrc → Nat
  | .host => 0
  | .mgmt => 1
  | .link p => 2 + p.val
  | .cc => 26

/-- The tick of a request: a new one forgets the writes of the last. -/
def enterTick (s : State) (t : Nat) : State :=
  if s.dict.tick = t then s else { s with dict := { s.dict with tick := t, writes := [] } }

/-- Whether a higher-ranked source has written the entry in this tick. -/
def preempted (s : State) (key rank : Nat) : Bool := s.dict.writes.any (fun w => w.1 == key && w.2 < rank)

/-- The write of an entry is noted for its tick. -/
def noteWrite (s : State) (key rank : Nat) : State :=
  { s with dict := { s.dict with writes := s.dict.writes ++ [(key, rank)] } }

/-- A write through checks 7 and 8; of the writes of one tick the highest-ranked applies, and a table load that the winner's
load keeps out is the loser of that tick (R9, R163).
DEDUCED (notes/assumptions/12.md). -/
def tickedWrite (s : State) (h : Hdr) (by_ : Option Nat) (key : Nat) (e : Entry) (u k : Nat) (payload : List Byte) :
    FC × State :=
  let s := enterTick s h.tick
  let (c, s') := writeEntry s h by_ e u k payload
  if (c = .ok || c = .sfuTableBusy) && preempted s key (srcRank h.src) then (.preempted, s)
  else if c != .ok then (c, s')
  else (.ok, noteWrite s' key (srcRank h.src))

/-! ## Events polled (R378) -/

/-- An event record, 16 bytes (Table 15-9). -/
def Event.bytes (e : Event) : List Byte :=
  natLe 4 e.seq ++ natLe 2 e.code.value ++ natLe 2 (e.kind * 4096 + (if e.kind = 6 then 0 else e.index % 4096)) ++
    natLe 4 e.arg ++ natLe 4 e.time

/-- The numbers of the records that a poll from a starting number returns: up to 16, from the requested one or from the
oldest held. -/
def pollRecords (s : State) (start : Nat) : List Nat :=
  let next := s.mgmt.nextEvent
  let back := (next % 2 ^ 32 + 2 ^ 32 - start % 2 ^ 32) % 2 ^ 32
  if back = 0 || 2 ^ 31 ≤ back then []
  else
    let n := min back (min next 256)
    (List.range (min 16 n)).map (fun i => next - n + i)

/-- A poll is served: its records, and for the Management Port the end of its outstanding interrupt (R376). -/
def servePoll (s : State) (src : DictSrc) (start : Nat) : List Byte × State :=
  let ns := pollRecords s start
  let out := ns.flatMap (fun n => ((Map.get? s.mgmt.events (n % 256)).map Event.bytes).getD (zeros 16))
  let last := ns.foldl (fun m n => max m (n + 1)) 0
  let s := { s with mgmt := { s.mgmt with polledAny := max s.mgmt.polledAny last } }
  if src = .mgmt then
    let i := s.mgmt.i3c
    let s := { s with mgmt := { s.mgmt with i3c := { i with
      evtOutstanding := false, evtIbiHeld := false, polled := max i.polled last } } }
    (out, s.eventIbi)
  else (out, s)

/-! ## A frame served on this block (Table 15-4, checks 3 to 8) -/

/-- What authentication makes of a frame: its code, the slot that verified it, whether it is privileged. The Control Complex
acts for itself and is privileged. -/
def authFrame (s : State) (f : Frame) (cls : Option Nat) : FC × State × Option Nat × Bool :=
  if f.hdr.src = .cc then (.ok, s, none, true)
  else match f.hdr.trailer with
    | none => (.ok, s, none, false)
    | some t =>
      let (c, s) := verify s t f.op f.index f.sub f.payload cls
      (c, s, some t.slot.toNat, c == .ok && privileged s t)

/-- A READ or WRITE of an entry that exists. -/
def serveEntry (s : State) (f : Frame) (t : Target) : FC × List Byte × State :=
  let h := f.hdr
  let write := f.op == opWrite
  let cls := match t with
    | .entry e _ _ => if write && e.acc = .aw then some e.cls else none
    | .count _ => none
  let (auth, s, slot, priv) := authFrame s f cls
  let access := if write then writeAccess h.src t h.trailer.isNone else readAccess s t priv h.tenant
  if auth != .ok then (auth, [], s)
  else if access != .ok then (access, [], s)
  else match t with
    | .count n => if f.payload.isEmpty then (.ok, natLe 1 n, s) else (.dictType, [], s)
    | .entry e u k =>
      if write then
        if f.payload.length != e.typ.size then (.dictType, [], s)
        else
          let (c, s) := tickedWrite s h slot (ekey f.index f.sub) e u k f.payload
          (c, [], s)
      else if f.payload.isEmpty then (.ok, readBytes s e u k, s)
      else (.dictType, [], s)

/-- An EVENT_POLL: for privileged sources only. -/
def serveEvents (s : State) (f : Frame) : FC × List Byte × State :=
  let (auth, s, _, priv) := authFrame s f none
  if auth != .ok then (auth, [], s)
  else if !priv then (.accessDenied, [], s)
  else if f.payload.length != 4 then (.dictType, [], s)
  else
    let (out, s) := servePoll s f.hdr.src (leNat f.payload)
    (.ok, out, s)

/-- A frame for this block. -/
def serveLocal (s : State) (f : Frame) : FC × List Byte × State :=
  if f.op = opPoll then serveEvents s f
  else if f.op != opRead && f.op != opWrite then (.reservedNonzero, [], s)
  else match findTarget s f.index f.sub with
    | (_, some t) => serveEntry s f t
    | (c, none) => (c, [], s)

/-! ## Frames (R373 to R375) -/

/-- A number in n bytes, most significant first. -/
def bytesBe (n v : Nat) : List Byte := (natLe n v).reverse

/-- A trailer's 24 bytes (Table 15-11). -/
def trailerBytes (t : Trailer) : List Byte :=
  natLe 2 t.sender.toNat ++ natLe 1 t.slot.toNat ++ natLe 5 t.res.toNat ++ natLe 8 t.counter.toNat ++ bytesBe 8 t.tag.toNat

/-- Bytes closed by their CRC-32C. -/
def withCrc (bs : List Byte) : List Byte := bs ++ natLe 4 (crc32c bs)

/-- A request frame's bytes (Table 15-7). -/
def Frame.bytes (f : Frame) : List Byte :=
  let tenant := match f.hdr.tenant with
    | some t => 32768 + t.toNat
    | none => 0
  withCrc (natLe 1 1 ++ natLe 1 f.op ++ natLe 2 f.hdr.tid.toNat ++ natLe 2 f.hdr.dest.toNat ++ natLe 2 f.index ++
    natLe 1 f.sub ++ natLe 1 (bnat f.hdr.trailer.isSome) ++ natLe 2 f.payload.length ++ natLe 2 tenant ++ zeros 2 ++
    f.payload ++ ((f.hdr.trailer.map trailerBytes).getD []))

/-- A response frame's bytes (R373). -/
def responseBytes (s : State) (f : Frame) (c : FC) (data : List Byte) : List Byte :=
  withCrc (natLe 1 1 ++ natLe 1 (128 + f.op % 128) ++ natLe 2 f.hdr.tid.toNat ++ natLe 2 s.form.node.toNat ++
    natLe 2 f.index ++ natLe 1 f.sub ++ zeros 1 ++ natLe 2 data.length ++ natLe 2 c.value ++ zeros 2 ++ data)

/-- A request frame read from bytes, or none where check 1 drops it (R373). `env` gives what the bytes do not hold: source,
tick, and what other blocks answer. -/
def parseFrame (env : Hdr) (bs : List Byte) : Option Frame :=
  let len := fieldAt bs 10 2
  let flags := fieldAt bs 9 1
  let auth := if flags % 2 = 1 then 24 else 0
  let tenant := fieldAt bs 12 2
  if bs.length != 20 + len + auth || 256 < len || fieldAt bs 0 1 != 1 || 1 < flags || bits tenant 12 3 != 0 ||
      fieldAt bs 14 2 != 0 || crc32c (bs.take (bs.length - 4)) != fieldAt bs (bs.length - 4) 4 then none
  else
    let o := 16 + len
    let trailer : Trailer :=
      { sender := BitVec.ofNat 16 (fieldAt bs o 2), slot := BitVec.ofNat 8 (fieldAt bs (o + 2) 1),
        res := BitVec.ofNat 40 (fieldAt bs (o + 3) 5), counter := BitVec.ofNat 64 (fieldAt bs (o + 8) 8),
        tag := BitVec.ofNat 64 (leNat (slice bs (o + 16) 8).reverse) }
    some { hdr := { env with tid := BitVec.ofNat 16 (fieldAt bs 2 2), dest := BitVec.ofNat 16 (fieldAt bs 4 2),
                             tenant := if bit tenant 15 then some (BitVec.ofNat 12 tenant) else none,
                             trailer := if auth = 0 then none else some trailer },
           op := fieldAt bs 1 1, index := fieldAt bs 6 2, sub := fieldAt bs 8 1, payload := slice bs 16 len }

/-- A response goes to the source of its request. The Management Port's waits to be read, announced by an in-band interrupt
(R376); the host's is announced by interrupt vector 1 (Table 16-6) and discarded while its link is down (R401). -/
def deliverFrame (s : State) (to_ : DictSrc) (bs : List Byte) : State :=
  match to_ with
  | .mgmt =>
    let i := s.mgmt.i3c
    let s := { s with mgmt := { s.mgmt with i3c := { i with resp := some bs, respIbiHeld := !i.ibi } } }
    if i.ibi then s.emit (.ibi 0x01) else s
  | .host => if s.sys.hpUp then (s.emit (.qmfn to_ bs)).irq 1 else s
  | _ => s.emit (.qmfn to_ bs)

/-- Check 2: whether a DEST is this block (R374). -/
def forMe (s : State) (dest : Nat) : Bool := dest == 0 || (s.form.node != 0 && dest == s.form.node.toNat)

/-- A frame is served here and answered, forwarded, or answered with FC_NODE_UNREACHABLE (R374). -/
def serveFrame (s : State) (f : Frame) : State :=
  let dest := f.hdr.dest.toNat
  if forMe s dest then
    let (c, data, s) := serveLocal s f
    deliverFrame s f.hdr.src (responseBytes s f c data)
  else if !s.form.committed || (routeOf s dest).isNone then
    deliverFrame s f.hdr.src (responseBytes s f .nodeUnreachable [])
  else
    let id := s.mgmt.nextFwd
    let w : Fwd := { id := id, src := f.hdr.src, frame := f }
    ({ s with mgmt := { s.mgmt with nextFwd := id + 1, fwds := s.mgmt.fwds ++ [w] } }).emit (.qmfnFwd id dest f.bytes)

/-- Whether a source's frames wait: before phase 3, during a Control Complex restart, while the clocks change, and behind an
earlier frame of the source (R375, R434, R445, R454). -/
def framesWait (s : State) (src : DictSrc) : Bool :=
  s.sys.phase < 3 || s.sys.phase == 5 || s.sys.gov.opWaiting.isSome || s.mgmt.fwds.any (fun w => w.src == src) ||
    s.mgmt.frames.any (fun f => f.hdr.src == src)

/-- A response not yet read is lost when a new request arrives on the Management Port (R376). -/
def loseResponse (s : State) : State :=
  if s.mgmt.i3c.resp.isNone then s
  else
    let i := s.mgmt.i3c
    ({ s with mgmt := { s.mgmt with i3c := { i with resp := none, respIbiHeld := false } } }).bump .qmfnRespLost

/-- The state as an undamaged frame of a source has arrived: it is counted, and one on the Management Port loses the response
not yet read. -/
def frameIn (s : State) (src : DictSrc) : State :=
  let s := if src = .cc then s else s.bump .qmfnFramesIn
  if src = .mgmt then loseResponse s else s

/-- A frame arrives: dropped at check 1, held, refused beyond 64 held, or served (R373, R375).
DEDUCED (notes/assumptions/17.md). -/
def takeFrame (s : State) (f : Frame) : State :=
  let src := f.hdr.src
  if src = .host && !s.sys.hpUp then s
  else if f.hdr.damaged || 256 < f.payload.length then s.bump .qmfnFrameErrors
  else
    let s := frameIn s src
    if !framesWait s src then serveFrame s f
    else if src = .cc then s
    else if 64 ≤ (s.mgmt.frames.filter (fun g => g.hdr.src == src)).length then
      deliverFrame s src (responseBytes s f .assistUnavailable [])
    else { s with mgmt := { s.mgmt with frames := s.mgmt.frames ++ [f] } }

/-- Held frames are served in their order as far as nothing holds them. -/
def pumpFrames (s : State) : State :=
  s.mgmt.frames.foldl (fun s f =>
    if framesWait s f.hdr.src then { s with mgmt := { s.mgmt with frames := s.mgmt.frames ++ [f] } }
    else serveFrame s f) { s with mgmt := { s.mgmt with frames := [] } }

/-! ## Requests as rows -/

/-- A WRITE frame with a value of a number entry. -/
def writeNum (h : Hdr) (n : Name) (v : Nat) (u : Nat := 0) (k : Nat := 0) : Frame :=
  let key := n.key u k
  let size := match findEntry (key / 256) (key % 256) with
    | some (e, _, _) => e.typ.size
    | none => 0
  { hdr := h, op := opWrite, index := key / 256, sub := key % 256, payload := natLe size v }

/-- DICT_WRITE (R371): a WRITE frame. -/
def execDictWrite (h : Hdr) (index : U16) (sub : BitVec 8) (payload : List Byte) (s : State) :
    Host.Outcome State Fault Refusal :=
  .next (takeFrame s { hdr := h, op := opWrite, index := index.toNat, sub := sub.toNat, payload := payload })

/-- QMFN_READ (R373): a READ frame; a payload fails check 6. -/
def execQmfnRead (h : Hdr) (index : U16) (sub : BitVec 8) (payload : List Byte) (s : State) :
    Host.Outcome State Fault Refusal :=
  .next (takeFrame s { hdr := h, op := opRead, index := index.toNat, sub := sub.toNat, payload := payload })

/-- EVENT_POLL (R378): an EVENT_POLL frame, whose payload is the starting number. -/
def execEventPoll (h : Hdr) (payload : List Byte) (s : State) : Host.Outcome State Fault Refusal :=
  .next (takeFrame s { hdr := h, op := opPoll, index := 0, sub := 0, payload := payload })

/-- QMFN_RESPONSE (R374): the response to a frame this block forwarded goes to the frame's source; a late one is
discarded. -/
def execQmfnResponse (id : Nat) (frame : List Byte) (s : State) : Host.Outcome State Fault Refusal :=
  .next (match s.mgmt.fwds.find? (fun w => w.id == id) with
    | none => s
    | some w =>
      let s := { s with mgmt := { s.mgmt with fwds := s.mgmt.fwds.filter (fun v => v.id != id) } }
      pumpFrames (deliverFrame s w.src frame))

/-- QMFN_FWD_TIMEOUT (R374): no response within QMFN_FWD_TIMEOUT. -/
def execQmfnFwdTimeout (id : Nat) (s : State) : Host.Outcome State Fault Refusal :=
  .next (match s.mgmt.fwds.find? (fun w => w.id == id) with
    | none => s
    | some w =>
      let s := { s with mgmt := { s.mgmt with fwds := s.mgmt.fwds.filter (fun v => v.id != id) } }
      pumpFrames (deliverFrame s w.src (responseBytes s w.frame .nodeUnreachable [])))

end Sys2Proof.Machine
end

