-- ==== Sys2Proof/Machine/Management.lean ====
section
/-!
DEFINITION. The Management Port (R376, R377) and the rows that are a write of one command entry, each a WRITE frame through
the checks of Table 15-4.
-/

namespace Sys2Proof.Machine

open Sys2Proof

/-! ## The Management Port -/

/-- The port's record changed. -/
def State.updI3c (s : State) (f : I3c → I3c) : State := { s with mgmt := { s.mgmt with i3c := f s.mgmt.i3c } }

/-- Whether a 7-bit address is the target's dynamic address. -/
def addressed (s : State) (a : BitVec 7) : Bool := s.mgmt.i3c.dyn != 0 && s.mgmt.i3c.dyn == a.toNat

/-- Whether a command code reaches the target: broadcast, or directed to its dynamic address. -/
def reaches (s : State) (a : Option (BitVec 7)) : Bool :=
  match a with
  | none => true
  | some a => addressed s a

/-- An ACK or NACK of a directed command code; a broadcast gets none. -/
def ackI3c (s : State) (a : Option (BitVec 7)) (ok : Bool) : State := if a.isSome then s.emit (.i3cAck ok) else s

/-- I3C_PRIVATE_WRITE (R376): the whole frame in one private write, no longer than the maximum write length. -/
def execI3cPrivateWrite (addr : BitVec 7) (bytes : List Byte) (env : Hdr) (s : State) :
    Host.Outcome State Fault Refusal :=
  .next (if !addressed s addr then s
    else match (if s.mgmt.i3c.mwl < bytes.length then none else parseFrame { env with src := .mgmt, damaged := false } bytes) with
      | none => s.bump .qmfnFrameErrors
      | some f => takeFrame s f)

/-- I3C_PRIVATE_READ (R376): the response that is ready, or an end at the first byte. -/
def execI3cPrivateRead (addr : BitVec 7) (s : State) : Host.Outcome State Fault Refusal :=
  .next (if !addressed s addr then s
    else match s.mgmt.i3c.resp with
      | none => s.emit (.i3cData [])
      | some r =>
        (s.updI3c (fun i => { i with resp := none, respIbiHeld := false })).emit (.i3cData (r.take s.mgmt.i3c.mrl)))

/-- ENTDAA (R377): a target without dynamic address sends its PID, BCR and DCR and takes the address it is given. -/
def execEntdaa (addr : BitVec 7) (s : State) : Host.Outcome State Fault Refusal :=
  .next (if s.mgmt.i3c.dyn != 0 then s
    else (s.updI3c (fun i => { i with dyn := addr.toNat })).emit (.i3cData (bytesBe 6 (i3cPid s) ++ [0x06, 0x00])))

/-- SETDASA (R377): directed to the static address, it assigns the dynamic one to a target that has none. -/
def execSetdasa (static addr : BitVec 7) (s : State) : Host.Outcome State Fault Refusal :=
  .next (if static.toNat != s.ent .i3cStaticAddr then s
    else if s.mgmt.i3c.dyn != 0 then s.emit (.i3cAck false)
    else (s.updI3c (fun i => { i with dyn := addr.toNat })).emit (.i3cAck true))

/-- SETNEWDA (R377): the dynamic address changes. -/
def execSetnewda (addr new : BitVec 7) (s : State) : Host.Outcome State Fault Refusal :=
  .next (if !addressed s addr then s else (s.updI3c (fun i => { i with dyn := new.toNat })).emit (.i3cAck true))

/-- RSTDAA (R377): a broadcast that clears the dynamic address. -/
def execRstdaa (s : State) : Host.Outcome State Fault Refusal := .next (s.updI3c (fun i => { i with dyn := 0 }))

/-- A directed read of a target's register. -/
def readI3c (s : State) (addr : BitVec 7) (data : List Byte) : State := if addressed s addr then s.emit (.i3cData data) else s

/-- GETPID (R377). -/
def execGetpid (addr : BitVec 7) (s : State) : Host.Outcome State Fault Refusal :=
  .next (readI3c s addr (bytesBe 6 (i3cPid s)))

/-- GETBCR (R377). -/
def execGetbcr (addr : BitVec 7) (s : State) : Host.Outcome State Fault Refusal := .next (readI3c s addr [0x06])

/-- GETDCR (R377). -/
def execGetdcr (addr : BitVec 7) (s : State) : Host.Outcome State Fault Refusal := .next (readI3c s addr [0x00])

/-- Interrupts that wait to be raised. -/
def pendingIbis (s : State) : Nat := bnat s.mgmt.i3c.respIbiHeld + bnat s.mgmt.i3c.evtIbiHeld

/-- GETSTATUS (R377): the two bytes of MIPI I3C Basic, with the number of pending interrupts in bits [3:0].
PRESUMED (notes/assumptions/18.md). -/
def execGetstatus (addr : BitVec 7) (s : State) : Host.Outcome State Fault Refusal :=
  .next (readI3c s addr (bytesBe 2 (pendingIbis s)))

/-- GETMWL (R377). -/
def execGetmwl (addr : BitVec 7) (s : State) : Host.Outcome State Fault Refusal :=
  .next (readI3c s addr (bytesBe 2 s.mgmt.i3c.mwl))

/-- GETMRL (R377): the maximum read length, then the one byte of interrupt payload. -/
def execGetmrl (addr : BitVec 7) (s : State) : Host.Outcome State Fault Refusal :=
  .next (readI3c s addr (bytesBe 2 s.mgmt.i3c.mrl ++ [0x01]))

/-- The least length that SETMWL and SETMRL take. -/
def i3cLenMin : Nat := 308

/-- SETMWL (R377): below 308 it is NACKed. -/
def execSetmwl (addr : Option (BitVec 7)) (len : U16) (s : State) : Host.Outcome State Fault Refusal :=
  .next (if !reaches s addr then s
    else if len.toNat < i3cLenMin then ackI3c s addr false
    else ackI3c (s.updI3c (fun i => { i with mwl := len.toNat })) addr true)

/-- SETMRL (R377): below 308 it is NACKed. -/
def execSetmrl (addr : Option (BitVec 7)) (len : U16) (s : State) : Host.Outcome State Fault Refusal :=
  .next (if !reaches s addr then s
    else if len.toNat < i3cLenMin then ackI3c s addr false
    else ackI3c (s.updI3c (fun i => { i with mrl := len.toNat })) addr true)

/-- ENEC (R376, R377): interrupts are enabled when the events byte has bit 0 set, and those withheld are raised. -/
def execEnec (addr : Option (BitVec 7)) (events : Byte) (s : State) : Host.Outcome State Fault Refusal :=
  .next (if !reaches s addr then s
    else
      let s := ackI3c s addr true
      if !bit events.toNat 0 then s
      else
        let held := s.mgmt.i3c.respIbiHeld
        let s := s.updI3c (fun i => { i with ibi := true, respIbiHeld := false })
        (if held then s.emit (.ibi 0x01) else s).eventIbi)

/-- DISEC (R377): interrupts are disabled when the events byte has bit 0 set. -/
def execDisec (addr : Option (BitVec 7)) (events : Byte) (s : State) : Host.Outcome State Fault Refusal :=
  .next (if !reaches s addr then s
    else
      let s := ackI3c s addr true
      if bit events.toNat 0 then s.updI3c (fun i => { i with ibi := false }) else s)

/-! ## Writes of command entries -/

/-- HP_OPEN (R304): HP_CMD = 1. -/
def execHpOpen (h : Hdr) (s : State) : Host.Outcome State Fault Refusal := .next (takeFrame s (writeNum h .hpCmd 1))

/-- HP_CLOSE (R306): HP_CMD = 2. -/
def execHpClose (h : Hdr) (s : State) : Host.Outcome State Fault Refusal := .next (takeFrame s (writeNum h .hpCmd 2))

/-- RC_CC_ARRIVE (R338): the Control Complex arrives on a wire. -/
def execRcCcArrive (h : Hdr) (w : Fin 16) (gen : BitVec 8) (s : State) : Host.Outcome State Fault Refusal :=
  .next (takeFrame s (writeNum h .rcCcArrive gen.toNat w))

/-- REPORT_CMD (R344). -/
def execReportCmd (h : Hdr) (s : State) : Host.Outcome State Fault Refusal := .next (takeFrame s (writeNum h .reportCmd 1))

/-- SYNC_SET of an attendance counter (R345). -/
def execSyncSetCounter (h : Hdr) (core : BitVec 5) (counter : BitVec 8) (value : U32) (s : State) :
    Host.Outcome State Fault Refusal :=
  .next (takeFrame s (writeNum h .syncSet (value.toNat * 2 ^ 32 + core.toNat * 2 ^ 24 + counter.toNat)))

/-- SYNC_SET of an engine flag (R345). -/
def execSyncSetFlag (h : Hdr) (core : BitVec 5) (flag : BitVec 8) (value : U32) (s : State) :
    Host.Outcome State Fault Refusal :=
  .next (takeFrame s (writeNum h .syncSet (value.toNat * 2 ^ 32 + 2 ^ 29 + core.toNat * 2 ^ 24 + flag.toNat)))

/-- SYNC_SET of a Roll Call wire (R345). -/
def execSyncSetWire (h : Hdr) (core : BitVec 5) (wire : BitVec 8) (value : U32) (s : State) :
    Host.Outcome State Fault Refusal :=
  .next (takeFrame s (writeNum h .syncSet (value.toNat * 2 ^ 32 + 2 * 2 ^ 29 + core.toNat * 2 ^ 24 + wire.toNat)))

/-- COMMONS_INVALIDATE (R192). -/
def execCommonsInvalidate (h : Hdr) (cluster : Fin 4) (s : State) : Host.Outcome State Fault Refusal :=
  .next (takeFrame s (writeNum h .commonsInvalidate 1 cluster))

/-- SFU_LOAD_IMAGE (R161): SFU_LOAD_CMD 1 or 2. -/
def execSfuLoadImage (h : Hdr) (core : Fin 32) (table : Fin 2) (s : State) : Host.Outcome State Fault Refusal :=
  .next (takeFrame s (writeNum h .sfuLoadCmd (1 + table.val) core))

/-- SFU_LOAD_FACTORY (R161): SFU_LOAD_CMD 3 or 4. -/
def execSfuLoadFactory (h : Hdr) (core : Fin 32) (table : Fin 2) (s : State) : Host.Outcome State Fault Refusal :=
  .next (takeFrame s (writeNum h .sfuLoadCmd (3 + table.val) core))

/-- FN_ASSIST_ANSWER (R97): the host answers a forwarded assist request. -/
def execFnAssistAnswer (h : Hdr) (num : U32) (len16 code : U16) (s : State) : Host.Outcome State Fault Refusal :=
  .next (takeFrame s (writeNum h .fnAssistAnswer (num.toNat * 2 ^ 32 + len16.toNat * 2 ^ 16 + code.toNat)))

/-- ENUM_START (R351): ENUM_CMD = 1. -/
def execEnumStart (h : Hdr) (s : State) : Host.Outcome State Fault Refusal := .next (takeFrame s (writeNum h .enumCmd 1))

/-- ENUM_RELEASE (R352): ENUM_CMD = 2. -/
def execEnumRelease (h : Hdr) (s : State) : Host.Outcome State Fault Refusal := .next (takeFrame s (writeNum h .enumCmd 2))

/-- KEY_WRAPPED (R382): the selected slot's current key. -/
def execKeyWrapped (h : Hdr) (key : List Byte) (s : State) : Host.Outcome State Fault Refusal :=
  .next (takeFrame s { hdr := h, op := opWrite, index := 0x9000, sub := 2, payload := key })

/-- KEY_NEXT_WRAPPED (R384): the selected slot's next key. -/
def execKeyNextWrapped (h : Hdr) (key : List Byte) (s : State) : Host.Outcome State Fault Refusal :=
  .next (takeFrame s { hdr := h, op := opWrite, index := 0x9000, sub := 5, payload := key })

/-- KEY_ZEROISE (Table 15-12). -/
def execKeyZeroise (h : Hdr) (s : State) : Host.Outcome State Fault Refusal := .next (takeFrame s (writeNum h .keyZeroise 1))

/-- A write of OVL_CMD (R388). -/
def ovlFrame (h : Hdr) (op : Nat) (number : U16) : Frame := writeNum h .ovlCmd (number.toNat * 256 + op)

/-- OVL_LOAD (R387, R388). -/
def execOvlLoad (h : Hdr) (number : U16) (s : State) : Host.Outcome State Fault Refusal :=
  .next (takeFrame s (ovlFrame h 1 number))

/-- OVL_UNLOAD (R388). -/
def execOvlUnload (h : Hdr) (number : U16) (s : State) : Host.Outcome State Fault Refusal :=
  .next (takeFrame s (ovlFrame h 2 number))

/-- SET_MODE (R388). -/
def execSetMode (h : Hdr) (number : U16) (s : State) : Host.Outcome State Fault Refusal :=
  .next (takeFrame s (ovlFrame h 3 number))

/-- OVL_ACTIVATE (R388). -/
def execOvlActivate (h : Hdr) (number : U16) (s : State) : Host.Outcome State Fault Refusal :=
  .next (takeFrame s (ovlFrame h 4 number))

/-- OVL_DEACTIVATE (R388). -/
def execOvlDeactivate (h : Hdr) (number : U16) (s : State) : Host.Outcome State Fault Refusal :=
  .next (takeFrame s (ovlFrame h 5 number))

/-- BASE_APPLY (R389): BASE_CMD = 1. -/
def execBaseApply (h : Hdr) (s : State) : Host.Outcome State Fault Refusal := .next (takeFrame s (writeNum h .baseCmd 1))

/-- BASE_SAVE (R389): BASE_CMD = 2. -/
def execBaseSave (h : Hdr) (s : State) : Host.Outcome State Fault Refusal := .next (takeFrame s (writeNum h .baseCmd 2))

/-- PG_OP_SELECT (R434). -/
def execPgOpSelect (h : Hdr) (point : BitVec 8) (s : State) : Host.Outcome State Fault Refusal :=
  .next (takeFrame s (writeNum h .pgOpSelect point.toNat))

/-- UNIT code of RST_CMD (Table 18-5). -/
def rstUnitCode : RstUnit → Nat
  | .core => 0
  | .cluster => 1
  | .cc => 2
  | .block => 3
  | .reserved v => 4 + v.val

/-- A write of RST_CMD (R449). -/
def rstFrame (h : Hdr) (op : Nat) (unit : RstUnit) (index : BitVec 6) : Frame :=
  writeNum h .rstCmd (index.toNat * 2 ^ 16 + rstUnitCode unit * 2 ^ 8 + op)

/-- QUIESCE_RESET (R450): OP 1. -/
def execQuiesceReset (h : Hdr) (unit : RstUnit) (index : BitVec 6) (s : State) : Host.Outcome State Fault Refusal :=
  .next (takeFrame s (rstFrame h 1 unit index))

/-- FORCE_RESET (R451): OP 2. -/
def execForceReset (h : Hdr) (unit : RstUnit) (index : BitVec 6) (s : State) : Host.Outcome State Fault Refusal :=
  .next (takeFrame s (rstFrame h 2 unit index))

/-- GATE (R450): OP 3. -/
def execGate (h : Hdr) (unit : RstUnit) (index : BitVec 6) (s : State) : Host.Outcome State Fault Refusal :=
  .next (takeFrame s (rstFrame h 3 unit index))

/-- UNGATE (R450): OP 4. -/
def execUngate (h : Hdr) (unit : RstUnit) (index : BitVec 6) (s : State) : Host.Outcome State Fault Refusal :=
  .next (takeFrame s (rstFrame h 4 unit index))

/-- CTX_RESUME (R439): CTX_CTL = 1. -/
def execCtxResume (h : Hdr) (core : Fin 32) (ctx : Fin 8) (s : State) : Host.Outcome State Fault Refusal :=
  .next (takeFrame s (writeNum h .ctxCtl 1 core ctx))

/-- CTX_SKIP (R439): CTX_CTL = 2. -/
def execCtxSkip (h : Hdr) (core : Fin 32) (ctx : Fin 8) (s : State) : Host.Outcome State Fault Refusal :=
  .next (takeFrame s (writeNum h .ctxCtl 2 core ctx))

/-- FW_STAGE (R456): FW_CMD = 1. -/
def execFwStage (h : Hdr) (s : State) : Host.Outcome State Fault Refusal := .next (takeFrame s (writeNum h .fwCmd 1))

/-- FW_ACTIVATE (R457): FW_CMD = 2. -/
def execFwActivate (h : Hdr) (s : State) : Host.Outcome State Fault Refusal := .next (takeFrame s (writeNum h .fwCmd 2))

/-- WFG_BLOCK (R468): WFG_CMD = 1. -/
def execWfgBlock (h : Hdr) (s : State) : Host.Outcome State Fault Refusal := .next (takeFrame s (writeNum h .wfgCmd 1))

/-- WFG_FORM (R468): WFG_CMD = 2. -/
def execWfgForm (h : Hdr) (s : State) : Host.Outcome State Fault Refusal := .next (takeFrame s (writeNum h .wfgCmd 2))

/-- TRACE_CTL (R465). -/
def execTraceCtl (h : Hdr) (value : Byte) (s : State) : Host.Outcome State Fault Refusal :=
  .next (takeFrame s (writeNum h .traceCtl value.toNat))

end Sys2Proof.Machine
end

