-- ==== Sys2Proof/Machine/Boot.lean ====
section
/-!
DEFINITION. The host link, clocks that are lost and return (R394, R395, R401), the block reset and the phases of
power-on (R398, R443 to R447), and the ends of a Control Complex restart (R454 to R457).
-/

namespace Sys2Proof.Machine

open Sys2Proof

/-! ## Host link (R401) -/

/-- Whether a clock shows edges (CK_PRESENT, Table 16-15). -/
def clockUp (s : State) (k : Nat) : Bool := s.sys.ckPresent.getLsbD k

/-- `hp_link_up` falls: what was forwarded to the host ends, and nothing more reaches it (R97, R401). -/
def hostDown (s : State) : State :=
  dropHostAssists { s with sys := { s.sys with hpUp := false } }

/-- HP_LINK_UP (R401): HP_STATE becomes 1, and requests that wait for the host are forwarded. While `ck_hp` is lost the link
counts as low (R395). -/
def execHpLinkUp (s : State) : Host.Outcome State Fault Refusal :=
  .next (if !clockUp s 3 then s else forwardAssists { s with sys := { s.sys with hpUp := true } })

/-- HP_LINK_DOWN (R401): HP_STATE becomes 0. -/
def execHpLinkDown (s : State) : Host.Outcome State Fault Refusal :=
  .next (hostDown s)

/-! ## Clocks (R394, R395) -/

/-- What the loss of clock k does beside its report (Table 16-3).
DEDUCED (notes/assumptions/19.md). -/
def clockAction (s : State) (k : Nat) : State :=
  if k < 3 then lowerReq { s with sys := { s.sys with issueStopped := true } } .clockLoss
  else if k = 3 then hostDown s
  else if k = 4 then
    lowerReq (s.updGov (fun g =>
      { g with b := 0, bUnclipped := 0, allot := (List.range 32).map (fun c => (c, 0)) })) .clockLoss
  else if k < 32 then
    let st := (s.mcc (k - 8)).state
    if st = .up || st = .initialising then mccDown s (k - 8) 4 else s
  else portDown s (k - 32)

/-- CLOCK_LOSS (R395): clock k of Table 16-15 shows no edge for 1 µs. -/
def execClockLoss (k : Fin 64) (s : State) : Host.Outcome State Fault Refusal :=
  .next (if !clockUp s k.val then s
    else
      let s := { s with sys := { s.sys with ckPresent := s.sys.ckPresent &&& ~~~ (1#64 <<< k.val) } }
      clockAction ((s.bump .ckLossEvents).raise .clockLoss 0 0 k.val) k.val)

/-- CLOCK_RETURN (R395): clock k shows edges again. -/
def execClockReturn (k : Fin 64) (s : State) : Host.Outcome State Fault Refusal :=
  .next { s with sys := { s.sys with ckPresent := s.sys.ckPresent ||| (clockBits &&& (1#64 <<< k.val)) } }

/-- CK_HOLD_ACK (R394, R434): `ck_hold_ack` has risen and fallen. The boundary goes on at the new operating point, with the
bytes `fs` that its action 5 reads from other nodes. -/
def execCkHoldAck (fs : List Fetched) (s : State) : Host.Outcome State Fault Refusal :=
  .next (pumpFrames (pointChanged s fs))

/-! ## Block reset and power-on (R398, R443, R445, R446) -/

/-- The block under reset (Table 18-3): everything at its reset value but what is fused, RST_FILTERED, RST_REQ_CAUSE and the
levels of input pins; the boot nonce is new, and the data rate written takes effect (Table 16-14).
DEDUCED (notes/assumptions/20.md), DEDUCED (notes/assumptions/22.md). -/
def blockReset (s : State) : State :=
  let f := State.fresh s.fuses (Config.bootNonce s.free)
  let sys := f.sys
  { f with
    pending := s.pending, outbox := s.outbox, free := s.free + 1
    sys := { sys with
      hpUp := s.sys.hpUp, ckPresent := s.sys.ckPresent, rstFiltered := s.sys.rstFiltered, rstCause := s.sys.rstCause
      linkSeen := s.outbox.length, rateActive := s.ent .mcDataRate, tap := s.sys.tap } }

/-- BLOCK_RESET (R398): `rst_block_n` was low for a number of `ck_mgmt` cycles; fewer than 100 are filtered and
counted.
DEDUCED (notes/assumptions/82.md). -/
def execBlockReset (cycles : Nat) (s : State) : Host.Outcome State Fault Refusal :=
  .next (if cycles < 100 then { s with sys := { s.sys with rstFiltered := min (s.sys.rstFiltered + 1) 0xFFFFFFFF } }
    else blockReset s)

/-- Whether every MCC is up or down (Table 18-4). -/
def memorySettled (s : State) : Bool :=
  (List.range 24).all (fun n => (s.mcc n).state == .up || (s.mcc n).state == .down)

/-- BOOT_ROM_READY (R445, R446): the boot ROM serves, at power-on once every MCC is up or down, and after a Control Complex
restart that finds no firmware image to run. -/
def execBootRomReady (s : State) : Host.Outcome State Fault Refusal :=
  .next (if (s.sys.phase = 2 && memorySettled s) || (s.sys.phase = 5 && s.sys.cc.active.isEmpty) then
      let s := s.updCc (fun c => { c with restarting := false, activating := false, wdtRestart := false })
      cardPump (pumpFrames (ccRun { s with sys := { s.sys with phase := 3 } } .bootRom))
    else s)

/-! ## A restart of the Control Complex ends, or does not (R454, R455, R457) -/

/-- FW_READY (R446, R454): the firmware of the active image reports ready. Held frames, assists and Report Cards follow. -/
def execFwReady (s : State) : Host.Outcome State Fault Refusal :=
  .next (if s.sys.phase != 5 || s.sys.cc.active.isEmpty then s
    else
      let now := s.sys.uptime
      let s := (l2Read s l2Active s.sys.cc.active.length).1
      let s := s.updCc (fun c =>
        { c with restarting := false, activating := false, wdtRestart := false, wdtWindow := c.wdtWindow || c.wdtRestart
                 restartEnd := if c.wdtRestart then now else c.restartEnd })
      cardPump (forwardAssists (pumpFrames (ccRun { s with sys := { s.sys with phase := 4 } } .firmware))))

/-- CC_RESTART_TIMEOUT (R454, R457): the firmware is not ready within 1 s. A new image is swapped back; a restart that was
no activation asks for a block reset. -/
def execCcRestartTimeout (s : State) : Host.Outcome State Fault Refusal :=
  .next (if !s.sys.cc.restarting then s
    else if s.sys.cc.activating then
      let s := s.updCc (fun c => { swapImages c with activating := false })
      resetCc ((s.setCnt .fwStatus FC.fwInvalid.value).raise .fwInvalid)
    else requestReset s .ccWatchdog)

/-- CC_WATCHDOG (R447, R455): the watchdog of a Control Complex core that runs firmware expires. A second expiry within 1 s
after the restart of the first has ended is fatal.
DEDUCED (notes/assumptions/23.md). -/
def execCcWatchdog (s : State) : Host.Outcome State Fault Refusal :=
  .next (if s.sys.phase < 4 || !s.sys.cc.harts.any (fun h => h == .starting || h == .firmware) then s
    else
      let fatal := s.sys.cc.wdtWindow && s.sys.phase == 4 && s.sys.uptime ≤ s.sys.cc.restartEnd + 1000000
      let s := (s.raise .ccWatchdog).bump .ccWdtExpiries
      let s := if fatal then lowerReq s .ccWatchdog else s
      resetCc (s.updCc (fun c => { c with wdtRestart := true, wdtWindow := false })))

/-! ## A microsecond passes -/

/-- A core's own cycle counters after n cycles of `ck_core` (R169, R335). -/
def coreTick (n : Nat) (k : Core) : Core :=
  { k with
    ttCycle := if k.inReset then 0 else k.ttCycle + n
    quietCycles := if k.ctxs.any (fun p => p.2.state == .running) then 0 else k.quietCycles + n }

/-- What the block does while no command waits (notes/assumptions/5.md): one microsecond passes. The domains that reset held
are released, the counters of running clocks and of cores in Recess (R336) advance, and the link ports send what waits.
DESIGN CHOICE (notes/assumptions/75.md). -/
def idle (s : State) : State :=
  let s := releaseDomains s
  let n := coreMHz s
  let s := if !clockUp s 0 then s
    else
      s.presentCores.foldl (fun s c =>
          let s := (s.updCore c (coreTick n)).bump .coreCycles c 0 n
          if (s.core c).recess then s.bump .recessCycles c 0 n else s)
        { s with sys := { s.sys with coreCycles := s.sys.coreCycles + n } }
  let s := if !clockUp s 4 then s
    else { s with sys := { s.sys with uptime := s.sys.uptime + 1, mgmtCycles := s.sys.mgmtCycles + 100 } }
  linkPump s

end Sys2Proof.Machine
end

