-- ==== Sys2Proof/Machine/Dispatch.lean ====
section
/-!
DEFINITION. What a command does to everything but the queue: one arm per row of spec/opcode_table.json.
-/

namespace Sys2Proof.Machine

open Sys2Proof

/-- The effect of a command. -/
def exec (i : Instr) (s : State) : Host.Outcome State Fault Refusal :=
  match i with
  | .extend h a => Sys2Proof.Machine.execExtend h a s
  | .attach h src b => Sys2Proof.Machine.execAttach h src b s
  | .cow h a => Sys2Proof.Machine.execCow h a s
  | .grow h a => Sys2Proof.Machine.execGrow h a s
  | .setEntry h a b => Sys2Proof.Machine.execSetEntry h a b s
  | .remap h a b c => Sys2Proof.Machine.execRemap h a b c s
  | .truncate h a => Sys2Proof.Machine.execTruncate h a s
  | .release h => Sys2Proof.Machine.execRelease h s
  | .draftCommit h a => Sys2Proof.Machine.execDraftCommit h a s
  | .draftRollback h => Sys2Proof.Machine.execDraftRollback h s
  | .evict h a => Sys2Proof.Machine.execEvict h a s
  | .forceRelease h => Sys2Proof.Machine.execForceRelease h s
  | .forceReleaseFree seq => Sys2Proof.Machine.execForceReleaseFree seq s
  | .heldCommit seq => Sys2Proof.Machine.execHeldCommit seq s
  | .evictJobDone seq => Sys2Proof.Machine.execEvictJobDone seq s
  | .sharedFrameInvalidated part frame => Sys2Proof.Machine.execSharedFrameInvalidated part frame s
  | .admitSeq h a b c d => Sys2Proof.Machine.execAdmit h a b c d s
  | .append h a b c => Sys2Proof.Machine.execAppend h a b c s
  | .suspend h => Sys2Proof.Machine.execSuspend h s
  | .resume h => Sys2Proof.Machine.execResume h s
  | .retire h => Sys2Proof.Machine.execRetire h s
  | .repLoad h a b => Sys2Proof.Machine.execRepLoad h a b s
  | .escClear h a b => Sys2Proof.Machine.execEscClear h a b s
  | .stepBoundary fs => Sys2Proof.Machine.execStepBoundary fs s
  | .stepRetry fs => Sys2Proof.Machine.execStepRetry fs s
  | .fill core ctx num d => Sys2Proof.Machine.execFill core ctx num d s
  | .copy core ctx num d => Sys2Proof.Machine.execCopy core ctx num d s
  | .msCmpcnt core ctx num d => Sys2Proof.Machine.execMsCmpcnt core ctx num d s
  | .put r => Sys2Proof.Machine.execPut r s
  | .get r => Sys2Proof.Machine.execGet r s
  | .cput r => Sys2Proof.Machine.execCput r s
  | .add r => Sys2Proof.Machine.execAdd r s
  | .max r => Sys2Proof.Machine.execMax r s
  | .cmpcnt r => Sys2Proof.Machine.execCmpcnt r s
  | .suQueueApply core cycle => Sys2Proof.Machine.execSuQueueApply core cycle s
  | .countedIncrement n => Sys2Proof.Machine.execCountedIncrement n s
  | .remoteOperationCommand core ctx num d => Sys2Proof.Machine.execRemoteOperationCommand core ctx num d s
  | .reply num code data poison => Sys2Proof.Machine.execReply num code data poison s
  | .requestTimeout num => Sys2Proof.Machine.execRequestTimeout num s
  | .seqGapTimeout node stream => Sys2Proof.Machine.execSeqGapTimeout node stream s
  | .commandCounted core ctx => Sys2Proof.Machine.execCommandCounted core ctx s
  | .cmdTake core ctx fs => Sys2Proof.Machine.execCmdTake core ctx fs s
  | .lesson core ctx num d fs => Sys2Proof.Machine.execLesson core ctx num d fs s
  | .attend core ctx num d fs => Sys2Proof.Machine.execAttend core ctx num d fs s
  | .ringLoad core ctx num d fs => Sys2Proof.Machine.execRingLoad core ctx num d fs s
  | .actGrad core ctx num d fs => Sys2Proof.Machine.execActGrad core ctx num d fs s
  | .gateGrad core ctx num d fs => Sys2Proof.Machine.execGateGrad core ctx num d fs s
  | .normGrad core ctx num d fs => Sys2Proof.Machine.execNormGrad core ctx num d fs s
  | .attGrad core ctx num d fs => Sys2Proof.Machine.execAttGrad core ctx num d fs s
  | .update core ctx num d fs => Sys2Proof.Machine.execUpdate core ctx num d fs s
  | .tileRelease core vArray bad => Sys2Proof.Machine.execTileRelease core vArray bad s
  | .secondSweep core lesson m => Sys2Proof.Machine.execSecondSweep core lesson m s
  | .splitCombine core lesson => Sys2Proof.Machine.execSplitCombine core lesson s
  | .attendCombine core lesson => Sys2Proof.Machine.execAttendCombine core lesson s
  | .lessonRetire core lesson => Sys2Proof.Machine.execLessonRetire core lesson s
  | .contextSwitch core vArray x y steps => Sys2Proof.Machine.execContextSwitch core vArray x y steps s
  | .recessEntry core => Sys2Proof.Machine.execRecessEntry core s
  | .streamArm core lesson stage => Sys2Proof.Machine.execStreamArm core lesson stage s
  | .endProgram core stream => Sys2Proof.Machine.execEnd core stream s
  | .loop core stream => Sys2Proof.Machine.execLoop core stream s
  | .endl core stream => Sys2Proof.Machine.execEndl core stream s
  | .hloop core stream => Sys2Proof.Machine.execHloop core stream s
  | .seta core stream => Sys2Proof.Machine.execSeta core stream s
  | .adda core stream => Sys2Proof.Machine.execAdda core stream s
  | .setd core stream => Sys2Proof.Machine.execSetd core stream s
  | .walk core stream => Sys2Proof.Machine.execWalk core stream s
  | .emit core stream => Sys2Proof.Machine.execEmit core stream s
  | .mark core stream => Sys2Proof.Machine.execMark core stream s
  | .wait core stream => Sys2Proof.Machine.execWait core stream s
  | .streamEnd core stream => Sys2Proof.Machine.execStreamEnd core stream s
  | .multicastRequest core ctx stream mask addr len off ctr weight cache => Sys2Proof.Machine.execMulticastRequest core ctx stream mask addr len off ctr weight cache s
  | .multicastLanded n => Sys2Proof.Machine.execMulticastLanded n s
  | .ringPass core lesson => Sys2Proof.Machine.execRingPass core lesson s
  | .ringPassComplete core rep layer => Sys2Proof.Machine.execRingPassComplete core rep layer s
  | .weightRefetch core line => Sys2Proof.Machine.execWeightRefetch core line s
  | .scrubVisit core => Sys2Proof.Machine.execScrubVisit core s
  | .commonsInvalidate h cluster => Sys2Proof.Machine.execCommonsInvalidate h cluster s
  | .sfuLoadImage h core table => Sys2Proof.Machine.execSfuLoadImage h core table s
  | .sfuLoadFactory h core table => Sys2Proof.Machine.execSfuLoadFactory h core table s
  | .sfuLoadComplete core table => Sys2Proof.Machine.execSfuLoadComplete core table s
  | .assistAnswer num code data fs => Sys2Proof.Machine.execAssistAnswer num code data fs s
  | .fnAssistAnswer h num len16 code => Sys2Proof.Machine.execFnAssistAnswer h num len16 code s
  | .assistTimeout num fs => Sys2Proof.Machine.execAssistTimeout num fs s
  | .hpOpen h => Sys2Proof.Machine.execHpOpen h s
  | .hpClose h => Sys2Proof.Machine.execHpClose h s
  | .hpDrained p => Sys2Proof.Machine.execHpDrained p s
  | .rcArm core ctx stream w record => Sys2Proof.Machine.execRcArm core ctx stream w record s
  | .rcCcArrive h w gen => Sys2Proof.Machine.execRcCcArrive h w gen s
  | .rcExternalArrive w cycles => Sys2Proof.Machine.execRcExternalArrive w cycles s
  | .rcComplete w => Sys2Proof.Machine.execRcComplete w s
  | .rcTimeout w => Sys2Proof.Machine.execRcTimeout w s
  | .syncArrive w gen node => Sys2Proof.Machine.execSyncArrive w gen node s
  | .syncRelease w gen => Sys2Proof.Machine.execSyncRelease w gen s
  | .stepDone node step empty fs => Sys2Proof.Machine.execStepDone node step empty fs s
  | .stepGo step empty fs => Sys2Proof.Machine.execStepGo step empty fs s
  | .wake fs => Sys2Proof.Machine.execWake fs s
  | .heartbeat node => Sys2Proof.Machine.execHeartbeat node s
  | .heartbeatTimer => Sys2Proof.Machine.execHeartbeatTimer s
  | .memberLost node fs => Sys2Proof.Machine.execMemberLost node fs s
  | .memberLostMessage lo hi fs => Sys2Proof.Machine.execMemberLostMessage lo hi fs s
  | .headLost => Sys2Proof.Machine.execHeadLost s
  | .reportCmd h => Sys2Proof.Machine.execReportCmd h s
  | .reportCardLanded => Sys2Proof.Machine.execReportCardLanded s
  | .syncSetCounter h core counter value => Sys2Proof.Machine.execSyncSetCounter h core counter value s
  | .syncSetFlag h core flag value => Sys2Proof.Machine.execSyncSetFlag h core flag value s
  | .syncSetWire h core wire value => Sys2Proof.Machine.execSyncSetWire h core wire value s
  | .hello port identity peerPort role req rsp sync mgmt => Sys2Proof.Machine.execHello port identity peerPort role req rsp sync mgmt s
  | .enumStart h => Sys2Proof.Machine.execEnumStart h s
  | .enumRelease h => Sys2Proof.Machine.execEnumRelease h s
  | .enumAssign a tagOk => Sys2Proof.Machine.execEnumAssign a tagOk s
  | .enumCommit => Sys2Proof.Machine.execEnumCommit s
  | .flitReceive port f => Sys2Proof.Machine.execFlitReceive port f s
  | .linkAckTimer port => Sys2Proof.Machine.execLinkAckTimer port s
  | .linkDown port phyUp => Sys2Proof.Machine.execLinkDown port phyUp s
  | .linkUp port => Sys2Proof.Machine.execLinkUp port s
  | .qmfnRead h index sub payload => Sys2Proof.Machine.execQmfnRead h index sub payload s
  | .dictWrite h index sub payload => Sys2Proof.Machine.execDictWrite h index sub payload s
  | .eventPoll h payload => Sys2Proof.Machine.execEventPoll h payload s
  | .qmfnFwdTimeout id => Sys2Proof.Machine.execQmfnFwdTimeout id s
  | .i3cPrivateWrite addr bytes env => Sys2Proof.Machine.execI3cPrivateWrite addr bytes env s
  | .i3cPrivateRead addr => Sys2Proof.Machine.execI3cPrivateRead addr s
  | .entdaa addr => Sys2Proof.Machine.execEntdaa addr s
  | .setdasa static addr => Sys2Proof.Machine.execSetdasa static addr s
  | .setnewda addr new => Sys2Proof.Machine.execSetnewda addr new s
  | .rstdaa => Sys2Proof.Machine.execRstdaa s
  | .getpid addr => Sys2Proof.Machine.execGetpid addr s
  | .getbcr addr => Sys2Proof.Machine.execGetbcr addr s
  | .getdcr addr => Sys2Proof.Machine.execGetdcr addr s
  | .getstatus addr => Sys2Proof.Machine.execGetstatus addr s
  | .getmwl addr => Sys2Proof.Machine.execGetmwl addr s
  | .getmrl addr => Sys2Proof.Machine.execGetmrl addr s
  | .setmwl addr len => Sys2Proof.Machine.execSetmwl addr len s
  | .setmrl addr len => Sys2Proof.Machine.execSetmrl addr len s
  | .enec addr events => Sys2Proof.Machine.execEnec addr events s
  | .disec addr events => Sys2Proof.Machine.execDisec addr events s
  | .keyWrapped h key => Sys2Proof.Machine.execKeyWrapped h key s
  | .keyNextWrapped h key => Sys2Proof.Machine.execKeyNextWrapped h key s
  | .keyZeroise h => Sys2Proof.Machine.execKeyZeroise h s
  | .keyRotation slot => Sys2Proof.Machine.execKeyRotation slot s
  | .ovlLoad h number => Sys2Proof.Machine.execOvlLoad h number s
  | .ovlUnload h number => Sys2Proof.Machine.execOvlUnload h number s
  | .setMode h number => Sys2Proof.Machine.execSetMode h number s
  | .ovlActivate h number => Sys2Proof.Machine.execOvlActivate h number s
  | .ovlDeactivate h number => Sys2Proof.Machine.execOvlDeactivate h number s
  | .baseApply h => Sys2Proof.Machine.execBaseApply h s
  | .baseSave h => Sys2Proof.Machine.execBaseSave h s
  | .hostMwr off data poison => Sys2Proof.Machine.execHostMwr off data poison s
  | .hostMrd tag rid off len => Sys2Proof.Machine.execHostMrd tag rid off len s
  | .hostFadd tag rid off fa64 len operand poison => Sys2Proof.Machine.execHostFadd tag rid off fa64 len operand poison s
  | .hostAtomicOther tag rid => Sys2Proof.Machine.execHostAtomicOther tag rid s
  | .hpLinkDown => Sys2Proof.Machine.execHpLinkDown s
  | .mccUp n => Sys2Proof.Machine.execMccUp n s
  | .mccDown n cause => Sys2Proof.Machine.execMccDown n cause s
  | .mcTempRead n temp => Sys2Proof.Machine.execMcTempRead n temp s
  | .clockLoss k => Sys2Proof.Machine.execClockLoss k s
  | .clockReturn k => Sys2Proof.Machine.execClockReturn k s
  | .periodBoundary events => Sys2Proof.Machine.execPeriodBoundary events s
  | .telemetrySample rail cur v err => Sys2Proof.Machine.execTelemetrySample rail cur v err s
  | .telemetryInvalid rail => Sys2Proof.Machine.execTelemetryInvalid rail s
  | .alertAssert cycles => Sys2Proof.Machine.execAlertAssert cycles s
  | .alertDeassert held => Sys2Proof.Machine.execAlertDeassert held s
  | .alertStuck => Sys2Proof.Machine.execAlertStuck s
  | .alertChatter edges => Sys2Proof.Machine.execAlertChatter edges s
  | .pgOpSelect h point => Sys2Proof.Machine.execPgOpSelect h point s
  | .ckHoldAck fs => Sys2Proof.Machine.execCkHoldAck fs s
  | .opTimeout => Sys2Proof.Machine.execOpTimeout s
  | .blockReset cycles => Sys2Proof.Machine.execBlockReset cycles s
  | .scratchpadClearDone => Sys2Proof.Machine.execScratchpadClearDone s
  | .bootRomReady => Sys2Proof.Machine.execBootRomReady s
  | .quiesceReset h unit index => Sys2Proof.Machine.execQuiesceReset h unit index s
  | .forceReset h unit index => Sys2Proof.Machine.execForceReset h unit index s
  | .gate h unit index => Sys2Proof.Machine.execGate h unit index s
  | .ungate h unit index => Sys2Proof.Machine.execUngate h unit index s
  | .unitQuiet cluster index => Sys2Proof.Machine.execUnitQuiet cluster index s
  | .quiesceTimeout cluster index => Sys2Proof.Machine.execQuiesceTimeout cluster index s
  | .coreRelease core => Sys2Proof.Machine.execCoreRelease core s
  | .ctxResume h core ctx => Sys2Proof.Machine.execCtxResume h core ctx s
  | .ctxSkip h core ctx => Sys2Proof.Machine.execCtxSkip h core ctx s
  | .fwStage h => Sys2Proof.Machine.execFwStage h s
  | .fwActivate h => Sys2Proof.Machine.execFwActivate h s
  | .fwReady => Sys2Proof.Machine.execFwReady s
  | .ccRestartTimeout => Sys2Proof.Machine.execCcRestartTimeout s
  | .ccWatchdog => Sys2Proof.Machine.execCcWatchdog s
  | .wfgBlock h => Sys2Proof.Machine.execWfgBlock h s
  | .wfgForm h => Sys2Proof.Machine.execWfgForm h s
  | .wfgDone cards => Sys2Proof.Machine.execWfgDone cards s
  | .traceCtl h value => Sys2Proof.Machine.execTraceCtl h value s
  | .aggRun members => Sys2Proof.Machine.execAggRun members s
  | .hpLinkUp => Sys2Proof.Machine.execHpLinkUp s
  | .qmfnResponse id frame => Sys2Proof.Machine.execQmfnResponse id frame s
  | .fwStageComplete fs => Sys2Proof.Machine.execFwStageComplete fs s
  | .msuCommandEnd core => Sys2Proof.Machine.execMsuCommandEnd core s

end Sys2Proof.Machine
end

