-- ==== Sys2Proof/Safety.lean ====
section
/-!
DEFINITION. What a safe run is, in the terms the claims use: every command takes a next state, and memory keeps its
canonical form, in which equal memories are equal lists.
-/

namespace Sys2Proof.Machine

/-- The command takes effect: a next state, no fault, no refusal. -/
def Completes (c : Instr) (s : State) : Prop := ∃ t, exec c s = .next t

/-- Memory is in its canonical form. -/
def State.MemoryCanonical (s : State) : Prop := Memory.wf s.mem = true

/-- A safe state: memory canonical, and a step goes on. -/
def State.Safe (s : State) : Prop := s.MemoryCanonical ∧ ∃ t, step s = .next t

/-- Commands by which a step boundary can be taken, so that SCHED_STEP can change (R86), and BLOCK_RESET. -/
def mayEndStep (c : Instr) : Bool :=
  match c with
  | .stepBoundary .. => true
  | .stepDone .. => true
  | .stepGo .. => true
  | .memberLost .. => true
  | .memberLostMessage .. => true
  | .blockReset .. => true
  | _ => false

/-- The command at the front of the queue is a BLOCK_RESET that is not filtered (R398). -/
def State.resetsNow (s : State) : Prop := ∃ n, 100 ≤ n ∧ s.pending.head? = some (.blockReset n)

/-- Before the domains leave reset no memory channel controller has begun (Table 18-4). -/
def State.MccQuiet (s : State) : Prop := s.sys.phase = 1 → ∀ n, (s.mcc n).state = .off

/-- An edit can enter the queue of edits (R56). -/
def EditTaken (s : State) (h : EditHdr) : Prop :=
  s.charts.editQ.length < 4096 ∧ (s.desc h.seq.toNat).state ≠ .free

/-- Edits are applied by hardware (R71). -/
def EditsByHardware (s : State) (h : EditHdr) : Prop := s.ent .fnModeChartEdit = 0 ∨ h.src = .internal

/-- The state with an edit at the end of the queue. -/
def withEdit (s : State) (h : EditHdr) (op : EditOp) : State :=
  { s with charts := { s.charts with
    nextEdit := s.charts.nextEdit + 1
    editQ := s.charts.editQ ++ [{ id := s.charts.nextEdit, hdr := h, op := op }] } }

/-- The state with the edit of an identifier marked as applied: it waits for the next commit (R63). -/
def editWaits (s : State) (id : Nat) : State :=
  { s with charts := { s.charts with
    editQ := s.charts.editQ.map (fun e => if e.id == id then { e with applied := true } else e) } }

/-- The shadow of a sequence has changed since the last commit. -/
def shadowDirty (s : State) (n : Nat) : State := s.updPend n (fun p => { p with dirty := true })


/-- An address of plain bytes: neither a command window nor a counter block (Table 1-6). -/
def PlainAt (s : State) (a : Nat) : Prop :=
  (∀ c x, regionAt s a ≠ .window c x) ∧ ∀ c, regionAt s a ≠ .counters c

/-- A frame is served as it arrives: undamaged, of a payload of at most 256 bytes, its source's link up, nothing that holds
the source's frames, and DEST this block (checks 1 and 2 of Table 15-4, R375). -/
def ServedAtOnce (s : State) (f : Frame) : Prop :=
  (f.hdr.src = .host → s.sys.hpUp = true) ∧ f.hdr.damaged = false ∧
    framesWait (frameIn s f.hdr.src) f.hdr.src = false ∧ forMe (frameIn s f.hdr.src) f.hdr.dest.toNat = true ∧
    f.payload.length ≤ 256

/-- A WRITE frame reaches the command entry n of unit u, array position k, with value v: it is served at once and passes
checks 3 to 7 of Table 15-4, and no higher-ranked source wrote the entry in the tick. `slot` is the key slot that verified it
and t the state in which the command acts. -/
def CommandReaches (s : State) (f : Frame) (n : Name) (u k v : Nat) (slot : Option Nat) (t : State) : Prop :=
  ServedAtOnce s f ∧ f.op = opWrite ∧ ∃ (e : Entry) (r : State) (priv : Bool),
    findTarget (frameIn s f.hdr.src) f.index f.sub = (.ok, some (.entry e u k)) ∧ e.name = n ∧
    authFrame (frameIn s f.hdr.src) f (if e.acc = .aw then some e.cls else none) = (.ok, r, slot, priv) ∧
    writeAccess f.hdr.src (.entry e u k) f.hdr.trailer.isNone = .ok ∧ f.payload.length = e.typ.size ∧
    leNat f.payload = v ∧ t = enterTick r f.hdr.tick ∧ ((∃ m, e.typ = .bytes m) ∨ ownCode t e k v = .ok) ∧
    preempted t (ekey f.index f.sub) (srcRank f.hdr.src) = false

/-- A write that took effect is noted for its tick and answered with FC_OK. -/
def accepted (t : State) (f : Frame) : State :=
  let w := noteWrite t (ekey f.index f.sub) (srcRank f.hdr.src)
  deliverFrame w f.hdr.src (responseBytes w f .ok [])

/-- A request that is refused is answered with its code. -/
def answeredWith (t : State) (f : Frame) (c : FC) : State := deliverFrame t f.hdr.src (responseBytes t f c [])

/-- A frame of an EVENT_POLL. -/
def pollFrame (h : Hdr) (payload : List Byte) : Frame := { hdr := h, op := opPoll, index := 0, sub := 0, payload := payload }

/-- A WRITE frame of raw bytes. -/
def writeFrame (h : Hdr) (index sub : Nat) (payload : List Byte) : Frame :=
  { hdr := h, op := opWrite, index := index, sub := sub, payload := payload }

/-- A reset command waits in the place of the waiting ones it supersedes (R449). -/
def withRstJob (s : State) (j : RstJob) : State :=
  { s with sys := { s.sys with rstJobs := s.sys.rstJobs.filter (fun q => !(!q.running &&
      ((q.unit == j.unit && q.index == j.index) || (j.unit == 1 && q.unit == 0 && q.index / 8 == j.index)))) ++ [j] } }

end Sys2Proof.Machine
end

