-- ==== Sys2Proof/Certificates/Slice0/Obligations.lean ====
section
/-!
DEFINITION. The statements about the model that are to be proved.
-/

open Sys2Proof Sys2Proof.Machine

/-- For every command c, queue rest and state s, a step of s with c at the front of its queue is exec of c on s with the
queue's rest; on an empty queue a step is the passing of a microsecond (notes/assumptions/5.md, the model's choice). -/
def Obligations.StepRunsFrontCommand : Prop :=
  (∀ (c : Instr) (rest : List Instr) (s : State),
    step { s with pending := c :: rest } = exec c { s with pending := rest }) ∧
  ∀ s : State, s.pending = [] → step s = .next (idle s)

/-- Every command on every state ends in a next state: no fault, no refusal. -/
def Obligations.EveryCommandGoesOn : Prop :=
  ∀ (c : Instr) (s : State), Completes c s

/-- After power-on: phase 1 of Table 18-4, no command waiting, no output given, rst_req_n high, ck_hold high, the host
link down, every core clearing its scratchpad, every MCC and port without a link, no node number, SCHED_STEP 0, no
sequence, every counter, wire and pass at 0, memory listing nothing and in its canonical form, no MCC begun. The
core mask and memory that reads 0 are the model's choice (notes/assumptions/1.md, 7.md). -/
def Obligations.ResetState : Prop :=
  State.reset.pending = [] ∧ State.reset.outbox = [] ∧ State.reset.sys.phase = 1 ∧ State.reset.sys.rstReqN = true ∧
  State.reset.sys.gov.ckHold = true ∧ State.reset.sys.hpUp = false ∧
  (∀ c, c < 32 → (State.reset.core c).clearing = true ∧ (State.reset.core c).inReset = false) ∧
  (∀ n, (State.reset.mcc n).state = .off) ∧ (∀ p, (State.reset.port p).state = .down) ∧
  State.reset.form.node = 0 ∧ State.reset.form.committed = false ∧ State.reset.sched.step = 0 ∧
  (∀ n, (State.reset.desc n).state = .free) ∧ (∀ c n, State.reset.counter c n = 0) ∧
  (∀ w, (State.reset.wire w).gen = 0) ∧ (∀ n, (State.reset.pass n).state = .closed) ∧ (∀ a, State.reset.byte a = 0) ∧
  State.reset.mem = [] ∧ State.reset.MemoryCanonical ∧ State.reset.MccQuiet

/-- For every state whose memory is canonical (addresses strictly rising, no entry equal to what an unlisted byte reads
as), whatever command stands at the front of its queue or none, a step that goes on leaves memory canonical. -/
def Obligations.MemoryStaysCanonical : Prop :=
  ∀ s t : State, s.MemoryCanonical → step s = .next t → t.MemoryCanonical

/-- Whatever command is taken, fused values (the core mask of R13, identity, device key) never change, outputs given
stay given in their order, a step takes exactly the front command from the queue, and ID_BOOT_NONCE changes at a
block reset only. -/
def Obligations.FusedValuesAndOutputsStay : Prop :=
  ∀ s t : State, step s = .next t →
    t.fuses = s.fuses ∧ s.outbox <+: t.outbox ∧ t.pending = s.pending.tail ∧ (¬s.resetsNow → t.mgmt.nonce = s.mgmt.nonce)

/-- Once rst_req_n is low, no command but a block reset raises it. -/
def Obligations.ResetRequestStays : Prop :=
  ∀ s t : State, s.sys.rstReqN = false → ¬s.resetsNow → step s = .next t → t.sys.rstReqN = false

/-- SCHED_STEP is unchanged by every command other than the five by which a step boundary can be taken (STEP_BOUNDARY,
STEP_DONE, STEP_GO, MEMBER_LOST, MEMBER_LOST_MESSAGE) and BLOCK_RESET, and by the passing of time. -/
def Obligations.StepNumberChangesAtBoundary : Prop :=
  ∀ s t : State, (∀ c ∈ s.pending.head?, mayEndStep c = false) → step s = .next t → t.sched.step = s.sched.step

/-- That in power-on phase 1 every MCC is without request is kept by every step; in every state in which it holds, an
MCC that is down is down after every step but a block reset. -/
def Obligations.MccsBeginAndStayDown : Prop :=
  (∀ s t : State, s.MccQuiet → step s = .next t → t.MccQuiet) ∧
  ∀ (s t : State) (n : Nat), s.MccQuiet → (s.mcc n).state = .down → ¬s.resetsNow → step s = .next t →
    (t.mcc n).state = .down

/-- An edit of a live sequence that the queue has room for and hardware applies takes the shadow to the result of its
operation on the state with the edit queued, marks the shadow changed and waits for the next commit, and the
eviction jobs that have room start: EXTEND to a slot count, ATTACH of a source's prefix, COW of a slot page, GROW to
a depth, SET_ENTRY of one leaf, TRUNCATE to a count, REMAP of slot pages, RELEASE of everything. Nothing else
changes. -/
def Obligations.PendingEditsApply : Prop :=
  ∀ (h : EditHdr) (s t : State), EditTaken s h → EditsByHardware s h →
    let n := h.seq.toNat
    let done := jobPump (editWaits (shadowDirty t n) s.charts.nextEdit)
    (∀ a, a.toNat < 2 ^ 48 → editExtend (withEdit s h (.extend a.toNat)) h.fetched n a.toNat = (.ok, t) →
      exec (.extend h a) s = .next done) ∧
    (∀ src a, a.toNat < 2 ^ 48 →
      editAttach (withEdit s h (.attach src.toNat a.toNat)) h.fetched n src.toNat a.toNat = (.ok, t) →
      exec (.attach h src a) s = .next done) ∧
    (∀ a l, seqLayout (withEdit s h (.cow a.toNat)) n = some l → a.toNat * l.pg + l.pg ≤ 2 ^ 63 →
      cowPage (withEdit s h (.cow a.toNat)) h.fetched l n a.toNat = (.ok, t) → exec (.cow h a) s = .next done) ∧
    (∀ a, (s.desc n).shadowDepth < a.toNat → a.toNat ≤ 7 → (s.desc n).shadowDepth ≠ 0 →
      growLevels (withEdit s h (.grow a.toNat)) n (a.toNat - (s.desc n).shadowDepth) = (.ok, t) →
      exec (.grow h a) s = .next done) ∧
    (∀ a b, editSetEntry (withEdit s h (.setEntry a.toNat b.toNat)) n a.toNat b.toNat = (.ok, t) →
      exec (.setEntry h a b) s = .next done) ∧
    (∀ a, a.toNat < 2 ^ 48 → editTruncate (withEdit s h (.truncate a.toNat)) h.fetched n a.toNat = (.ok, t) →
      exec (.truncate h a) s = .next done) ∧
    (∀ a b c s1 p o w es, remapOp s h a b c = (s1, .ok, .remap p o w es c.toNat) → EditTaken s1 h → EditsByHardware s1 h →
      (∀ j, Map.get? s1.charts.jobs n = some j → j.assisted = true → j.broken = false) →
      editRemap (withEdit s1 h (.remap p o w es c.toNat)) n p o w es = (.ok, t) →
      exec (.remap h a b c) s = .next (jobPump (editWaits (shadowDirty t n) s1.charts.nextEdit))) ∧
    (editRelease (withEdit s h .release) n s.charts.nextEdit = (.ok, t) → exec (.release h) s = .next done)

/-- A verdict on a live sequence that hardware applies records that it has come and how many of its drafts are accepted:
k for DRAFT_COMMIT of k, at most the drafts that the pending edits leave (R45); 0 for DRAFT_ROLLBACK. The edit waits
for the commit, the eviction jobs that have room start, and nothing else changes. -/
def Obligations.VerdictsRecordAcceptance : Prop :=
  ∀ (h : EditHdr) (s : State), EditTaken s h → EditsByHardware s h →
    let n := h.seq.toNat
    let done := fun (op : EditOp) (k : Nat) => jobPump (editWaits ((withEdit s h op).updDesc n (fun d =>
      { d with verdict := true, draftAccept := k })) s.charts.nextEdit)
    (∀ a, a.toNat < 2 ^ 48 → a.toNat ≤ editDrafts s n →
      exec (.draftCommit h a) s = .next (done (.draftCommit a.toNat) a.toNat)) ∧
    exec (.draftRollback h) s = .next (done .draftRollback 0)

/-- Applied by hardware, EVICT asks for an eviction job and reports at once; FORCE_RELEASE from the Control Complex
empties the chart, keeps what it held for its walks, and reports at once. Neither stays in the queue. -/
def Obligations.ImmediateEditsReport : Prop :=
  ∀ (h : EditHdr) (s : State), EditTaken s h → EditsByHardware s h →
    let n := h.seq.toNat
    let id := s.charts.nextEdit
    (∀ a, exec (.evict h a) s =
      .next (jobPump (dropEdit (editReport (jobRequest (withEdit s h (.evict a.toNat)) n a.toNat) h .ok) id))) ∧
    (∀ t, fromCc h = true → forceRelease (withEdit s h .forceRelease) n id = (.ok, t) →
      exec (.forceRelease h) s = .next (jobPump (dropEdit (editReport t h .ok) id)))

/-- Reserved operand bits give FC_RESERVED_NONZERO; a queue of 4,096 edits gives FC_EDIT_QUEUE_FULL; a FREE sequence
gives FC_SEQ_INVALID; FORCE_RELEASE that does not come from the Control Complex gives FC_ACCESS_DENIED; an operation
of a SET_ENTRY that fails reports its code, and apart from the report the queue and the shadow are as before. In
assisted chart editing an edit of a live sequence that the queue has room for is not applied by hardware: it stays
in the queue while its assist request goes to firmware (R71). -/
def Obligations.RefusedEditsReport : Prop :=
  ∀ (h : EditHdr) (s : State),
    (∀ a, 2 ^ 48 ≤ a.toNat → exec (.extend h a) s = .next (editReport s h .reservedNonzero)) ∧
    (4096 ≤ s.charts.editQ.length → exec (.release h) s = .next (editReport s h .editQueueFull)) ∧
    (s.charts.editQ.length < 4096 → (s.desc h.seq.toNat).state = .free →
      exec (.release h) s = .next (editReport s h .seqInvalid)) ∧
    (EditTaken s h → fromCc h = false → exec (.forceRelease h) s = .next (editReport s h .accessDenied)) ∧
    (EditTaken s h → EditsByHardware s h → ∀ (a b : U64) (c : FC) (t : State), c ≠ .ok →
      editSetEntry (withEdit s h (.setEntry a.toNat b.toNat)) h.seq.toNat a.toNat b.toNat = (c, t) →
      exec (.setEntry h a b) s =
        .next (jobPump (dropEdit (editReport (withEdit s h (.setEntry a.toNat b.toNat)) h c) s.charts.nextEdit))) ∧
    (EditTaken s h → ¬EditsByHardware s h → ∀ (u : State),
      let q := withEdit s h .release
      raiseAssist q .chartEdit (q.ent .fnModeChartEdit) (.edit s.charts.nextEdit) h.seq.toNat 0
        (editArg q h.seq.toNat (editCmdBytes h .release)) = (.ok, u) → exec (.release h) s = .next (forwardAssists u))

/-- What a forced release held is freed when no walk of its old EPOCH remains. A held sequence with pending edits
commits when WALKERS is 0. A hardware eviction job finishes. A shared frame whose last sharer left returns to the
free bitmap and leaves every Commons. -/
def Obligations.ChartEvents : Prop :=
  (∀ (seq : BitVec 18) (s : State) (f : ForcedFree), s.charts.forced.find? (fun f => f.seq == seq.toNat) = some f →
    s.charts.walks.any (fun w => w.seq == f.seq && w.epoch == f.epoch) = false →
    exec (.forceReleaseFree seq) s = .next (freeUnlinked
      { s with charts := { s.charts with forced := s.charts.forced.eraseP (fun g => g.seq == seq.toNat) } }
      { nodes := f.nodes, frames := f.frames, bits := f.bits })) ∧
  (∀ (seq : BitVec 18) (s : State), (s.desc seq.toNat).held = true → (s.desc seq.toNat).walkers = 0 →
    hasPending s seq.toNat = true → exec (.heldCommit seq) s = .next (commitNow s seq.toNat)) ∧
  (∀ (seq : BitVec 18) (s : State) (j : EvictJob), Map.get? s.charts.jobs seq.toNat = some j → j.assisted = false →
    exec (.evictJobDone seq) s = .next (jobFinish s seq.toNat j)) ∧
  (∀ (part : Fin 16) (frame : Nat) (s : State) (p : Part), Map.get? s.charts.parts part.val = some p →
    s.charts.sharedInv.contains (part.val, frame) = true → shareMap s (part.val, frame) = 0 →
    exec (.sharedFrameInvalidated part frame) s = .next (freeFrame (commonsDropAll
      { s with charts := { s.charts with sharedInv := s.charts.sharedInv.erase (part.val, frame) } }
      (p.addr frame) (2 ^ p.log2)) (part.val, frame)))

/-- A commit of a sequence makes the shadow the chart: root and depth become the shadow's, EPOCH increments by 1 modulo
2^32, the accepted drafts and the appends join COMMITTED_LEN and NEXT_POS (less 256 for each remapped slot page), or
take the place of the lengths that a TRUNCATE or RELEASE has set (R45), the verdict and the appends are cleared,
HELD is cleared; STATE, PARTITION, REPERTOIRE and TENANT stay, and so does the descriptor of every other sequence. -/
def Obligations.CommitTakesShadow : Prop :=
  ∀ (s : State) (n : Nat),
    let d := s.desc n
    let t := commitChart s n
    let e := t.desc n
    e.chartRoot = d.shadowRoot ∧ e.chartDepth = d.shadowDepth ∧ e.epoch = d.epoch + 1 ∧
    ((s.pendOf n).setLen = none →
      e.committedLen = d.committedLen + d.appendLen + (if d.verdict then d.draftAccept else 0) - 256 * d.remappedPages ∧
      e.nextPos = d.nextPos + d.appendLen + (if d.verdict then d.draftAccept else 0)) ∧
    (∀ l p, (s.pendOf n).setLen = some (l, p) →
      e.committedLen = l + (if d.verdict then d.draftAccept else 0) - 256 * d.remappedPages ∧
      e.nextPos = p + (if d.verdict then d.draftAccept else 0)) ∧
    e.appendLen = 0 ∧ e.verdict = false ∧ e.held = false ∧ e.remappedPages = 0 ∧ e.state = d.state ∧
    e.partition = d.partition ∧ e.repertoire = d.repertoire ∧ e.tenant = d.tenant ∧
    (∀ m, m ≠ n → t.desc m = s.desc m) ∧ t.sched = s.sched ∧ t.cores = s.cores ∧ t.mem = s.mem

/-- A sequence command waits, in order, for action 5 of a boundary. A command that waits alone and was counted before
the sample applies there, once, and is reported. ADMIT of a FREE sequence number with a valid repertoire entry,
tenant and partition makes it QUEUED with an empty chart, keeping its EPOCH; APPEND sets the pending tokens and
drafts and makes an IDLE sequence READY; SUSPEND makes it SUSPENDED; RESUME of a SUSPENDED or FAULTED sequence makes
it READY with tokens pending and else IDLE, and clears LAST_FC; RETIRE queues a RELEASE and makes it RETIRING. Each
is reported with FC_OK. -/
def Obligations.SequenceCommandsApply : Prop :=
  ∀ (h : SeqHdr),
    (∀ (s : State) (a b c e : U64),
      exec (.admitSeq h a b c e) s = .next (queueSeq s h (seqOpOf 1 a.toNat b.toNat c.toNat e.toNat)) ∧
      exec (.append h a b c) s = .next (queueSeq s h (seqOpOf 2 a.toNat b.toNat c.toNat 0)) ∧
      exec (.suspend h) s = .next (queueSeq s h .suspend) ∧ exec (.resume h) s = .next (queueSeq s h .resume) ∧
      exec (.retire h) s = .next (queueSeq s h .retire) ∧
      exec (.repLoad h a b) s = .next (queueSeq s h (seqOpOf 6 a.toNat b.toNat 0 0)) ∧
      exec (.escClear h a b) s = .next (queueSeq s h (seqOpOf 7 a.toNat b.toNat 0 0))) ∧
    (∀ (s : State) (num : U32) (op : SeqOp), s.sched.cmds = [{ hdr := h, num := num, op := op }] →
      countedBefore s { hdr := h, num := num, op := op } = true →
      applyCmds s = runSeq { s with sched := { s.sched with cmds := [] } } h op) ∧
    ∀ s : State,
    let n := h.seq.toNat
    let d := s.desc n
    (∀ rep tenant part out budget user t, seqAdmit s h rep tenant part out budget user = (.ok, t) →
      runSeq s h (.admitSeq rep tenant part out budget user) = seqReport t h .ok ∧ d.state = .free ∧
        (t.desc n).state = .queued ∧
        (t.desc n).epoch = d.epoch ∧ (t.desc n).repertoire = rep ∧ (t.desc n).tenant = tenant ∧
        (t.desc n).partition = part ∧ (t.desc n).committedLen = 0) ∧
    (∀ tokens drafts buf, d.state.takesAppend = true → d.pendingTokens + d.pendingDrafts = 0 → tokens ≠ 0 →
        (drafts = 0 ∨ (tokens = 1 ∧ drafts ≤ s.ent .schedMaxDrafts ∧ bit (repWord s d.repertoire 0) 1 = true)) →
      runSeq s h (.append tokens drafts buf) = seqReport (s.updDesc n (fun d => { d with
        pendingTokens := tokens, pendingDrafts := drafts, tokenBuf := buf,
        state := if d.state = .idle then .ready else d.state })) h .ok) ∧
    (d.state ≠ .free → d.state ≠ .queued → d.state ≠ .faulted → d.state ≠ .retiring →
      runSeq s h .suspend = seqReport (s.updDesc n (fun d => { d with state := .suspended })) h .ok) ∧
    (d.state = .suspended ∨ d.state = .faulted →
      runSeq s h .resume = seqReport (s.updDesc n (fun d =>
        { d with state := if d.pendingTokens > 0 then .ready else .idle, lastFc := .ok })) h .ok) ∧
    (∀ t, d.state ≠ .free → seqRetire s n = (.ok, t) →
      runSeq s h .retire = seqReport t h .ok ∧ (t.desc n).state = .retiring)

/-- APPEND with its reserved bits clear, SUSPEND, RESUME and RETIRE that apply on a FREE sequence change nothing but
report FC_SEQ_INVALID; ADMIT of a sequence that is not FREE reports FC_SEQ_BUSY. -/
def Obligations.SequenceCommandsOnFree : Prop :=
  ∀ (h : SeqHdr) (s : State),
    ((s.desc h.seq.toNat).state = .free →
      (∀ tokens drafts buf, runSeq s h (.append tokens drafts buf) = seqReport s h .seqInvalid) ∧
      runSeq s h .suspend = seqReport s h .seqInvalid ∧ runSeq s h .resume = seqReport s h .seqInvalid ∧
      runSeq s h .retire = seqReport s h .seqInvalid) ∧
    ((s.desc h.seq.toNat).state ≠ .free → ∀ rep tenant part out budget user,
      runSeq s h (.admitSeq rep tenant part out budget user) = seqReport s h .seqBusy)

/-- REP_LOAD of a record that passes the checks of R92 writes its 256 bytes at the entry's address; ESC_CLEAR clears one
ESCALATED bit, or all for layer 255. Both report FC_OK. -/
def Obligations.RepertoireCommands : Prop :=
  ∀ (h : SeqHdr) (s : State),
    (∀ r addr t img marks, r < s.ent .repCount →
      fetchGlobal s h.fetched addr 256 = (t, .ok, img, marks) → marks.any (fun b => b) = false → repCode t r img = .ok →
      runSeq s h (.repLoad r addr) = seqReport (t.write (repAddr t r) img) h .ok) ∧
    (∀ r layer, repValid s r = true →
      let esc := repWord s r 5 + repWord s r 6 * 2 ^ 64
      runSeq s h (.escClear r layer) = seqReport (s.write (repAddr s r + 40) (natLe 16
        (if layer = 0xFF then 0 else if layer < 128 && bit esc layer then esc - 2 ^ layer else esc))) h .ok)

/-- With every Lesson retired and the boundary free: a lone block with a running step takes the boundary, which closes
the step with SCHED_STEP + 1 (R22); a member whose members are done reports STEP_DONE to its head once; the top
head, when its last member reports and the step was not empty everywhere, passes STEP_GO on and takes the boundary.
A member that reported takes STEP_GO of its step, passes it on and takes the boundary, or after an all-empty step
repeats actions 4 and 5. An empty step repeats actions 4 and 5 when a command counter has moved; WAKE does so at the
top head, and another head passes WAKE on. -/
def Obligations.StepAlignment : Prop :=
  (∀ fs s, stepEnded s = true → boundaryFree s = true → alone s = true → s.sched.running = true →
    exec (.stepBoundary fs) s = .next (boundary s fs (some (s.sched.step + 1)))) ∧
  (∀ fs s, stepEnded s = true → boundaryFree s = true → alone s = false → s.sched.goPending = false →
    membersDone s = true → isTopHead s = false → s.sched.doneSent = false →
    exec (.stepBoundary fs) s = .next (sendSync { s with sched := { s.sched with doneSent := true } } (ownHead s) 3
      (headOf s + 1) (bnat (allEmpty s)) 0 0 s.sched.step)) ∧
  (∀ fs (node : U16) empty s, (myMembers s).contains node.toNat = true → s.sched.step < 2 ^ 64 →
    let t : State := { s with sched := { s.sched with
      membersDone := (s.sched.membersDone.filter (fun d => d.1 != node.toNat)) ++ [(node.toNat, empty)] } }
    stepEnded s = true → boundaryFree s = true → alone s = false → s.sched.goPending = false → membersDone t = true →
    isTopHead s = true → allEmpty t = false →
    exec (.stepDone node (BitVec.ofNat 64 s.sched.step) empty fs) s =
      .next (boundary (passGo t false s.sched.step) fs (some (s.sched.step + 1)))) ∧
  (∀ fs s, alone s = false → isTopHead s = false → s.sched.doneSent = true → s.sched.step < 2 ^ 64 →
    let t := passGo s true s.sched.step
    boundaryFree t = true →
    exec (.stepGo (BitVec.ofNat 64 s.sched.step) true fs) s = .next (actions45 t fs)) ∧
  (∀ fs s, alone s = false → isTopHead s = false → s.sched.doneSent = true → s.sched.step < 2 ^ 64 →
    exec (.stepGo (BitVec.ofNat 64 s.sched.step) false fs) s =
      .next (alignStep { passGo s false s.sched.step with
        sched := { (passGo s false s.sched.step).sched with goPending := true } } fs)) ∧
  (∀ fs s, s.sched.running = false → boundaryFree s = true → counterMoved s = true → alone s = true →
    exec (.stepRetry fs) s = .next (actions45 s fs)) ∧
  (∀ fs s, alone s = false → isTopHead s = true → s.sched.running = false → boundaryFree s = true →
    membersDone s = true → allEmpty s = true → exec (.wake fs) s = .next (actions45 (passGo s true s.sched.step) fs)) ∧
  ∀ fs s, alone s = false → isTopHead s = false →
    exec (.wake fs) s = .next (sendSync s (ownHead s) 5 (headOf s + 1) 0 0)

/-- A boundary that closes a step gives SCHED_STEP its next number before its actions, and the actions that follow read
that number; with an operating point pending it stops after action 3 with ck_hold high and the point waiting, and
the batch of the ended step is not yet replaced; else actions 4 and 5 follow. -/
def Obligations.BoundaryOrder : Prop :=
  ∀ (s : State) (fs : List Fetched) (v : Nat),
    let t := action3 (action2 (traceAction (action1 (boundaryBegins (endStep s (some v)))) 2) fs)
    (endStep s (some v)).sched.step = v ∧
    (∀ n, t.sys.gov.opPending = some n →
      (boundary s fs (some v)).sys.gov.ckHold = true ∧ (boundary s fs (some v)).sys.gov.opWaiting = some n ∧
      (boundary s fs (some v)).sys.gov.opPending = none ∧ (boundary s fs (some v)).sched = t.sched ∧
      (boundary s fs (some v)).mem = t.mem) ∧
    (t.sys.gov.opPending = none → boundary s fs (some v) = actions45 t fs)

/-- HEARTBEAT keeps the time of a node's last heartbeat once the block has its node number, and before that has no
effect. HEARTBEAT_TIMER sends one to the head and to every member. MEMBER_LOST of a member that is silent or
unreachable raises FC_MEMBER_LOST, tells every other block of the top Form and applies the loss; MEMBER_LOST_MESSAGE
applies it. HEAD_LOST of a silent head raises FC_HEAD_LOST and holds the block. -/
def Obligations.HeartbeatsAndLoss : Prop :=
  (∀ (node : U16) s, (s.form.committed = true → exec (.heartbeat node) s = .next { s with form := { s.form with
      beats := s.form.beats.filter (fun b => b.1 != node.toNat) ++ [(node.toNat, s.sys.uptime)] } }) ∧
    (s.form.committed = false → exec (.heartbeat node) s = .next s)) ∧
  (∀ s, alone s = false → isTopHead s = true →
    exec .heartbeatTimer s = .next ((myMembers s).foldl (fun s m => sendSync s m 6 (headOf s) 0 0) s)) ∧
  (∀ (node : U16) fs s j, (List.range (headOf s)).find? (fun j => (membersOf s (j + 1)).contains node.toNat) = some j →
    isLost s node.toNat = false → (silent s node.toNat = true ∨ pathDown s node.toNat = true) →
    let r := memberRange s (j + 1) node.toNat
    let top := s.form.levels.getLastD (0, 0, 0)
    exec (.memberLost node fs) s = .next (alignStep (applyLoss
      ((((List.range (top.2.1.toNat + 1 - top.1.toNat)).map (fun i => top.1.toNat + i)).filter (fun m =>
        m != s.form.node.toNat && !(r.1 ≤ m && m ≤ r.2) && !isLost s m)).foldl
          (fun s m => sendSync s m 7 (j + 1) 0 0 r.2 r.1) (s.raise .memberLost)) r.1 r.2) fs)) ∧
  (∀ (lo hi : U16) fs s, alone s = false → s.form.lost.contains (lo.toNat, hi.toNat) = false →
    exec (.memberLostMessage lo hi fs) s = .next (alignStep (applyLoss s lo.toNat hi.toNat) fs)) ∧
  ∀ s, alone s = false → isTopHead s = false → s.form.headLost = false → silent s (ownHead s) = true →
    exec .headLost s = .next (({ s with form := { s.form with headLost := true } } : State).raise .headLost)

/-- A memory-side command that passes the checks of R181, with a slot and a scoreboard place, takes the place, counts as
issued, and starts when the unit is free: FILL stores the 16-byte pattern over the range; COPY lands the source with
its marks at the destination; CMPCNT counts its words. MSU_COMMAND_END of a running command with none waiting sends
its completion word with code and count, and frees unit, scoreboard place and command. -/
def Obligations.MemorySideCommands : Prop :=
  (∀ (core : Fin 32) (ctx : Fin 8) (num : U32) (d : BitVec 1024) (s : State) (op : Nat) (c : Instr),
    (op = 1 ∧ c = .fill core ctx num d) ∨ (op = 2 ∧ c = .copy core ctx num d) ∨ (op = 3 ∧ c = .msCmpcnt core ctx num d) →
    canIssue s core ctx = true →
    let d' := asOp 4 op d
    let compl := complOf s core ctx d
    let m := msuOf ctx num d' compl
    msuCode d' m = .ok → (portSlots s core 7 ≠ 0 ∨ hasOpenSlot s core = true) →
    sbFree s core (msuReads m) (msuWrites m) = true →
    let t := issued (sbTake s core ctx num (msuReads m) (msuWrites m)) core ctx
      { num := num, kind := .msu, compl := compl, trap := m.trap }
    ((t.core core).msu = none → exec c s = .next (msuStart t core m)) ∧
    ((t.core core).msu ≠ none → exec c s = .next (t.updCore core (fun k => { k with msuQ := k.msuQ ++ [m] })))) ∧
  (∀ (s : State) (c : Nat) (m : MsuCmd), m.op = 1 → msuStart s c m =
    (landLocal s c m.dst (List.replicate (m.len / 16) (natLe 16 m.value.toNat)).flatten []).updCore c
      (fun k => { k with msu := some { cmd := m, code := .ok, count := 0 } })) ∧
  (∀ (s : State) (c : Nat) (m : MsuCmd) t data marks, m.trap = false → msuRead s c m = (t, data, marks) →
    (m.op = 2 → data ≠ [] → msuStart s c m = (landLocal t c m.dst data marks).updCore c
      (fun k => { k with msu := some { cmd := m, code := .ok, count := 0 } })) ∧
    (m.op = 3 → msuStart s c m = t.updCore c (fun k => { k with
      msu := some { cmd := m, code := if marks.any id then .dataPoisoned else .ok
                    count := countWords m.elem m.pred m.value.toNat m.mask.toNat data marks } }))) ∧
  ∀ (core : Fin 32) (s : State) (run : MsuRun), (s.core core).msu = some run → run.cmd.trap = false →
    let m := run.cmd
    let t := unissue (sbRelease (completeCmd (s.updCore core (fun k => { k with msu := none })) core m.ctx m.compl run.code
      run.count) core m.ctx m.num) core m.ctx m.num
    (t.core core).msuQ = [] → exec (.msuCommandEnd core) s = .next t

/-- A local request from inside that the checks of R472 accept, on plain memory, with no bit error pending in the
fabric: PUT and CPUT write the data with its marks; CPUT leaves its increment outstanding and answers later; GET
answers the bytes and marks; ADD and MAX of unmarked bytes write the new value and answer the old one where it is
fetched, and of marked bytes change nothing and answer FC_DATA_POISONED; CMPCNT answers the count of unmarked words.
A CPUT into a command window fills the next slot and waits to be counted; an ADD on a counter goes to the Sync Unit. -/
def Obligations.RequestsFromInside : Prop :=
  ∀ (r : Req) (i : Issuer) (s : State), r.origin = .inside i → isLocal s r.node = true →
    (∀ k c, (k = .put ∧ c = .put r) ∨ (k = .get ∧ c = .get r) ∨ (k = .cput ∧ c = .cput r) ∨ (k = .add ∧ c = .add r) ∨
        (k = .max ∧ c = .max r) ∨ (k = .cmpcnt ∧ c = .cmpcnt r) → insideCode s k r ≠ .ok →
      exec c s = .next (answer s r.origin r.tag { code := insideCode s k r })) ∧
    (PlainAt s r.addr → s.sys.fab.flips = [] →
      (insideCode s .put r = .ok → effectCode s .put r = .ok → exec (.put r) s =
        .next (answer (s.write r.addr (fit r.data r.len) r.poison r.origin.cluster?) r.origin r.tag { })) ∧
      (insideCode s .get r = .ok → effectCode s .get r = .ok → exec (.get r) s =
        .next (answer (s.settle r.addr r.len) r.origin r.tag
          { data := (s.settle r.addr r.len).bytes r.addr r.len, poison := (s.settle r.addr r.len).marks r.addr r.len })) ∧
      (insideCode s .cput r = .ok → effectCode s .cput r = .ok →
        let t := s.write r.addr (fit r.data r.len) r.poison r.origin.cluster?
        exec (.cput r) s = .next { t with remote := { t.remote with incrs := t.remote.incrs ++ [
          { core := r.ctrCore.toNat, ctr := r.ctr.toNat, pass := none, origin := r.origin, tag := r.tag, cycle := r.cycle,
            tenant := r.tenant.toNat }] } }) ∧
      (∀ isMax, let k : Kind := if isMax then .max else .add
        let c : Instr := if isMax then .max r else .add r
        ∀ t old marks, insideCode s k r = .ok → effectCode s k r = .ok → s.read r.addr r.atype.size = (t, old, marks) →
          (marks.any id = true → exec c s = .next (answer t r.origin r.tag { code := .dataPoisoned })) ∧
          (marks.any id = false → exec c s = .next (answer
            (t.putBack r.addr (natLe r.atype.size (atomicValue isMax r.atype (leNat old) r.operand.toNat)) []
              r.origin.cluster?) r.origin r.tag { data := if r.fetch then old else [] }))) ∧
      (∀ t data marks, insideCode s .cmpcnt r = .ok → effectCode s .cmpcnt r = .ok →
        s.read r.addr r.len = (t, data, marks) →
        exec (.cmpcnt r) s = .next (answer t r.origin r.tag
          { code := if marks.any id then .dataPoisoned else .ok
            data := natLe 4 (countWords r.elem.toNat r.pred r.value.toNat r.mask.toNat data marks) }))) ∧
    (∀ c x, regionAt s r.addr = .window c x → s.sys.fab.flips = [] → insideCode s .cput r = .ok → effectCode s .cput r = .ok →
      exec (.cput r) s = .next (answer ((s.write r.addr (fit r.data 128) r.poison).updCtx c x (fun q => { q with
        accept := q.accept + 1, slotSrc := Map.put q.slotSrc ((s.ctx c x).accept.toNat % 32) r.origin.editSrc,
        landed := q.landed ++ [((s.ctx c x).accept, none)] })) r.origin r.tag { })) ∧
    ∀ c, regionAt s r.addr = .counters c → insideCode s .add r = .ok → effectCode s .add r = .ok →
      let o := r.addr % 0x10000
      let op : SuOp := { ctr := (o % 0x1000) / 4, dec := o ≥ 0x1000, operand := r.operand.toNat % 2 ^ 32, fetch := r.fetch,
                         origin := r.origin, tenant := r.tenant.toNat, pass := none, tag := r.tag, cycle := r.cycle }
      (suRequest s c op).1.sys.fab.flips = [] →
      exec (.add r) s = .next (answer? (suRequest s c op).1 r.origin r.tag (suRequest s c op).2)

/-- On a block that has its node number, an arrival of the next number of its stream is checked against the pass that
covers its address: a GET the pass grants counts in HP_ARRIVALS and is answered with bytes and marks; one the checks
of Table 12-5 refuse is logged, counted and answered with the code, and memory stays as it was; a request of a later
number is held for its predecessors; one of a number already past is discarded. Before that an arrival has no
effect. -/
def Obligations.ArrivalsThroughHallPasses : Prop :=
  ∀ (r : Req) (node stream sseq : U16) (we : BitVec 8) (ue : U32) (s : State) (k : Kind) (c : Instr),
    (k = .put ∧ c = .put r) ∨ (k = .get ∧ c = .get r) ∨ (k = .cput ∧ c = .cput r) ∨ (k = .add ∧ c = .add r) ∨
      (k = .max ∧ c = .max r) ∨ (k = .cmpcnt ∧ c = .cmpcnt r) →
    r.origin = .arrival node stream sseq we ue → isLocal s r.node = true → node ≠ 0xFFFF →
    (s.form.committed = false → exec c s = .next s) ∧
    (s.form.committed = true → ∀ p : Pair, s.remote.pairs.find? (fun p => p.node == node && p.stream == stream) = some p → p.held = [] →
      let r' := { r with tag := headTag k r }
      let t : State := { s with remote := { s.remote with
        pairs := touchPair s.remote.pairs { p with nextSeq := sseq + 1 } } }
      (p.nextSeq = sseq → exec c s = .next (drainHeld 1 (admitNow t k r') node stream)) ∧
      ((sseq - p.nextSeq).toNat ≠ 0 → (sseq - p.nextSeq).toNat < 0x8000 → exec c s =
        .next { s with remote := { s.remote with
          pairs := touchPair s.remote.pairs { p with held := [{ sseq := sseq, opCode := k.code, req := r' }] } } }) ∧
      (0x8000 ≤ (sseq - p.nextSeq).toNat → exec c s = .next s)) ∧
    (∀ code pn, arrivalCode s k r node.toNat we = (code, pn) → code ≠ .ok →
      admitNow s k r = (logRefusal s r.addr node.toNat r.tenant.toNat
        ((passAt s r.addr [.opened, .draining]).getD 0xFFFF) k.code we.toNat code (k.span r)).emit
          (replyOut r.origin r.tag { code := code })) ∧
    ∀ pn, arrivalCode s .get r node.toNat we = (.ok, pn) → mapCheck s r.addr r.len = .ok →
      let t := s.updPass pn (fun h => { h with arrivals := h.arrivals + 1 })
      effectCode t .get r = .ok → PlainAt t r.addr → s.sys.fab.flips = [] →
      admitNow s .get r = (t.settle r.addr r.len).emit (replyOut r.origin r.tag
        { data := (t.settle r.addr r.len).bytes r.addr r.len, poison := (t.settle r.addr r.len).marks r.addr r.len })

/-- The n-th outstanding increment reaches its Sync Unit as an increment by 1, or is answered with FC_TARGET_RESET while
its core is in reset. SU_QUEUE_APPLY applies the oldest queued operation while fewer than four have applied in the
cycle, lets the operation before the queue of 64 enter it, counts the cycles it waited, and answers with the old
value where it is fetched. COMMAND_COUNTED of the landed command numbered CTX_CMD_COUNT counts it and releases its
pass. SEQ_GAP_TIMEOUT counts the missing numbers in FORM_SEQ_LOST and admits what follows. MULTICAST_LANDED
increments the counter of each target core once. -/
def Obligations.CountedPutsAndQueues : Prop :=
  (∀ n s (i : PendIncr), s.remote.incrs[n]? = some i →
    let t : State := { s with remote := { s.remote with incrs := s.remote.incrs.eraseIdx n } }
    ((s.core i.core).inReset = true → exec (.countedIncrement n) s =
      .next (answer (passDone t i.pass) i.origin i.tag { code := .targetReset })) ∧
    (∀ u a, (s.core i.core).inReset = false → suRequest t i.core
        { ctr := i.ctr, dec := false, operand := 1, fetch := false, origin := i.origin, tenant := i.tenant
          pass := i.pass, tag := i.tag, cycle := i.cycle, kind := 3 } = (u, some a) →
      exec (.countedIncrement n) s = .next (answer (passDone u i.pass) i.origin i.tag a))) ∧
  (∀ (core : Fin 32) cycle s op rest, (s.core core).suQ = op :: rest →
    let used := if (s.core core).suCycle = cycle then (s.core core).suCount else 0
    used < 4 →
    ∀ t old code, counterApply ((s.updCore core (fun k => { k with suQ := suAdmit rest cycle, suCycle := cycle, suCount := used + 1 })).bump
        .suQueueCycles core 0 (cycle - op.cycle)) core op.ctr op.dec op.operand = (t, old, code) →
      exec (.suQueueApply core cycle) s = .next (answer (passDone t op.pass) op.origin op.tag
        { code := code, data := if op.fetch then natLe 4 old.toNat else [] })) ∧
  (∀ (core : Fin 32) (ctx : Fin 8) s n pass, (s.ctx core ctx).landed.find? (fun p => p.1 == (s.ctx core ctx).count) =
      some (n, pass) →
    let t := s.updCtx core ctx (fun q => { q with count := q.count + 1, landed := q.landed.filter (fun p => p.1 != n) })
    exec (.commandCounted core ctx) s =
      .next (ctxSettle (leaveRecess (passDone t pass) core) core ctx)) ∧
  (∀ (node stream : U16) s (p : Pair) (h : HeldReq), s.remote.pairs.find? (fun p => p.node == node && p.stream == stream) =
      some p → p.held = [h] →
    let t : State := { s with remote := { s.remote with pairs := s.remote.pairs.map (fun q =>
      if q.node == node && q.stream == stream then { p with nextSeq := h.sseq + 1, held := [] } else q) } }
    exec (.seqGapTimeout node stream) s = .next (drainHeld 1
      (admitAfterLoss (t.bump .formSeqLost 0 0 (h.sseq - p.nextSeq).toNat) h) node stream)) ∧
  ∀ n s m, s.mcasts[n]? = some m → exec (.multicastLanded n) s =
    .next (counterApply { s with mcasts := s.mcasts.eraseIdx n } m.core m.ctr false 1).1

/-- A remote operation command that passes the checks of R315 and whose rows are free takes its rows, counts as issued
and sends its request; one that fails them is refused with its code. A reply to an outstanding request of the
current unit epoch ends it and is acted on, and one that comes before the block has its node number has no effect;
REQUEST_TIMEOUT ends it with FC_NODE_UNREACHABLE. CMD_TAKE frees the slot of the next counted command by advancing
CTX_CMD_DONE and runs its descriptor as its class decides. -/
def Obligations.RemoteOperationCommands : Prop :=
  (∀ (core : Fin 32) (ctx : Fin 8) (num : U32) (d : BitVec 1024) (s t : State) (k : Kind) (r : Req),
    canIssue s core ctx = true → ropCode d = .ok → Kind.ofCode? (ropOp d) = some k →
    sbFree s core (ropReads d) (ropWrites d) = true → ropRequest s core ctx num d = (t, r) →
    exec (.remoteOperationCommand core ctx num d) s = .next (issueInside (issued
      (sbTake t core ctx num (ropReads d) (ropWrites d)) core ctx
        { num := num, kind := .remoteOp, compl := complOf s core ctx d, trap := bit (cmdWord d 0) 21
          rop := some (ropOp d, ropLocal d, bnat r.fetch) })
      k r (.remoteOp core ctx))) ∧
  (∀ (core : Fin 32) (ctx : Fin 8) (num : U32) (d : BitVec 1024) (s : State), canIssue s core ctx = true →
    ropCode d ≠ .ok → exec (.remoteOperationCommand core ctx num d) s =
      .next (refuseCmd s core ctx (complOf s core ctx d) (ropCode d))) ∧
  (∀ (num : Nat) (s : State) (o : OutReq), s.remote.out.find? (fun o => o.num == num) = some o →
    let t : State := { s with remote := { s.remote with out := s.remote.out.filter (fun p => p.num != num) } }
    replyCurrent t o = true →
    (∀ code data poison, (s.form.committed = true → exec (.reply num code data poison) s =
        .next (takeReply t o { code := code, data := data, poison := poison })) ∧
      (s.form.committed = false → exec (.reply num code data poison) s = .next s)) ∧
    exec (.requestTimeout num) s = .next (takeReply t o { code := .nodeUnreachable })) ∧
  ∀ (core : Fin 32) (ctx : Fin 8) fs (s t : State) bytes marks, canTake s core ctx = true →
    (s.ctx core ctx).waiting = none → (s.ctx core ctx).untaken ≠ 0 → (s.ctx core ctx).untaken ≤ 32 →
    s.read (slotAddr core ctx ((s.ctx core ctx).done.toNat % 32)) 128 = (t, bytes, marks) → marks.any id = false →
    let d := BitVec.ofNat 1024 (leNat bytes)
    let u := t.updCtx core ctx (fun q => { q with done := q.done + 1 })
    exec (.cmdTake core ctx fs) s =
      .next (ctxSettle (runTaken u core ctx (s.ctx core ctx).done d (complOf u core ctx d) fs false) core ctx)

/-- A Lesson of any kind presented on a context that can issue, that every check of R224 accepts, with a scoreboard
place, its flags, no held or faulted sequence, and no issue hold: where no row is in conflict it takes the next
Lesson number, its scoreboard place and its flags, and enters the core's Lessons; an Attend also binds its page
streams and starts its walks. With a row in conflict an unscheduled one waits; a scheduled one issues in mode 0,
issues with FC_SCHED_HAZARD and a count in mode 1, waits so in mode 2. Without place, flags or leave to issue it
waits. One that a check refuses completes with the check's code and faults its context. -/
def Obligations.LessonsIssue : Prop :=
  ∀ (core : Fin 32) (ctx : Fin 8) (num : U32) (d : BitVec 1024) (fs : List Fetched) (s : State) (kind : Nat)
    (bwd : Option Nat) (c : Instr),
    (kind = 0 ∧ bwd = (if isBackward d then some 0 else none) ∧ c = .lesson core ctx num d fs) ∨
      (kind = 1 ∧ bwd = none ∧ c = .attend core ctx num d fs) ∨ (kind = 2 ∧ bwd = none ∧ c = .ringLoad core ctx num d fs) ∨
      (kind = 0 ∧ bwd = some 1 ∧ c = .actGrad core ctx num d fs) ∨
      (kind = 0 ∧ bwd = some 2 ∧ c = .gateGrad core ctx num d fs) ∨
      (kind = 0 ∧ bwd = some 3 ∧ c = .normGrad core ctx num d fs) ∨
      (kind = 1 ∧ bwd = some 4 ∧ c = .attGrad core ctx num d fs) ∨
      (kind = 0 ∧ bwd = some 5 ∧ c = .update core ctx num d fs) →
    canIssue s core ctx = true →
    let e := asLesson kind bwd d
    let compl := complOf s core ctx e
    let t := settleControl s core e
    let esc := layerEn e && isEscalated t (lrep e) (llayer e)
    let st := if esc then escalate (isBackward e) (lkind e = 1) (readStages t core e) else readStages t core e
    (lessonCode t core ctx e (readStages t core e) st ≠ .ok →
      exec c s = .next (refuseCmd t core ctx compl (lessonCode t core ctx e (readStages t core e) st))) ∧
    (lessonCode t core ctx e (readStages t core e) st = .ok →
      let nh := (heavies st).length
      let seqs := mapSeqs t core e
      let l : LessonRun := { ctx := ctx, num := num, desc := e, compl := compl, stages := st, escalated := esc
                             fusedDeriv := takesFused t core ctx e, fetched := fs, seqs := seqs
                             arms := (List.range st.length).filter (fun i => namesArm (lkind e = 1) (stageAt st i)) }
      let clash := sbConflict t core (lreads e nh) (lwrites e nh)
      let free := sbFull t core = false ∧ issueHeld t core = false ∧ groupFaulted t seqs = false ∧
        (lkind e = 1 → (∀ n ∈ [14, 15], (streamAt t core n).bound = false) ∧ ∀ n ∈ seqs, (t.desc n).held = false) ∧
        (flagNeeds t core l).length ≤ (freeFlags t core).length
      let id := fun (w : State) => (w.core core).nextLesson
      let issues := fun (w : State) =>
        let u := issued ((sbTake w core ctx num (lreads e nh) (lwrites e nh)).updCore core (fun k => { k with
          nextLesson := id w + 1, lessons := Map.put k.lessons (id w) l })) core ctx
          { num := num, kind := .lesson (id w), compl := compl, trap := ltrap e }
        let v := (giveFlags u core (id w) l).trace 1 { unit := core, core := some core, ctx := ctx
                                                       tenant := ((giveFlags u core (id w) l).ctx core ctx).tenant
                                                       arg0 := num.toNat
                                                       arg1 := lkind e * 16 + nstages e, arg2 := compl.addr.toNat }
        if lkind e ≠ 1 then v
        else
          let q := attStart (bindPageStreams v core (id w) l) core (id w) l
          updLesson q.1 core (id w) (fun l => { l with att := some q.2 })
      let noted := fun (r : Nat) => (t.raise .schedHazard 1 core (ctx.val * 65536 + r)).bump .ttHazards core
      (¬free → exec c s = .next (parkCmd t core ctx num e compl)) ∧
      (free → clash = none → exec c s = .next (issues t)) ∧
      (free → ∀ r, clash = some r →
        (lunsched e = true → exec c s = .next (parkCmd t core ctx num e compl)) ∧
        (lunsched e = false →
          (t.ent .ttHazardMode core = 0 → exec c s = .next (issues t)) ∧
          (t.ent .ttHazardMode core = 2 → exec c s = .next (parkCmd (noted r) core ctx num e compl true)) ∧
          (t.ent .ttHazardMode core ≠ 0 → t.ent .ttHazardMode core ≠ 2 → exec c s = .next (issues (noted r))))))

/-- An instruction of a stream that changes only the stream's registers, where the stream is bound, has not ended, waits
for no part of an EMIT and stands at that instruction: END ends the program; LOOP and HLOOP open a level with their
count, stride and saved register; ENDL of a level with iterations left steps the register and goes back to the body,
else restores it and leaves the level; SETA and ADDA set an address register modulo 2^48; SETD sets D. Each but END
and a repeating ENDL goes to the next instruction. Nothing else changes. -/
def Obligations.StreamRegisterInstructions : Prop :=
  ∀ (core : Fin 32) (n : Fin 16) (s : State),
    let t := streamAt s core n
    let i := t.ins
    let r := insF i 121 2
    let sets := fun (v : Stream) => (.next (updStream s core n (fun _ => v)) : Host.Outcome State Fault Refusal)
    (t.at? 0 = true → exec (.endProgram core n) s = sets { t with ended := true }) ∧
    (t.at? 1 = true → exec (.loop core n) s = sets { t with
      pc := t.pc + 1
      loops := { body := t.pc + 1, count := insF i 96 25, areg := r, sx := insS i 0, sy := 0, saved := t.areg r, idx := 0
                 hilbert := false } :: t.loops }) ∧
    (t.at? 3 = true →
      let l : Loop := { body := t.pc + 1, count := 4 ^ insF i 117 4, areg := r, sx := insS i 0, sy := insS i 48
                        saved := t.areg r, idx := 0, hilbert := true }
      exec (.hloop core n) s = sets { t.setA r (hilbertAddr l) with pc := t.pc + 1, loops := l :: t.loops }) ∧
    (t.at? 2 = true → ∀ l rest, t.loops = l :: rest →
      (l.idx + 1 < l.count → l.hilbert = false → exec (.endl core n) s = sets
        { t.setA l.areg (addrAdd (t.areg l.areg) l.sx) with pc := l.body, loops := { l with idx := l.idx + 1 } :: rest }) ∧
      (l.idx + 1 < l.count → l.hilbert = true → exec (.endl core n) s = sets
        { t.setA l.areg (hilbertAddr { l with idx := l.idx + 1 }) with
          pc := l.body, loops := { l with idx := l.idx + 1 } :: rest }) ∧
      (l.count ≤ l.idx + 1 → exec (.endl core n) s = sets
        { t.setA l.areg l.saved with pc := t.pc + 1, loops := rest })) ∧
    (t.at? 4 = true → exec (.seta core n) s = sets
      { t.setA r (addrAdd (t.b.getD (insF i 119 2) 0) (insS i 0)) with pc := t.pc + 1 }) ∧
    (t.at? 5 = true → exec (.adda core n) s = sets { t.setA r (addrAdd (t.areg r) (insS i 0)) with pc := t.pc + 1 }) ∧
    (t.at? 6 = true → exec (.setd core n) s = sets { t with d := insF i 0 24, pc := t.pc + 1 })

/-- END, LOOP, HLOOP, ENDL, SETA, ADDA and SETD of a stream, on every state, whether or not the stream stands at the
instruction: every other stream of the core, every other core, the core's counters, flags and Lessons, and memory,
the dictionary, the descriptors and the outputs are as before; an address register keeps the node number in bits
[63:48] when SETA or ADDA moves it by an offset. -/
def Obligations.StreamInstructionsFrame : Prop :=
  (∀ (core : Fin 32) (n : Fin 16) (s t : State) (c : Instr),
    c = .endProgram core n ∨ c = .loop core n ∨ c = .hloop core n ∨ c = .endl core n ∨ c = .seta core n ∨ c = .adda core n ∨
      c = .setd core n → exec c s = .next t →
    (∀ m, m ≠ n.val → streamAt t core m = streamAt s core m) ∧ (∀ k, k ≠ core.val → t.core k = s.core k) ∧
    (t.core core).counters = (s.core core).counters ∧ (t.core core).flags = (s.core core).flags ∧
    (t.core core).lessons = (s.core core).lessons ∧ (t.core core).ctxs = (s.core core).ctxs ∧
    t.mem = s.mem ∧ t.dict = s.dict ∧ t.charts = s.charts ∧ t.outbox = s.outbox) ∧
  ∀ (a : Nat) (x : Int), addrAdd a x / 2 ^ 48 = a / 2 ^ 48 ∧ (addrAdd a x : Int) % 2 ^ 48 = ((a : Int) + x) % 2 ^ 48

/-- WALK by a loop level, or by the next word of a list (level 7, which A3 passes): the page at or beyond the extent,
and the word 0xFFFFFFFF, end the loop level; a page that the chart maps writes the address of its plane to the
register and goes on; one that faults faults the Lesson; an assisted walk waits with its registers as before. A list
word that cannot be read, or is poisoned, faults the Lesson. EMIT waits while its context is switched out, and
faults its Lesson when the sequence it walks has taken another epoch. EMIT of a load stream delivers local bytes, or
requests each line of another node and waits; a code faults the Lesson. EMIT of a store stream waits for its data,
moves it and counts, and under a walk keeps the chart's rows; a SHARED or REMOTE page faults with
FC_CHART_REMOTE_WRITE. -/
def Obligations.WalkAndEmit : Prop :=
  ∀ (core : Fin 32) (n : Fin 16) (s : State) (l : LessonRun),
    let t := streamAt s core n
    let i := t.ins
    let seq := walkSeq t
    lessonAt s core t.lesson = some l →
    (t.at? 7 = true →
      let level := insF i 118 3
      let z := insF i 104 12
      let ends := fun (w : State) => (.next (updStream w core n (fun t => endLoopAt t level)) : Host.Outcome State Fault Refusal)
      let list := rdSp s core l (t.areg 3 % 2 ^ 24) 4
      (∀ (w : State) (sp : Nat),
        ((level ≠ 7 ∧ w = s ∧
            sp = (((t.loops.drop (t.loops.length - 1 - level)).head?.map (fun q => q.idx)).getD 0 + insF i 0 48) % 2 ^ 48) ∨
          (level = 7 ∧ ∃ (r : State) (b : List MByte), list = (r, some b) ∧ b.any Prod.snd = false ∧ leNat (mbytes b) = sp ∧
            sp ≠ 0xFFFFFFFF ∧ w = updStream r core n (fun t => t.setA 3 (addrAdd (t.areg 3) 4)))) →
        (t.extent ≤ 256 * sp → exec (.walk core n) s = ends w) ∧
        (256 * sp < t.extent → seqLayout w seq = none →
          exec (.walk core n) s = .next (lessonFaultSeq w core t.lesson .chartMalformed (some seq))) ∧
        (256 * sp < t.extent → ∀ lay u, seqLayout w seq = some lay →
          (∀ e, translate w core t.lesson seq t.epoch (chartPage lay sp z) = (u, .entry e) →
            exec (.walk core n) s = .next (updStream u core n (fun t =>
              { t.setA (insF i 121 2) (walkAddr lay (frameGlobal u e) (insF i 116 2) z) with
                pc := t.pc + 1, pages := (e, sp) :: t.pages.filter (· != (e, sp)) }))) ∧
          (∀ code, translate w core t.lesson seq t.epoch (chartPage lay sp z) = (u, .fault code) →
            exec (.walk core n) s = .next (lessonFaultSeq u core t.lesson code (blamed code false seq))) ∧
          (translate w core t.lesson seq t.epoch (chartPage lay sp z) = (u, .wait) →
            exec (.walk core n) s = .next (if level = 7 then updStream u core n (fun v => v.setA 3 (t.areg 3)) else u)))) ∧
      (level = 7 → ∀ (r : State) (b : List MByte), list = (r, some b) →
        (b.any Prod.snd = false → leNat (mbytes b) = 0xFFFFFFFF →
          exec (.walk core n) s = ends (updStream r core n (fun t => t.setA 3 (addrAdd (t.areg 3) 4)))) ∧
        (b.any Prod.snd = true → exec (.walk core n) s = .next (lessonFault r core t.lesson .dataPoisoned))) ∧
      (level = 7 → ∀ r : State, list = (r, none) →
        exec (.walk core n) s = .next (lessonFault r core t.lesson .scratchRange))) ∧
    (t.at? 8 = true →
      let len := 16 * (insF i 96 16 + 1)
      let g := t.areg (insF i 121 2)
      let dest := insF i 116 4
      let mask := if dest = 7 then mcastCode s (core / 8) (bits t.arm.toNat 16 8) else .ok
      ((s.ctx core l.ctx).state = .switched → exec (.emit core n) s = .next s) ∧
      ((s.ctx core l.ctx).state ≠ .switched → streamStale s t = true →
        exec (.emit core n) s = .next (staleFault s core t)) ∧
      ((s.ctx core l.ctx).state ≠ .switched → streamStale s t = false →
        (bit t.arm.toNat 37 = false → mask ≠ .ok → exec (.emit core n) s = .next (lessonFault s core t.lesson mask)) ∧
        (bit t.arm.toNat 37 = false → mask = .ok → isLocal s (g / 2 ^ 48) = true → ∀ u code data,
          readLocal s core n l g len = (u, code, data) → exec (.emit core n) s =
            .next (if code = .ok then deliver u core n l g data else lessonFault u core t.lesson code)) ∧
        (bit t.arm.toNat 37 = false → mask = .ok → isLocal s (g / 2 ^ 48) = false →
          let iss : Issuer := .stream core (Fin.ofNat 8 l.ctx) n
          let ask := fun (w : State) (p : Nat × Nat) => sendOut w .get
            { origin := .inside iss, tenant := BitVec.ofNat 12 (w.ctx core l.ctx).tenant
              target := BitVec.ofNat 64 (g + p.1), len := p.2 } iss (.stream core n)
          let line := fun (q : State × FC) (p : Nat × Nat) =>
            if q.2 ≠ .ok then q
            else match ask q.1 p with
              | (w, some a) => (w, a.code)
              | (w, none) => (updStream w core n (fun t =>
                  { t with parts := t.parts ++ [{ num := q.1.remote.nextReq, off := p.1, data := none }] }), .ok)
          ∀ u code, (linePieces (len + 1) (g % 2 ^ 48) len).foldl line (s, .ok) = (u, code) →
            exec (.emit core n) s = .next (if code = .ok then u else lessonFaultSeq u core t.lesson code
              (if bit t.arm.toNat 14 then blamed code (walkedRemote u t g) seq else none))) ∧
        (bit t.arm.toNat 37 = true →
          let lay := if bit t.arm.toNat 14 then seqLayout s seq else none
          let page := lay.bind (fun y => storePage s t y g)
          (∀ e sp, page = some (e, sp) → (eShared e || eRemote e) = true →
            exec (.emit core n) s = .next (lessonFaultSeq s core t.lesson .chartRemoteWrite (some seq))) ∧
          ((∀ e sp, page = some (e, sp) → (eShared e || eRemote e) = false) → ∀ u,
            (storeData s core n l len = (u, .ok, none) → exec (.emit core n) s = .next u) ∧
            (∀ code d, code ≠ .ok → storeData s core n l len = (u, code, d) →
              exec (.emit core n) s = .next (lessonFault u core t.lesson code)) ∧
            (∀ data, storeData s core n l len = (u, .ok, some data) → (streamTraps t l && data.any Prod.snd) = false →
              let counted := (u.bump .seLinesOut core 0 (linesOf (g % 2 ^ 48) data.length)).bump .sePoisonLines core 0
                (poisonLines (g % 2 ^ 48) data)
              ∀ w code, writeLines counted core n l g data = (w, code) → exec (.emit core n) s =
                .next (if code = .ok then emitDone (match lay, page with
                    | some y, some (e, sp) => chartStored w core seq y (eFrame e) sp (g % 2 ^ 48) data.length
                    | _, _ => w) core n
                  else lessonFaultSeq w core t.lesson code (blamed code false seq)))))))

/-- MARK with no acknowledge outstanding increments its counter and goes on, else waits. WAIT goes on when the counter
holds its value, else waits for it. STREAM_END releases a stream that has ended and landed, increments DONE_CTR
under DONE_EN, gives a weight load its ring table entry, and lets what waited for the stream go on; one whose walked
sequence has taken another epoch faults its Lesson; a stream that has not ended, or has lines or acknowledges
outstanding, goes on. -/
def Obligations.MarkWaitAndStreamEnd : Prop :=
  ∀ (core : Fin 32) (n : Fin 16) (s : State) (l : LessonRun),
    let t := streamAt s core n
    let i := t.ins
    let ctr := insF i 115 8
    lessonAt s core t.lesson = some l →
    (t.at? 9 = true →
      (t.acks = 0 → exec (.mark core n) s =
        .next (streamCount (updStream s core n (fun t => { t with pc := t.pc + 1 })) core ctr l.ctx)) ∧
      (t.acks ≠ 0 → exec (.mark core n) s = .next s)) ∧
    (t.at? 10 = true →
      let v := insF i 83 32
      (v ≤ (s.counter core ctr).toNat → exec (.wait core n) s = .next (settleAll
        ((updStream s core n (fun t => { t with pc := t.pc + 1 })).updCore core (fun k =>
          { k with waits := Map.erase k.waits n })) core)) ∧
      ((s.counter core ctr).toNat < v → exec (.wait core n) s = .next (settleAll
        (s.updCore core (fun k => { k with waits := Map.put k.waits n (ctr, v) })) core))) ∧
    (t.bound = true → t.ended = true → t.parts = [] → t.acks = 0 →
      (streamStale s t = true → exec (.streamEnd core n) s = .next (staleFault s core t)) ∧
      (streamStale s t = false →
        let u := if bit t.arm.toNat 15 then streamCount (streamRelease s core n) core (bits t.arm.toNat 24 8) l.ctx
          else streamRelease s core n
        (l.ringStart = none → exec (.streamEnd core n) s = .next (pumpSource u core t.lesson)) ∧
        (∀ st, l.ringStart = some st →
          (t.d - st = 0 ∨ (t.d - st) % 256 ≠ 0 ∨ ringBytes u core < t.d - st →
            exec (.streamEnd core n) s = .next (pumpSource (lessonFault u core t.lesson .valueRange) core t.lesson)) ∧
          (t.d - st ≠ 0 → (t.d - st) % 256 = 0 → t.d - st ≤ ringBytes u core →
            exec (.streamEnd core n) s = .next (pumpSource (u.updCore core (fun k => { k with
              ring := k.ring.filter (fun r => !(r.rep == lrep l.desc && r.layer == llayer l.desc)) ++
                [{ rep := lrep l.desc, layer := llayer l.desc
                   buf := (st / 1024 - u.ent .ringBaseRow (core / 8)) / max 1 (u.ent .ringSliceRows (core / 8))
                   slice := ringPos u core, len := t.d - st, fmt := bits t.arm.toNat 43 5, side := bit t.arm.toNat 42
                   stream := bits t.arm.toNat 32 4 }] })) core t.lesson))))) ∧
    (t.bound = false ∨ t.ended = false ∨ t.parts ≠ [] ∨ t.acks ≠ 0 → exec (.streamEnd core n) s = .next s)

/-- The arm record of a stage of a Lesson, with its stream free and no earlier record of the stream waiting: with LOAD =
1 the program is read from the scratchpad and checked, with LOAD = 0 the parked program of the record's tag is
taken. A poisoned or refused program faults the Lesson; one whose load destination is taken, or whose sequence is
held, waits. Else the stream is bound with its program, bases, D, extent and epoch (a weight load with D at its free
ring buffer, or without one it faults with FC_VALUE_RANGE); its walk launches under SEQ_EN; loads or re-arms are
counted. -/
def Obligations.StreamsArm : Prop :=
  ∀ (core : Fin 32) (lesson stage : Nat) (s : State) (l : LessonRun), lessonAt s core lesson = some l →
    let g := stageAt l.stages stage
    let n := g.stream
    let t := streamAt s core n
    let a := g.arm.toNat
    let off := bits (g.aw 1) 0 24
    l.arms.contains stage = true → t.bound = false → armBehind s core lesson stage n = false →
    ∀ (u : State) (p : List (BitVec 128)) (code : FC),
      ((bit a 39 = true ∧ u = s.settle (scratchAddr core off) 512 ∧
          ((spMarked u core off 512 = true ∧ code = .dataPoisoned) ∨
           (spMarked u core off 512 = false ∧ p = progAt u core off ∧ code = progCode (bit a 37) (bit a 14) p))) ∨
       (bit a 39 = false ∧ u = s ∧
          ((∃ tag, t.parked = some (tag, p) ∧ tag.toNat = bits a 48 16 ∧ code = progCode (bit a 37) (bit a 14) p) ∨
           ((∀ tag q, t.parked = some (tag, q) → tag.toNat ≠ bits a 48 16) ∧ code = .streamProgram)))) →
      let seq := bits (g.aw 1) 32 18
      let waits := (bit a 37 = false ∧ destBusy u core (progDests p) = true) ∨ (bit a 14 = true ∧ (u.desc seq).held = true)
      let place := if lkind l.desc = 2 then ringPlace u core (lrep l.desc) (llayer l.desc) else none
      let d := match place with
        | some b => ringOff u core b
        | none => bits (g.aw 6) 32 24
      let own := bit a 13 && l.att.isSome && l.seqs.contains seq
      let w := if bit a 14 then walkBegin u seq (.lesson core lesson) else u
      (code ≠ .ok → exec (.streamArm core lesson stage) s = .next (lessonFault u core lesson code)) ∧
      (code = .ok → waits → exec (.streamArm core lesson stage) s = .next u) ∧
      (code = .ok → ¬waits → lkind l.desc = 2 → place = none →
        exec (.streamArm core lesson stage) s = .next (lessonFault u core lesson .valueRange)) ∧
      (code = .ok → ¬waits → (lkind l.desc = 2 → place ≠ none) →
        exec (.streamArm core lesson stage) s = .next (noteBound ((updLesson (updStream w core n (fun t =>
          { bound := true, lesson := lesson, stage := stage, arm := g.arm, prog := p, a := t.a
            b := (List.range 4).map (fun i => g.aw (2 + i)), d := d
            extent := if bit a 14 then extentOf u seq own else 0, epoch := (u.desc seq).epoch })) core lesson
          (fun q => { q with arms := q.arms.filter (· != stage)
                             ringStart := if lkind l.desc = 2 then some d else none })).bump
            (if bit a 39 then .seProgramLoads else .seRearms) core) core))

/-- A tile of the chain Lesson whose turn it is on an array is computed from the data at its feeders when they hold it;
a step of an Attend on the S-array attends or selects its pages, and the V-array drains the head that its steps
leave. A second sweep of a complete block runs its deferred rows once, in the first heavy stage's order. A split
combine with the counters of every unit there adds the units' tiles in order and runs the rest of the chain; an
Attend combines the head whose records are all there. -/
def Obligations.TilesAndCombines : Prop :=
  (∀ (core : Fin 32) (vArray : Bool) (bad : BitVec 4) (s : State) (id : Nat) (l : LessonRun) (i : Nat),
    let a := if vArray then 1 else 0
    arrayTurn s core a = some id → lessonAt s core id = some l → heavyDone s core l a = false → heavyOn l a = some i →
    (l.att = none → tileReady s core id l i = true →
      exec (.tileRelease core vArray bad) s =
        .next (pumpSource (chainTile (resumeTile s core a id) core id i a bad) core id)) ∧
    (∀ r, l.att = some r → (vArray = true ∨ arrayTurn s core 1 = some id) →
      exec (.tileRelease core vArray bad) s = .next (attRelease (resumeTile s core a id) core id a bad))) ∧
  (∀ (s : State) (c id : Nat) (l : LessonRun) (r : AttRun) (bad : BitVec 4), lessonAt s c id = some l → l.att = some r →
    (∀ st rest, r.steps = st :: rest →
      attRelease s c id 0 bad = (if st.select then attSelect s c id l r st else attStep s c id l r st bad) ∧
      attRelease s c id 1 bad = attDrain s c id l r false) ∧
    (r.steps = [] → attRelease s c id 1 bad =
      attDrain (checksum s c 1 0 [] bad).1 c id l r (checksum s c 1 0 [] bad).2)) ∧
  (∀ (core : Fin 32) (lesson m : Nat) (s : State) (l : LessonRun) (i p : Nat), lessonAt s core lesson = some l →
    (heavies l.stages).getLast? = some i → deferredIn l i = some p →
    let ts := sweepTiles l i m
    ts ≠ [] → blockDone l i m = true → l.swept.contains m = false → l.tiles = [] →
    residualsReady l p l.stages.length (shapeAt l.desc l.stages p).rows ts.length
      (fun j => (shapeAt l.desc l.stages j).width) = true →
    exec (.secondSweep core lesson m) s = .next (ts.foldl (fun s t =>
      if (lessonAt s core lesson).isNone then s
      else match heldTile s core lesson l p (tilePlace l i t) with
        | (s, some tile) => runFrom s core lesson p (tilePlace l i t) (.f32 tile)
        | (s, none) => s) (updLesson s core lesson (fun l => { l with swept := l.swept ++ [m] })))) ∧
  (∀ (core : Fin 32) (lesson : Nat) (s : State) (l : LessonRun) (i t : Nat) (tile : CTile) (rest : List (Nat × Nat × CTile))
      (u : State) (us : List CTile), lessonAt s core lesson = some l → l.tiles = (i, t, tile) :: rest →
    let g := stageAt l.stages i
    let hi := heavyIdx l.stages i
    let h := hrec l.desc hi
    let rows := if h.drain && isBackward l.desc then h.nt else h.mt
    (List.range h.um1).all (fun u => t + 1 ≤ (s.counter core (h.cctr + u)).toNat) = true →
    residualsReady l (i + 1) ((deferredIn l i).getD (segmentEnd l.stages (i + 1))) rows 1
      (fun j => (shapeAt l.desc l.stages j).width) = true →
    unitTiles s core l h t (g.tilesM * g.tilesN) = (u, some us) →
    let v := updLesson u core lesson (fun l => { l with tiles := rest, combined := Map.put l.combined hi (t + 1) })
    let w := if rest.any (fun q => q.1 == i) then v else setFlag v core lesson (g.kind - 4) i false
    exec (.splitCombine core lesson) s = .next (runFrom (w.updCore core (fun k => { k with
        combineWaits := k.combineWaits.filter (fun p =>
          !(p.1 == lesson && h.cctr ≤ p.2.1 && p.2.1 < h.cctr + h.um1 && p.2.2 == t + 1)) }))
      core lesson (i + 1) (tilePlace l i t) (.f32 (chainTurn l.desc h (combineUnits (heavyOp s core l i) tile us))))) ∧
  ∀ (core : Fin 32) (lesson : Nat) (s : State) (l : LessonRun) (r : AttRun), lessonAt s core lesson = some l →
    l.att = some r → attCanCombine s core (attCfg s core l) r = true →
    exec (.attendCombine core lesson) s = .next (attCombineHead s core lesson l r)

/-- A finished Lesson other than an UPDATE retires: its saturations are added, DONE_CTR increments under DONE_EN (a
refused increment faults its context), its completion word goes out with FC_OK and SCHED_STEP, a backward one counts
in BWD_LESSONS, and it leaves the core. A context switch where X is blocked, holds the array with no resident claim
and Y is ready saves the open tile in the context save area, or in one of four places of accumulator memory, makes X
SWITCHED and gives Y the array, counted in CTX_SWITCHES. A core with no RUNNING context enters Recess once, counted
in RECESS_ENTRIES. -/
def Obligations.LessonsEndAndContextsSwitch : Prop :=
  (∀ (core : Fin 32) (lesson : Nat) (s : State) (l : LessonRun), lessonAt s core lesson = some l →
    lessonFinished s core lesson l = true → (isBackward l.desc = false ∨ lbop l.desc ≠ 5) →
    let t := addSaturation s l
    ∀ (u : State) (code : FC),
    (bit (cmdWord l.desc 0) 23 = false ∧ u = t ∧ code = .ok) ∨
      (bit (cmdWord l.desc 0) 23 = true ∧ ∃ old, counterApply t core (bits (cmdWord l.desc 0) 24 8) false 1 = (u, old, code)) →
    let v := completeCmd u core l.ctx l.compl .ok u.sched.step
    let w := if isBackward l.desc then v.bump .bwdLessons core else v
    let x := lessonDrop (lessonEnded w core l .ok) core lesson l
    exec (.lessonRetire core lesson) s = .next (if code = .ok then x else faultCtx x core l.ctx code)) ∧
  (∀ (core : Fin 32) (vArray : Bool) (x y : Fin 8) (steps : Nat) (s : State) ix (lx : LessonRun) iy (ly : LessonRun),
    let a := if vArray then 1 else 0
    openOn s core a x = some (ix, lx) → readyOn s core a y = some (iy, ly) → x ≠ y →
    ((s.ctx core x).state = .blocked ∨ (s.ctx core x).state = .switched) →
    (hrec lx.desc (heavyIdx lx.stages ((heavyOn lx a).getD 0))).tlive = 1 → lresident lx.desc = false →
    let row := s.ent .ctxSaveRow core x.val
    (row ≠ 0xFFFF ∨ ((lx.att = none ∨ vArray = false) ∧
      ((s.core core).heldTiles.filter (fun t => t.array == a && t.inMem)).length < 4)) →
    let q := match lx.att with
      | some r => (0, if a = 1 then attendImage s (attCfg s core lx) lx r else tileImage 0 0 s.free (fun _ _ _ => 0) none)
      | none => openImage s core ix lx ((heavyOn lx a).getD 0) a steps
    let t : State := { s with free := s.free + 66560 }
    let u := if row = 0xFFFF then t else saveImage t core (row + 520 * a) q.2
    let v := match lx.att with
      | some r => if row = 0xFFFF then u else saveSoftmax u core row (attCfg u core lx) r
      | none => u
    let held : HeldTile := { array := a, ctx := x.val, lesson := ix, inMem := decide (row = 0xFFFF), steps := q.1
                             image := if row = 0xFFFF then q.2.map (fun w => (w, false)) else [] }
    exec (.contextSwitch core vArray x y steps) s = .next ((resumeTile (setCtxState (v.updCore core (fun k => { k with
      heldTiles := k.heldTiles ++ [held]
      flagOwner := k.flagOwner.filter (fun p => p.2.ctx != x.val)
      holder := Map.put k.holder a iy })) core x .switched) core a iy).bump .ctxSwitches core)) ∧
  ∀ (core : Fin 32) (s : State), (s.core core).recess = false → s.corePresent core = true → (s.core core).inReset = false →
    (∀ x, x < 8 → (s.ctx core x).state ≠ .running) →
    exec (.recessEntry core) s = .next ((s.updCore core (fun k => { k with recess := true })).bump .recessEntries core)

/-- A local multicast of a good size is delivered to the masked cores and answered with its code. RING_PASS of a Lesson
with a heavy stage left that uses the ring sends its slice to the next core. RING_PASS_COMPLETE takes the arrived
slice into the ring table and counts the pass. WEIGHT_REFETCH repairs a damaged weight line and leaves a good one
alone. A scrub visit checks the next weight line. A table load makes its shadow bank active with the image of the
ROM or of the scratchpad and shows 0 in the load status; an image that the checks of R161 refuse leaves the banks
and shows its code there, with an event. -/
def Obligations.MulticastRingsAndWeights : Prop :=
  (∀ (core : Fin 32) (ctx : Fin 8) (stream : Fin 16) (mask : BitVec 8) (addr : U64) (len : BitVec 13) (off : BitVec 24)
      (ctr : BitVec 8) (weight cache : Bool) (s t : State) (code : FC),
    let r : Req := { origin := .inside (.stream core ctx stream), target := addr, len := len.toNat }
    isLocal s r.node = true → sizeCode .get r = .ok →
    multicast s core mask.toNat r.addr len.toNat off.toNat ctr.toNat weight cache = (t, code) →
    exec (.multicastRequest core ctx stream mask addr len off ctr weight cache) s =
      .next (t.emit (replyOut r.origin 0 { code := code }))) ∧
  (∀ (core : Fin 32) (lesson : Nat) (s : State) (l : LessonRun) (e : RingEnt), lessonAt s core lesson = some l →
    ∀ h, (heavies l.stages).find? (fun h => (operandSrc l.stages h false).isRing && !ringStageDone s core lesson h) =
      some h →
    ringEntry s core (lrep l.desc) (llayer l.desc) = some e →
    let p := (ringPass s core (lrep l.desc) (llayer l.desc)).getD
      { rep := lrep l.desc, layer := llayer l.desc, lesson := lesson, begun := false }
    (p.begun = false ∨ (p.lesson = lesson ∧ p.stage = h ∧ p.sent = false)) →
    let t := setPass s core { p with begun := true, lesson := lesson, stage := h }
    let d := ringNext t core
    (t.core d).inReset = false → (t.core d).gated = false → (t.core d).ringPasses.all (fun q => q.arrived.isNone) = true →
    let u := sendSlice t core (ringOff t core e.buf) d (ringOff t d (t.core d).ringSpare) e.len
    let q := (ringPass u d p.rep p.layer).getD { rep := p.rep, layer := p.layer, lesson := 0, begun := false }
    let v := setPass u d { q with arrived := some { e with buf := (t.core d).ringSpare } }
    ∀ p', ringPass v core p.rep p.layer = some p' →
      exec (.ringPass core lesson) s = .next (setPass v core { p' with sent := true })) ∧
  (∀ (core : Fin 32) (rep : BitVec 12) (layer : BitVec 8) (s : State) (p : RingPass) (e a : RingEnt),
    ringPass s core rep.toNat layer.toNat = some p → ringEntry s core rep.toNat layer.toNat = some e →
    p.arrived = some a → p.begun = true → p.sent = true → ringStageDone s core p.lesson p.stage = true →
    exec (.ringPassComplete core rep layer) s = .next ((s.updCore core (fun k => { k with
      ring := k.ring.map (fun r => if r.rep == p.rep && r.layer == p.layer then a else r)
      ringSpare := e.buf
      ringPasses := k.ringPasses.filter (fun q => !(q.rep == p.rep && q.layer == p.layer)) })).bump .ringPasses
        (core.val / 8))) ∧
  (∀ (core : Fin 32) (line : BitVec 16) (s : State),
    let a := scratchAddr core (256 * (line.toNat % 49152))
    exec (.weightRefetch core line) s = .next (if lineDamaged s a then refetchLine s a else s)) ∧
  (∀ (core : Fin 32) (s : State) (o p : Nat) (rest : List Nat), hasOpenSlot s core = true →
    (weightLines s core).filter (fun o => (s.core core).scrubAt ≤ o) = o :: p :: rest →
    let t := s.settle (scratchAddr core o) 256
    let u := if lineDamaged t (scratchAddr core o) then refetchLine t (scratchAddr core o) else t
    exec (.scrubVisit core) s = .next (u.updCore core (fun k => { k with scrubAt := o + 256 }))) ∧
  ∀ (core : Fin 32) (table : Fin 2) (s : State) (l : SfuLoad),
    Map.get? (s.core core).sfuLoads table.val = some l → shadowFree s core table = true → (s.core core).inReset = false →
    let u := s.updCore core (fun k => { k with sfuLoads := Map.erase k.sfuLoads table })
    let shadow := 1 - activeBank u core table
    (l.factory = true → exec (.sfuLoadComplete core table) s = .next ((u.updCore core (fun k => { k with
      sfuBanks := Map.erase k.sfuBanks (2 * table.val + shadow)
      sfuActive := putBits k.sfuActive table 1 shadow })).setCnt .sfuLoadStatus 0 core)) ∧
    ∀ (t : State) (data : List Byte) (marks : List Bool) (code : FC), l.factory = false →
      u.read (scratchAddr core (1024 * l.row)) (tableSize table) = (t, data, marks) →
      code = tableCode table data (marks.any id) →
      exec (.sfuLoadComplete core table) s = .next (if code = .ok then ((t.updCore core (fun k => { k with
        sfuBanks := Map.put k.sfuBanks (2 * table.val + shadow) data
        sfuActive := putBits k.sfuActive table 1 shadow })).setCnt .sfuLoadStatus 0 core)
      else (t.setCnt .sfuLoadStatus code.value core).raise code 1 core)

/-- A READ frame that is served at once and passes checks 3 to 6 is answered with the entry's bytes; a WRITE of an entry
without behaviour of its own whose checks pass takes effect at once, or waits for its moment, and is answered with
FC_OK; a privileged EVENT_POLL is answered with up to 16 records. A response or a timeout of a forwarded frame ends
it: the response, or FC_NODE_UNREACHABLE, goes to the source, and frames held behind it are served. -/
def Obligations.FramesServed : Prop :=
  (∀ (h : Hdr) (index : U16) (sub : BitVec 8) (s : State),
    let f : Frame := { hdr := h, op := opRead, index := index.toNat, sub := sub.toNat, payload := [] }
    ServedAtOnce s f → ∀ e u k r slot priv,
    findTarget (frameIn s h.src) index.toNat sub.toNat = (.ok, some (.entry e u k)) →
    authFrame (frameIn s h.src) f none = (.ok, r, slot, priv) → readAccess r (.entry e u k) priv h.tenant = .ok →
    exec (.qmfnRead h index sub []) s =
      .next (deliverFrame r h.src (responseBytes r f .ok (readBytes r e u k)))) ∧
  (∀ (h : Hdr) (index : U16) (sub : BitVec 8) (payload : List Byte) (s t : State) n u k v slot (e : Entry),
    let f := writeFrame h index.toNat sub.toNat payload
    CommandReaches s f n u k v slot t → findTarget (frameIn s h.src) index.toNat sub.toNat = (.ok, some (.entry e u k)) →
    writeCommand t h slot n u k v payload = none → boundCode (futureAt t) e u k v = .ok → inSets n = false →
    n ≠ .rcMask → n ≠ .rcScope →
    (e.at_ = none → exec (.dictWrite h index sub payload) s = .next (accepted (takeWrite t (n.key u k) v) f)) ∧
    (∀ w, e.at_ = some w → exec (.dictWrite h index sub payload) s =
      .next (accepted (waitWrite t (n.key u k) (if e.selected then selOf t n else 0) v w) f))) ∧
  (∀ (h : Hdr) (payload : List Byte) (s r t : State) slot out, ServedAtOnce s (pollFrame h payload) →
    authFrame (frameIn s h.src) (pollFrame h payload) none = (.ok, r, slot, true) → payload.length = 4 →
    servePoll r h.src (leNat payload) = (out, t) →
    exec (.eventPoll h payload) s = .next (deliverFrame t h.src (responseBytes t (pollFrame h payload) .ok out))) ∧
  ∀ (id : Nat) (s : State) (w : Fwd), s.mgmt.fwds.find? (fun w => w.id == id) = some w →
    let t : State := { s with mgmt := { s.mgmt with fwds := s.mgmt.fwds.filter (fun v => v.id != id) } }
    (∀ frame, exec (.qmfnResponse id frame) s = .next (pumpFrames (deliverFrame t w.src frame))) ∧
    exec (.qmfnFwdTimeout id) s = .next (pumpFrames (deliverFrame t w.src (responseBytes t w.frame .nodeUnreachable [])))

/-- A host frame while the host link is down has no effect; a damaged frame, or one with a payload above 256 bytes, is
only counted in QMFN_FRAME_ERRORS; a frame held by a restart or an earlier frame joins the held ones, and one beyond
64 held is answered with FC_ASSIST_UNAVAILABLE; a sub-index above 0 that no entry has is answered with
FC_DICT_NO_ENTRY; a READ of an entry that may be read, with a payload, with FC_DICT_TYPE. -/
def Obligations.FramesRefused : Prop :=
  (∀ (h : Hdr) (index : U16) (sub : BitVec 8) (payload : List Byte) (s : State),
    (h.src = .host → s.sys.hpUp = false → exec (.dictWrite h index sub payload) s = .next s) ∧
    ((h.src = .host → s.sys.hpUp = true) → (h.damaged = true ∨ 256 < payload.length) →
      exec (.dictWrite h index sub payload) s = .next (s.bump .qmfnFrameErrors)) ∧
    ((h.src = .host → s.sys.hpUp = true) → h.damaged = false → payload.length ≤ 256 → h.src ≠ .cc →
      framesWait (frameIn s h.src) h.src = true →
      let t := frameIn s h.src
      let f := writeFrame h index.toNat sub.toNat payload
      ((t.mgmt.frames.filter (fun g => g.hdr.src == h.src)).length < 64 → exec (.dictWrite h index sub payload) s =
        .next { t with mgmt := { t.mgmt with frames := t.mgmt.frames ++ [f] } }) ∧
      (64 ≤ (t.mgmt.frames.filter (fun g => g.hdr.src == h.src)).length → exec (.dictWrite h index sub payload) s =
        .next (answeredWith t f .assistUnavailable))) ∧
    (ServedAtOnce s (writeFrame h index.toNat sub.toNat payload) → sub ≠ 0 → findEntry index.toNat sub.toNat = none →
      exec (.dictWrite h index sub payload) s =
        .next (answeredWith (frameIn s h.src) (writeFrame h index.toNat sub.toNat payload) .dictNoEntry)) ∧
    (let f : Frame := { hdr := h, op := opRead, index := index.toNat, sub := sub.toNat, payload := payload }
     ServedAtOnce s f → payload ≠ [] → ∀ e u k r slot priv,
     findTarget (frameIn s h.src) index.toNat sub.toNat = (.ok, some (.entry e u k)) →
     authFrame (frameIn s h.src) f none = (.ok, r, slot, priv) → readAccess r (.entry e u k) priv h.tenant = .ok →
     exec (.qmfnRead h index sub payload) s = .next (answeredWith r f .dictType)))

/-- A write of HP_CMD = 1 that reaches its entry and passes the checks of R304 makes the selected pass OPEN with its
epoch advanced by 1; HP_CMD = 2 makes an OPEN pass DRAINING; a draining pass with nothing in flight becomes CLOSED.
A refused OPEN is answered with the first failing check's code and the pass stays. No other pass changes. -/
def Obligations.HallPassCommands : Prop :=
  (∀ (h : Hdr) (s t : State) u k v slot, let f := writeNum h .hpCmd 1
    CommandReaches s f .hpCmd u k v slot t → v = 1 →
    (openCode t (hpSel t) = .ok → exec (.hpOpen h) s = .next (accepted (t.updPass (hpSel t) (fun p => { p with
      state := .opened, epoch := p.epoch + 1, lastOpen := some t.sys.uptime })) f)) ∧
    (openCode t (hpSel t) ≠ .ok → exec (.hpOpen h) s = .next (answeredWith t f (openCode t (hpSel t))))) ∧
  (∀ (h : Hdr) (s t : State) u k v slot, let f := writeNum h .hpCmd 2
    CommandReaches s f .hpCmd u k v slot t → v = 2 → (t.pass (hpSel t)).state = .opened →
    exec (.hpClose h) s = .next (accepted (t.updPass (hpSel t) (fun p => { p with state := .draining })) f)) ∧
  (∀ (p : BitVec 10) (s : State), (s.pass p.toNat).state = .draining → (s.pass p.toNat).inflight = 0 →
    exec (.hpDrained p) s = .next (s.updPass p.toNat (fun h => { h with state := .closed }))) ∧
  ∀ (s : State) (n m : Nat) (g : Pass → Pass), (s.updPass n g).pass m = if m = n then g (s.pass n) else s.pass m

/-- A write of COMMONS_INVALIDATE advances the cluster's COMMONS_EPOCH by 1. A write of SFU_LOAD_CMD with no load of the
table outstanding starts the load of the image at SFU_LOAD_ROW, or of the factory table, counted as a wait where the
shadow is in use. A write of CTX_CTL to a FAULTED context takes RESUME or SKIP. -/
def Obligations.CoreAndClusterCommands : Prop :=
  (∀ (h : Hdr) (cluster : Fin 4) (s t : State) u k v slot, let f := writeNum h .commonsInvalidate 1 cluster
    CommandReaches s f .commonsInvalidate u k v slot t → exec (.commonsInvalidate h cluster) s =
      .next (accepted (t.updCluster u (fun c => { c with commonsEpoch := c.commonsEpoch + 1 })) f)) ∧
  (∀ (h : Hdr) (core : Fin 32) (table : Fin 2) (s t : State) u k v slot, let f := writeNum h .sfuLoadCmd (1 + table.val) core
    CommandReaches s f .sfuLoadCmd u k v slot t → v = 1 + table.val → Map.has (t.core u).sfuLoads table.val = false →
    let row := t.ent .sfuLoadRow u
    row + ceilDiv (tableSize table.val) 1024 ≤ 12288 → exec (.sfuLoadImage h core table) s =
      .next (accepted ((if shadowFree t u table.val then t else t.bump .sfuLoadWaits u).updCore u (fun c => { c with
        sfuLoads := Map.put c.sfuLoads table.val { factory := false, row := row } })) f)) ∧
  (∀ (h : Hdr) (core : Fin 32) (table : Fin 2) (s t : State) u k v slot, let f := writeNum h .sfuLoadCmd (3 + table.val) core
    CommandReaches s f .sfuLoadCmd u k v slot t → v = 3 + table.val → Map.has (t.core u).sfuLoads table.val = false →
    exec (.sfuLoadFactory h core table) s =
      .next (accepted ((if shadowFree t u table.val then t else t.bump .sfuLoadWaits u).updCore u (fun c => { c with
        sfuLoads := Map.put c.sfuLoads table.val { factory := true, row := t.ent .sfuLoadRow u } })) f)) ∧
  (∀ (h : Hdr) (core : Fin 32) (ctx : Fin 8) (s t : State) u k v slot (op : Nat) (c : Instr),
    (op = 1 ∧ c = .ctxResume h core ctx) ∨ (op = 2 ∧ c = .ctxSkip h core ctx) → let f := writeNum h .ctxCtl op core ctx
    CommandReaches s f .ctxCtl u k v slot t → v = op → (t.ctx u k).state = .faulted →
    exec c s = .next (accepted (ctxSettle (t.updCtx u k (fun q => { q with ctl := op })) u k) f))

/-- RC_CC_ARRIVE of the current generation of a wire whose mask names the Control Complex arms the generation and
arrives; of another generation, or where the mask does not name it, it is answered with FC_VALUE_RANGE. REPORT_CMD
with a REPORT_BASE asks for a card; without one it is answered with FC_VALUE_RANGE. -/
def Obligations.ControlComplexArrivesAndReports : Prop :=
  (∀ (h : Hdr) (w : Fin 16) (gen : BitVec 8) (s t : State) u k v slot, let f := writeNum h .rcCcArrive gen.toNat w
    CommandReaches s f .rcCcArrive u k v slot t →
    (v = (t.wire u).gen.toNat → (rcMask t u).getLsbD 32 = true →
      exec (.rcCcArrive h w gen) s = .next (accepted (rcArrive (rcArmGen t u) u 32) f)) ∧
    (v ≠ (t.wire u).gen.toNat ∨ (rcMask t u).getLsbD 32 = false →
      exec (.rcCcArrive h w gen) s = .next (answeredWith t f .valueRange))) ∧
  ∀ (h : Hdr) (s t : State) u k v slot, let f := writeNum h .reportCmd 1
    CommandReaches s f .reportCmd u k v slot t →
    (t.ent .reportBase ≠ 0 → exec (.reportCmd h) s = .next (accepted (requestCard t .ok 0xFF) f)) ∧
    (t.ent .reportBase = 0 → exec (.reportCmd h) s = .next (answeredWith t f .valueRange))

/-- SYNC_SET gives a counter of a core that is present its value and wakes what it satisfies, sets or clears one of the
core's 64 flags, or completes a wire of the current generation. A flag that a Lesson holds lets its consumer take
what the hand-over buffer holds where it is set, and drops that where it is cleared. A core in Recess leaves it; the
write counts in SYNC_SETS and raises FC_SYNC_MANUAL with the written value. An absent core is answered with
FC_UNIT_ABSENT, a flag above 63, a wire above 15 or another generation with FC_VALUE_RANGE, an unused bit of VALUE
with FC_RESERVED_NONZERO; then nothing changes. -/
def Obligations.SyncSetCommands : Prop :=
  ∀ (h : Hdr) (core : BitVec 5) (idx : BitVec 8) (value : U32) (s t : State) u k v slot (kind : Nat) (c : Instr),
    (kind = 0 ∧ c = .syncSetCounter h core idx value ∧ v = value.toNat * 2 ^ 32 + core.toNat * 2 ^ 24 + idx.toNat) ∨
      (kind = 1 ∧ c = .syncSetFlag h core idx value ∧
        v = value.toNat * 2 ^ 32 + 2 ^ 29 + core.toNat * 2 ^ 24 + idx.toNat) ∨
      (kind = 2 ∧ c = .syncSetWire h core idx value ∧
        v = value.toNat * 2 ^ 32 + 2 * 2 ^ 29 + core.toNat * 2 ^ 24 + idx.toNat) →
    let f := writeNum h .syncSet v
    let done := fun (r : State) (kind index : Nat) => exec c s =
      .next (accepted ((r.bump .syncSets).raise .syncManual kind index (v % 2 ^ 32)) f)
    let refused := fun (code : FC) => exec c s = .next (answeredWith t f code)
    CommandReaches s f .syncSet u k v slot t →
    (kind = 0 → t.corePresent core.toNat = true →
      done (rcCheck (leaveRecess (setCounter t core.toNat idx.toNat value) core.toNat) core.toNat) 1 core.toNat) ∧
    (kind = 1 → t.corePresent core.toNat = true → idx.toNat < 64 → value.toNat < 2 →
      let r := (leaveRecess t core.toNat).updCore core.toNat (fun c => { c with
        flags := if value.toNat = 1 then c.flags ||| BitVec.ofNat 64 (2 ^ idx.toNat)
                 else c.flags &&& ~~~ (BitVec.ofNat 64 (2 ^ idx.toNat)) })
      (Map.get? (r.core core.toNat).flagOwner idx.toNat = none → done r 1 core.toNat) ∧
      ∀ o, Map.get? (r.core core.toNat).flagOwner idx.toNat = some o →
        done (if value.toNat = 1 then handSet r core.toNat o else handClear r core.toNat o) 1 core.toNat) ∧
    (kind = 2 → idx.toNat < 16 → value.toNat = (t.wire idx.toNat).gen.toNat → done (rcComplete t idx.toNat) 0 0) ∧
    ((kind = 1 ∧ 2 ≤ value.toNat) ∨ (kind = 2 ∧ 256 ≤ value.toNat) → refused .reservedNonzero) ∧
    ((kind = 0 ∨ (kind = 1 ∧ value.toNat < 2)) → t.corePresent core.toNat = false → refused .unitAbsent) ∧
    ((kind = 1 ∧ value.toNat < 2 ∧ t.corePresent core.toNat = true ∧ 64 ≤ idx.toNat) ∨
      (kind = 2 ∧ value.toNat < 256 ∧ (16 ≤ idx.toNat ∨ value.toNat ≠ (t.wire idx.toNat).gen.toNat)) →
      refused .valueRange)

/-- A wrapped key written to the selected slot under the key of another slot that unwraps it becomes the slot's current
key, or its next key where the slot holds a key. KEY_ZEROISE clears both keys and KEY_PERM. A rotation that is due,
in hardware, makes the next key the current one; in an assisted mode with no request of the slot outstanding it is
asked for. -/
def Obligations.KeyCommands : Prop :=
  (∀ (h : Hdr) (payload : List Byte) (s t : State) u k v a kek key, let f := writeFrame h 0x9000 2 payload
    CommandReaches s f .keyWrapped u k v (some a) t → a ≠ keySel t → (keySlot t a).cur = some kek →
    unwrapKey kek (fit payload 24) = some key → exec (.keyWrapped h payload) s =
      .next (accepted (updKey t (keySel t) (fun q => { q with cur := some key })) f)) ∧
  (∀ (h : Hdr) (payload : List Byte) (s t : State) u k v a kek key, let f := writeFrame h 0x9000 5 payload
    CommandReaches s f .keyNextWrapped u k v (some a) t → a ≠ keySel t → (keySlot t a).cur = some kek →
    unwrapKey kek (fit payload 24) = some key → (keySlot t (keySel t)).state ≠ 0 → exec (.keyNextWrapped h payload) s =
      .next (accepted (updKey t (keySel t) (fun q => { q with next := some key })) f)) ∧
  (∀ (h : Hdr) (s t : State) u k v slot, let f := writeNum h .keyZeroise 1
    CommandReaches s f .keyZeroise u k v slot t → slot ≠ some (keySel t) → exec (.keyZeroise h) s =
      .next (accepted (updKey t (keySel t) (fun q => { q with cur := none, next := none, perm := 0 })) f)) ∧
  (∀ (slot : Fin 16) (s : State), rotationDue s slot = true → s.ent .fnModeKeyRotation = 0 →
    exec (.keyRotation slot) s = .next (rotateKey s slot)) ∧
  ∀ (slot : Fin 16) (s r : State), rotationDue s slot = true → s.ent .fnModeKeyRotation ≠ 0 →
    assistOpen s (.keySlot slot.val) = false →
    raiseAssist s .keyRotation (s.ent .fnModeKeyRotation) (.keySlot slot) slot (keySlot s slot).rotateAt [] = (.ok, r) →
    exec (.keyRotation slot) s = .next (forwardAssists r)

/-- A write to KEY_WRAPPED, KEY_PERM, KEY_NEXT_WRAPPED or KEY_ZEROISE of the selected slot s that reaches its entry
authenticated under s is answered with FC_AUTH_KEY and every key slot is as before, so a slot never widens its own
permissions; a write that is accepted was authenticated under a slot other than s. -/
def Obligations.KeySlotsNeverWidenThemselves : Prop :=
  (∀ (h : Hdr) (payload : List Byte) (s t : State) u k v,
    (let f := writeFrame h 0x9000 2 payload
     CommandReaches s f .keyWrapped u k v (some (keySel t)) t →
       exec (.keyWrapped h payload) s = .next (answeredWith t f .authKey)) ∧
    (let f := writeFrame h 0x9000 5 payload
     CommandReaches s f .keyNextWrapped u k v (some (keySel t)) t →
       exec (.keyNextWrapped h payload) s = .next (answeredWith t f .authKey)) ∧
    (∀ index sub : Nat, index < 2 ^ 16 → sub < 2 ^ 8 → let f := writeFrame h index sub payload
     CommandReaches s f .keyPerm u k v (some (keySel t)) t →
       exec (.dictWrite h (BitVec.ofNat 16 index) (BitVec.ofNat 8 sub) payload) s = .next (answeredWith t f .authKey)) ∧
    (let f := writeNum h .keyZeroise 1
     CommandReaches s f .keyZeroise u k v (some (keySel t)) t →
       exec (.keyZeroise h) s = .next (answeredWith t f .authKey))) ∧
  (∀ (t : State) (f : Frame) (c : FC), (answeredWith t f c).mgmt.keys = t.mgmt.keys) ∧
  ∀ (t t' : State) (by_ : Option Nat) (next : Bool) (payload : List Byte) (v : Nat),
    (writeWrapped t by_ next payload = (.ok, t') → ∃ a, by_ = some a ∧ a ≠ keySel t) ∧
    (writeKeyPerm t by_ v = (.ok, t') → by_ ≠ some (keySel t)) ∧ (zeroiseKey t by_ = (.ok, t') → by_ ≠ some (keySel t))

/-- A valid image loaded into a store with room, that is not in use, enters the store; UNLOAD of one not in use removes
it. SET_MODE, ACTIVATE and DEACTIVATE join the pending list of at most 64. A base image that validates after the
first step has begun waits for action 2; one written before it applies at once; BASE_SAVE writes the image by puts
and leaves FC_OK in BASE_STATUS and the image's length in BASE_LENGTH, or the code of the first put that failed. -/
def Obligations.OverlayAndBaseCommands : Prop :=
  (∀ (h : Hdr) (number : U16) (s t r : State) img u k slot, let f := ovlFrame h 1 number
    CommandReaches s f .ovlCmd u k (number.toNat * 256 + 1) slot t → number ≠ 0xFFFF →
    fetchImage t h.fetched (t.ent .ovlLoadAddr) 4096 = (r, .ok, img) → overlayCode r img number.toNat = .ok →
    overlayInUse r number.toNat = false →
    (Map.has r.mgmt.ovl.store number.toNat = true ∨ r.mgmt.ovl.store.length < 1024) →
    exec (.ovlLoad h number) s =
      .next (accepted (l2Written (r.updOvl (fun o => { o with store := Map.put o.store number.toNat img }))
        (l2Overlay number.toNat) img.length) f)) ∧
  (∀ (h : Hdr) (number : U16) (s t : State) u k slot, let f := ovlFrame h 2 number
    CommandReaches s f .ovlCmd u k (number.toNat * 256 + 2) slot t → number ≠ 0xFFFF →
    Map.has t.mgmt.ovl.store number.toNat = true → overlayInUse t number.toNat = false →
    exec (.ovlUnload h number) s =
      .next (accepted (t.updOvl (fun o => { o with store := Map.erase o.store number.toNat })) f)) ∧
  (∀ (h : Hdr) (number : U16) (s t : State) u k slot (op : Nat) (c : Instr),
    (op = 3 ∧ c = .setMode h number) ∨ (op = 4 ∧ c = .ovlActivate h number ∧ number ≠ 0xFFFF) ∨
      (op = 5 ∧ c = .ovlDeactivate h number ∧ number ≠ 0xFFFF) → let f := ovlFrame h op number
    CommandReaches s f .ovlCmd u k (number.toNat * 256 + op) slot t → t.mgmt.ovl.pending.length < 64 →
    exec c s = .next (accepted (t.updOvl (fun o => { o with
      pending := o.pending ++ [{ op := op, num := number.toNat }] })) f)) ∧
  (∀ (h : Hdr) (s t r : State) img u k v slot, let f := writeNum h .baseCmd 1
    CommandReaches s f .baseCmd u k v slot t → v = 1 → fetchImage t h.fetched (t.ent .baseAddr) 65536 = (r, .ok, img) →
    headerCode img 0xFFFF [2] = .ok → recordsCode r true [] (imgBody img) = .ok → baseCode r (imgBody img) = .ok →
    ((r.sched.step ≠ 0 ∨ r.sched.begun = true) →
      exec (.baseApply h) s = .next (accepted (r.updOvl (fun o => { o with base := some img })) f)) ∧
    (∀ r', r.sched.step = 0 → r.sched.begun = false → applyBase r img = (.ok, r') →
      exec (.baseApply h) s = .next (accepted (r'.setCnt .baseStatus FC.ok.value) f))) ∧
  ∀ (h : Hdr) (s t r : State) u k v slot (c : FC), let f := writeNum h .baseCmd 2
    CommandReaches s f .baseCmd u k v slot t → v = 2 →
    ccPutAll t (t.ent .baseAddr) (fit (baseImage t) (((baseImage t).length + 15) / 16 * 16)) = (c, r) →
    exec (.baseSave h) s = .next (if c = .ok then
        accepted ((r.setCnt .baseStatus FC.ok.value).setCnt .baseLength (baseImage t).length) f
      else answeredWith (r.setCnt .baseStatus c.value) f c)

/-- ENUM_START outside phase 3 on a block that may enumerate plans, assigns and commits the Form, or leaves the
failure's code in ENUM_STATUS; ENUM_RELEASE gives every number back. PG_OP_SELECT requests its point for the next
boundary. A host answer to a forwarded assist ends it. TRACE_CTL starts an empty ring or stops the trace. WFG_CMD
asks for this block's card, and on a head for its members'. -/
def Obligations.BlockCommands : Prop :=
  (∀ (h : Hdr) (s t : State) u k v slot, let f := writeNum h .enumCmd 1
    CommandReaches s f .enumCmd u k v slot t → v = 1 → t.sys.phase ≠ 3 → (alone t = true ∨ isTopHead t = true) →
    (t.form.node ≠ 0 → exec (.enumStart h) s = .next (accepted (setEnumStatus t .enumBusy) f)) ∧
    (∀ c p, t.form.node = 0 → makePlan t h.peers = (c, p) → c ≠ .ok →
      exec (.enumStart h) s = .next (accepted (setEnumStatus t c) f)) ∧
    (∀ p, t.form.node = 0 → makePlan t h.peers = (.ok, p) → h.peers.any (fun q => q.assignCode != .ok) = false →
      let r := (List.range p.missing).foldl (fun s _ => s.raise .formDegraded)
        (h.peers.foldl (fun s q => s.emit (.enumAssign q.identity (p.assign q.identity.toNat))) t)
      let w : State := { r with form := { r.form with staged := some (p.assign r.fuses.identity.toNat) } }
      exec (.enumStart h) s = .next (accepted
        (setEnumStatus (commitForm (if h.peers.isEmpty then w else w.emit (.enumCommit true))) .ok) f))) ∧
  (∀ (h : Hdr) (s t : State) u k v slot, let f := writeNum h .enumCmd 2
    CommandReaches s f .enumCmd u k v slot t → v = 2 → exec (.enumRelease h) s = .next (accepted (releaseForm
      (if (myMembers t).isEmpty then t else t.emit (.enumCommit false))) f)) ∧
  (∀ (h : Hdr) (point : BitVec 8) (s t : State) u k v slot, let f := writeNum h .pgOpSelect point.toNat
    CommandReaches s f .pgOpSelect u k v slot t → exec (.pgOpSelect h point) s =
      .next (accepted ((t.setEnt .pgOpSelect v).updGov (fun g => { g with opPending := some v })) f)) ∧
  (∀ (h : Hdr) (num : U32) (len16 code : U16) (s t r : State) u k slot (a : Assist) (c : FC) (n : Nat) v data marks,
    v = num.toNat * 2 ^ 32 + len16.toNat * 2 ^ 16 + code.toNat → let f := writeNum h .fnAssistAnswer v
    CommandReaches s f .fnAssistAnswer u k v slot t → t.mgmt.assists.find? (fun a => a.num == num.toNat) = some a →
    FC.ofValue? code.toNat = some c → a.place = some n → 16 * len16.toNat ≤ answerMax t a.fn →
    let addr := t.ent .fnAnswerBase + n * t.ent .fnAnswerSize
    (mcDown t addr (16 * len16.toNat) = false → t.read addr (16 * len16.toNat) = (r, data, marks) →
      exec (.fnAssistAnswer h num len16 code) s = .next (accepted (endAssist r num.toNat h.fetched
        (if c = .ok ∧ marks.any (fun b => b) = true then .dataPoisoned else c) data) f)) ∧
    (mcDown t addr (16 * len16.toNat) = true → exec (.fnAssistAnswer h num len16 code) s =
      .next (accepted (endAssist t num.toNat h.fetched (if c = .ok then .mcDown else c) []) f))) ∧
  (∀ (h : Hdr) (value : Byte) (s t : State) u k v slot, let f := writeNum h .traceCtl value.toNat
    CommandReaches s f .traceCtl u k v slot t →
    (bit v 0 = true → traceRingOk t = true → exec (.traceCtl h value) s =
      .next (accepted { t with sys := { t.sys with trace := { state := 1, wrap := bit v 1 } } } f)) ∧
    (bit v 0 = false → exec (.traceCtl h value) s =
      .next (accepted { t with sys := { t.sys with trace := { t.sys.trace with state := 0 } } } f))) ∧
  (∀ (h : Hdr) (s t : State) u k v slot, let f := writeNum h .wfgCmd 1
    CommandReaches s f .wfgCmd u k v slot t → v = 1 → t.sys.wfg = none → t.ent .fnModeWaitGraph = 0 →
    exec (.wfgBlock h) s = .next (accepted (requestCard { t with sys := { t.sys with wfg := some 1 } } .ok 0xFF) f)) ∧
  ∀ (h : Hdr) (s t : State) u k v slot, let f := writeNum h .wfgCmd 2
    CommandReaches s f .wfgCmd u k v slot t → v = 2 → t.sys.wfg = none → headOf t ≠ 0 → t.ent .fnModeWaitGraph = 0 →
    let r := requestCard { t with sys := { t.sys with wfg := some 2 } } .ok 0xFF
    exec (.wfgForm h) s = .next (accepted ((myMembers r).foldl (fun s n => s.emit (.mgmtAsk n 1)) r) f)

/-- RST_CMD of a core or cluster that the checks of R449 accept: QUIESCE_RESET and GATE wait for quiet; FORCE_RESET
begins at once outside a boundary; UNGATE of a gated unit releases it. Op 1 or 2 of the Control Complex restarts it;
FORCE_RESET of the block lowers rst_req_n. FW_CMD = 1 with nothing in progress begins a STAGE under the
authenticating slot; FW_CMD = 2 with a staged valid image swaps the regions and restarts the Control Complex. -/
def Obligations.ResetCommands : Prop :=
  (∀ (h : Hdr) (unit : RstUnit) (index : BitVec 6) (s t : State) u k v slot (op : Nat) (c : Instr),
    (op = 1 ∧ c = .quiesceReset h unit index) ∨ (op = 2 ∧ c = .forceReset h unit index) ∨
      (op = 3 ∧ c = .gate h unit index) ∨ (op = 4 ∧ c = .ungate h unit index) →
    let f := rstFrame h op unit index
    v = index.toNat * 2 ^ 16 + rstUnitCode unit * 2 ^ 8 + op →
    let j : RstJob := { op := op, unit := rstUnitCode unit, index := index.toNat, value := v }
    CommandReaches s f .rstCmd u k v slot t → rstCode t op (rstUnitCode unit) index.toNat = .ok →
    ((unit = .core ∨ unit = .cluster) → (op = 1 ∨ op = 3 ∨ (op = 2 ∧ actionOpen t = true)) →
      exec c s = .next (accepted (withRstJob t j) f)) ∧
    ((unit = .core ∨ unit = .cluster) → op = 2 → actionOpen t = false →
      let r : State := { t with sys := { t.sys with rstJobs := t.sys.rstJobs.filter (fun q => !(!q.running &&
        ((q.unit == j.unit && q.index == j.index) || (j.unit == 1 && q.unit == 0 && q.index / 8 == j.index)))) } }
      exec c s = .next (accepted (beginReset r j) f)) ∧
    ((unit = .core ∨ unit = .cluster) → op = 4 →
      exec c s = .next (accepted (ungate t (rstUnitCode unit) index.toNat) f)) ∧
    (unit = .cc → exec c s = .next (accepted (setRstStatus (resetCc t) .ok) f)) ∧
    (unit = .block → exec c s = .next (accepted (requestReset (freeCode t).2 (freeCode t).1) f))) ∧
  (∀ (h : Hdr) (s t : State) u k v slot, let f := writeNum h .fwCmd 1
    CommandReaches s f .fwCmd u k v slot t → v = 1 → t.sys.cc.staging = none → t.sys.cc.activating = false →
    t.sys.cc.restarting = false →
    exec (.fwStage h) s = .next (accepted (t.updCc (fun c => { c with staging := some (slot.getD 16) })) f)) ∧
  ∀ (h : Hdr) (s t : State) u k v slot, let f := writeNum h .fwCmd 2
    CommandReaches s f .fwCmd u k v slot t → v = 2 → t.sys.cc.staging = none → t.sys.cc.activating = false →
    t.sys.cc.restarting = false → t.sys.cc.staged ≠ [] → t.cnt .fwStatus = 0 →
    exec (.fwActivate h) s = .next (accepted (resetCc (t.updCc (fun c => { swapImages c with activating := true }))) f)

/-- A stream's 16-byte PUT of an arm record that the checks accept writes the record of its wire, and an armed one arms
the generation. A wire whose AND is complete completes, after a head has sent RELEASE to its members. A generation
still armed past a non-zero RC_TIMEOUT raises FC_RC_TIMEOUT once, counts and asks for a card. A member's ARRIVE of
the current generation is recorded; RELEASE of it completes the wire; either of another generation only counts in
RC_SPURIOUS, and before enumeration either is dropped. -/
def Obligations.RollCallArrivals : Prop :=
  (∀ (core : Fin 32) (ctx : Fin 8) (stream w : Fin 16) (record : BitVec 128) (s : State),
    let r : Req := { origin := .inside (.stream core ctx stream),
                     target := BitVec.ofNat 64 (s.form.node.toNat * 2 ^ 48 + counterBase + core.val * 0x10000 + 0x3000 + 16 * w.val),
                     tenant := BitVec.ofNat 12 (s.ctx core ctx).tenant, len := 16, data := natLe 16 record.toNat }
    insideCode s .put r = .ok → effectCode s .put r = .ok → exec (.rcArm core ctx stream w record) s =
      .next (answer (armWrite s core w record.toNat) r.origin r.tag { })) ∧
  (∀ (w : Fin 16) (s : State), rcReady s w = true →
    exec (.rcComplete w) s = .next (rcComplete (rcSendRelease s w (rcLevels s w)) w)) ∧
  (∀ (w : Fin 16) (s : State), (s.wire w).armed = true → (s.wire w).timedOut = false → s.ent .rcTimeout w ≠ 0 →
    let t := s.updWire w (fun x => { x with timedOut := true })
    exec (.rcTimeout w) s = .next (requestCard
      ((t.raise .rcTimeout 0 0 (w.val * 256 + (s.wire w).gen.toNat)).bump .rcTimeouts w) .rcTimeout w)) ∧
  (∀ (w : Fin 16) (gen : BitVec 8) (node : U16) (s : State),
    (s.form.committed = true → gen = (s.wire w).gen → exec (.syncArrive w gen node) s = .next (rcPropagate
      (s.updWire w (fun x => { x with members := insertNat node.toNat x.members })) w)) ∧
    (s.form.committed = true → gen ≠ (s.wire w).gen → exec (.syncArrive w gen node) s = .next (s.bump .rcSpurious w)) ∧
    (s.form.committed = false → exec (.syncArrive w gen node) s = .next s)) ∧
  ∀ (w : Fin 16) (gen : BitVec 8) (s : State),
    (s.form.committed = true → gen = (s.wire w).gen → exec (.syncRelease w gen) s =
      .next (rcComplete (rcSendRelease s w (headLevel s (rcLevels s w))) w)) ∧
    (s.form.committed = true → gen ≠ (s.wire w).gen → exec (.syncRelease w gen) s = .next (s.bump .rcSpurious w)) ∧
    (s.form.committed = false → exec (.syncRelease w gen) s = .next s)

/-- RC_EXTERNAL_ARRIVE of at least 16 cycles on a wire that has no armed generation, or whose RC_MASK does not name the
external input, increments RC_SPURIOUS of the wire, up to its all-ones value, and changes nothing else; a shorter
one increments RC_FILTERED and changes nothing else; one that is expected arrives as participant 33. -/
def Obligations.SpuriousArrivalsOnlyCount : Prop :=
  (∀ (w : Fin 16) (cycles : Nat) (s : State),
    (16 ≤ cycles → (s.wire w).armed = false ∨ (rcMask s w).getLsbD 33 = false →
      exec (.rcExternalArrive w cycles) s = .next (s.bump .rcSpurious w)) ∧
    (cycles < 16 → exec (.rcExternalArrive w cycles) s = .next (s.bump .rcFiltered)) ∧
    (16 ≤ cycles → (s.wire w).armed = true → (rcMask s w).getLsbD 33 = true →
      exec (.rcExternalArrive w cycles) s = .next (rcArrive s w 33))) ∧
  ∀ (n : Name) (u k : Nat) (s : State),
    (s.bump n u k).cnt n u k = min (s.cnt n u k + 1) (keyOnes (n.key u k)) ∧
    (∀ m v j, m.key v j ≠ n.key u k → (s.bump n u k).cnt m v j = s.cnt m v j) ∧
    s.bump n u k = { s with dict := { s.dict with cnt := (s.bump n u k).dict.cnt } }

/-- A card whose bytes land counts in REPORT_COUNT with its trigger and size; one that cannot raises the code; the next
one is captured. A hardware aggregation run adds each source's increase, also to the Form's totals at a head. A set
of cards whose SCHED_STEP differ is requested again, up to three times; any other set is written as a graph, which
ends the assembly. An answer of the Control Complex, or a timeout, ends an assist request, and one that stalled
before the full queue enters it. -/
def Obligations.ReportsAndAssists : Prop :=
  (∀ (s t : State) (j : CardJob) rest code, s.sys.cards = j :: rest → landCard s j = (t, code) →
    let u : State := { t with sys := { t.sys with cards := rest } }
    exec .reportCardLanded s = .next (cardPump (if code = .ok then
      ((u.bump .reportCount).setCnt .reportTrigger j.trigger.value).setCnt .reportSize (cardWhole s j).length
      else u.raise code))) ∧
  (∀ (members : List MemberAgg) (s : State), s.ent .fnModeCounterAgg = 0 →
    let t := (aggBlock s (aggSample s)).setCnt .aggLastUs s.sys.uptime
    (headOf t = 0 → exec (.aggRun members) s = .next (t.bump .aggRuns)) ∧
    (headOf t ≠ 0 → exec (.aggRun members) s = .next (((myMembers t).foldl (fun s n => s.emit (.mgmtAsk n 2))
      (aggForm t (ownIncrease s t :: members))).bump .aggRuns))) ∧
  (∀ (cards : List RemoteCard) (s : State) v, s.sys.wfg = some v →
    s.mgmt.assists.any (fun a => a.fn == .waitGraph && a.toHost) = false → s.sys.cards = [] → s.sys.cardWait = [] →
    let own : WfgBlock := { node := s.form.node.toNat, facts := ownFacts s
                            card := if s.ent .reportBase = 0 then none else some (s.bytes (s.ent .reportBase) 0x21000) }
    let set := own :: (if v = 2 then cards.map (fun r => { node := r.node.toNat, card := r.card, facts := r.facts : WfgBlock })
      else [])
    let skewed := set.filterMap (·.card) |>.any (fun c =>
      set.filterMap (·.card) |>.any (fun d => fieldAt c 8 8 != fieldAt d 8 8))
    (skewed = true → s.sys.wfgSets < 3 → exec (.wfgDone cards) s = .next
      (wfgRequest { s with sys := { s.sys with wfgSets := s.sys.wfgSets + 1 } } v)) ∧
    (∀ bs whole t code, skewed = false ∨ 3 ≤ s.sys.wfgSets → fitRecords (s.ent .wfgSize) (wfgBytes set) = (bs, whole) →
      landAt s (s.ent .wfgBase) bs = (t, code) → exec (.wfgDone cards) s = .next
        (if code = .ok then wfgEnd t (if whole then .ok else .valueRange) true else wfgEnd t code false))) ∧
  ∀ (num : U32) (fs : List Fetched) (s : State) (a : Assist), s.mgmt.assists.find? (fun a => a.num == num.toNat) = some a →
    let t := unstall { s with mgmt := { s.mgmt with assists := s.mgmt.assists.filter (fun b => b.num != num.toNat) } }
    (∀ code data, a.toHost = false → s.sys.phase = 4 → (a.fn ≠ .waitGraph ∨ code ≠ .ok) →
      exec (.assistAnswer num code data fs) s = .next (forwardAssists (applyAnswer t a fs code data))) ∧
    ((a.toHost = true → a.place.isSome = true) → (a.toHost = false → s.sys.phase ≠ 5) →
      exec (.assistTimeout num fs) s = .next (forwardAssists (applyAnswer t a fs .assistTimeout [])))

/-- An authenticated assignment waits for the commit, which puts it in force and passes to the members. A port that
comes up with a role starts its numbers anew, trains and sends HELLO. HELLO of the expected role brings the port up
with the peer's credits, and entries that its loss moved return from ALT at the next boundary; another role or, once
the block has its place, another peer than the recorded one holds it down and raises FC_LINK_ROLE. -/
def Obligations.EnumerationAndHello : Prop :=
  (∀ (a : Assignment) (s : State),
    exec (.enumAssign a true) s = .next { s with form := { s.form with staged := some a } }) ∧
  (∀ (s : State), s.form.staged.isSome = true → exec .enumCommit s = .next
    (if (myMembers (commitForm s)).isEmpty then commitForm s else (commitForm s).emit (.enumCommit true))) ∧
  (∀ (port : Fin 24) (s : State), (s.port port).state ≠ .up → s.sys.ckPresent.getLsbD (32 + port.val) = true →
    (roleOf s port ≠ 0 → exec (.linkUp port) s = .next ((s.updPort port (fun q =>
      { freshPort q with phyUp := true, state := .training })).emit (.hello port s.fuses.identity (roleOf s port) receiveCredits))) ∧
    (roleOf s port = 0 → exec (.linkUp port) s =
      .next (s.updPort port (fun q => { freshPort q with phyUp := true, state := .heldDown })))) ∧
  ∀ (port : Fin 24) (identity : U64) (peerPort role : BitVec 8) (req rsp sync mgmt : Nat) (s : State),
    let q := s.port port
    let same := q.peerId = identity ∧ q.peerPort = peerPort.toNat ∧ q.peerRole = role.toNat
    let back := s.form.committed = true ∧ (q.known = true ∨
      s.form.routes.any (fun r => usesPort r.2.toNat port.val && bit r.2.toNat 30) = true)
    let taken := s.updPort port (fun q => { q with
      state := .up, known := true, peerId := identity, peerPort := peerPort.toNat, peerRole := role.toNat
      credits := [(0, req), (1, rsp), (2, sync), (3, mgmt)] })
    q.state = .training →
      (role.toNat = roleOf s port → (s.form.committed = false ∨ q.known = false ∨ same) →
        (¬ back → exec (.hello port identity peerPort role req rsp sync mgmt) s = .next taken) ∧
        (back → exec (.hello port identity peerPort role req rsp sync mgmt) s =
          .next { taken with form := { s.form with upPending := insertNat port.val s.form.upPending } })) ∧
      (role.toNat ≠ roleOf s port ∨ (s.form.committed = true ∧ q.known = true ∧ ¬ same) →
        exec (.hello port identity peerPort role req rsp sync mgmt) s =
          .next ((s.updPort port (fun q => { q with state := .heldDown })).raise .linkRole 4 port))

/-- A good flit with the expected number, without NAK, in a class of Table 14-3, is accepted after its acknowledgement
and credits are taken; one with another number is discarded and answered by one NAK; a damaged one counts in
LINK_CRC_ERRORS and is answered by one NAK. The timer acknowledges what is unacknowledged. A port that goes down
counts its buffered flits as lost, starts anew, moves its traffic to ALT and raises FC_LINK_DOWN. -/
def Obligations.FlitsAndLinkLoss : Prop :=
  (∀ (port : Fin 24) (f : Flit) (s : State), (s.port port).state = .up →
    let t := takeControl s port f
    (Flit.good f = true → Flit.get f 93 3 ≤ 3 → (t.port port).state = .up →
      (Flit.get f 79 12 = (t.port port).rxNext.toNat →
        exec (.flitReceive port f) s = .next (linkPump (acceptFlit t port f))) ∧
      (Flit.get f 79 12 ≠ (t.port port).rxNext.toNat →
        exec (.flitReceive port f) s = .next (linkPump (nakOnce t port)))) ∧
    (Flit.good f = false → exec (.flitReceive port f) s = .next (linkPump (nakOnce (s.bump .linkCrcErrors port) port)))) ∧
  (∀ (port : Fin 24) (s : State), let t := linkPump s
    ((t.port port).state = .up → ((t.port port).unacked ≠ 0 ∨ (dueClass (t.port port)).isSome = true) →
      exec (.linkAckTimer port) s = .next (sendIdle t port false)) ∧
    ((t.port port).unacked = 0 → dueClass (t.port port) = none → exec (.linkAckTimer port) s = .next t)) ∧
  (∀ (port : Fin 24) (phyUp : Bool) (s : State),
    ((s.port port).state ≠ .down →
      let q := s.port port
      let t := (s.bump .linkFlitsLost port 0 (q.replay.length + q.tx.foldl (fun n c => n + c.2.length) 0)).updPort port
        (fun q => { freshPort q with state := .down })
      exec (.linkDown port phyUp) s = .next ((((entriesOnAlt t port).bump .linkDowns port).raise .linkDown 4 port).updPort
        port (fun q => { q with phyUp := phyUp }))) ∧
    ((s.port port).state = .down →
      exec (.linkDown port phyUp) s = .next (s.updPort port (fun q => { q with phyUp := phyUp })))) ∧
  ∀ (s : State) (n m : Nat) (g : Port → Port), (s.updPort n g).port m = if m = n then g (s.port n) else s.port m

/-- An acknowledgement of number n on a port whose replay buffer holds the flits of the numbers before txSeq (at most
1,024 of them, the buffer's size): where n is one of them or txSeq itself, the flits before n leave, those from n on
stay in order, and n becomes the number of the oldest one held; any other n frees none. No other port changes. -/
def Obligations.ReplayBufferNumbers : Prop :=
  ∀ (s : State) (port : Nat) (n : BitVec 12), (s.port port).replay.length ≤ 1024 →
    let q := s.port port
    let r := (ackTo s port n).port port
    (∀ i, i ≤ q.replay.length → n = q.txSeq - BitVec.ofNat 12 q.replay.length + BitVec.ofNat 12 i →
      r.replay = q.replay.drop i ∧ n = r.txSeq - BitVec.ofNat 12 r.replay.length) ∧
    ((∀ i, i ≤ q.replay.length → n ≠ q.txSeq - BitVec.ofNat 12 q.replay.length + BitVec.ofNat 12 i) → r = q) ∧
    ∀ p, p ≠ port → (ackTo s port n).port p = s.port p

/-- ENTDAA and SETDASA give a device without a dynamic address one; SETNEWDA replaces it; RSTDAA clears it. The reads
answer PID, BCR 0x06, DCR 0, the pending interrupts and the length limits; SETMWL and SETMRL take a length of at
least 308 and acknowledge; ENEC and DISEC switch the in-band interrupt. A private write within the limit that parses
is the frame it carries, else it counts in QMFN_FRAME_ERRORS; a private read delivers the waiting response. -/
def Obligations.ManagementBusCodes : Prop :=
  (∀ (addr : BitVec 7) (s : State), s.mgmt.i3c.dyn = 0 →
    exec (.entdaa addr) s = .next ((s.updI3c (fun i => { i with dyn := addr.toNat })).emit
      (.i3cData (bytesBe 6 (i3cPid s) ++ [0x06, 0x00]))) ∧
    ∀ (static : BitVec 7), static.toNat = s.ent .i3cStaticAddr → exec (.setdasa static addr) s =
      .next ((s.updI3c (fun i => { i with dyn := addr.toNat })).emit (.i3cAck true))) ∧
  (∀ (s : State), exec .rstdaa s = .next (s.updI3c (fun i => { i with dyn := 0 }))) ∧
  (∀ (addr : BitVec 7) (s : State), addressed s addr = true →
    (∀ new, exec (.setnewda addr new) s =
      .next ((s.updI3c (fun i => { i with dyn := new.toNat })).emit (.i3cAck true))) ∧
    exec (.getpid addr) s = .next (s.emit (.i3cData (bytesBe 6 (i3cPid s)))) ∧
    exec (.getbcr addr) s = .next (s.emit (.i3cData [0x06])) ∧ exec (.getdcr addr) s = .next (s.emit (.i3cData [0x00])) ∧
    exec (.getstatus addr) s = .next (s.emit (.i3cData (bytesBe 2 (pendingIbis s)))) ∧
    exec (.getmwl addr) s = .next (s.emit (.i3cData (bytesBe 2 s.mgmt.i3c.mwl))) ∧
    exec (.getmrl addr) s = .next (s.emit (.i3cData (bytesBe 2 s.mgmt.i3c.mrl ++ [0x01]))) ∧
    (∀ bytes env, let got := if s.mgmt.i3c.mwl < bytes.length then none
        else parseFrame { env with src := .mgmt, damaged := false } bytes
      (∀ f, got = some f → exec (.i3cPrivateWrite addr bytes env) s = .next (takeFrame s f)) ∧
      (got = none → exec (.i3cPrivateWrite addr bytes env) s = .next (s.bump .qmfnFrameErrors))) ∧
    (s.mgmt.i3c.resp = none → exec (.i3cPrivateRead addr) s = .next (s.emit (.i3cData []))) ∧
    ∀ r, s.mgmt.i3c.resp = some r → exec (.i3cPrivateRead addr) s =
      .next ((s.updI3c (fun i => { i with resp := none, respIbiHeld := false })).emit
        (.i3cData (r.take s.mgmt.i3c.mrl)))) ∧
  ∀ (addr : Option (BitVec 7)) (s : State), reaches s addr = true →
    (∀ len : U16, 308 ≤ len.toNat →
      exec (.setmwl addr len) s = .next (ackI3c (s.updI3c (fun i => { i with mwl := len.toNat })) addr true) ∧
      exec (.setmrl addr len) s = .next (ackI3c (s.updI3c (fun i => { i with mrl := len.toNat })) addr true)) ∧
    ∀ events : Byte,
      (bit events.toNat 0 = true → exec (.disec addr events) s =
          .next ((ackI3c s addr true).updI3c (fun i => { i with ibi := false })) ∧
        let t := (ackI3c s addr true).updI3c (fun i => { i with ibi := true, respIbiHeld := false })
        exec (.enec addr events) s =
          .next (if s.mgmt.i3c.respIbiHeld then t.emit (.ibi 0x01) else t).eventIbi) ∧
      (bit events.toNat 0 = false →
        exec (.enec addr events) s = .next (ackI3c s addr true) ∧ exec (.disec addr events) s = .next (ackI3c s addr true))

/-- While the host link is up and fewer than 256 reads and FetchAdds are open, a host transaction at an offset that an
aperture in use maps to this block is served as an arrival of the host's stream under the aperture's tenant and
window epoch: a write as a PUT, or a CPUT into a command window, a read as a GET, a fetch-add as an ADD with FETCH.
Another atomic, and a fetch-add of a wrong length or a poisoned operand, is answered as an unsupported request and
counted. Otherwise nothing happens. -/
def Obligations.HostTransactions : Prop :=
  ∀ (s : State),
    (hostReady s = true → ∀ (off : BitVec 40) (e : Rwt), apertureAt s off.toNat = some e →
      let target := e.base + (off.toNat - e.hostOff)
      isLocal s ((BitVec.ofNat 64 target).toNat / 2 ^ 48) = true →
      let r : Req := { origin := .inside .writer, target := BitVec.ofNat 64 target
                       tenant := BitVec.ofNat 12 (bits e.attr 18 12), len := 0 }
      let we := BitVec.ofNat 8 e.attr
      (∀ data, exec (.hostMwr off data []) s =
        .next (hostLocal s (if inWindows (target % 2 ^ 48) then .cput else .put)
          { r with len := data.length, data := data, tag := hostTag 0 0 0 } we)) ∧
      (∀ (tag : BitVec 14) (rid : U16) len, exec (.hostMrd tag rid off len) s =
        .next (hostLocal s .get { r with len := len, tag := hostTag 1 tag.toNat rid.toNat } we)) ∧
      ∀ (tag : BitVec 14) (rid : U16) (fa64 : Bool) operand,
        exec (.hostFadd tag rid off fa64 (if fa64 then 8 else 4) operand []) s = .next (hostLocal s .add
          { r with len := if fa64 then 8 else 4, atype := if fa64 then .u64 else .u32, fetch := true, operand := operand
                   tag := hostTag (if fa64 then 3 else 2) tag.toNat rid.toNat } we)) ∧
    (∀ (tag : BitVec 14) (rid : U16),
      (hostReady s = true → exec (.hostAtomicOther tag rid) s =
        .next ((s.emit (.hostCplUr tag.toNat rid.toNat)).bump .hpUrCount)) ∧
      ∀ off fa64 len operand poison, hostReady s = true →
        (len ≠ (if fa64 then 8 else 4) ∨ poison.any (fun b => b) = true) →
        exec (.hostFadd tag rid off fa64 len operand poison) s =
          .next (((notePoison s poison).emit (.hostCplUr tag.toNat rid.toNat)).bump .hpUrCount)) ∧
    (hostReady s = false → (∀ off data poison, exec (.hostMwr off data poison) s = .next s) ∧
      (∀ tag rid off len, exec (.hostMrd tag rid off len) s = .next s) ∧
      (∀ tag rid off fa64 len operand poison, exec (.hostFadd tag rid off fa64 len operand poison) s = .next s) ∧
      ∀ tag rid, exec (.hostAtomicOther tag rid) s = .next s)

/-- A controller that initialises comes up, or goes down with FC_MC_DOWN and its cause; mc<nn>_phy_err counts and takes
an up controller down; the temperature of an up one is stored. The loss of a present clock clears its bit, counts,
raises FC_CLOCK_LOSS and acts by its kind; its return sets the bit. hp_link_up rises and falls with HP_STATE, and
what was forwarded to the host ends when it falls. -/
def Obligations.MemoryPortsClocksAndHostLink : Prop :=
  (∀ (n : Fin 24) (s : State),
    ((s.mcc n).state = .initialising → exec (.mccUp n) s = .next (s.updMcc n (fun m => { m with state := .up })) ∧
      ∀ cause : Fin 4, cause.val = 1 ∨ cause.val = 2 → exec (.mccDown n cause) s =
        .next ((s.updMcc n (fun m => { m with state := .down })).raise .mcDown 3 n cause)) ∧
    ((s.mcc n).state = .up → exec (.mccDown n 3) s = .next
        (((s.bump .mcPhyErrors n).updMcc n (fun m => { m with state := .down })).raise .mcDown 3 n 3) ∧
      ∀ temp, exec (.mcTempRead n temp) s = .next (s.updMcc n (fun m => { m with temp := temp.toNat })))) ∧
  (∀ (k : Fin 64) (s : State), clockUp s k = true →
    let t := ((({ s with sys := { s.sys with ckPresent := s.sys.ckPresent &&& ~~~ (1#64 <<< k.val) } } : State).bump
      .ckLossEvents).raise .clockLoss 0 0 k.val)
    (k.val < 3 → exec (.clockLoss k) s = .next
      { t with sys := { t.sys with issueStopped := true, rstReqN := false, rstCause := .clockLoss } }) ∧
    (k.val = 3 → exec (.clockLoss k) s = .next (dropHostAssists { t with sys := { t.sys with hpUp := false } })) ∧
    (k.val = 4 → exec (.clockLoss k) s = .next { t with sys := { t.sys with
      rstReqN := false, rstCause := .clockLoss
      gov := { t.sys.gov with b := 0, bUnclipped := 0, allot := (List.range 32).map (fun c => (c, 0)) } } }) ∧
    (8 ≤ k.val → k.val < 32 → (t.mcc (k.val - 8)).state = .up ∨ (t.mcc (k.val - 8)).state = .initialising →
      exec (.clockLoss k) s =
        .next ((t.updMcc (k.val - 8) (fun m => { m with state := .down })).raise .mcDown 3 (k.val - 8) 4)) ∧
    (32 ≤ k.val → exec (.clockLoss k) s = .next (portDown t (k.val - 32)))) ∧
  (∀ (k : Fin 64) (s : State), clockUp s k = false → exec (.clockLoss k) s = .next s) ∧
  (∀ (k : Fin 64) (s : State), clockBits.getLsbD k = true → ∃ t, exec (.clockReturn k) s = .next t ∧ clockUp t k = true ∧
    ∀ j, j ≠ k.val → clockUp t j = clockUp s j) ∧
  ∀ (s : State),
    (clockUp s 3 = true → exec .hpLinkUp s = .next (forwardAssists { s with sys := { s.sys with hpUp := true } })) ∧
    exec .hpLinkDown s = .next (dropHostAssists { s with sys := { s.sys with hpUp := false } })

/-- A good sample while telemetry is valid joins the period's; an error mark restarts the run of good ones, and the
fourth good one in a row makes invalid telemetry valid. Telemetry that turns invalid puts the rail in state 2 and
raises FC_PG_TLM_INVALID. An alert of 20 cycles or more clips the budget at once; a stuck one raises its code and
requests point 3; a chattering one counts as asserted. ck_hold_ack puts the waiting point in force. PERIOD_BOUNDARY
advances the period and starts new samples. -/
def Obligations.PowerEvents : Prop :=
  (∀ (rail : Fin 4) (i : U16) (v : BitVec 12) (s : State),
    ((s.rail rail).tlmValid = true → exec (.telemetrySample rail i v false) s = .next (s.updRail rail (fun q => { q with
      good := min 4 (q.good + 1), samples := q.samples ++ [(i.toNat, v.toNat)], last := some (i.toNat, v.toNat) }))) ∧
    exec (.telemetrySample rail i v true) s = .next (s.updRail rail (fun r => { r with good := 0 })) ∧
    ((s.rail rail).tlmValid = false → (s.rail rail).good = 3 → ∃ t, exec (.telemetrySample rail i v false) s = .next t ∧
      (t.rail rail).tlmValid = true ∧
      (t.rail rail).state = (if (s.rail rail).state = 2 then (s.rail rail).prior else (s.rail rail).state)) ∧
    ((s.rail rail).tlmValid = true → exec (.telemetryInvalid rail) s = .next ((s.updRail rail (fun r => { r with
      tlmValid := false, good := 0, prior := (s.rail rail).state, state := 2, last := none })).raise .pgTlmInvalid))) ∧
  (∀ (cycles : Nat) (s : State),
    (cycles < 20 → exec (.alertAssert cycles) s = .next (s.bump .alertFiltered)) ∧
    (20 ≤ cycles → exec (.alertAssert cycles) s =
      .next (clipNow (s.updGov (fun g => { g with alert := true, alertPin := true }))))) ∧
  (∀ (held : Bool) (s : State), exec (.alertDeassert held) s = .next (s.updGov (fun g => { g with
    alert := false, alertPin := false, stuck := g.stuck && !held, chatter := g.chatter && !held }))) ∧
  (∀ (s : State), s.sys.gov.alertPin = true → s.sys.gov.stuck = false → s.sys.gov.opWaiting = none →
    exec .alertStuck s = .next ((clipNow (((s.raise .alertStuck).updGov (fun g => { g with stuck := true })).setEnt
      .pgOpSelect 3)).updGov (fun g => { g with opPending := some 3 }))) ∧
  (∀ (s : State), s.sys.gov.alertPin = true → s.sys.gov.stuck = false → s.sys.gov.opWaiting.isSome = true →
    exec .alertStuck s = .next ((clipNow (((s.raise .alertStuck).updGov (fun g => { g with stuck := true })).setEnt
      .pgOpSelect 3)).updGov (fun g => { g with opWaiting := some 3 }))) ∧
  (∀ (edges : Nat) (s : State), s.ent .pgAlertChatter < edges → s.sys.gov.chatter = false →
    exec (.alertChatter edges) s = .next (clipNow ((s.raise .alertChatter).updGov (fun g => { g with chatter := true })))) ∧
  (∀ (fs : List Fetched) (s : State) n, s.sys.gov.opWaiting = some n → exec (.ckHoldAck fs) s = .next (pumpFrames (cardPump
    (actions45 (s.updGov (fun g => { g with opActive := n, opWaiting := none, ckHold := false })) fs)))) ∧
  (∀ (s : State), s.sys.gov.opWaiting.isSome = true → s.sys.gov.opTimedOut = false →
    exec .opTimeout s = .next ((s.updGov (fun g => { g with opTimedOut := true })).raise .opTimeout)) ∧
  ∀ (events : List Nat) (s : State), ∃ t, exec (.periodBoundary events) s = .next t ∧
    t.sys.gov.period = s.sys.gov.period + 1 ∧ ∀ k, k < 4 → (t.rail k).samples = []

/-- PERIOD_BOUNDARY with the ended period's measurement M, estimate E = static + kappa D and dynamic part D of a rail
whose limit is above 0: where M exists and D is at least 5 % of the limit, kappa becomes kappa + (M - E) / (16 D)
clamped to 0.5 to 2; else, and always while telemetry is invalid, kappa stays. The measurement shown is M, which
kappa does not enter. A block reset sets kappa to 1 on every rail. -/
def Obligations.CalibrationFollowsMeasurement : Prop :=
  (∀ (events : List Nat) (s t : State) (k : Nat), k < 4 → 0 < s.ent .pgIlim 0 k →
    exec (.periodBoundary events) s = .next t →
    let r := s.rail k
    let d := dynamicOf s events k
    let e := s.entRat .pgStatic k + r.kappa * d
    (∀ m, measuredOf r = some m → (t.rail k).iMeas = m ∧
      (mkRat (5 * s.ent .pgIlim 0 k) 100 ≤ d → (t.rail k).kappa = max (1 / 2) (min 2 (r.kappa + (m - e) / (16 * d)))) ∧
      (d < mkRat (5 * s.ent .pgIlim 0 k) 100 → (t.rail k).kappa = r.kappa)) ∧
    (measuredOf r = none → (t.rail k).kappa = r.kappa) ∧ (r.tlmValid = false → (t.rail k).kappa = r.kappa)) ∧
  (∀ (r : Rail) (x : Rat), measuredOf { r with kappa := x } = measuredOf r) ∧
  ∀ (cycles : Nat) (s t : State) (k : Nat), 100 ≤ cycles → exec (.blockReset cycles) s = .next t → (t.rail k).kappa = 1

/-- A reset pulse under 100 cycles only counts in RST_FILTERED; one of 100 or more resets the block, and the fused
values, RST_FILTERED, RST_REQ_CAUSE and the levels of pins stay. The scratchpad clear releases the domains after
reset. A quiet unit's waiting reset begins; one not quiet in time ends with FC_QUIESCE_TIMEOUT. CORE_RELEASE takes a
core out of reset. -/
def Obligations.BlockAndUnitResets : Prop :=
  (∀ (cycles : Nat) (s : State),
    (cycles < 100 → exec (.blockReset cycles) s =
      .next { s with sys := { s.sys with rstFiltered := min (s.sys.rstFiltered + 1) 0xFFFFFFFF } }) ∧
    (100 ≤ cycles → ∃ t, exec (.blockReset cycles) s = .next t ∧ t.fuses = s.fuses ∧ t.mem = [] ∧ t.cores = (State.fresh s.fuses 0).cores ∧
      t.clusters = [] ∧ t.dict.eff = (State.fresh s.fuses 0).dict.eff ∧ t.dict.cnt = (State.fresh s.fuses 0).dict.cnt ∧
      t.sys.phase = 1 ∧ t.sys.uptime = 0 ∧ t.sys.rstFiltered = s.sys.rstFiltered ∧ t.sys.rstCause = s.sys.rstCause ∧
      t.sys.rstReqN = true ∧ t.sys.hpUp = s.sys.hpUp ∧ t.sys.ckPresent = s.sys.ckPresent ∧
      t.sys.tap = s.sys.tap ∧ t.mgmt.nonce = Config.bootNonce s.free ∧ t.mgmt.nonce ≠ 0)) ∧
  (∀ (s : State), s.sys.phase = 1 → ∃ t, exec .scratchpadClearDone s = .next t ∧ t.sys.phase = 2 ∧
    ∀ n, n < 24 → (t.mcc n).state = .initialising) ∧
  (∀ (cluster : Bool) (index : Fin 32) (s : State) (j : RstJob), waitingJob s cluster index = some j →
    (actionOpen s = false → (j.op = 2 ∨ (unitCores s j).all (coreQuiet s) = true) →
      exec (.unitQuiet cluster index) s = .next (beginReset s j)) ∧
    exec (.quiesceTimeout cluster index) s = .next ((setRstStatus
      ({ s with sys := { s.sys with rstJobs := s.sys.rstJobs.filter (fun q => !(q.unit == j.unit && q.index == j.index)) } }
        : State) .quiesceTimeout).raise .quiesceTimeout (if cluster then 2 else 1) j.index j.value)) ∧
  ∀ (core : Fin 32) (s : State), (s.core core).inReset = true → ∃ t, exec (.coreRelease core) s = .next t ∧
    (t.core core).inReset = false ∧ (t.core core).epoch = (s.core core).epoch ∧
    ∀ c, c ≠ core.val → t.core c = s.core c

/-- The boot ROM is ready in phase 3 once every memory controller has settled, or when a restart finds no image;
firmware is ready in phase 4, and held frames, requests and cards go on. A staged image that fetches unmarked and
passes the checks becomes the staged one, else FW_STATUS shows FC_FW_INVALID. A restart that is not ready in 1 s
swaps a new image back and restarts, or lowers rst_req_n with FC_CC_WATCHDOG. -/
def Obligations.ControlComplexPhases : Prop :=
  (∀ (s : State), (s.sys.phase = 2 ∧ memorySettled s = true) ∨ (s.sys.phase = 5 ∧ s.sys.cc.active = []) →
    let t := s.updCc (fun c => { c with restarting := false, activating := false, wdtRestart := false })
    exec .bootRomReady s = .next (cardPump (pumpFrames (ccRun { t with sys := { t.sys with phase := 3 } } .bootRom)))) ∧
  (∀ (s : State), s.sys.phase = 5 → s.sys.cc.active ≠ [] →
    let t := (l2Read s l2Active s.sys.cc.active.length).1.updCc (fun c => { c with
      restarting := false, activating := false, wdtRestart := false, wdtWindow := c.wdtWindow || c.wdtRestart
      restartEnd := if c.wdtRestart then s.sys.uptime else c.restartEnd })
    exec .fwReady s = .next (cardPump (forwardAssists (pumpFrames
      (ccRun { t with sys := { t.sys with phase := 4 } } .firmware))))) ∧
  (∀ (fs : List Fetched) (s t : State) slot img m0 head, s.sys.cc.staging = some slot →
    fetchGlobal s fs (s.ent .fwImageAddr) 32 = (t, .ok, head, m0) → m0.any (fun b => b) = false →
    fieldAt head 0 4 % 16 = 0 → 64 ≤ fieldAt head 0 4 → fieldAt head 0 4 ≤ 4194304 →
    ∀ u m1, fetchGlobal t fs (s.ent .fwImageAddr) (fieldAt head 0 4) = (u, .ok, img, m1) → m1.any (fun b => b) = false →
    exec (.fwStageComplete fs) s = .next ((l2Written (u.updCc (fun c => { c with
      staging := none, staged := if fwCode u slot img = .ok then img else [] })) l2Staged (fieldAt head 0 4)).setCnt
        .fwStatus (fwCode u slot img).value)) ∧
  ∀ (s : State), s.sys.cc.restarting = true →
    (s.sys.cc.activating = true → exec .ccRestartTimeout s = .next (resetCc (((s.updCc (fun c => { swapImages c with
      activating := false })).setCnt .fwStatus FC.fwInvalid.value).raise
        .fwInvalid))) ∧
    (s.sys.cc.activating = false → exec .ccRestartTimeout s = .next (({ s with sys := { s.sys with
      rstReqN := false, rstCause := .ccWatchdog } } : State).raise .ccWatchdog))

/-- CC_WATCHDOG while a Control Complex core runs or starts firmware raises FC_CC_WATCHDOG, increments CC_WDT_EXPIRIES
and resets the Control Complex: its epoch advances, it restarts (phase 5), and every forwarded request returns to
its queue. A second expiry while firmware runs within 1,000,000 microseconds after the end of the restart that the
first caused is also fatal: rst_req_n falls and stays, with FC_CC_WATCHDOG as its cause. Otherwise rst_req_n is as
before. -/
def Obligations.WatchdogExpiry : Prop :=
  ∀ (s : State), 4 ≤ s.sys.phase → s.sys.cc.harts.any (fun h => h == .starting || h == .firmware) = true →
    let t := (s.raise .ccWatchdog).bump .ccWdtExpiries
    ∃ u, exec .ccWatchdog s = .next u ∧ u.sys.phase = 5 ∧ u.sys.cc.epoch = s.sys.cc.epoch + 1 ∧
      u.sys.cc.restarting = true ∧ u.dict = t.dict ∧ u.mgmt.events = t.mgmt.events ∧ u.mgmt.nextEvent = s.mgmt.nextEvent + 1 ∧
      (∀ a ∈ u.mgmt.assists, a.place = none) ∧ u.mem = t.mem ∧ u.cores = t.cores ∧ u.charts = t.charts ∧
      (s.sys.phase = 4 → s.sys.cc.wdtWindow = true → s.sys.uptime ≤ s.sys.cc.restartEnd + 1000000 →
        u.sys.rstReqN = false ∧ u.sys.rstCause = .ccWatchdog) ∧
      ((s.sys.phase ≠ 4 ∨ s.sys.cc.wdtWindow = false ∨ s.sys.cc.restartEnd + 1000000 < s.sys.uptime) →
        u.sys.rstReqN = s.sys.rstReqN ∧ u.sys.rstCause = s.sys.rstCause)

/-- A local PUT of an agent other than a command processor that the checks accept, of as many unmarked bytes as its
length says, in HBM outside the descriptor and share count tables, that meets no bit error on its way: afterwards
the bytes from its address on read as its data, and every other address reads as before. -/
def Obligations.PutsLandByteByByte : Prop :=
  ∀ (r : Req) (i : Issuer) (s t : State), r.origin = .inside i → (∀ c x, i ≠ .remoteOp c x) →
    isLocal s r.node = true → PlainAt s r.addr →
    insideCode s .put r = .ok → effectCode s .put r = .ok → r.data.length = r.len → r.poison = [] → r.addr + r.len ≤ hbmEnd →
    inDescTable s r.addr r.len = false → inPartTables s r.addr r.len = false → s.sys.fab.flips = [] →
    s.sys.mcFlips = [] → s.sev = [] → exec (.put r) s = .next t →
    (∀ j, j < r.len → t.byte (r.addr + j) = r.data.getD j 0) ∧
    ∀ a, a < r.addr ∨ r.addr + r.len ≤ a → t.byte a = s.byte a
end

