-- ==== Sys2Proof/Laws/Memory.lean ====
section
/-!
SUPPORT. Memory: its operations keep the canonical form, a byte stored is the byte read, and a store leaves every other
byte alone.
-/

namespace Sys2Proof.Machine

open Sys2Proof

/-! ## The canonical form as a property of the list -/

/-- The canonical form, said of the list: keys rise, and no value is the one an unlisted byte reads as. -/
theorem Memory.wf_iff (m : FMap Byte) :
    Memory.wf m = true ↔ m.Pairwise (fun p q => p.1 < q.1) ∧ ∀ p ∈ m, p.2 ≠ 0 := by
  induction m with
  | nil => simp [Memory.wf]
  | cons p r ih =>
    obtain ⟨k, b⟩ := p
    simp only [Memory.wf, Bool.and_eq_true, bne_iff_ne, List.all_eq_true, decide_eq_true_eq, ih, List.pairwise_cons,
      List.forall_mem_cons]
    exact ⟨fun ⟨⟨hb, hk⟩, hp, hv⟩ => ⟨⟨hk, hp⟩, hb, hv⟩, fun ⟨⟨hk, hp⟩, hb, hv⟩ => ⟨⟨hb, hk⟩, hp, hv⟩⟩

/-- Empty memory is canonical. -/
theorem Memory.wf_nil : Memory.wf [] = true := rfl

/-- Leaving entries out keeps the canonical form. -/
theorem Memory.wf_filter {m : FMap Byte} (f : Nat × Byte → Bool) (h : Memory.wf m = true) :
    Memory.wf (m.filter f) = true := by
  rw [Memory.wf_iff] at *
  exact ⟨h.1.filter f, fun p hp => h.2 p (List.mem_filter.mp hp).1⟩

/-- A key of a map after a put is the new one or an old one. -/
theorem Map.mem_put {α : Type} {m : FMap α} {k : Nat} {v : α} {p : Nat × α} (h : p ∈ Map.put m k v) :
    p = (k, v) ∨ p ∈ m := by
  induction m with
  | nil => simpa [Map.put] using h
  | cons q r ih =>
    obtain ⟨k', v'⟩ := q
    unfold Map.put at h
    split at h
    · simpa using h
    · split at h
      · rcases List.mem_cons.mp h with h | h
        · exact .inl h
        · exact .inr (List.mem_cons_of_mem _ h)
      · rcases List.mem_cons.mp h with h | h
        · exact .inr (by simp [h])
        · rcases ih h with h | h
          · exact .inl h
          · exact .inr (List.mem_cons_of_mem _ h)

/-- A put keeps keys rising. -/
theorem Map.put_pairwise {α : Type} {m : FMap α} {k : Nat} {v : α} (h : m.Pairwise (fun p q => p.1 < q.1)) :
    (Map.put m k v).Pairwise (fun p q => p.1 < q.1) := by
  induction m with
  | nil => simp [Map.put]
  | cons q r ih =>
    obtain ⟨k', v'⟩ := q
    have hr := List.pairwise_cons.mp h
    unfold Map.put
    split
    · rename_i hlt
      refine List.pairwise_cons.mpr ⟨?_, h⟩
      intro x hx
      rcases List.mem_cons.mp hx with rfl | hx
      · exact hlt
      · exact Nat.lt_trans hlt (hr.1 x hx)
    · split
      · rename_i _ he
        subst he
        exact List.pairwise_cons.mpr ⟨fun x hx => hr.1 x hx, hr.2⟩
      · rename_i h1 h2
        refine List.pairwise_cons.mpr ⟨?_, ih hr.2⟩
        intro x hx
        rcases Map.mem_put hx with rfl | hx
        · simp only; omega
        · exact hr.1 x hx

/-- Storing a byte keeps the canonical form. -/
theorem Memory.wf_memSet {m : FMap Byte} (a : Nat) (b : Byte) (h : Memory.wf m = true) :
    Memory.wf (memSet m a b) = true := by
  unfold memSet
  split
  · exact Memory.wf_filter _ h
  · rename_i hb
    rw [Memory.wf_iff] at *
    refine ⟨Map.put_pairwise h.1, fun p hp => ?_⟩
    rcases Map.mem_put hp with rfl | hp
    · exact hb
    · exact h.2 p hp

/-- Storing bytes keeps the canonical form. -/
theorem Memory.wf_memSetAll {m : FMap Byte} (a : Nat) (bs : List Byte) (h : Memory.wf m = true) :
    Memory.wf (memSetAll m a bs) = true := by
  induction bs generalizing m a with
  | nil => exact h
  | cons b r ih => exact ih _ (Memory.wf_memSet _ _ h)

/-! ## Read over write -/

/-- The value at the key of a put. -/
@[simp] theorem Map.get_put_same {α : Type} (m : FMap α) (k : Nat) (v d : α) : Map.get (Map.put m k v) k d = v := by
  induction m with
  | nil => simp [Map.put, Map.get]
  | cons q r ih =>
    obtain ⟨k', v'⟩ := q
    unfold Map.put
    split
    · simp [Map.get]
    · split
      · simp [Map.get]
      · rename_i h1 h2
        simp [Map.get, h2, ih]

/-- A put leaves the value at every other key. -/
theorem Map.get_put_other {α : Type} (m : FMap α) {k k' : Nat} (v d : α) (h : k' ≠ k) :
    Map.get (Map.put m k v) k' d = Map.get m k' d := by
  induction m with
  | nil => simp [Map.put, Map.get, Ne.symm h]
  | cons q r ih =>
    obtain ⟨a, w⟩ := q
    unfold Map.put
    split
    · simp [Map.get, Ne.symm h]
    · split
      · rename_i _ he
        subst he
        simp [Map.get, Ne.symm h]
      · simp only [Map.get, ih]

/-- The value of an updated key. -/
@[simp] theorem Map.get_upd_same {α : Type} (m : FMap α) (k : Nat) (d : α) (f : α → α) :
    Map.get (Map.upd m k d f) k d = f (Map.get m k d) := by simp [Map.upd]

/-- An update leaves every other key. -/
theorem Map.get_upd_other {α : Type} (m : FMap α) {k k' : Nat} (d d' : α) (f : α → α) (h : k' ≠ k) :
    Map.get (Map.upd m k d f) k' d' = Map.get m k' d' := Map.get_put_other m _ _ h

/-- The value of any key after an update. -/
theorem Map.get_upd {α : Type} (m : FMap α) (k k' : Nat) (d : α) (f : α → α) :
    Map.get (Map.upd m k d f) k' d = if k' = k then f (Map.get m k d) else Map.get m k' d := by
  split
  · rename_i h; subst h; simp
  · exact Map.get_upd_other m d d f (by assumption)

/-- An erased key reads as the default, and the others as before. -/
theorem Map.get_erase {α : Type} (m : FMap α) (k k' : Nat) (d : α) :
    Map.get (Map.erase m k) k' d = if k' = k then d else Map.get m k' d := by
  induction m with
  | nil => simp [Map.erase, Map.get]
  | cons q r ih =>
    obtain ⟨a, w⟩ := q
    simp only [Map.erase, List.filter_cons] at *
    by_cases ha : a = k
    · subst ha
      simp only [bne_self_eq_false, Bool.false_eq_true, if_false, ih, Map.get]
      split
      · rfl
      · rename_i h; simp [Ne.symm h]
    · simp only [bne_iff_ne, ne_eq, ha, not_false_eq_true, if_true, Map.get, ih]
      split
      · rename_i h; subst h; simp [ha]
      · rfl

/-- A byte stored is the byte read, and no other byte changes. -/
theorem memByte_memSet (m : FMap Byte) (a x : Nat) (b : Byte) :
    memByte (memSet m a b) x = if x = a then b else memByte m x := by
  unfold memByte memSet
  split
  · rename_i hb
    rw [Map.get_erase]
    split
    · exact hb.symm
    · rfl
  · split
    · rename_i h; subst h; simp
    · exact Map.get_put_other m _ _ (by assumption)

/-- A stored run of bytes reads back, and no other byte changes. -/
theorem memByte_memSetAll (m : FMap Byte) (a x : Nat) (bs : List Byte) :
    memByte (memSetAll m a bs) x = if a ≤ x ∧ x < a + bs.length then bs.getD (x - a) 0 else memByte m x := by
  induction bs generalizing m a with
  | nil => rw [if_neg (by simp only [List.length_nil]; omega)]; rfl
  | cons b r ih =>
    simp only [memSetAll, ih, memByte_memSet, List.length_cons]
    by_cases h1 : x = a
    · subst h1
      rw [if_neg (by omega), if_pos rfl, if_pos (by omega)]
      simp
    · by_cases h2 : a + 1 ≤ x ∧ x < a + 1 + r.length
      · rw [if_pos h2, if_pos (by omega), show x - a = x - (a + 1) + 1 from by omega]
        simp
      · rw [if_neg h2, if_neg h1, if_neg (by omega)]

end Sys2Proof.Machine
end

