-- ==== Sys2Proof/Laws/State.lean ====
section
/-!
SUPPORT. What each update of a part of the state leaves alone, field by field, and what a lookup reads after an update:
rules for `simp`, so that no proof unfolds a record update.
-/

namespace Sys2Proof.Machine

open Sys2Proof

/-! ## State.updCore -/

@[simp] theorem State.updCore_pending (s : State) (c : Nat) (f : Core → Core) : (s.updCore c f).pending = s.pending := rfl
@[simp] theorem State.updCore_fuses (s : State) (c : Nat) (f : Core → Core) : (s.updCore c f).fuses = s.fuses := rfl
@[simp] theorem State.updCore_mem (s : State) (c : Nat) (f : Core → Core) : (s.updCore c f).mem = s.mem := rfl
@[simp] theorem State.updCore_syn (s : State) (c : Nat) (f : Core → Core) : (s.updCore c f).syn = s.syn := rfl
@[simp] theorem State.updCore_sev (s : State) (c : Nat) (f : Core → Core) : (s.updCore c f).sev = s.sev := rfl
@[simp] theorem State.updCore_wtags (s : State) (c : Nat) (f : Core → Core) : (s.updCore c f).wtags = s.wtags := rfl
@[simp] theorem State.updCore_dict (s : State) (c : Nat) (f : Core → Core) : (s.updCore c f).dict = s.dict := rfl
@[simp] theorem State.updCore_charts (s : State) (c : Nat) (f : Core → Core) : (s.updCore c f).charts = s.charts := rfl
@[simp] theorem State.updCore_sched (s : State) (c : Nat) (f : Core → Core) : (s.updCore c f).sched = s.sched := rfl
@[simp] theorem State.updCore_remote (s : State) (c : Nat) (f : Core → Core) : (s.updCore c f).remote = s.remote := rfl
@[simp] theorem State.updCore_clusters (s : State) (c : Nat) (f : Core → Core) : (s.updCore c f).clusters = s.clusters := rfl
@[simp] theorem State.updCore_wires (s : State) (c : Nat) (f : Core → Core) : (s.updCore c f).wires = s.wires := rfl
@[simp] theorem State.updCore_mcasts (s : State) (c : Nat) (f : Core → Core) : (s.updCore c f).mcasts = s.mcasts := rfl
@[simp] theorem State.updCore_ports (s : State) (c : Nat) (f : Core → Core) : (s.updCore c f).ports = s.ports := rfl
@[simp] theorem State.updCore_form (s : State) (c : Nat) (f : Core → Core) : (s.updCore c f).form = s.form := rfl
@[simp] theorem State.updCore_mgmt (s : State) (c : Nat) (f : Core → Core) : (s.updCore c f).mgmt = s.mgmt := rfl
@[simp] theorem State.updCore_sys (s : State) (c : Nat) (f : Core → Core) : (s.updCore c f).sys = s.sys := rfl
@[simp] theorem State.updCore_outbox (s : State) (c : Nat) (f : Core → Core) : (s.updCore c f).outbox = s.outbox := rfl
@[simp] theorem State.updCore_free (s : State) (c : Nat) (f : Core → Core) : (s.updCore c f).free = s.free := rfl

/-! ## State.updCtx -/

@[simp] theorem State.updCtx_pending (s : State) (c x : Nat) (f : Ctx → Ctx) : (s.updCtx c x f).pending = s.pending := rfl
@[simp] theorem State.updCtx_fuses (s : State) (c x : Nat) (f : Ctx → Ctx) : (s.updCtx c x f).fuses = s.fuses := rfl
@[simp] theorem State.updCtx_mem (s : State) (c x : Nat) (f : Ctx → Ctx) : (s.updCtx c x f).mem = s.mem := rfl
@[simp] theorem State.updCtx_syn (s : State) (c x : Nat) (f : Ctx → Ctx) : (s.updCtx c x f).syn = s.syn := rfl
@[simp] theorem State.updCtx_sev (s : State) (c x : Nat) (f : Ctx → Ctx) : (s.updCtx c x f).sev = s.sev := rfl
@[simp] theorem State.updCtx_wtags (s : State) (c x : Nat) (f : Ctx → Ctx) : (s.updCtx c x f).wtags = s.wtags := rfl
@[simp] theorem State.updCtx_dict (s : State) (c x : Nat) (f : Ctx → Ctx) : (s.updCtx c x f).dict = s.dict := rfl
@[simp] theorem State.updCtx_charts (s : State) (c x : Nat) (f : Ctx → Ctx) : (s.updCtx c x f).charts = s.charts := rfl
@[simp] theorem State.updCtx_sched (s : State) (c x : Nat) (f : Ctx → Ctx) : (s.updCtx c x f).sched = s.sched := rfl
@[simp] theorem State.updCtx_remote (s : State) (c x : Nat) (f : Ctx → Ctx) : (s.updCtx c x f).remote = s.remote := rfl
@[simp] theorem State.updCtx_clusters (s : State) (c x : Nat) (f : Ctx → Ctx) : (s.updCtx c x f).clusters = s.clusters := rfl
@[simp] theorem State.updCtx_wires (s : State) (c x : Nat) (f : Ctx → Ctx) : (s.updCtx c x f).wires = s.wires := rfl
@[simp] theorem State.updCtx_mcasts (s : State) (c x : Nat) (f : Ctx → Ctx) : (s.updCtx c x f).mcasts = s.mcasts := rfl
@[simp] theorem State.updCtx_ports (s : State) (c x : Nat) (f : Ctx → Ctx) : (s.updCtx c x f).ports = s.ports := rfl
@[simp] theorem State.updCtx_form (s : State) (c x : Nat) (f : Ctx → Ctx) : (s.updCtx c x f).form = s.form := rfl
@[simp] theorem State.updCtx_mgmt (s : State) (c x : Nat) (f : Ctx → Ctx) : (s.updCtx c x f).mgmt = s.mgmt := rfl
@[simp] theorem State.updCtx_sys (s : State) (c x : Nat) (f : Ctx → Ctx) : (s.updCtx c x f).sys = s.sys := rfl
@[simp] theorem State.updCtx_outbox (s : State) (c x : Nat) (f : Ctx → Ctx) : (s.updCtx c x f).outbox = s.outbox := rfl
@[simp] theorem State.updCtx_free (s : State) (c x : Nat) (f : Ctx → Ctx) : (s.updCtx c x f).free = s.free := rfl

/-! ## State.updCluster -/

@[simp] theorem State.updCluster_pending (s : State) (k : Nat) (f : Cluster → Cluster) : (s.updCluster k f).pending = s.pending := rfl
@[simp] theorem State.updCluster_fuses (s : State) (k : Nat) (f : Cluster → Cluster) : (s.updCluster k f).fuses = s.fuses := rfl
@[simp] theorem State.updCluster_mem (s : State) (k : Nat) (f : Cluster → Cluster) : (s.updCluster k f).mem = s.mem := rfl
@[simp] theorem State.updCluster_syn (s : State) (k : Nat) (f : Cluster → Cluster) : (s.updCluster k f).syn = s.syn := rfl
@[simp] theorem State.updCluster_sev (s : State) (k : Nat) (f : Cluster → Cluster) : (s.updCluster k f).sev = s.sev := rfl
@[simp] theorem State.updCluster_wtags (s : State) (k : Nat) (f : Cluster → Cluster) : (s.updCluster k f).wtags = s.wtags := rfl
@[simp] theorem State.updCluster_dict (s : State) (k : Nat) (f : Cluster → Cluster) : (s.updCluster k f).dict = s.dict := rfl
@[simp] theorem State.updCluster_charts (s : State) (k : Nat) (f : Cluster → Cluster) : (s.updCluster k f).charts = s.charts := rfl
@[simp] theorem State.updCluster_sched (s : State) (k : Nat) (f : Cluster → Cluster) : (s.updCluster k f).sched = s.sched := rfl
@[simp] theorem State.updCluster_remote (s : State) (k : Nat) (f : Cluster → Cluster) : (s.updCluster k f).remote = s.remote := rfl
@[simp] theorem State.updCluster_cores (s : State) (k : Nat) (f : Cluster → Cluster) : (s.updCluster k f).cores = s.cores := rfl
@[simp] theorem State.updCluster_wires (s : State) (k : Nat) (f : Cluster → Cluster) : (s.updCluster k f).wires = s.wires := rfl
@[simp] theorem State.updCluster_mcasts (s : State) (k : Nat) (f : Cluster → Cluster) : (s.updCluster k f).mcasts = s.mcasts := rfl
@[simp] theorem State.updCluster_ports (s : State) (k : Nat) (f : Cluster → Cluster) : (s.updCluster k f).ports = s.ports := rfl
@[simp] theorem State.updCluster_form (s : State) (k : Nat) (f : Cluster → Cluster) : (s.updCluster k f).form = s.form := rfl
@[simp] theorem State.updCluster_mgmt (s : State) (k : Nat) (f : Cluster → Cluster) : (s.updCluster k f).mgmt = s.mgmt := rfl
@[simp] theorem State.updCluster_sys (s : State) (k : Nat) (f : Cluster → Cluster) : (s.updCluster k f).sys = s.sys := rfl
@[simp] theorem State.updCluster_outbox (s : State) (k : Nat) (f : Cluster → Cluster) : (s.updCluster k f).outbox = s.outbox := rfl
@[simp] theorem State.updCluster_free (s : State) (k : Nat) (f : Cluster → Cluster) : (s.updCluster k f).free = s.free := rfl

/-! ## State.updWire -/

@[simp] theorem State.updWire_pending (s : State) (w : Nat) (f : Wire → Wire) : (s.updWire w f).pending = s.pending := rfl
@[simp] theorem State.updWire_fuses (s : State) (w : Nat) (f : Wire → Wire) : (s.updWire w f).fuses = s.fuses := rfl
@[simp] theorem State.updWire_mem (s : State) (w : Nat) (f : Wire → Wire) : (s.updWire w f).mem = s.mem := rfl
@[simp] theorem State.updWire_syn (s : State) (w : Nat) (f : Wire → Wire) : (s.updWire w f).syn = s.syn := rfl
@[simp] theorem State.updWire_sev (s : State) (w : Nat) (f : Wire → Wire) : (s.updWire w f).sev = s.sev := rfl
@[simp] theorem State.updWire_wtags (s : State) (w : Nat) (f : Wire → Wire) : (s.updWire w f).wtags = s.wtags := rfl
@[simp] theorem State.updWire_dict (s : State) (w : Nat) (f : Wire → Wire) : (s.updWire w f).dict = s.dict := rfl
@[simp] theorem State.updWire_charts (s : State) (w : Nat) (f : Wire → Wire) : (s.updWire w f).charts = s.charts := rfl
@[simp] theorem State.updWire_sched (s : State) (w : Nat) (f : Wire → Wire) : (s.updWire w f).sched = s.sched := rfl
@[simp] theorem State.updWire_remote (s : State) (w : Nat) (f : Wire → Wire) : (s.updWire w f).remote = s.remote := rfl
@[simp] theorem State.updWire_cores (s : State) (w : Nat) (f : Wire → Wire) : (s.updWire w f).cores = s.cores := rfl
@[simp] theorem State.updWire_clusters (s : State) (w : Nat) (f : Wire → Wire) : (s.updWire w f).clusters = s.clusters := rfl
@[simp] theorem State.updWire_mcasts (s : State) (w : Nat) (f : Wire → Wire) : (s.updWire w f).mcasts = s.mcasts := rfl
@[simp] theorem State.updWire_ports (s : State) (w : Nat) (f : Wire → Wire) : (s.updWire w f).ports = s.ports := rfl
@[simp] theorem State.updWire_form (s : State) (w : Nat) (f : Wire → Wire) : (s.updWire w f).form = s.form := rfl
@[simp] theorem State.updWire_mgmt (s : State) (w : Nat) (f : Wire → Wire) : (s.updWire w f).mgmt = s.mgmt := rfl
@[simp] theorem State.updWire_sys (s : State) (w : Nat) (f : Wire → Wire) : (s.updWire w f).sys = s.sys := rfl
@[simp] theorem State.updWire_outbox (s : State) (w : Nat) (f : Wire → Wire) : (s.updWire w f).outbox = s.outbox := rfl
@[simp] theorem State.updWire_free (s : State) (w : Nat) (f : Wire → Wire) : (s.updWire w f).free = s.free := rfl

/-! ## State.updMcc -/

@[simp] theorem State.updMcc_pending (s : State) (n : Nat) (f : Mcc → Mcc) : (s.updMcc n f).pending = s.pending := rfl
@[simp] theorem State.updMcc_fuses (s : State) (n : Nat) (f : Mcc → Mcc) : (s.updMcc n f).fuses = s.fuses := rfl
@[simp] theorem State.updMcc_mem (s : State) (n : Nat) (f : Mcc → Mcc) : (s.updMcc n f).mem = s.mem := rfl
@[simp] theorem State.updMcc_syn (s : State) (n : Nat) (f : Mcc → Mcc) : (s.updMcc n f).syn = s.syn := rfl
@[simp] theorem State.updMcc_sev (s : State) (n : Nat) (f : Mcc → Mcc) : (s.updMcc n f).sev = s.sev := rfl
@[simp] theorem State.updMcc_wtags (s : State) (n : Nat) (f : Mcc → Mcc) : (s.updMcc n f).wtags = s.wtags := rfl
@[simp] theorem State.updMcc_dict (s : State) (n : Nat) (f : Mcc → Mcc) : (s.updMcc n f).dict = s.dict := rfl
@[simp] theorem State.updMcc_charts (s : State) (n : Nat) (f : Mcc → Mcc) : (s.updMcc n f).charts = s.charts := rfl
@[simp] theorem State.updMcc_sched (s : State) (n : Nat) (f : Mcc → Mcc) : (s.updMcc n f).sched = s.sched := rfl
@[simp] theorem State.updMcc_remote (s : State) (n : Nat) (f : Mcc → Mcc) : (s.updMcc n f).remote = s.remote := rfl
@[simp] theorem State.updMcc_cores (s : State) (n : Nat) (f : Mcc → Mcc) : (s.updMcc n f).cores = s.cores := rfl
@[simp] theorem State.updMcc_clusters (s : State) (n : Nat) (f : Mcc → Mcc) : (s.updMcc n f).clusters = s.clusters := rfl
@[simp] theorem State.updMcc_wires (s : State) (n : Nat) (f : Mcc → Mcc) : (s.updMcc n f).wires = s.wires := rfl
@[simp] theorem State.updMcc_mcasts (s : State) (n : Nat) (f : Mcc → Mcc) : (s.updMcc n f).mcasts = s.mcasts := rfl
@[simp] theorem State.updMcc_ports (s : State) (n : Nat) (f : Mcc → Mcc) : (s.updMcc n f).ports = s.ports := rfl
@[simp] theorem State.updMcc_form (s : State) (n : Nat) (f : Mcc → Mcc) : (s.updMcc n f).form = s.form := rfl
@[simp] theorem State.updMcc_mgmt (s : State) (n : Nat) (f : Mcc → Mcc) : (s.updMcc n f).mgmt = s.mgmt := rfl
@[simp] theorem State.updMcc_outbox (s : State) (n : Nat) (f : Mcc → Mcc) : (s.updMcc n f).outbox = s.outbox := rfl
@[simp] theorem State.updMcc_free (s : State) (n : Nat) (f : Mcc → Mcc) : (s.updMcc n f).free = s.free := rfl
@[simp] theorem State.updMcc_sys_hpUp (s : State) (n : Nat) (f : Mcc → Mcc) : (s.updMcc n f).sys.hpUp = s.sys.hpUp := rfl
@[simp] theorem State.updMcc_sys_ckPresent (s : State) (n : Nat) (f : Mcc → Mcc) : (s.updMcc n f).sys.ckPresent = s.sys.ckPresent := rfl
@[simp] theorem State.updMcc_sys_gov (s : State) (n : Nat) (f : Mcc → Mcc) : (s.updMcc n f).sys.gov = s.sys.gov := rfl
@[simp] theorem State.updMcc_sys_cc (s : State) (n : Nat) (f : Mcc → Mcc) : (s.updMcc n f).sys.cc = s.sys.cc := rfl
@[simp] theorem State.updMcc_sys_rstJobs (s : State) (n : Nat) (f : Mcc → Mcc) : (s.updMcc n f).sys.rstJobs = s.sys.rstJobs := rfl
@[simp] theorem State.updMcc_sys_phase (s : State) (n : Nat) (f : Mcc → Mcc) : (s.updMcc n f).sys.phase = s.sys.phase := rfl
@[simp] theorem State.updMcc_sys_rstReqN (s : State) (n : Nat) (f : Mcc → Mcc) : (s.updMcc n f).sys.rstReqN = s.sys.rstReqN := rfl
@[simp] theorem State.updMcc_sys_rstCause (s : State) (n : Nat) (f : Mcc → Mcc) : (s.updMcc n f).sys.rstCause = s.sys.rstCause := rfl
@[simp] theorem State.updMcc_sys_rstFiltered (s : State) (n : Nat) (f : Mcc → Mcc) : (s.updMcc n f).sys.rstFiltered = s.sys.rstFiltered := rfl
@[simp] theorem State.updMcc_sys_issueStopped (s : State) (n : Nat) (f : Mcc → Mcc) : (s.updMcc n f).sys.issueStopped = s.sys.issueStopped := rfl
@[simp] theorem State.updMcc_sys_held (s : State) (n : Nat) (f : Mcc → Mcc) : (s.updMcc n f).sys.held = s.sys.held := rfl
@[simp] theorem State.updMcc_sys_rateActive (s : State) (n : Nat) (f : Mcc → Mcc) : (s.updMcc n f).sys.rateActive = s.sys.rateActive := rfl
@[simp] theorem State.updMcc_sys_uptime (s : State) (n : Nat) (f : Mcc → Mcc) : (s.updMcc n f).sys.uptime = s.sys.uptime := rfl
@[simp] theorem State.updMcc_sys_coreCycles (s : State) (n : Nat) (f : Mcc → Mcc) : (s.updMcc n f).sys.coreCycles = s.sys.coreCycles := rfl
@[simp] theorem State.updMcc_sys_mgmtCycles (s : State) (n : Nat) (f : Mcc → Mcc) : (s.updMcc n f).sys.mgmtCycles = s.sys.mgmtCycles := rfl
@[simp] theorem State.updMcc_sys_cards (s : State) (n : Nat) (f : Mcc → Mcc) : (s.updMcc n f).sys.cards = s.sys.cards := rfl
@[simp] theorem State.updMcc_sys_cardWait (s : State) (n : Nat) (f : Mcc → Mcc) : (s.updMcc n f).sys.cardWait = s.sys.cardWait := rfl
@[simp] theorem State.updMcc_sys_trace (s : State) (n : Nat) (f : Mcc → Mcc) : (s.updMcc n f).sys.trace = s.sys.trace := rfl
@[simp] theorem State.updMcc_sys_wfg (s : State) (n : Nat) (f : Mcc → Mcc) : (s.updMcc n f).sys.wfg = s.sys.wfg := rfl
@[simp] theorem State.updMcc_sys_wfgSets (s : State) (n : Nat) (f : Mcc → Mcc) : (s.updMcc n f).sys.wfgSets = s.sys.wfgSets := rfl
@[simp] theorem State.updMcc_sys_linkSeen (s : State) (n : Nat) (f : Mcc → Mcc) : (s.updMcc n f).sys.linkSeen = s.sys.linkSeen := rfl
@[simp] theorem State.updMcc_sys_aggPrev (s : State) (n : Nat) (f : Mcc → Mcc) : (s.updMcc n f).sys.aggPrev = s.sys.aggPrev := rfl
@[simp] theorem State.updMcc_sys_discards (s : State) (n : Nat) (f : Mcc → Mcc) : (s.updMcc n f).sys.discards = s.sys.discards := rfl
@[simp] theorem State.updMcc_sys_fab (s : State) (n : Nat) (f : Mcc → Mcc) : (s.updMcc n f).sys.fab = s.sys.fab := rfl
@[simp] theorem State.updMcc_sys_mcFlips (s : State) (n : Nat) (f : Mcc → Mcc) : (s.updMcc n f).sys.mcFlips = s.sys.mcFlips := rfl
@[simp] theorem State.updMcc_sys_tap (s : State) (n : Nat) (f : Mcc → Mcc) : (s.updMcc n f).sys.tap = s.sys.tap := rfl

/-! ## State.updPort -/

@[simp] theorem State.updPort_pending (s : State) (n : Nat) (f : Port → Port) : (s.updPort n f).pending = s.pending := rfl
@[simp] theorem State.updPort_fuses (s : State) (n : Nat) (f : Port → Port) : (s.updPort n f).fuses = s.fuses := rfl
@[simp] theorem State.updPort_mem (s : State) (n : Nat) (f : Port → Port) : (s.updPort n f).mem = s.mem := rfl
@[simp] theorem State.updPort_syn (s : State) (n : Nat) (f : Port → Port) : (s.updPort n f).syn = s.syn := rfl
@[simp] theorem State.updPort_sev (s : State) (n : Nat) (f : Port → Port) : (s.updPort n f).sev = s.sev := rfl
@[simp] theorem State.updPort_wtags (s : State) (n : Nat) (f : Port → Port) : (s.updPort n f).wtags = s.wtags := rfl
@[simp] theorem State.updPort_dict (s : State) (n : Nat) (f : Port → Port) : (s.updPort n f).dict = s.dict := rfl
@[simp] theorem State.updPort_charts (s : State) (n : Nat) (f : Port → Port) : (s.updPort n f).charts = s.charts := rfl
@[simp] theorem State.updPort_sched (s : State) (n : Nat) (f : Port → Port) : (s.updPort n f).sched = s.sched := rfl
@[simp] theorem State.updPort_remote (s : State) (n : Nat) (f : Port → Port) : (s.updPort n f).remote = s.remote := rfl
@[simp] theorem State.updPort_cores (s : State) (n : Nat) (f : Port → Port) : (s.updPort n f).cores = s.cores := rfl
@[simp] theorem State.updPort_clusters (s : State) (n : Nat) (f : Port → Port) : (s.updPort n f).clusters = s.clusters := rfl
@[simp] theorem State.updPort_wires (s : State) (n : Nat) (f : Port → Port) : (s.updPort n f).wires = s.wires := rfl
@[simp] theorem State.updPort_mcasts (s : State) (n : Nat) (f : Port → Port) : (s.updPort n f).mcasts = s.mcasts := rfl
@[simp] theorem State.updPort_form (s : State) (n : Nat) (f : Port → Port) : (s.updPort n f).form = s.form := rfl
@[simp] theorem State.updPort_mgmt (s : State) (n : Nat) (f : Port → Port) : (s.updPort n f).mgmt = s.mgmt := rfl
@[simp] theorem State.updPort_sys (s : State) (n : Nat) (f : Port → Port) : (s.updPort n f).sys = s.sys := rfl
@[simp] theorem State.updPort_outbox (s : State) (n : Nat) (f : Port → Port) : (s.updPort n f).outbox = s.outbox := rfl
@[simp] theorem State.updPort_free (s : State) (n : Nat) (f : Port → Port) : (s.updPort n f).free = s.free := rfl

/-! ## State.updPass -/

@[simp] theorem State.updPass_pending (s : State) (n : Nat) (f : Pass → Pass) : (s.updPass n f).pending = s.pending := rfl
@[simp] theorem State.updPass_fuses (s : State) (n : Nat) (f : Pass → Pass) : (s.updPass n f).fuses = s.fuses := rfl
@[simp] theorem State.updPass_mem (s : State) (n : Nat) (f : Pass → Pass) : (s.updPass n f).mem = s.mem := rfl
@[simp] theorem State.updPass_syn (s : State) (n : Nat) (f : Pass → Pass) : (s.updPass n f).syn = s.syn := rfl
@[simp] theorem State.updPass_sev (s : State) (n : Nat) (f : Pass → Pass) : (s.updPass n f).sev = s.sev := rfl
@[simp] theorem State.updPass_wtags (s : State) (n : Nat) (f : Pass → Pass) : (s.updPass n f).wtags = s.wtags := rfl
@[simp] theorem State.updPass_dict (s : State) (n : Nat) (f : Pass → Pass) : (s.updPass n f).dict = s.dict := rfl
@[simp] theorem State.updPass_charts (s : State) (n : Nat) (f : Pass → Pass) : (s.updPass n f).charts = s.charts := rfl
@[simp] theorem State.updPass_sched (s : State) (n : Nat) (f : Pass → Pass) : (s.updPass n f).sched = s.sched := rfl
@[simp] theorem State.updPass_cores (s : State) (n : Nat) (f : Pass → Pass) : (s.updPass n f).cores = s.cores := rfl
@[simp] theorem State.updPass_clusters (s : State) (n : Nat) (f : Pass → Pass) : (s.updPass n f).clusters = s.clusters := rfl
@[simp] theorem State.updPass_wires (s : State) (n : Nat) (f : Pass → Pass) : (s.updPass n f).wires = s.wires := rfl
@[simp] theorem State.updPass_mcasts (s : State) (n : Nat) (f : Pass → Pass) : (s.updPass n f).mcasts = s.mcasts := rfl
@[simp] theorem State.updPass_ports (s : State) (n : Nat) (f : Pass → Pass) : (s.updPass n f).ports = s.ports := rfl
@[simp] theorem State.updPass_form (s : State) (n : Nat) (f : Pass → Pass) : (s.updPass n f).form = s.form := rfl
@[simp] theorem State.updPass_mgmt (s : State) (n : Nat) (f : Pass → Pass) : (s.updPass n f).mgmt = s.mgmt := rfl
@[simp] theorem State.updPass_sys (s : State) (n : Nat) (f : Pass → Pass) : (s.updPass n f).sys = s.sys := rfl
@[simp] theorem State.updPass_outbox (s : State) (n : Nat) (f : Pass → Pass) : (s.updPass n f).outbox = s.outbox := rfl
@[simp] theorem State.updPass_free (s : State) (n : Nat) (f : Pass → Pass) : (s.updPass n f).free = s.free := rfl
@[simp] theorem State.updPass_remote_log (s : State) (n : Nat) (f : Pass → Pass) : (s.updPass n f).remote.log = s.remote.log := rfl
@[simp] theorem State.updPass_remote_rwt (s : State) (n : Nat) (f : Pass → Pass) : (s.updPass n f).remote.rwt = s.remote.rwt := rfl
@[simp] theorem State.updPass_remote_incrs (s : State) (n : Nat) (f : Pass → Pass) : (s.updPass n f).remote.incrs = s.remote.incrs := rfl
@[simp] theorem State.updPass_remote_pairs (s : State) (n : Nat) (f : Pass → Pass) : (s.updPass n f).remote.pairs = s.remote.pairs := rfl
@[simp] theorem State.updPass_remote_out (s : State) (n : Nat) (f : Pass → Pass) : (s.updPass n f).remote.out = s.remote.out := rfl
@[simp] theorem State.updPass_remote_nextReq (s : State) (n : Nat) (f : Pass → Pass) : (s.updPass n f).remote.nextReq = s.remote.nextReq := rfl
@[simp] theorem State.updPass_remote_sseq (s : State) (n : Nat) (f : Pass → Pass) : (s.updPass n f).remote.sseq = s.remote.sseq := rfl

/-! ## State.updDesc -/

@[simp] theorem State.updDesc_pending (s : State) (n : Nat) (f : Desc → Desc) : (s.updDesc n f).pending = s.pending := rfl
@[simp] theorem State.updDesc_fuses (s : State) (n : Nat) (f : Desc → Desc) : (s.updDesc n f).fuses = s.fuses := rfl
@[simp] theorem State.updDesc_mem (s : State) (n : Nat) (f : Desc → Desc) : (s.updDesc n f).mem = s.mem := rfl
@[simp] theorem State.updDesc_syn (s : State) (n : Nat) (f : Desc → Desc) : (s.updDesc n f).syn = s.syn := rfl
@[simp] theorem State.updDesc_sev (s : State) (n : Nat) (f : Desc → Desc) : (s.updDesc n f).sev = s.sev := rfl
@[simp] theorem State.updDesc_wtags (s : State) (n : Nat) (f : Desc → Desc) : (s.updDesc n f).wtags = s.wtags := rfl
@[simp] theorem State.updDesc_dict (s : State) (n : Nat) (f : Desc → Desc) : (s.updDesc n f).dict = s.dict := rfl
@[simp] theorem State.updDesc_sched (s : State) (n : Nat) (f : Desc → Desc) : (s.updDesc n f).sched = s.sched := rfl
@[simp] theorem State.updDesc_remote (s : State) (n : Nat) (f : Desc → Desc) : (s.updDesc n f).remote = s.remote := rfl
@[simp] theorem State.updDesc_cores (s : State) (n : Nat) (f : Desc → Desc) : (s.updDesc n f).cores = s.cores := rfl
@[simp] theorem State.updDesc_clusters (s : State) (n : Nat) (f : Desc → Desc) : (s.updDesc n f).clusters = s.clusters := rfl
@[simp] theorem State.updDesc_wires (s : State) (n : Nat) (f : Desc → Desc) : (s.updDesc n f).wires = s.wires := rfl
@[simp] theorem State.updDesc_mcasts (s : State) (n : Nat) (f : Desc → Desc) : (s.updDesc n f).mcasts = s.mcasts := rfl
@[simp] theorem State.updDesc_ports (s : State) (n : Nat) (f : Desc → Desc) : (s.updDesc n f).ports = s.ports := rfl
@[simp] theorem State.updDesc_form (s : State) (n : Nat) (f : Desc → Desc) : (s.updDesc n f).form = s.form := rfl
@[simp] theorem State.updDesc_mgmt (s : State) (n : Nat) (f : Desc → Desc) : (s.updDesc n f).mgmt = s.mgmt := rfl
@[simp] theorem State.updDesc_sys (s : State) (n : Nat) (f : Desc → Desc) : (s.updDesc n f).sys = s.sys := rfl
@[simp] theorem State.updDesc_outbox (s : State) (n : Nat) (f : Desc → Desc) : (s.updDesc n f).outbox = s.outbox := rfl
@[simp] theorem State.updDesc_free (s : State) (n : Nat) (f : Desc → Desc) : (s.updDesc n f).free = s.free := rfl
@[simp] theorem State.updDesc_charts_parts (s : State) (n : Nat) (f : Desc → Desc) : (s.updDesc n f).charts.parts = s.charts.parts := rfl
@[simp] theorem State.updDesc_charts_nodeBase (s : State) (n : Nat) (f : Desc → Desc) : (s.updDesc n f).charts.nodeBase = s.charts.nodeBase := rfl
@[simp] theorem State.updDesc_charts_nodeSize (s : State) (n : Nat) (f : Desc → Desc) : (s.updDesc n f).charts.nodeSize = s.charts.nodeSize := rfl
@[simp] theorem State.updDesc_charts_nodesAlloc (s : State) (n : Nat) (f : Desc → Desc) : (s.updDesc n f).charts.nodesAlloc = s.charts.nodesAlloc := rfl
@[simp] theorem State.updDesc_charts_nodesLive (s : State) (n : Nat) (f : Desc → Desc) : (s.updDesc n f).charts.nodesLive = s.charts.nodesLive := rfl
@[simp] theorem State.updDesc_charts_descBase (s : State) (n : Nat) (f : Desc → Desc) : (s.updDesc n f).charts.descBase = s.charts.descBase := rfl
@[simp] theorem State.updDesc_charts_editQ (s : State) (n : Nat) (f : Desc → Desc) : (s.updDesc n f).charts.editQ = s.charts.editQ := rfl
@[simp] theorem State.updDesc_charts_nextEdit (s : State) (n : Nat) (f : Desc → Desc) : (s.updDesc n f).charts.nextEdit = s.charts.nextEdit := rfl
@[simp] theorem State.updDesc_charts_pend (s : State) (n : Nat) (f : Desc → Desc) : (s.updDesc n f).charts.pend = s.charts.pend := rfl
@[simp] theorem State.updDesc_charts_jobs (s : State) (n : Nat) (f : Desc → Desc) : (s.updDesc n f).charts.jobs = s.charts.jobs := rfl
@[simp] theorem State.updDesc_charts_jobWait (s : State) (n : Nat) (f : Desc → Desc) : (s.updDesc n f).charts.jobWait = s.charts.jobWait := rfl
@[simp] theorem State.updDesc_charts_jobAgain (s : State) (n : Nat) (f : Desc → Desc) : (s.updDesc n f).charts.jobAgain = s.charts.jobAgain := rfl
@[simp] theorem State.updDesc_charts_forced (s : State) (n : Nat) (f : Desc → Desc) : (s.updDesc n f).charts.forced = s.charts.forced := rfl
@[simp] theorem State.updDesc_charts_walks (s : State) (n : Nat) (f : Desc → Desc) : (s.updDesc n f).charts.walks = s.charts.walks := rfl
@[simp] theorem State.updDesc_charts_sharedInv (s : State) (n : Nat) (f : Desc → Desc) : (s.updDesc n f).charts.sharedInv = s.charts.sharedInv := rfl
@[simp] theorem State.updDesc_charts_released (s : State) (n : Nat) (f : Desc → Desc) : (s.updDesc n f).charts.released = s.charts.released := rfl
@[simp] theorem State.updDesc_charts_tenants (s : State) (n : Nat) (f : Desc → Desc) : (s.updDesc n f).charts.tenants = s.charts.tenants := rfl

/-! ## State.updPend -/

@[simp] theorem State.updPend_pending (s : State) (n : Nat) (f : SeqPend → SeqPend) : (s.updPend n f).pending = s.pending := rfl
@[simp] theorem State.updPend_fuses (s : State) (n : Nat) (f : SeqPend → SeqPend) : (s.updPend n f).fuses = s.fuses := rfl
@[simp] theorem State.updPend_mem (s : State) (n : Nat) (f : SeqPend → SeqPend) : (s.updPend n f).mem = s.mem := rfl
@[simp] theorem State.updPend_syn (s : State) (n : Nat) (f : SeqPend → SeqPend) : (s.updPend n f).syn = s.syn := rfl
@[simp] theorem State.updPend_sev (s : State) (n : Nat) (f : SeqPend → SeqPend) : (s.updPend n f).sev = s.sev := rfl
@[simp] theorem State.updPend_wtags (s : State) (n : Nat) (f : SeqPend → SeqPend) : (s.updPend n f).wtags = s.wtags := rfl
@[simp] theorem State.updPend_dict (s : State) (n : Nat) (f : SeqPend → SeqPend) : (s.updPend n f).dict = s.dict := rfl
@[simp] theorem State.updPend_sched (s : State) (n : Nat) (f : SeqPend → SeqPend) : (s.updPend n f).sched = s.sched := rfl
@[simp] theorem State.updPend_remote (s : State) (n : Nat) (f : SeqPend → SeqPend) : (s.updPend n f).remote = s.remote := rfl
@[simp] theorem State.updPend_cores (s : State) (n : Nat) (f : SeqPend → SeqPend) : (s.updPend n f).cores = s.cores := rfl
@[simp] theorem State.updPend_clusters (s : State) (n : Nat) (f : SeqPend → SeqPend) : (s.updPend n f).clusters = s.clusters := rfl
@[simp] theorem State.updPend_wires (s : State) (n : Nat) (f : SeqPend → SeqPend) : (s.updPend n f).wires = s.wires := rfl
@[simp] theorem State.updPend_mcasts (s : State) (n : Nat) (f : SeqPend → SeqPend) : (s.updPend n f).mcasts = s.mcasts := rfl
@[simp] theorem State.updPend_ports (s : State) (n : Nat) (f : SeqPend → SeqPend) : (s.updPend n f).ports = s.ports := rfl
@[simp] theorem State.updPend_form (s : State) (n : Nat) (f : SeqPend → SeqPend) : (s.updPend n f).form = s.form := rfl
@[simp] theorem State.updPend_mgmt (s : State) (n : Nat) (f : SeqPend → SeqPend) : (s.updPend n f).mgmt = s.mgmt := rfl
@[simp] theorem State.updPend_sys (s : State) (n : Nat) (f : SeqPend → SeqPend) : (s.updPend n f).sys = s.sys := rfl
@[simp] theorem State.updPend_outbox (s : State) (n : Nat) (f : SeqPend → SeqPend) : (s.updPend n f).outbox = s.outbox := rfl
@[simp] theorem State.updPend_free (s : State) (n : Nat) (f : SeqPend → SeqPend) : (s.updPend n f).free = s.free := rfl
@[simp] theorem State.updPend_charts_parts (s : State) (n : Nat) (f : SeqPend → SeqPend) : (s.updPend n f).charts.parts = s.charts.parts := rfl
@[simp] theorem State.updPend_charts_nodeBase (s : State) (n : Nat) (f : SeqPend → SeqPend) : (s.updPend n f).charts.nodeBase = s.charts.nodeBase := rfl
@[simp] theorem State.updPend_charts_nodeSize (s : State) (n : Nat) (f : SeqPend → SeqPend) : (s.updPend n f).charts.nodeSize = s.charts.nodeSize := rfl
@[simp] theorem State.updPend_charts_nodesAlloc (s : State) (n : Nat) (f : SeqPend → SeqPend) : (s.updPend n f).charts.nodesAlloc = s.charts.nodesAlloc := rfl
@[simp] theorem State.updPend_charts_nodesLive (s : State) (n : Nat) (f : SeqPend → SeqPend) : (s.updPend n f).charts.nodesLive = s.charts.nodesLive := rfl
@[simp] theorem State.updPend_charts_descBase (s : State) (n : Nat) (f : SeqPend → SeqPend) : (s.updPend n f).charts.descBase = s.charts.descBase := rfl
@[simp] theorem State.updPend_charts_seqs (s : State) (n : Nat) (f : SeqPend → SeqPend) : (s.updPend n f).charts.seqs = s.charts.seqs := rfl
@[simp] theorem State.updPend_charts_editQ (s : State) (n : Nat) (f : SeqPend → SeqPend) : (s.updPend n f).charts.editQ = s.charts.editQ := rfl
@[simp] theorem State.updPend_charts_nextEdit (s : State) (n : Nat) (f : SeqPend → SeqPend) : (s.updPend n f).charts.nextEdit = s.charts.nextEdit := rfl
@[simp] theorem State.updPend_charts_jobs (s : State) (n : Nat) (f : SeqPend → SeqPend) : (s.updPend n f).charts.jobs = s.charts.jobs := rfl
@[simp] theorem State.updPend_charts_jobWait (s : State) (n : Nat) (f : SeqPend → SeqPend) : (s.updPend n f).charts.jobWait = s.charts.jobWait := rfl
@[simp] theorem State.updPend_charts_jobAgain (s : State) (n : Nat) (f : SeqPend → SeqPend) : (s.updPend n f).charts.jobAgain = s.charts.jobAgain := rfl
@[simp] theorem State.updPend_charts_forced (s : State) (n : Nat) (f : SeqPend → SeqPend) : (s.updPend n f).charts.forced = s.charts.forced := rfl
@[simp] theorem State.updPend_charts_walks (s : State) (n : Nat) (f : SeqPend → SeqPend) : (s.updPend n f).charts.walks = s.charts.walks := rfl
@[simp] theorem State.updPend_charts_sharedInv (s : State) (n : Nat) (f : SeqPend → SeqPend) : (s.updPend n f).charts.sharedInv = s.charts.sharedInv := rfl
@[simp] theorem State.updPend_charts_released (s : State) (n : Nat) (f : SeqPend → SeqPend) : (s.updPend n f).charts.released = s.charts.released := rfl
@[simp] theorem State.updPend_charts_tenants (s : State) (n : Nat) (f : SeqPend → SeqPend) : (s.updPend n f).charts.tenants = s.charts.tenants := rfl

/-! ## State.updI3c -/

@[simp] theorem State.updI3c_pending (s : State) (f : I3c → I3c) : (s.updI3c f).pending = s.pending := rfl
@[simp] theorem State.updI3c_fuses (s : State) (f : I3c → I3c) : (s.updI3c f).fuses = s.fuses := rfl
@[simp] theorem State.updI3c_mem (s : State) (f : I3c → I3c) : (s.updI3c f).mem = s.mem := rfl
@[simp] theorem State.updI3c_syn (s : State) (f : I3c → I3c) : (s.updI3c f).syn = s.syn := rfl
@[simp] theorem State.updI3c_sev (s : State) (f : I3c → I3c) : (s.updI3c f).sev = s.sev := rfl
@[simp] theorem State.updI3c_wtags (s : State) (f : I3c → I3c) : (s.updI3c f).wtags = s.wtags := rfl
@[simp] theorem State.updI3c_dict (s : State) (f : I3c → I3c) : (s.updI3c f).dict = s.dict := rfl
@[simp] theorem State.updI3c_charts (s : State) (f : I3c → I3c) : (s.updI3c f).charts = s.charts := rfl
@[simp] theorem State.updI3c_sched (s : State) (f : I3c → I3c) : (s.updI3c f).sched = s.sched := rfl
@[simp] theorem State.updI3c_remote (s : State) (f : I3c → I3c) : (s.updI3c f).remote = s.remote := rfl
@[simp] theorem State.updI3c_cores (s : State) (f : I3c → I3c) : (s.updI3c f).cores = s.cores := rfl
@[simp] theorem State.updI3c_clusters (s : State) (f : I3c → I3c) : (s.updI3c f).clusters = s.clusters := rfl
@[simp] theorem State.updI3c_wires (s : State) (f : I3c → I3c) : (s.updI3c f).wires = s.wires := rfl
@[simp] theorem State.updI3c_mcasts (s : State) (f : I3c → I3c) : (s.updI3c f).mcasts = s.mcasts := rfl
@[simp] theorem State.updI3c_ports (s : State) (f : I3c → I3c) : (s.updI3c f).ports = s.ports := rfl
@[simp] theorem State.updI3c_form (s : State) (f : I3c → I3c) : (s.updI3c f).form = s.form := rfl
@[simp] theorem State.updI3c_sys (s : State) (f : I3c → I3c) : (s.updI3c f).sys = s.sys := rfl
@[simp] theorem State.updI3c_outbox (s : State) (f : I3c → I3c) : (s.updI3c f).outbox = s.outbox := rfl
@[simp] theorem State.updI3c_free (s : State) (f : I3c → I3c) : (s.updI3c f).free = s.free := rfl
@[simp] theorem State.updI3c_mgmt_events (s : State) (f : I3c → I3c) : (s.updI3c f).mgmt.events = s.mgmt.events := rfl
@[simp] theorem State.updI3c_mgmt_nextEvent (s : State) (f : I3c → I3c) : (s.updI3c f).mgmt.nextEvent = s.mgmt.nextEvent := rfl
@[simp] theorem State.updI3c_mgmt_polledAny (s : State) (f : I3c → I3c) : (s.updI3c f).mgmt.polledAny = s.mgmt.polledAny := rfl
@[simp] theorem State.updI3c_mgmt_frames (s : State) (f : I3c → I3c) : (s.updI3c f).mgmt.frames = s.mgmt.frames := rfl
@[simp] theorem State.updI3c_mgmt_fwds (s : State) (f : I3c → I3c) : (s.updI3c f).mgmt.fwds = s.mgmt.fwds := rfl
@[simp] theorem State.updI3c_mgmt_nextFwd (s : State) (f : I3c → I3c) : (s.updI3c f).mgmt.nextFwd = s.mgmt.nextFwd := rfl
@[simp] theorem State.updI3c_mgmt_keys (s : State) (f : I3c → I3c) : (s.updI3c f).mgmt.keys = s.mgmt.keys := rfl
@[simp] theorem State.updI3c_mgmt_authRecs (s : State) (f : I3c → I3c) : (s.updI3c f).mgmt.authRecs = s.mgmt.authRecs := rfl
@[simp] theorem State.updI3c_mgmt_nonce (s : State) (f : I3c → I3c) : (s.updI3c f).mgmt.nonce = s.mgmt.nonce := rfl
@[simp] theorem State.updI3c_mgmt_ovl (s : State) (f : I3c → I3c) : (s.updI3c f).mgmt.ovl = s.mgmt.ovl := rfl
@[simp] theorem State.updI3c_mgmt_assists (s : State) (f : I3c → I3c) : (s.updI3c f).mgmt.assists = s.mgmt.assists := rfl
@[simp] theorem State.updI3c_mgmt_nextAssist (s : State) (f : I3c → I3c) : (s.updI3c f).mgmt.nextAssist = s.mgmt.nextAssist := rfl
@[simp] theorem State.updI3c_mgmt_stalled (s : State) (f : I3c → I3c) : (s.updI3c f).mgmt.stalled = s.mgmt.stalled := rfl

/-! ## State.updOvl -/

@[simp] theorem State.updOvl_pending (s : State) (f : Ovl → Ovl) : (s.updOvl f).pending = s.pending := rfl
@[simp] theorem State.updOvl_fuses (s : State) (f : Ovl → Ovl) : (s.updOvl f).fuses = s.fuses := rfl
@[simp] theorem State.updOvl_mem (s : State) (f : Ovl → Ovl) : (s.updOvl f).mem = s.mem := rfl
@[simp] theorem State.updOvl_syn (s : State) (f : Ovl → Ovl) : (s.updOvl f).syn = s.syn := rfl
@[simp] theorem State.updOvl_sev (s : State) (f : Ovl → Ovl) : (s.updOvl f).sev = s.sev := rfl
@[simp] theorem State.updOvl_wtags (s : State) (f : Ovl → Ovl) : (s.updOvl f).wtags = s.wtags := rfl
@[simp] theorem State.updOvl_dict (s : State) (f : Ovl → Ovl) : (s.updOvl f).dict = s.dict := rfl
@[simp] theorem State.updOvl_charts (s : State) (f : Ovl → Ovl) : (s.updOvl f).charts = s.charts := rfl
@[simp] theorem State.updOvl_sched (s : State) (f : Ovl → Ovl) : (s.updOvl f).sched = s.sched := rfl
@[simp] theorem State.updOvl_remote (s : State) (f : Ovl → Ovl) : (s.updOvl f).remote = s.remote := rfl
@[simp] theorem State.updOvl_cores (s : State) (f : Ovl → Ovl) : (s.updOvl f).cores = s.cores := rfl
@[simp] theorem State.updOvl_clusters (s : State) (f : Ovl → Ovl) : (s.updOvl f).clusters = s.clusters := rfl
@[simp] theorem State.updOvl_wires (s : State) (f : Ovl → Ovl) : (s.updOvl f).wires = s.wires := rfl
@[simp] theorem State.updOvl_mcasts (s : State) (f : Ovl → Ovl) : (s.updOvl f).mcasts = s.mcasts := rfl
@[simp] theorem State.updOvl_ports (s : State) (f : Ovl → Ovl) : (s.updOvl f).ports = s.ports := rfl
@[simp] theorem State.updOvl_form (s : State) (f : Ovl → Ovl) : (s.updOvl f).form = s.form := rfl
@[simp] theorem State.updOvl_sys (s : State) (f : Ovl → Ovl) : (s.updOvl f).sys = s.sys := rfl
@[simp] theorem State.updOvl_outbox (s : State) (f : Ovl → Ovl) : (s.updOvl f).outbox = s.outbox := rfl
@[simp] theorem State.updOvl_free (s : State) (f : Ovl → Ovl) : (s.updOvl f).free = s.free := rfl
@[simp] theorem State.updOvl_mgmt_i3c (s : State) (f : Ovl → Ovl) : (s.updOvl f).mgmt.i3c = s.mgmt.i3c := rfl
@[simp] theorem State.updOvl_mgmt_events (s : State) (f : Ovl → Ovl) : (s.updOvl f).mgmt.events = s.mgmt.events := rfl
@[simp] theorem State.updOvl_mgmt_nextEvent (s : State) (f : Ovl → Ovl) : (s.updOvl f).mgmt.nextEvent = s.mgmt.nextEvent := rfl
@[simp] theorem State.updOvl_mgmt_polledAny (s : State) (f : Ovl → Ovl) : (s.updOvl f).mgmt.polledAny = s.mgmt.polledAny := rfl
@[simp] theorem State.updOvl_mgmt_frames (s : State) (f : Ovl → Ovl) : (s.updOvl f).mgmt.frames = s.mgmt.frames := rfl
@[simp] theorem State.updOvl_mgmt_fwds (s : State) (f : Ovl → Ovl) : (s.updOvl f).mgmt.fwds = s.mgmt.fwds := rfl
@[simp] theorem State.updOvl_mgmt_nextFwd (s : State) (f : Ovl → Ovl) : (s.updOvl f).mgmt.nextFwd = s.mgmt.nextFwd := rfl
@[simp] theorem State.updOvl_mgmt_keys (s : State) (f : Ovl → Ovl) : (s.updOvl f).mgmt.keys = s.mgmt.keys := rfl
@[simp] theorem State.updOvl_mgmt_authRecs (s : State) (f : Ovl → Ovl) : (s.updOvl f).mgmt.authRecs = s.mgmt.authRecs := rfl
@[simp] theorem State.updOvl_mgmt_nonce (s : State) (f : Ovl → Ovl) : (s.updOvl f).mgmt.nonce = s.mgmt.nonce := rfl
@[simp] theorem State.updOvl_mgmt_assists (s : State) (f : Ovl → Ovl) : (s.updOvl f).mgmt.assists = s.mgmt.assists := rfl
@[simp] theorem State.updOvl_mgmt_nextAssist (s : State) (f : Ovl → Ovl) : (s.updOvl f).mgmt.nextAssist = s.mgmt.nextAssist := rfl
@[simp] theorem State.updOvl_mgmt_stalled (s : State) (f : Ovl → Ovl) : (s.updOvl f).mgmt.stalled = s.mgmt.stalled := rfl

/-! ## updKey -/

@[simp] theorem updKey_pending (s : State) (k : Nat) (f : KeySlot → KeySlot) : (updKey s k f).pending = s.pending := rfl
@[simp] theorem updKey_fuses (s : State) (k : Nat) (f : KeySlot → KeySlot) : (updKey s k f).fuses = s.fuses := rfl
@[simp] theorem updKey_mem (s : State) (k : Nat) (f : KeySlot → KeySlot) : (updKey s k f).mem = s.mem := rfl
@[simp] theorem updKey_syn (s : State) (k : Nat) (f : KeySlot → KeySlot) : (updKey s k f).syn = s.syn := rfl
@[simp] theorem updKey_sev (s : State) (k : Nat) (f : KeySlot → KeySlot) : (updKey s k f).sev = s.sev := rfl
@[simp] theorem updKey_wtags (s : State) (k : Nat) (f : KeySlot → KeySlot) : (updKey s k f).wtags = s.wtags := rfl
@[simp] theorem updKey_dict (s : State) (k : Nat) (f : KeySlot → KeySlot) : (updKey s k f).dict = s.dict := rfl
@[simp] theorem updKey_charts (s : State) (k : Nat) (f : KeySlot → KeySlot) : (updKey s k f).charts = s.charts := rfl
@[simp] theorem updKey_sched (s : State) (k : Nat) (f : KeySlot → KeySlot) : (updKey s k f).sched = s.sched := rfl
@[simp] theorem updKey_remote (s : State) (k : Nat) (f : KeySlot → KeySlot) : (updKey s k f).remote = s.remote := rfl
@[simp] theorem updKey_cores (s : State) (k : Nat) (f : KeySlot → KeySlot) : (updKey s k f).cores = s.cores := rfl
@[simp] theorem updKey_clusters (s : State) (k : Nat) (f : KeySlot → KeySlot) : (updKey s k f).clusters = s.clusters := rfl
@[simp] theorem updKey_wires (s : State) (k : Nat) (f : KeySlot → KeySlot) : (updKey s k f).wires = s.wires := rfl
@[simp] theorem updKey_mcasts (s : State) (k : Nat) (f : KeySlot → KeySlot) : (updKey s k f).mcasts = s.mcasts := rfl
@[simp] theorem updKey_ports (s : State) (k : Nat) (f : KeySlot → KeySlot) : (updKey s k f).ports = s.ports := rfl
@[simp] theorem updKey_form (s : State) (k : Nat) (f : KeySlot → KeySlot) : (updKey s k f).form = s.form := rfl
@[simp] theorem updKey_sys (s : State) (k : Nat) (f : KeySlot → KeySlot) : (updKey s k f).sys = s.sys := rfl
@[simp] theorem updKey_outbox (s : State) (k : Nat) (f : KeySlot → KeySlot) : (updKey s k f).outbox = s.outbox := rfl
@[simp] theorem updKey_free (s : State) (k : Nat) (f : KeySlot → KeySlot) : (updKey s k f).free = s.free := rfl
@[simp] theorem updKey_mgmt_i3c (s : State) (k : Nat) (f : KeySlot → KeySlot) : (updKey s k f).mgmt.i3c = s.mgmt.i3c := rfl
@[simp] theorem updKey_mgmt_events (s : State) (k : Nat) (f : KeySlot → KeySlot) : (updKey s k f).mgmt.events = s.mgmt.events := rfl
@[simp] theorem updKey_mgmt_nextEvent (s : State) (k : Nat) (f : KeySlot → KeySlot) : (updKey s k f).mgmt.nextEvent = s.mgmt.nextEvent := rfl
@[simp] theorem updKey_mgmt_polledAny (s : State) (k : Nat) (f : KeySlot → KeySlot) : (updKey s k f).mgmt.polledAny = s.mgmt.polledAny := rfl
@[simp] theorem updKey_mgmt_frames (s : State) (k : Nat) (f : KeySlot → KeySlot) : (updKey s k f).mgmt.frames = s.mgmt.frames := rfl
@[simp] theorem updKey_mgmt_fwds (s : State) (k : Nat) (f : KeySlot → KeySlot) : (updKey s k f).mgmt.fwds = s.mgmt.fwds := rfl
@[simp] theorem updKey_mgmt_nextFwd (s : State) (k : Nat) (f : KeySlot → KeySlot) : (updKey s k f).mgmt.nextFwd = s.mgmt.nextFwd := rfl
@[simp] theorem updKey_mgmt_authRecs (s : State) (k : Nat) (f : KeySlot → KeySlot) : (updKey s k f).mgmt.authRecs = s.mgmt.authRecs := rfl
@[simp] theorem updKey_mgmt_nonce (s : State) (k : Nat) (f : KeySlot → KeySlot) : (updKey s k f).mgmt.nonce = s.mgmt.nonce := rfl
@[simp] theorem updKey_mgmt_ovl (s : State) (k : Nat) (f : KeySlot → KeySlot) : (updKey s k f).mgmt.ovl = s.mgmt.ovl := rfl
@[simp] theorem updKey_mgmt_assists (s : State) (k : Nat) (f : KeySlot → KeySlot) : (updKey s k f).mgmt.assists = s.mgmt.assists := rfl
@[simp] theorem updKey_mgmt_nextAssist (s : State) (k : Nat) (f : KeySlot → KeySlot) : (updKey s k f).mgmt.nextAssist = s.mgmt.nextAssist := rfl
@[simp] theorem updKey_mgmt_stalled (s : State) (k : Nat) (f : KeySlot → KeySlot) : (updKey s k f).mgmt.stalled = s.mgmt.stalled := rfl

/-! ## State.updGov -/

@[simp] theorem State.updGov_pending (s : State) (f : Gov → Gov) : (s.updGov f).pending = s.pending := rfl
@[simp] theorem State.updGov_fuses (s : State) (f : Gov → Gov) : (s.updGov f).fuses = s.fuses := rfl
@[simp] theorem State.updGov_mem (s : State) (f : Gov → Gov) : (s.updGov f).mem = s.mem := rfl
@[simp] theorem State.updGov_syn (s : State) (f : Gov → Gov) : (s.updGov f).syn = s.syn := rfl
@[simp] theorem State.updGov_sev (s : State) (f : Gov → Gov) : (s.updGov f).sev = s.sev := rfl
@[simp] theorem State.updGov_wtags (s : State) (f : Gov → Gov) : (s.updGov f).wtags = s.wtags := rfl
@[simp] theorem State.updGov_dict (s : State) (f : Gov → Gov) : (s.updGov f).dict = s.dict := rfl
@[simp] theorem State.updGov_charts (s : State) (f : Gov → Gov) : (s.updGov f).charts = s.charts := rfl
@[simp] theorem State.updGov_sched (s : State) (f : Gov → Gov) : (s.updGov f).sched = s.sched := rfl
@[simp] theorem State.updGov_remote (s : State) (f : Gov → Gov) : (s.updGov f).remote = s.remote := rfl
@[simp] theorem State.updGov_cores (s : State) (f : Gov → Gov) : (s.updGov f).cores = s.cores := rfl
@[simp] theorem State.updGov_clusters (s : State) (f : Gov → Gov) : (s.updGov f).clusters = s.clusters := rfl
@[simp] theorem State.updGov_wires (s : State) (f : Gov → Gov) : (s.updGov f).wires = s.wires := rfl
@[simp] theorem State.updGov_mcasts (s : State) (f : Gov → Gov) : (s.updGov f).mcasts = s.mcasts := rfl
@[simp] theorem State.updGov_ports (s : State) (f : Gov → Gov) : (s.updGov f).ports = s.ports := rfl
@[simp] theorem State.updGov_form (s : State) (f : Gov → Gov) : (s.updGov f).form = s.form := rfl
@[simp] theorem State.updGov_mgmt (s : State) (f : Gov → Gov) : (s.updGov f).mgmt = s.mgmt := rfl
@[simp] theorem State.updGov_outbox (s : State) (f : Gov → Gov) : (s.updGov f).outbox = s.outbox := rfl
@[simp] theorem State.updGov_free (s : State) (f : Gov → Gov) : (s.updGov f).free = s.free := rfl
@[simp] theorem State.updGov_sys_mccs (s : State) (f : Gov → Gov) : (s.updGov f).sys.mccs = s.sys.mccs := rfl
@[simp] theorem State.updGov_sys_hpUp (s : State) (f : Gov → Gov) : (s.updGov f).sys.hpUp = s.sys.hpUp := rfl
@[simp] theorem State.updGov_sys_ckPresent (s : State) (f : Gov → Gov) : (s.updGov f).sys.ckPresent = s.sys.ckPresent := rfl
@[simp] theorem State.updGov_sys_cc (s : State) (f : Gov → Gov) : (s.updGov f).sys.cc = s.sys.cc := rfl
@[simp] theorem State.updGov_sys_rstJobs (s : State) (f : Gov → Gov) : (s.updGov f).sys.rstJobs = s.sys.rstJobs := rfl
@[simp] theorem State.updGov_sys_phase (s : State) (f : Gov → Gov) : (s.updGov f).sys.phase = s.sys.phase := rfl
@[simp] theorem State.updGov_sys_rstReqN (s : State) (f : Gov → Gov) : (s.updGov f).sys.rstReqN = s.sys.rstReqN := rfl
@[simp] theorem State.updGov_sys_rstCause (s : State) (f : Gov → Gov) : (s.updGov f).sys.rstCause = s.sys.rstCause := rfl
@[simp] theorem State.updGov_sys_rstFiltered (s : State) (f : Gov → Gov) : (s.updGov f).sys.rstFiltered = s.sys.rstFiltered := rfl
@[simp] theorem State.updGov_sys_issueStopped (s : State) (f : Gov → Gov) : (s.updGov f).sys.issueStopped = s.sys.issueStopped := rfl
@[simp] theorem State.updGov_sys_held (s : State) (f : Gov → Gov) : (s.updGov f).sys.held = s.sys.held := rfl
@[simp] theorem State.updGov_sys_rateActive (s : State) (f : Gov → Gov) : (s.updGov f).sys.rateActive = s.sys.rateActive := rfl
@[simp] theorem State.updGov_sys_uptime (s : State) (f : Gov → Gov) : (s.updGov f).sys.uptime = s.sys.uptime := rfl
@[simp] theorem State.updGov_sys_coreCycles (s : State) (f : Gov → Gov) : (s.updGov f).sys.coreCycles = s.sys.coreCycles := rfl
@[simp] theorem State.updGov_sys_mgmtCycles (s : State) (f : Gov → Gov) : (s.updGov f).sys.mgmtCycles = s.sys.mgmtCycles := rfl
@[simp] theorem State.updGov_sys_cards (s : State) (f : Gov → Gov) : (s.updGov f).sys.cards = s.sys.cards := rfl
@[simp] theorem State.updGov_sys_cardWait (s : State) (f : Gov → Gov) : (s.updGov f).sys.cardWait = s.sys.cardWait := rfl
@[simp] theorem State.updGov_sys_trace (s : State) (f : Gov → Gov) : (s.updGov f).sys.trace = s.sys.trace := rfl
@[simp] theorem State.updGov_sys_wfg (s : State) (f : Gov → Gov) : (s.updGov f).sys.wfg = s.sys.wfg := rfl
@[simp] theorem State.updGov_sys_wfgSets (s : State) (f : Gov → Gov) : (s.updGov f).sys.wfgSets = s.sys.wfgSets := rfl
@[simp] theorem State.updGov_sys_linkSeen (s : State) (f : Gov → Gov) : (s.updGov f).sys.linkSeen = s.sys.linkSeen := rfl
@[simp] theorem State.updGov_sys_aggPrev (s : State) (f : Gov → Gov) : (s.updGov f).sys.aggPrev = s.sys.aggPrev := rfl
@[simp] theorem State.updGov_sys_discards (s : State) (f : Gov → Gov) : (s.updGov f).sys.discards = s.sys.discards := rfl
@[simp] theorem State.updGov_sys_fab (s : State) (f : Gov → Gov) : (s.updGov f).sys.fab = s.sys.fab := rfl
@[simp] theorem State.updGov_sys_mcFlips (s : State) (f : Gov → Gov) : (s.updGov f).sys.mcFlips = s.sys.mcFlips := rfl
@[simp] theorem State.updGov_sys_tap (s : State) (f : Gov → Gov) : (s.updGov f).sys.tap = s.sys.tap := rfl

/-! ## State.updRail -/

@[simp] theorem State.updRail_pending (s : State) (k : Nat) (f : Rail → Rail) : (s.updRail k f).pending = s.pending := rfl
@[simp] theorem State.updRail_fuses (s : State) (k : Nat) (f : Rail → Rail) : (s.updRail k f).fuses = s.fuses := rfl
@[simp] theorem State.updRail_mem (s : State) (k : Nat) (f : Rail → Rail) : (s.updRail k f).mem = s.mem := rfl
@[simp] theorem State.updRail_syn (s : State) (k : Nat) (f : Rail → Rail) : (s.updRail k f).syn = s.syn := rfl
@[simp] theorem State.updRail_sev (s : State) (k : Nat) (f : Rail → Rail) : (s.updRail k f).sev = s.sev := rfl
@[simp] theorem State.updRail_wtags (s : State) (k : Nat) (f : Rail → Rail) : (s.updRail k f).wtags = s.wtags := rfl
@[simp] theorem State.updRail_dict (s : State) (k : Nat) (f : Rail → Rail) : (s.updRail k f).dict = s.dict := rfl
@[simp] theorem State.updRail_charts (s : State) (k : Nat) (f : Rail → Rail) : (s.updRail k f).charts = s.charts := rfl
@[simp] theorem State.updRail_sched (s : State) (k : Nat) (f : Rail → Rail) : (s.updRail k f).sched = s.sched := rfl
@[simp] theorem State.updRail_remote (s : State) (k : Nat) (f : Rail → Rail) : (s.updRail k f).remote = s.remote := rfl
@[simp] theorem State.updRail_cores (s : State) (k : Nat) (f : Rail → Rail) : (s.updRail k f).cores = s.cores := rfl
@[simp] theorem State.updRail_clusters (s : State) (k : Nat) (f : Rail → Rail) : (s.updRail k f).clusters = s.clusters := rfl
@[simp] theorem State.updRail_wires (s : State) (k : Nat) (f : Rail → Rail) : (s.updRail k f).wires = s.wires := rfl
@[simp] theorem State.updRail_mcasts (s : State) (k : Nat) (f : Rail → Rail) : (s.updRail k f).mcasts = s.mcasts := rfl
@[simp] theorem State.updRail_ports (s : State) (k : Nat) (f : Rail → Rail) : (s.updRail k f).ports = s.ports := rfl
@[simp] theorem State.updRail_form (s : State) (k : Nat) (f : Rail → Rail) : (s.updRail k f).form = s.form := rfl
@[simp] theorem State.updRail_mgmt (s : State) (k : Nat) (f : Rail → Rail) : (s.updRail k f).mgmt = s.mgmt := rfl
@[simp] theorem State.updRail_outbox (s : State) (k : Nat) (f : Rail → Rail) : (s.updRail k f).outbox = s.outbox := rfl
@[simp] theorem State.updRail_free (s : State) (k : Nat) (f : Rail → Rail) : (s.updRail k f).free = s.free := rfl
@[simp] theorem State.updRail_sys_mccs (s : State) (k : Nat) (f : Rail → Rail) : (s.updRail k f).sys.mccs = s.sys.mccs := rfl
@[simp] theorem State.updRail_sys_hpUp (s : State) (k : Nat) (f : Rail → Rail) : (s.updRail k f).sys.hpUp = s.sys.hpUp := rfl
@[simp] theorem State.updRail_sys_ckPresent (s : State) (k : Nat) (f : Rail → Rail) : (s.updRail k f).sys.ckPresent = s.sys.ckPresent := rfl
@[simp] theorem State.updRail_sys_cc (s : State) (k : Nat) (f : Rail → Rail) : (s.updRail k f).sys.cc = s.sys.cc := rfl
@[simp] theorem State.updRail_sys_rstJobs (s : State) (k : Nat) (f : Rail → Rail) : (s.updRail k f).sys.rstJobs = s.sys.rstJobs := rfl
@[simp] theorem State.updRail_sys_phase (s : State) (k : Nat) (f : Rail → Rail) : (s.updRail k f).sys.phase = s.sys.phase := rfl
@[simp] theorem State.updRail_sys_rstReqN (s : State) (k : Nat) (f : Rail → Rail) : (s.updRail k f).sys.rstReqN = s.sys.rstReqN := rfl
@[simp] theorem State.updRail_sys_rstCause (s : State) (k : Nat) (f : Rail → Rail) : (s.updRail k f).sys.rstCause = s.sys.rstCause := rfl
@[simp] theorem State.updRail_sys_rstFiltered (s : State) (k : Nat) (f : Rail → Rail) : (s.updRail k f).sys.rstFiltered = s.sys.rstFiltered := rfl
@[simp] theorem State.updRail_sys_issueStopped (s : State) (k : Nat) (f : Rail → Rail) : (s.updRail k f).sys.issueStopped = s.sys.issueStopped := rfl
@[simp] theorem State.updRail_sys_held (s : State) (k : Nat) (f : Rail → Rail) : (s.updRail k f).sys.held = s.sys.held := rfl
@[simp] theorem State.updRail_sys_rateActive (s : State) (k : Nat) (f : Rail → Rail) : (s.updRail k f).sys.rateActive = s.sys.rateActive := rfl
@[simp] theorem State.updRail_sys_uptime (s : State) (k : Nat) (f : Rail → Rail) : (s.updRail k f).sys.uptime = s.sys.uptime := rfl
@[simp] theorem State.updRail_sys_coreCycles (s : State) (k : Nat) (f : Rail → Rail) : (s.updRail k f).sys.coreCycles = s.sys.coreCycles := rfl
@[simp] theorem State.updRail_sys_mgmtCycles (s : State) (k : Nat) (f : Rail → Rail) : (s.updRail k f).sys.mgmtCycles = s.sys.mgmtCycles := rfl
@[simp] theorem State.updRail_sys_cards (s : State) (k : Nat) (f : Rail → Rail) : (s.updRail k f).sys.cards = s.sys.cards := rfl
@[simp] theorem State.updRail_sys_cardWait (s : State) (k : Nat) (f : Rail → Rail) : (s.updRail k f).sys.cardWait = s.sys.cardWait := rfl
@[simp] theorem State.updRail_sys_trace (s : State) (k : Nat) (f : Rail → Rail) : (s.updRail k f).sys.trace = s.sys.trace := rfl
@[simp] theorem State.updRail_sys_wfg (s : State) (k : Nat) (f : Rail → Rail) : (s.updRail k f).sys.wfg = s.sys.wfg := rfl
@[simp] theorem State.updRail_sys_wfgSets (s : State) (k : Nat) (f : Rail → Rail) : (s.updRail k f).sys.wfgSets = s.sys.wfgSets := rfl
@[simp] theorem State.updRail_sys_linkSeen (s : State) (k : Nat) (f : Rail → Rail) : (s.updRail k f).sys.linkSeen = s.sys.linkSeen := rfl
@[simp] theorem State.updRail_sys_aggPrev (s : State) (k : Nat) (f : Rail → Rail) : (s.updRail k f).sys.aggPrev = s.sys.aggPrev := rfl
@[simp] theorem State.updRail_sys_discards (s : State) (k : Nat) (f : Rail → Rail) : (s.updRail k f).sys.discards = s.sys.discards := rfl
@[simp] theorem State.updRail_sys_fab (s : State) (k : Nat) (f : Rail → Rail) : (s.updRail k f).sys.fab = s.sys.fab := rfl
@[simp] theorem State.updRail_sys_mcFlips (s : State) (k : Nat) (f : Rail → Rail) : (s.updRail k f).sys.mcFlips = s.sys.mcFlips := rfl
@[simp] theorem State.updRail_sys_tap (s : State) (k : Nat) (f : Rail → Rail) : (s.updRail k f).sys.tap = s.sys.tap := rfl

/-! ## State.updCc -/

@[simp] theorem State.updCc_pending (s : State) (f : Cc → Cc) : (s.updCc f).pending = s.pending := rfl
@[simp] theorem State.updCc_fuses (s : State) (f : Cc → Cc) : (s.updCc f).fuses = s.fuses := rfl
@[simp] theorem State.updCc_mem (s : State) (f : Cc → Cc) : (s.updCc f).mem = s.mem := rfl
@[simp] theorem State.updCc_syn (s : State) (f : Cc → Cc) : (s.updCc f).syn = s.syn := rfl
@[simp] theorem State.updCc_sev (s : State) (f : Cc → Cc) : (s.updCc f).sev = s.sev := rfl
@[simp] theorem State.updCc_wtags (s : State) (f : Cc → Cc) : (s.updCc f).wtags = s.wtags := rfl
@[simp] theorem State.updCc_dict (s : State) (f : Cc → Cc) : (s.updCc f).dict = s.dict := rfl
@[simp] theorem State.updCc_charts (s : State) (f : Cc → Cc) : (s.updCc f).charts = s.charts := rfl
@[simp] theorem State.updCc_sched (s : State) (f : Cc → Cc) : (s.updCc f).sched = s.sched := rfl
@[simp] theorem State.updCc_remote (s : State) (f : Cc → Cc) : (s.updCc f).remote = s.remote := rfl
@[simp] theorem State.updCc_cores (s : State) (f : Cc → Cc) : (s.updCc f).cores = s.cores := rfl
@[simp] theorem State.updCc_clusters (s : State) (f : Cc → Cc) : (s.updCc f).clusters = s.clusters := rfl
@[simp] theorem State.updCc_wires (s : State) (f : Cc → Cc) : (s.updCc f).wires = s.wires := rfl
@[simp] theorem State.updCc_mcasts (s : State) (f : Cc → Cc) : (s.updCc f).mcasts = s.mcasts := rfl
@[simp] theorem State.updCc_ports (s : State) (f : Cc → Cc) : (s.updCc f).ports = s.ports := rfl
@[simp] theorem State.updCc_form (s : State) (f : Cc → Cc) : (s.updCc f).form = s.form := rfl
@[simp] theorem State.updCc_mgmt (s : State) (f : Cc → Cc) : (s.updCc f).mgmt = s.mgmt := rfl
@[simp] theorem State.updCc_outbox (s : State) (f : Cc → Cc) : (s.updCc f).outbox = s.outbox := rfl
@[simp] theorem State.updCc_free (s : State) (f : Cc → Cc) : (s.updCc f).free = s.free := rfl
@[simp] theorem State.updCc_sys_mccs (s : State) (f : Cc → Cc) : (s.updCc f).sys.mccs = s.sys.mccs := rfl
@[simp] theorem State.updCc_sys_hpUp (s : State) (f : Cc → Cc) : (s.updCc f).sys.hpUp = s.sys.hpUp := rfl
@[simp] theorem State.updCc_sys_ckPresent (s : State) (f : Cc → Cc) : (s.updCc f).sys.ckPresent = s.sys.ckPresent := rfl
@[simp] theorem State.updCc_sys_gov (s : State) (f : Cc → Cc) : (s.updCc f).sys.gov = s.sys.gov := rfl
@[simp] theorem State.updCc_sys_rstJobs (s : State) (f : Cc → Cc) : (s.updCc f).sys.rstJobs = s.sys.rstJobs := rfl
@[simp] theorem State.updCc_sys_phase (s : State) (f : Cc → Cc) : (s.updCc f).sys.phase = s.sys.phase := rfl
@[simp] theorem State.updCc_sys_rstReqN (s : State) (f : Cc → Cc) : (s.updCc f).sys.rstReqN = s.sys.rstReqN := rfl
@[simp] theorem State.updCc_sys_rstCause (s : State) (f : Cc → Cc) : (s.updCc f).sys.rstCause = s.sys.rstCause := rfl
@[simp] theorem State.updCc_sys_rstFiltered (s : State) (f : Cc → Cc) : (s.updCc f).sys.rstFiltered = s.sys.rstFiltered := rfl
@[simp] theorem State.updCc_sys_issueStopped (s : State) (f : Cc → Cc) : (s.updCc f).sys.issueStopped = s.sys.issueStopped := rfl
@[simp] theorem State.updCc_sys_held (s : State) (f : Cc → Cc) : (s.updCc f).sys.held = s.sys.held := rfl
@[simp] theorem State.updCc_sys_rateActive (s : State) (f : Cc → Cc) : (s.updCc f).sys.rateActive = s.sys.rateActive := rfl
@[simp] theorem State.updCc_sys_uptime (s : State) (f : Cc → Cc) : (s.updCc f).sys.uptime = s.sys.uptime := rfl
@[simp] theorem State.updCc_sys_coreCycles (s : State) (f : Cc → Cc) : (s.updCc f).sys.coreCycles = s.sys.coreCycles := rfl
@[simp] theorem State.updCc_sys_mgmtCycles (s : State) (f : Cc → Cc) : (s.updCc f).sys.mgmtCycles = s.sys.mgmtCycles := rfl
@[simp] theorem State.updCc_sys_cards (s : State) (f : Cc → Cc) : (s.updCc f).sys.cards = s.sys.cards := rfl
@[simp] theorem State.updCc_sys_cardWait (s : State) (f : Cc → Cc) : (s.updCc f).sys.cardWait = s.sys.cardWait := rfl
@[simp] theorem State.updCc_sys_trace (s : State) (f : Cc → Cc) : (s.updCc f).sys.trace = s.sys.trace := rfl
@[simp] theorem State.updCc_sys_wfg (s : State) (f : Cc → Cc) : (s.updCc f).sys.wfg = s.sys.wfg := rfl
@[simp] theorem State.updCc_sys_wfgSets (s : State) (f : Cc → Cc) : (s.updCc f).sys.wfgSets = s.sys.wfgSets := rfl
@[simp] theorem State.updCc_sys_linkSeen (s : State) (f : Cc → Cc) : (s.updCc f).sys.linkSeen = s.sys.linkSeen := rfl
@[simp] theorem State.updCc_sys_aggPrev (s : State) (f : Cc → Cc) : (s.updCc f).sys.aggPrev = s.sys.aggPrev := rfl
@[simp] theorem State.updCc_sys_discards (s : State) (f : Cc → Cc) : (s.updCc f).sys.discards = s.sys.discards := rfl
@[simp] theorem State.updCc_sys_fab (s : State) (f : Cc → Cc) : (s.updCc f).sys.fab = s.sys.fab := rfl
@[simp] theorem State.updCc_sys_mcFlips (s : State) (f : Cc → Cc) : (s.updCc f).sys.mcFlips = s.sys.mcFlips := rfl
@[simp] theorem State.updCc_sys_tap (s : State) (f : Cc → Cc) : (s.updCc f).sys.tap = s.sys.tap := rfl

/-! ## State.emit -/

@[simp] theorem State.emit_pending (s : State) (o : Output) : (s.emit o).pending = s.pending := rfl
@[simp] theorem State.emit_fuses (s : State) (o : Output) : (s.emit o).fuses = s.fuses := rfl
@[simp] theorem State.emit_mem (s : State) (o : Output) : (s.emit o).mem = s.mem := rfl
@[simp] theorem State.emit_syn (s : State) (o : Output) : (s.emit o).syn = s.syn := rfl
@[simp] theorem State.emit_sev (s : State) (o : Output) : (s.emit o).sev = s.sev := rfl
@[simp] theorem State.emit_wtags (s : State) (o : Output) : (s.emit o).wtags = s.wtags := rfl
@[simp] theorem State.emit_dict (s : State) (o : Output) : (s.emit o).dict = s.dict := rfl
@[simp] theorem State.emit_charts (s : State) (o : Output) : (s.emit o).charts = s.charts := rfl
@[simp] theorem State.emit_sched (s : State) (o : Output) : (s.emit o).sched = s.sched := rfl
@[simp] theorem State.emit_remote (s : State) (o : Output) : (s.emit o).remote = s.remote := rfl
@[simp] theorem State.emit_cores (s : State) (o : Output) : (s.emit o).cores = s.cores := rfl
@[simp] theorem State.emit_clusters (s : State) (o : Output) : (s.emit o).clusters = s.clusters := rfl
@[simp] theorem State.emit_wires (s : State) (o : Output) : (s.emit o).wires = s.wires := rfl
@[simp] theorem State.emit_mcasts (s : State) (o : Output) : (s.emit o).mcasts = s.mcasts := rfl
@[simp] theorem State.emit_ports (s : State) (o : Output) : (s.emit o).ports = s.ports := rfl
@[simp] theorem State.emit_form (s : State) (o : Output) : (s.emit o).form = s.form := rfl
@[simp] theorem State.emit_mgmt (s : State) (o : Output) : (s.emit o).mgmt = s.mgmt := rfl
@[simp] theorem State.emit_sys (s : State) (o : Output) : (s.emit o).sys = s.sys := rfl
@[simp] theorem State.emit_free (s : State) (o : Output) : (s.emit o).free = s.free := rfl

/-! ## State.setEnt -/

@[simp] theorem State.setEnt_pending (s : State) (n : Name) (v u k : Nat) : (s.setEnt n v u k).pending = s.pending := rfl
@[simp] theorem State.setEnt_fuses (s : State) (n : Name) (v u k : Nat) : (s.setEnt n v u k).fuses = s.fuses := rfl
@[simp] theorem State.setEnt_mem (s : State) (n : Name) (v u k : Nat) : (s.setEnt n v u k).mem = s.mem := rfl
@[simp] theorem State.setEnt_syn (s : State) (n : Name) (v u k : Nat) : (s.setEnt n v u k).syn = s.syn := rfl
@[simp] theorem State.setEnt_sev (s : State) (n : Name) (v u k : Nat) : (s.setEnt n v u k).sev = s.sev := rfl
@[simp] theorem State.setEnt_wtags (s : State) (n : Name) (v u k : Nat) : (s.setEnt n v u k).wtags = s.wtags := rfl
@[simp] theorem State.setEnt_charts (s : State) (n : Name) (v u k : Nat) : (s.setEnt n v u k).charts = s.charts := rfl
@[simp] theorem State.setEnt_sched (s : State) (n : Name) (v u k : Nat) : (s.setEnt n v u k).sched = s.sched := rfl
@[simp] theorem State.setEnt_remote (s : State) (n : Name) (v u k : Nat) : (s.setEnt n v u k).remote = s.remote := rfl
@[simp] theorem State.setEnt_cores (s : State) (n : Name) (v u k : Nat) : (s.setEnt n v u k).cores = s.cores := rfl
@[simp] theorem State.setEnt_clusters (s : State) (n : Name) (v u k : Nat) : (s.setEnt n v u k).clusters = s.clusters := rfl
@[simp] theorem State.setEnt_wires (s : State) (n : Name) (v u k : Nat) : (s.setEnt n v u k).wires = s.wires := rfl
@[simp] theorem State.setEnt_mcasts (s : State) (n : Name) (v u k : Nat) : (s.setEnt n v u k).mcasts = s.mcasts := rfl
@[simp] theorem State.setEnt_ports (s : State) (n : Name) (v u k : Nat) : (s.setEnt n v u k).ports = s.ports := rfl
@[simp] theorem State.setEnt_form (s : State) (n : Name) (v u k : Nat) : (s.setEnt n v u k).form = s.form := rfl
@[simp] theorem State.setEnt_mgmt (s : State) (n : Name) (v u k : Nat) : (s.setEnt n v u k).mgmt = s.mgmt := rfl
@[simp] theorem State.setEnt_sys (s : State) (n : Name) (v u k : Nat) : (s.setEnt n v u k).sys = s.sys := rfl
@[simp] theorem State.setEnt_outbox (s : State) (n : Name) (v u k : Nat) : (s.setEnt n v u k).outbox = s.outbox := rfl
@[simp] theorem State.setEnt_free (s : State) (n : Name) (v u k : Nat) : (s.setEnt n v u k).free = s.free := rfl
@[simp] theorem State.setEnt_dict_base (s : State) (n : Name) (v u k : Nat) : (s.setEnt n v u k).dict.base = s.dict.base := rfl
@[simp] theorem State.setEnt_dict_cnt (s : State) (n : Name) (v u k : Nat) : (s.setEnt n v u k).dict.cnt = s.dict.cnt := rfl
@[simp] theorem State.setEnt_dict_pend (s : State) (n : Name) (v u k : Nat) : (s.setEnt n v u k).dict.pend = s.dict.pend := rfl
@[simp] theorem State.setEnt_dict_tick (s : State) (n : Name) (v u k : Nat) : (s.setEnt n v u k).dict.tick = s.dict.tick := rfl
@[simp] theorem State.setEnt_dict_writes (s : State) (n : Name) (v u k : Nat) : (s.setEnt n v u k).dict.writes = s.dict.writes := rfl

/-! ## State.setCnt -/

@[simp] theorem State.setCnt_pending (s : State) (n : Name) (v u k : Nat) : (s.setCnt n v u k).pending = s.pending := rfl
@[simp] theorem State.setCnt_fuses (s : State) (n : Name) (v u k : Nat) : (s.setCnt n v u k).fuses = s.fuses := rfl
@[simp] theorem State.setCnt_mem (s : State) (n : Name) (v u k : Nat) : (s.setCnt n v u k).mem = s.mem := rfl
@[simp] theorem State.setCnt_syn (s : State) (n : Name) (v u k : Nat) : (s.setCnt n v u k).syn = s.syn := rfl
@[simp] theorem State.setCnt_sev (s : State) (n : Name) (v u k : Nat) : (s.setCnt n v u k).sev = s.sev := rfl
@[simp] theorem State.setCnt_wtags (s : State) (n : Name) (v u k : Nat) : (s.setCnt n v u k).wtags = s.wtags := rfl
@[simp] theorem State.setCnt_charts (s : State) (n : Name) (v u k : Nat) : (s.setCnt n v u k).charts = s.charts := rfl
@[simp] theorem State.setCnt_sched (s : State) (n : Name) (v u k : Nat) : (s.setCnt n v u k).sched = s.sched := rfl
@[simp] theorem State.setCnt_remote (s : State) (n : Name) (v u k : Nat) : (s.setCnt n v u k).remote = s.remote := rfl
@[simp] theorem State.setCnt_cores (s : State) (n : Name) (v u k : Nat) : (s.setCnt n v u k).cores = s.cores := rfl
@[simp] theorem State.setCnt_clusters (s : State) (n : Name) (v u k : Nat) : (s.setCnt n v u k).clusters = s.clusters := rfl
@[simp] theorem State.setCnt_wires (s : State) (n : Name) (v u k : Nat) : (s.setCnt n v u k).wires = s.wires := rfl
@[simp] theorem State.setCnt_mcasts (s : State) (n : Name) (v u k : Nat) : (s.setCnt n v u k).mcasts = s.mcasts := rfl
@[simp] theorem State.setCnt_ports (s : State) (n : Name) (v u k : Nat) : (s.setCnt n v u k).ports = s.ports := rfl
@[simp] theorem State.setCnt_form (s : State) (n : Name) (v u k : Nat) : (s.setCnt n v u k).form = s.form := rfl
@[simp] theorem State.setCnt_mgmt (s : State) (n : Name) (v u k : Nat) : (s.setCnt n v u k).mgmt = s.mgmt := rfl
@[simp] theorem State.setCnt_sys (s : State) (n : Name) (v u k : Nat) : (s.setCnt n v u k).sys = s.sys := rfl
@[simp] theorem State.setCnt_outbox (s : State) (n : Name) (v u k : Nat) : (s.setCnt n v u k).outbox = s.outbox := rfl
@[simp] theorem State.setCnt_free (s : State) (n : Name) (v u k : Nat) : (s.setCnt n v u k).free = s.free := rfl
@[simp] theorem State.setCnt_dict_eff (s : State) (n : Name) (v u k : Nat) : (s.setCnt n v u k).dict.eff = s.dict.eff := rfl
@[simp] theorem State.setCnt_dict_base (s : State) (n : Name) (v u k : Nat) : (s.setCnt n v u k).dict.base = s.dict.base := rfl
@[simp] theorem State.setCnt_dict_pend (s : State) (n : Name) (v u k : Nat) : (s.setCnt n v u k).dict.pend = s.dict.pend := rfl
@[simp] theorem State.setCnt_dict_tick (s : State) (n : Name) (v u k : Nat) : (s.setCnt n v u k).dict.tick = s.dict.tick := rfl
@[simp] theorem State.setCnt_dict_writes (s : State) (n : Name) (v u k : Nat) : (s.setCnt n v u k).dict.writes = s.dict.writes := rfl

/-! ## State.bump -/

@[simp] theorem State.bump_pending (s : State) (n : Name) (u k b : Nat) : (s.bump n u k b).pending = s.pending := rfl
@[simp] theorem State.bump_fuses (s : State) (n : Name) (u k b : Nat) : (s.bump n u k b).fuses = s.fuses := rfl
@[simp] theorem State.bump_mem (s : State) (n : Name) (u k b : Nat) : (s.bump n u k b).mem = s.mem := rfl
@[simp] theorem State.bump_syn (s : State) (n : Name) (u k b : Nat) : (s.bump n u k b).syn = s.syn := rfl
@[simp] theorem State.bump_sev (s : State) (n : Name) (u k b : Nat) : (s.bump n u k b).sev = s.sev := rfl
@[simp] theorem State.bump_wtags (s : State) (n : Name) (u k b : Nat) : (s.bump n u k b).wtags = s.wtags := rfl
@[simp] theorem State.bump_charts (s : State) (n : Name) (u k b : Nat) : (s.bump n u k b).charts = s.charts := rfl
@[simp] theorem State.bump_sched (s : State) (n : Name) (u k b : Nat) : (s.bump n u k b).sched = s.sched := rfl
@[simp] theorem State.bump_remote (s : State) (n : Name) (u k b : Nat) : (s.bump n u k b).remote = s.remote := rfl
@[simp] theorem State.bump_cores (s : State) (n : Name) (u k b : Nat) : (s.bump n u k b).cores = s.cores := rfl
@[simp] theorem State.bump_clusters (s : State) (n : Name) (u k b : Nat) : (s.bump n u k b).clusters = s.clusters := rfl
@[simp] theorem State.bump_wires (s : State) (n : Name) (u k b : Nat) : (s.bump n u k b).wires = s.wires := rfl
@[simp] theorem State.bump_mcasts (s : State) (n : Name) (u k b : Nat) : (s.bump n u k b).mcasts = s.mcasts := rfl
@[simp] theorem State.bump_ports (s : State) (n : Name) (u k b : Nat) : (s.bump n u k b).ports = s.ports := rfl
@[simp] theorem State.bump_form (s : State) (n : Name) (u k b : Nat) : (s.bump n u k b).form = s.form := rfl
@[simp] theorem State.bump_mgmt (s : State) (n : Name) (u k b : Nat) : (s.bump n u k b).mgmt = s.mgmt := rfl
@[simp] theorem State.bump_sys (s : State) (n : Name) (u k b : Nat) : (s.bump n u k b).sys = s.sys := rfl
@[simp] theorem State.bump_outbox (s : State) (n : Name) (u k b : Nat) : (s.bump n u k b).outbox = s.outbox := rfl
@[simp] theorem State.bump_free (s : State) (n : Name) (u k b : Nat) : (s.bump n u k b).free = s.free := rfl
@[simp] theorem State.bump_dict_eff (s : State) (n : Name) (u k b : Nat) : (s.bump n u k b).dict.eff = s.dict.eff := rfl
@[simp] theorem State.bump_dict_base (s : State) (n : Name) (u k b : Nat) : (s.bump n u k b).dict.base = s.dict.base := rfl
@[simp] theorem State.bump_dict_pend (s : State) (n : Name) (u k b : Nat) : (s.bump n u k b).dict.pend = s.dict.pend := rfl
@[simp] theorem State.bump_dict_tick (s : State) (n : Name) (u k b : Nat) : (s.bump n u k b).dict.tick = s.dict.tick := rfl
@[simp] theorem State.bump_dict_writes (s : State) (n : Name) (u k b : Nat) : (s.bump n u k b).dict.writes = s.dict.writes := rfl

/-! ## State.bumpTnt -/

@[simp] theorem State.bumpTnt_pending (s : State) (n : Name) (t k b : Nat) : (s.bumpTnt n t k b).pending = s.pending := rfl
@[simp] theorem State.bumpTnt_fuses (s : State) (n : Name) (t k b : Nat) : (s.bumpTnt n t k b).fuses = s.fuses := rfl
@[simp] theorem State.bumpTnt_mem (s : State) (n : Name) (t k b : Nat) : (s.bumpTnt n t k b).mem = s.mem := rfl
@[simp] theorem State.bumpTnt_syn (s : State) (n : Name) (t k b : Nat) : (s.bumpTnt n t k b).syn = s.syn := rfl
@[simp] theorem State.bumpTnt_sev (s : State) (n : Name) (t k b : Nat) : (s.bumpTnt n t k b).sev = s.sev := rfl
@[simp] theorem State.bumpTnt_wtags (s : State) (n : Name) (t k b : Nat) : (s.bumpTnt n t k b).wtags = s.wtags := rfl
@[simp] theorem State.bumpTnt_charts (s : State) (n : Name) (t k b : Nat) : (s.bumpTnt n t k b).charts = s.charts := rfl
@[simp] theorem State.bumpTnt_sched (s : State) (n : Name) (t k b : Nat) : (s.bumpTnt n t k b).sched = s.sched := rfl
@[simp] theorem State.bumpTnt_remote (s : State) (n : Name) (t k b : Nat) : (s.bumpTnt n t k b).remote = s.remote := rfl
@[simp] theorem State.bumpTnt_cores (s : State) (n : Name) (t k b : Nat) : (s.bumpTnt n t k b).cores = s.cores := rfl
@[simp] theorem State.bumpTnt_clusters (s : State) (n : Name) (t k b : Nat) : (s.bumpTnt n t k b).clusters = s.clusters := rfl
@[simp] theorem State.bumpTnt_wires (s : State) (n : Name) (t k b : Nat) : (s.bumpTnt n t k b).wires = s.wires := rfl
@[simp] theorem State.bumpTnt_mcasts (s : State) (n : Name) (t k b : Nat) : (s.bumpTnt n t k b).mcasts = s.mcasts := rfl
@[simp] theorem State.bumpTnt_ports (s : State) (n : Name) (t k b : Nat) : (s.bumpTnt n t k b).ports = s.ports := rfl
@[simp] theorem State.bumpTnt_form (s : State) (n : Name) (t k b : Nat) : (s.bumpTnt n t k b).form = s.form := rfl
@[simp] theorem State.bumpTnt_mgmt (s : State) (n : Name) (t k b : Nat) : (s.bumpTnt n t k b).mgmt = s.mgmt := rfl
@[simp] theorem State.bumpTnt_sys (s : State) (n : Name) (t k b : Nat) : (s.bumpTnt n t k b).sys = s.sys := rfl
@[simp] theorem State.bumpTnt_outbox (s : State) (n : Name) (t k b : Nat) : (s.bumpTnt n t k b).outbox = s.outbox := rfl
@[simp] theorem State.bumpTnt_free (s : State) (n : Name) (t k b : Nat) : (s.bumpTnt n t k b).free = s.free := rfl
@[simp] theorem State.bumpTnt_dict_eff (s : State) (n : Name) (t k b : Nat) : (s.bumpTnt n t k b).dict.eff = s.dict.eff := rfl
@[simp] theorem State.bumpTnt_dict_base (s : State) (n : Name) (t k b : Nat) : (s.bumpTnt n t k b).dict.base = s.dict.base := rfl
@[simp] theorem State.bumpTnt_dict_pend (s : State) (n : Name) (t k b : Nat) : (s.bumpTnt n t k b).dict.pend = s.dict.pend := rfl
@[simp] theorem State.bumpTnt_dict_tick (s : State) (n : Name) (t k b : Nat) : (s.bumpTnt n t k b).dict.tick = s.dict.tick := rfl
@[simp] theorem State.bumpTnt_dict_writes (s : State) (n : Name) (t k b : Nat) : (s.bumpTnt n t k b).dict.writes = s.dict.writes := rfl

/-! ## State.poke -/

@[simp] theorem State.poke_pending (s : State) (a : Nat) (bs : List Byte) : (s.poke a bs).pending = s.pending := rfl
@[simp] theorem State.poke_fuses (s : State) (a : Nat) (bs : List Byte) : (s.poke a bs).fuses = s.fuses := rfl
@[simp] theorem State.poke_syn (s : State) (a : Nat) (bs : List Byte) : (s.poke a bs).syn = s.syn := rfl
@[simp] theorem State.poke_sev (s : State) (a : Nat) (bs : List Byte) : (s.poke a bs).sev = s.sev := rfl
@[simp] theorem State.poke_wtags (s : State) (a : Nat) (bs : List Byte) : (s.poke a bs).wtags = s.wtags := rfl
@[simp] theorem State.poke_dict (s : State) (a : Nat) (bs : List Byte) : (s.poke a bs).dict = s.dict := rfl
@[simp] theorem State.poke_charts (s : State) (a : Nat) (bs : List Byte) : (s.poke a bs).charts = s.charts := rfl
@[simp] theorem State.poke_sched (s : State) (a : Nat) (bs : List Byte) : (s.poke a bs).sched = s.sched := rfl
@[simp] theorem State.poke_remote (s : State) (a : Nat) (bs : List Byte) : (s.poke a bs).remote = s.remote := rfl
@[simp] theorem State.poke_cores (s : State) (a : Nat) (bs : List Byte) : (s.poke a bs).cores = s.cores := rfl
@[simp] theorem State.poke_clusters (s : State) (a : Nat) (bs : List Byte) : (s.poke a bs).clusters = s.clusters := rfl
@[simp] theorem State.poke_wires (s : State) (a : Nat) (bs : List Byte) : (s.poke a bs).wires = s.wires := rfl
@[simp] theorem State.poke_mcasts (s : State) (a : Nat) (bs : List Byte) : (s.poke a bs).mcasts = s.mcasts := rfl
@[simp] theorem State.poke_ports (s : State) (a : Nat) (bs : List Byte) : (s.poke a bs).ports = s.ports := rfl
@[simp] theorem State.poke_form (s : State) (a : Nat) (bs : List Byte) : (s.poke a bs).form = s.form := rfl
@[simp] theorem State.poke_mgmt (s : State) (a : Nat) (bs : List Byte) : (s.poke a bs).mgmt = s.mgmt := rfl
@[simp] theorem State.poke_sys (s : State) (a : Nat) (bs : List Byte) : (s.poke a bs).sys = s.sys := rfl
@[simp] theorem State.poke_outbox (s : State) (a : Nat) (bs : List Byte) : (s.poke a bs).outbox = s.outbox := rfl
@[simp] theorem State.poke_free (s : State) (a : Nat) (bs : List Byte) : (s.poke a bs).free = s.free := rfl

/-! ## updStream -/

@[simp] theorem updStream_pending (s : State) (c n : Nat) (f : Stream → Stream) : (updStream s c n f).pending = s.pending := rfl
@[simp] theorem updStream_fuses (s : State) (c n : Nat) (f : Stream → Stream) : (updStream s c n f).fuses = s.fuses := rfl
@[simp] theorem updStream_mem (s : State) (c n : Nat) (f : Stream → Stream) : (updStream s c n f).mem = s.mem := rfl
@[simp] theorem updStream_syn (s : State) (c n : Nat) (f : Stream → Stream) : (updStream s c n f).syn = s.syn := rfl
@[simp] theorem updStream_sev (s : State) (c n : Nat) (f : Stream → Stream) : (updStream s c n f).sev = s.sev := rfl
@[simp] theorem updStream_wtags (s : State) (c n : Nat) (f : Stream → Stream) : (updStream s c n f).wtags = s.wtags := rfl
@[simp] theorem updStream_dict (s : State) (c n : Nat) (f : Stream → Stream) : (updStream s c n f).dict = s.dict := rfl
@[simp] theorem updStream_charts (s : State) (c n : Nat) (f : Stream → Stream) : (updStream s c n f).charts = s.charts := rfl
@[simp] theorem updStream_sched (s : State) (c n : Nat) (f : Stream → Stream) : (updStream s c n f).sched = s.sched := rfl
@[simp] theorem updStream_remote (s : State) (c n : Nat) (f : Stream → Stream) : (updStream s c n f).remote = s.remote := rfl
@[simp] theorem updStream_clusters (s : State) (c n : Nat) (f : Stream → Stream) : (updStream s c n f).clusters = s.clusters := rfl
@[simp] theorem updStream_wires (s : State) (c n : Nat) (f : Stream → Stream) : (updStream s c n f).wires = s.wires := rfl
@[simp] theorem updStream_mcasts (s : State) (c n : Nat) (f : Stream → Stream) : (updStream s c n f).mcasts = s.mcasts := rfl
@[simp] theorem updStream_ports (s : State) (c n : Nat) (f : Stream → Stream) : (updStream s c n f).ports = s.ports := rfl
@[simp] theorem updStream_form (s : State) (c n : Nat) (f : Stream → Stream) : (updStream s c n f).form = s.form := rfl
@[simp] theorem updStream_mgmt (s : State) (c n : Nat) (f : Stream → Stream) : (updStream s c n f).mgmt = s.mgmt := rfl
@[simp] theorem updStream_sys (s : State) (c n : Nat) (f : Stream → Stream) : (updStream s c n f).sys = s.sys := rfl
@[simp] theorem updStream_outbox (s : State) (c n : Nat) (f : Stream → Stream) : (updStream s c n f).outbox = s.outbox := rfl
@[simp] theorem updStream_free (s : State) (c n : Nat) (f : Stream → Stream) : (updStream s c n f).free = s.free := rfl

/-! ## Lookups -/

/-- A `core` after a change of one. -/
theorem State.core_updCore (s : State) (n m : Nat) (f : Core → Core) :
    (s.updCore n f).core m = if m = n then f (s.core n) else s.core m := by
  unfold State.core State.updCore
  exact Map.get_upd ..

@[simp] theorem State.core_updCore_same (s : State) (n : Nat) (f : Core → Core) : (s.updCore n f).core n = f (s.core n) := by
  rw [State.core_updCore, if_pos rfl]

/-- A `cluster` after a change of one. -/
theorem State.cluster_updCluster (s : State) (n m : Nat) (f : Cluster → Cluster) :
    (s.updCluster n f).cluster m = if m = n then f (s.cluster n) else s.cluster m := by
  unfold State.cluster State.updCluster
  exact Map.get_upd ..

@[simp] theorem State.cluster_updCluster_same (s : State) (n : Nat) (f : Cluster → Cluster) : (s.updCluster n f).cluster n = f (s.cluster n) := by
  rw [State.cluster_updCluster, if_pos rfl]

/-- A `wire` after a change of one. -/
theorem State.wire_updWire (s : State) (n m : Nat) (f : Wire → Wire) :
    (s.updWire n f).wire m = if m = n then f (s.wire n) else s.wire m := by
  unfold State.wire State.updWire
  exact Map.get_upd ..

@[simp] theorem State.wire_updWire_same (s : State) (n : Nat) (f : Wire → Wire) : (s.updWire n f).wire n = f (s.wire n) := by
  rw [State.wire_updWire, if_pos rfl]

/-- A `mcc` after a change of one. -/
theorem State.mcc_updMcc (s : State) (n m : Nat) (f : Mcc → Mcc) :
    (s.updMcc n f).mcc m = if m = n then f (s.mcc n) else s.mcc m := by
  unfold State.mcc State.updMcc
  exact Map.get_upd ..

@[simp] theorem State.mcc_updMcc_same (s : State) (n : Nat) (f : Mcc → Mcc) : (s.updMcc n f).mcc n = f (s.mcc n) := by
  rw [State.mcc_updMcc, if_pos rfl]

/-- A `port` after a change of one. -/
theorem State.port_updPort (s : State) (n m : Nat) (f : Port → Port) :
    (s.updPort n f).port m = if m = n then f (s.port n) else s.port m := by
  unfold State.port State.updPort
  exact Map.get_upd ..

@[simp] theorem State.port_updPort_same (s : State) (n : Nat) (f : Port → Port) : (s.updPort n f).port n = f (s.port n) := by
  rw [State.port_updPort, if_pos rfl]

/-- A `pass` after a change of one. -/
theorem State.pass_updPass (s : State) (n m : Nat) (f : Pass → Pass) :
    (s.updPass n f).pass m = if m = n then f (s.pass n) else s.pass m := by
  unfold State.pass State.updPass
  exact Map.get_upd ..

@[simp] theorem State.pass_updPass_same (s : State) (n : Nat) (f : Pass → Pass) : (s.updPass n f).pass n = f (s.pass n) := by
  rw [State.pass_updPass, if_pos rfl]

/-- A `desc` after a change of one. -/
theorem State.desc_updDesc (s : State) (n m : Nat) (f : Desc → Desc) :
    (s.updDesc n f).desc m = if m = n then f (s.desc n) else s.desc m := by
  unfold State.desc State.updDesc
  exact Map.get_upd ..

@[simp] theorem State.desc_updDesc_same (s : State) (n : Nat) (f : Desc → Desc) : (s.updDesc n f).desc n = f (s.desc n) := by
  rw [State.desc_updDesc, if_pos rfl]

/-- A `rail` after a change of one. -/
theorem State.rail_updRail (s : State) (n m : Nat) (f : Rail → Rail) :
    (s.updRail n f).rail m = if m = n then f (s.rail n) else s.rail m := by
  unfold State.rail State.updRail State.updGov
  exact Map.get_upd ..

@[simp] theorem State.rail_updRail_same (s : State) (n : Nat) (f : Rail → Rail) : (s.updRail n f).rail n = f (s.rail n) := by
  rw [State.rail_updRail, if_pos rfl]

/-- The pending changes of a sequence after a change of one. -/
theorem State.pendOf_updPend (s : State) (n m : Nat) (f : SeqPend → SeqPend) :
    (s.updPend n f).pendOf m = if m = n then f (s.pendOf n) else s.pendOf m := by
  unfold State.pendOf State.updPend
  exact Map.get_upd ..

/-- A context after a change of one. -/
theorem State.ctx_updCtx (s : State) (c x d y : Nat) (f : Ctx → Ctx) :
    (s.updCtx c x f).ctx d y = if d = c ∧ y = x then f (s.ctx c x) else s.ctx d y := by
  unfold State.ctx State.updCtx
  rw [State.core_updCore]
  by_cases h : d = c
  · subst h
    rw [if_pos rfl]
    by_cases g : y = x
    · subst g
      rw [if_pos ⟨rfl, rfl⟩]
      exact (Map.get_upd ..).trans (if_pos rfl)
    · rw [if_neg (fun e => g e.2)]
      exact (Map.get_upd ..).trans (if_neg g)
  · rw [if_neg h, if_neg (fun e => h e.1)]

end Sys2Proof.Machine
end

