-- ==== Sys2Proof/Laws/Operations.lean ====
section
/-!
SUPPORT. What the shared operations can do, once for each: edits handed to the block, requests from inside, dictionary
frames, writes of memory, events. Proofs about commands cite these instead of unfolding the operations.
-/

namespace Sys2Proof.Machine

open Sys2Proof

/-! ## Edits (R56, R63, R71) -/

/-- An edit that enters the queue and is applied by hardware runs at once. -/
theorem submitEdit_hardware {s : State} {h : EditHdr} {op : EditOp} (ht : EditTaken s h) (hm : EditsByHardware s h)
    (hf : op = .forceRelease → fromCc h = true) :
    submitEdit s h op = runEdit (withEdit s h op) s.charts.nextEdit h op := by
  unfold submitEdit
  rw [if_neg (Nat.not_le.2 ht.1), if_neg ht.2, if_neg]
  · simp only []
    rw [if_neg]
    · rfl
    · intro g
      simp only [Bool.and_eq_true, bne_iff_ne, ne_eq] at g
      rcases hm with e | e
      · exact g.1 e
      · exact g.2 e
  · intro g
    simp only [Bool.and_eq_true, decide_eq_true_eq, Bool.not_eq_true'] at g
    rw [hf g.1] at g
    exact absurd g.2 (by decide)

/-- An edit that waits for the commit, applied: the shadow is dirty and the queue entry is marked. -/
theorem runEdit_applied {s t : State} {id : Nat} {h : EditHdr} {op : EditOp} (hv : op.verdict = false)
    (hi : op.immediate = false) (e : applyOp s id h op = (.ok, t)) :
    runEdit s id h op = jobPump (editWaits (shadowDirty t h.seq.toNat) id) := by
  unfold runEdit finishEdit
  rw [e, if_neg (by simp)]
  simp only [hv, hi, Bool.or_false, Bool.false_eq_true, if_false]
  rfl

/-! ## Frames of KV memory given back -/

/-- Descriptors, scheduler, cores and memory bytes are as before. -/
def SeqsKept (s t : State) : Prop :=
  t.charts.seqs = s.charts.seqs ∧ t.sched = s.sched ∧ t.cores = s.cores ∧ t.mem = s.mem

theorem SeqsKept.refl (s : State) : SeqsKept s s := ⟨rfl, rfl, rfl, rfl⟩

theorem SeqsKept.trans {s t u : State} (a : SeqsKept s t) (b : SeqsKept t u) : SeqsKept s u :=
  ⟨b.1.trans a.1, b.2.1.trans a.2.1, b.2.2.1.trans a.2.2.1, b.2.2.2.trans a.2.2.2⟩

theorem SeqsKept.fold {α : Type} {f : State → α → State} (hf : ∀ s x, SeqsKept s (f s x)) (l : List α) (s : State) :
    SeqsKept s (l.foldl f s) := by
  induction l generalizing s with
  | nil => exact SeqsKept.refl s
  | cons x r ih => exact (hf s x).trans (ih _)

theorem updPart_seqs (s : State) (p : Nat) (f : Part → Part) : SeqsKept s (s.updPart p f) := by
  unfold State.updPart
  split <;> exact ⟨rfl, rfl, rfl, rfl⟩

theorem releaseBit_seqs (s : State) (p : Nat × Nat) (i : Nat) : SeqsKept s (releaseBit s p i) := by
  unfold releaseBit
  split
  · exact SeqsKept.refl s
  · dsimp only
    split
    · exact (show SeqsKept s (setShare s p _) from updPart_seqs _ _ _).trans ⟨rfl, rfl, rfl, rfl⟩
    · exact updPart_seqs _ _ _

/-- Unlinked nodes, frames and share bits return to their maps, and no descriptor changes. -/
theorem freeUnlinked_seqs (s : State) (u : Unlinked) : SeqsKept s (freeUnlinked s u) := by
  unfold freeUnlinked
  refine ((SeqsKept.fold ?_ u.nodes s).trans (SeqsKept.fold ?_ u.frames _)).trans (SeqsKept.fold ?_ u.bits _)
  · intro s x
    exact ⟨rfl, rfl, rfl, rfl⟩
  · intro s x
    split
    · exact updPart_seqs _ _ _
    · exact SeqsKept.refl s
  · intro s b
    exact releaseBit_seqs s _ _

/-! ## Events -/

/-- What is stored leaves the dictionary's entries, the governor, the Control Complex and the phases alone. -/
structure QuietKept (s t : State) : Prop where
  eff : t.dict.eff = s.dict.eff
  base : t.dict.base = s.dict.base
  pend : t.dict.pend = s.dict.pend
  gov : t.sys.gov = s.sys.gov
  cc : t.sys.cc = s.sys.cc
  phase : t.sys.phase = s.sys.phase
  mccs : t.sys.mccs = s.sys.mccs
  req : t.sys.rstReqN = s.sys.rstReqN
  cause : t.sys.rstCause = s.sys.rstCause
  uptime : t.sys.uptime = s.sys.uptime
  cores : t.cores = s.cores
  clusters : t.clusters = s.clusters
  wires : t.wires = s.wires
  ports : t.ports = s.ports
  form : t.form = s.form
  remote : t.remote = s.remote
  sched : t.sched = s.sched

theorem QuietKept.refl (s : State) : QuietKept s s :=
  ⟨rfl, rfl, rfl, rfl, rfl, rfl, rfl, rfl, rfl, rfl, rfl, rfl, rfl, rfl, rfl, rfl, rfl⟩

theorem QuietKept.trans {s t u : State} (a : QuietKept s t) (b : QuietKept t u) : QuietKept s u :=
  ⟨b.1.trans a.1, b.2.trans a.2, b.3.trans a.3, b.4.trans a.4, b.5.trans a.5, b.6.trans a.6, b.7.trans a.7, b.8.trans a.8,
    b.9.trans a.9, b.10.trans a.10, b.11.trans a.11, b.12.trans a.12, b.13.trans a.13, b.14.trans a.14, b.15.trans a.15,
    b.16.trans a.16, b.17.trans a.17⟩

theorem QuietKept.bump {s t : State} (h : QuietKept s t) (n : Name) (u k b : Nat) : QuietKept s (t.bump n u k b) :=
  ⟨h.1, h.2, h.3, h.4, h.5, h.6, h.7, h.8, h.9, h.10, h.11, h.12, h.13, h.14, h.15, h.16, h.17⟩

theorem QuietKept.emit {s t : State} (h : QuietKept s t) (o : Output) : QuietKept s (t.emit o) :=
  ⟨h.1, h.2, h.3, h.4, h.5, h.6, h.7, h.8, h.9, h.10, h.11, h.12, h.13, h.14, h.15, h.16, h.17⟩

theorem QuietKept.mgmt {s t : State} (h : QuietKept s t) (m : Mgmt) : QuietKept s { t with mgmt := m } :=
  ⟨h.1, h.2, h.3, h.4, h.5, h.6, h.7, h.8, h.9, h.10, h.11, h.12, h.13, h.14, h.15, h.16, h.17⟩

theorem QuietKept.trace {s t : State} (h : QuietKept s t) (r : Trace) :
    QuietKept s { t with sys := { t.sys with trace := r } } :=
  ⟨h.1, h.2, h.3, h.4, h.5, h.6, h.7, h.8, h.9, h.10, h.11, h.12, h.13, h.14, h.15, h.16, h.17⟩

theorem QuietKept.updDesc {s t : State} (h : QuietKept s t) (n : Nat) (f : Desc → Desc) : QuietKept s (t.updDesc n f) :=
  ⟨h.1, h.2, h.3, h.4, h.5, h.6, h.7, h.8, h.9, h.10, h.11, h.12, h.13, h.14, h.15, h.16, h.17⟩

theorem QuietKept.poke {s t : State} (h : QuietKept s t) (a : Nat) (bs : List Byte) : QuietKept s (t.poke a bs) :=
  ⟨h.1, h.2, h.3, h.4, h.5, h.6, h.7, h.8, h.9, h.10, h.11, h.12, h.13, h.14, h.15, h.16, h.17⟩

theorem QuietKept.storeByte {s t : State} (h : QuietKept s t) (a : Nat) (b : Byte) : QuietKept s (t.storeByte a b) := by
  unfold State.storeByte
  split
  · exact ⟨h.1, h.2, h.3, h.4, h.5, h.6, h.7, h.8, h.9, h.10, h.11, h.12, h.13, h.14, h.15, h.16, h.17⟩
  · exact h.poke _ _

theorem QuietKept.fold {s t : State} {α : Type} {f : State → α → State}
    (hf : ∀ x a, QuietKept s x → QuietKept s (f x a)) (h : QuietKept s t) (l : List α) : QuietKept s (l.foldl f t) := by
  induction l generalizing t with
  | nil => exact h
  | cons x r ih => exact ih (hf _ x h)

theorem QuietKept.store {s t : State} (h : QuietKept s t) (a : Nat) (bs : List Byte) : QuietKept s (t.store a bs) := by
  unfold State.store
  split
  · exact QuietKept.fold (fun x i g => g.updDesc _ _) h _
  · split
    · exact QuietKept.fold (fun x i g => g.storeByte _ _) h _
    · exact h.poke a bs

theorem QuietKept.traced {s t : State} (h : QuietKept s t) (type : Nat) (a : TraceArgs) :
    QuietKept s (t.trace type a) := by
  unfold State.trace
  split
  · exact h
  · dsimp only
    generalize (if t.sys.trace.period = t.sys.gov.period then t.sys.trace
      else { t.sys.trace with period := t.sys.gov.period, inPeriod := 0 }) = r
    split
    · exact (h.trace _).bump _ _ _ _
    · exact ((h.trace _).store _ _).bump _ _ _ _

theorem QuietKept.irq {s t : State} (h : QuietKept s t) (v : Nat) : QuietKept s (t.irq v) := by
  unfold State.irq
  split
  · exact h.emit _
  · exact h

theorem QuietKept.eventIbi {s t : State} (h : QuietKept s t) : QuietKept s t.eventIbi := by
  unfold State.eventIbi
  dsimp only
  split
  · exact h
  · split
    · exact (h.mgmt _).emit _
    · exact h.mgmt _

/-- Raising an event changes only records, counters, outputs and, with the trace on, the trace. -/
theorem QuietKept.raise {s t : State} (h : QuietKept s t) (code : FC) (kind index arg : Nat) :
    QuietKept s (t.raise code kind index arg) := by
  unfold State.raise
  have lost : ∀ (b : Bool) (x : State), QuietKept s x → QuietKept s (if b = true then x.bump .evtDropped else x) := by
    intro b x g
    cases b
    · exact g
    · exact g.bump _ _ _ _
  have head := fun (m : Mgmt) (b : Bool) (a : TraceArgs) => ((lost b _ (h.mgmt m)).irq 0).eventIbi.traced 8 a
  extract_lets n e l t1 t2 t3 t4 u p
  have g : QuietKept s p := head _ _ _
  clear_value p
  split
  · exact g.trace _
  · exact g

/-! ## Requests from inside (R294, R295, R472) -/

/-- An operation on plain memory is the data's alone; a CPUT leaves its increment outstanding. -/
theorem performAt_plain {s : State} {k : Kind} {r : Req} {ctr : Nat × Nat} {p : Option Nat} (hp : PlainAt s r.addr)
    (he : effectCode s k r = .ok) : performAt s k r ctr p =
      (let (s, ans) := performData s k r
       if k == .cput && ans.code == .ok then
         let i : PendIncr := { core := ctr.1, ctr := ctr.2, pass := p, origin := r.origin, tag := r.tag,
                               cycle := r.cycle, tenant := r.tenant.toNat }
         (passHold { s with remote := { s.remote with incrs := s.remote.incrs ++ [i] } } p, none)
       else (s, some ans)) := by
  unfold performAt
  rw [he]
  cases h : regionAt s r.addr with
  | window c x => exact absurd h (hp.1 c x)
  | counters c => exact absurd h (hp.2 c)
  | _ => simp only [h]

/-- A local request from inside is served and answered. -/
theorem exec_inside {s : State} {k : Kind} {r : Req} {c : Instr} {i : Issuer} (ho : r.origin = .inside i)
    (hl : isLocal s r.node = true)
    (hc : (k = .put ∧ c = .put r) ∨ (k = .get ∧ c = .get r) ∨ (k = .cput ∧ c = .cput r) ∨ (k = .add ∧ c = .add r) ∨
      (k = .max ∧ c = .max r) ∨ (k = .cmpcnt ∧ c = .cmpcnt r)) :
    exec c s = .next (answer? (serveInside s k r).1 r.origin r.tag (serveInside s k r).2) := by
  rcases hc with ⟨rfl, rfl⟩ | ⟨rfl, rfl⟩ | ⟨rfl, rfl⟩ | ⟨rfl, rfl⟩ | ⟨rfl, rfl⟩ | ⟨rfl, rfl⟩ <;>
    simp only [exec, execPut, execGet, execCput, execAdd, execMax, execCmpcnt, request, ho, issueInside, hl, if_true]

/-- The address of core c's arm record of wire w lies in the counter block of the core (Table 13-2). -/
theorem regionAt_arm (s : State) (c : Fin 32) (w : Fin 16) :
    regionAt s (counterBase + c.val * 0x10000 + 0x3000 + 16 * w.val) = .counters c.val := by
  unfold regionAt regionOf
  have h1 : (counterBase + c.val * 0x10000 + 0x3000 + 16 * w.val) % 0x10000 = 0x3000 + 16 * w.val := by
    simp only [counterBase]
    omega
  have h2 : (counterBase + c.val * 0x10000 + 0x3000 + 16 * w.val) % 0x200000 / 0x10000 = c.val := by
    simp only [counterBase]
    omega
  have h3 : counterBase ≤ counterBase + c.val * 0x10000 + 0x3000 + 16 * w.val := by omega
  have h4 : counterBase + c.val * 0x10000 + 0x3000 + 16 * w.val < counterBase + 0x200000 := by omega
  generalize counterBase + c.val * 0x10000 + 0x3000 + 16 * w.val = a at *
  have h5 : ¬ a < hbmEnd := by
    unfold hbmEnd
    unfold counterBase at h3
    omega
  have h6 : (decide (scratchBase ≤ a) && decide (a < scratchBase + 0x20000000)) = false := by
    rw [Bool.and_eq_false_iff, decide_eq_false_iff_not, decide_eq_false_iff_not]
    unfold scratchBase
    unfold counterBase at h3
    omega
  have h7 : (decide (commonsBase ≤ a) && decide (a < commonsBase + 0x8000000)) = false := by
    rw [Bool.and_eq_false_iff, decide_eq_false_iff_not, decide_eq_false_iff_not]
    unfold commonsBase
    unfold counterBase at h3
    omega
  rw [if_neg h5, if_neg (by rw [h6]; decide), if_neg (by rw [h7]; decide), if_pos]
  · simp only [h1, h2]
    rw [if_pos]
    simp [counterOffsetOk]
    omega
  · simp [h3, h4]

/-! ## Streams -/

/-- A change of a stream reads the stream itself only. -/
theorem updStream_const (s : State) (c n : Nat) (f : Stream → Stream) :
    updStream s c n f = updStream s c n (fun _ => f (streamAt s c n)) := by
  unfold updStream State.updCore
  congr 1

/-! ## Dictionary frames (R375, R376) -/

/-- A frame that is served at once is answered with what the block's own service of it says. -/
theorem takeFrame_served {s : State} {f : Frame} (h : ServedAtOnce s f) : takeFrame s f =
    (let q := serveLocal (frameIn s f.hdr.src) f
     deliverFrame q.2.2 f.hdr.src (responseBytes q.2.2 f q.1 q.2.1)) := by
  obtain ⟨a, b, c, d, l⟩ := h
  unfold takeFrame
  have hu : (f.hdr.src = .host && !s.sys.hpUp) = false := by
    cases hx : decide (f.hdr.src = .host) with
    | false => rfl
    | true => simp [a (by simpa using hx)]
  simp only [hu, b, c, Nat.not_lt.2 l, Bool.not_false, Bool.or_self, decide_false, Bool.false_eq_true, if_false, if_true]
  unfold serveFrame
  simp only [d, if_true]

/-- A WRITE that reaches a command entry does what the entry's command does, and is answered with its code. -/
theorem takeFrame_command {s t t' : State} {f : Frame} {n : Name} {u k v : Nat} {slot : Option Nat} {c : FC}
    (h : CommandReaches s f n u k v slot t) (hw : writeCommand t f.hdr slot n u k v f.payload = some (c, t')) :
    takeFrame s f = if c = .ok then accepted t' f else answeredWith t' f c := by
  obtain ⟨hs, ho, e, r, priv, h1, h2, h3, h4, h5, h6, h7, h8, h9⟩ := h
  rw [takeFrame_served hs]
  have hl : serveLocal (frameIn s f.hdr.src) f = serveEntry (frameIn s f.hdr.src) f (.entry e u k) := by
    unfold serveLocal
    rw [ho, h1]
    rfl
  have ht : tickedWrite r f.hdr slot (ekey f.index f.sub) e u k f.payload =
      if c = .ok then (.ok, noteWrite t' (ekey f.index f.sub) (srcRank f.hdr.src)) else (c, t') := by
    unfold tickedWrite
    simp only []
    rw [← h7]
    have hwe : writeEntry t f.hdr slot e u k f.payload = (c, t') := by
      unfold writeEntry
      simp only []
      rw [h6, h2, hw]
      rcases h8 with ⟨m, h8⟩ | h8
      · rw [h8]
        rfl
      · cases e.typ <;> simp only [h8] <;> rfl
    rw [hwe]
    simp only []
    by_cases hc : c = .ok
    · subst hc
      rw [if_pos rfl, h9]
      rfl
    · rw [if_neg hc, if_neg (by rw [h9, Bool.and_false]; decide), if_pos (by simpa using hc)]
  have he : serveEntry (frameIn s f.hdr.src) f (.entry e u k) =
      (let q := tickedWrite r f.hdr slot (ekey f.index f.sub) e u k f.payload
       (q.1, [], q.2)) := by
    unfold serveEntry
    rw [ho]
    have h3' : authFrame (frameIn s f.hdr.src) f (if (decide (e.acc = Access.aw)) = true then some e.cls else none) =
        (.ok, r, slot, priv) := by
      rw [← h3]
      congr 1
      simp
    simp only [beq_self_eq_true, Bool.true_and]
    rw [h3']
    rw [h4, h5]
    simp only [bne_self_eq_false, if_true, if_false, Bool.false_eq_true]
  rw [hl, he, ht]
  by_cases hc : c = .ok
  · subst hc
    rfl
  · rw [if_neg hc, if_neg hc]
    rfl

/-- A command that is accepted. -/
theorem takeFrame_accepted {s t t' : State} {f : Frame} {n : Name} {u k v : Nat} {slot : Option Nat}
    (h : CommandReaches s f n u k v slot t) (hw : writeCommand t f.hdr slot n u k v f.payload = some (.ok, t')) :
    takeFrame s f = accepted t' f := (takeFrame_command h hw).trans (if_pos rfl)

/-- A command that is refused. -/
theorem takeFrame_answered {s t t' : State} {f : Frame} {n : Name} {u k v : Nat} {slot : Option Nat} {c : FC}
    (h : CommandReaches s f n u k v slot t) (hw : writeCommand t f.hdr slot n u k v f.payload = some (c, t'))
    (hc : c ≠ .ok) : takeFrame s f = answeredWith t' f c := (takeFrame_command h hw).trans (if_neg hc)

end Sys2Proof.Machine
end

