-- ==== Sys2Proof/Laws/Fabric.lean ====
section
/-!
SUPPORT. What a read or a write of memory leaves of the fabric, and a request whose payload meets no bit error on its way.
-/

namespace Sys2Proof.Machine

open Sys2Proof

/-! ## Reads and writes leave the fabric alone -/

/-- The fabric is as before. -/
def FabKept (s t : State) : Prop := t.sys.fab = s.sys.fab

theorem FabKept.lit {s t u : State} (h : FabKept s t) (e : u.sys.fab = t.sys.fab) : FabKept s u := e.trans h

theorem FabKept.bump {s t : State} (h : FabKept s t) (n : Name) (u k b : Nat) : FabKept s (t.bump n u k b) := h.lit rfl

theorem FabKept.updDesc {s t : State} (h : FabKept s t) (n : Nat) (f : Desc → Desc) : FabKept s (t.updDesc n f) := h.lit rfl

theorem FabKept.traceSet {s t : State} (h : FabKept s t) (r : Trace) :
    FabKept s { t with sys := { t.sys with trace := r } } := h.lit rfl

theorem FabKept.synSet {s t : State} (h : FabKept s t) (x : FMap Nat) : FabKept s { t with syn := x } := h.lit rfl

theorem FabKept.memSynSet {s t : State} (h : FabKept s t) (x : FMap Nat) (m : FMap Byte) :
    FabKept s { t with syn := x, mem := m } := h.lit rfl

theorem FabKept.wtagsSet {s t : State} (h : FabKept s t) (x : FMap WTag) : FabKept s { t with wtags := x } := h.lit rfl

theorem FabKept.mcFlipsSet {s t : State} (h : FabKept s t) (x : FMap Nat) :
    FabKept s { t with sys := { t.sys with mcFlips := x } } := h.lit rfl

theorem FabKept.fold {s t : State} {α : Type} {f : State → α → State} (hf : ∀ x a, FabKept s x → FabKept s (f x a))
    (h : FabKept s t) (l : List α) : FabKept s (l.foldl f t) := by
  induction l generalizing t with
  | nil => exact h
  | cons x r ih => exact ih (hf _ x h)

theorem FabKept.poke {s t : State} (h : FabKept s t) (a : Nat) (bs : List Byte) : FabKept s (t.poke a bs) := h.lit rfl

theorem FabKept.storeByte {s t : State} (h : FabKept s t) (a : Nat) (b : Byte) : FabKept s (t.storeByte a b) := by
  unfold State.storeByte
  split <;> exact h.lit rfl

theorem FabKept.store {s t : State} (h : FabKept s t) (a : Nat) (bs : List Byte) : FabKept s (t.store a bs) := by
  unfold State.store
  split
  · exact FabKept.fold (fun x i g => g.updDesc _ _) h _
  · split
    · exact FabKept.fold (fun x i g => g.storeByte _ _) h _
    · exact h.poke a bs

theorem FabKept.irq {s t : State} (h : FabKept s t) (v : Nat) : FabKept s (t.irq v) := by
  unfold State.irq
  split <;> exact h.lit rfl

theorem FabKept.eventIbi {s t : State} (h : FabKept s t) : FabKept s t.eventIbi := by
  unfold State.eventIbi
  dsimp only
  repeat' split
  all_goals exact h.lit rfl

theorem FabKept.trace {s t : State} (h : FabKept s t) (type : Nat) (a : TraceArgs) : FabKept s (t.trace type a) := by
  unfold State.trace
  split
  · exact h
  · dsimp only
    generalize (if t.sys.trace.period = t.sys.gov.period then t.sys.trace
      else { t.sys.trace with period := t.sys.gov.period, inPeriod := 0 }) = r
    split
    · exact (h.traceSet _).bump _ _ _ _
    · exact ((h.traceSet _).store _ _).bump _ _ _ _

/-- Raising an event leaves the fabric alone. -/
theorem FabKept.raise {s t : State} (h : FabKept s t) (code : FC) (kind index arg : Nat) :
    FabKept s (t.raise code kind index arg) := by
  unfold State.raise
  have lost : ∀ (b : Bool) (x : State), FabKept s x → FabKept s (if b = true then x.bump .evtDropped else x) := by
    intro b x g
    cases b
    · exact g
    · exact g.bump _ _ _ _
  have head := fun (m : Mgmt) (b : Bool) (a : TraceArgs) =>
    ((lost b { t with mgmt := m } (h.lit rfl)).irq 0).eventIbi.trace 8 a
  extract_lets n e l t1 t2 t3 t4 u p
  have g : FabKept s p := head _ _ _
  clear_value p
  split
  · exact g.lit rfl
  · exact g

theorem FabKept.hbmMark {s t : State} (h : FabKept s t) (wa : Nat) : FabKept s (hbmMark t wa) := by
  unfold Machine.hbmMark
  dsimp only
  split
  · exact h.lit rfl
  · exact (h.raise _ _ _ _).lit rfl

theorem FabKept.hbmSettleHalf {s t : State} (h : FabKept s t) (x : Nat) : FabKept s (hbmSettleHalf t x) := by
  unfold Machine.hbmSettleHalf
  dsimp only
  split
  · exact h
  · have m : ∀ (c : Prop) [Decidable c] (y : State) (w : Nat), FabKept s y → FabKept s (if c then Machine.hbmMark y w else y) := by
      intro c _ y w g
      split
      · exact g.hbmMark _
      · exact g
    exact m _ _ _ (m _ _ _ ((h.bump _ _ _ _).raise _ _ _ _))
  · exact h.bump _ _ _ _

theorem FabKept.hbmSettle {s t : State} (h : FabKept s t) (a n : Nat) : FabKept s (hbmSettle t a n) := by
  unfold Machine.hbmSettle
  split
  · exact h
  · exact FabKept.fold (fun x i g => g.hbmSettleHalf _) h _

theorem FabKept.hbmPartial {s t : State} (h : FabKept s t) (a n : Nat) : FabKept s (hbmPartial t a n) := by
  unfold Machine.hbmPartial
  split
  · exact h
  · dsimp only
    have g : ∀ (b : Bool) (x : State) (i : Nat), FabKept s x → FabKept s (if b = true then Machine.hbmSettleHalf x i else x) := by
      intro b x i g
      cases b
      · exact g
      · exact g.hbmSettleHalf _
    exact g _ _ _ (g _ _ _ h)

theorem FabKept.refetchLine {s t : State} (h : FabKept s t) (line : Nat) : FabKept s (refetchLine t line) := by
  unfold Machine.refetchLine
  split
  · exact h
  · rename_i w e
    have a : FabKept s (Machine.hbmSettle t w.home 256) := h.hbmSettle _ _
    have b : ∀ x : State, FabKept s x →
        FabKept s (Machine.hbmSettle (x.bump .spWeightRefetch (scratchCore line)) w.home 256) :=
      fun x g => (g.bump _ _ _ _).hbmSettle _ _
    extract_lets c again u v
    have hv : FabKept s v := by
      show FabKept s (if _ then _ else _)
      split
      · exact b _ a
      · exact a
    clear_value v
    split
    · exact FabKept.raise ((((hv.bump _ _ _ _).bump _ _ _ _).wtagsSet _).synSet _) _ _ _ _
    · exact ((((hv.bump _ _ _ _).synSet _).poke _ _).wtagsSet _)

theorem FabKept.settleWord {s t : State} (h : FabKept s t) (wa : Nat) : FabKept s (settleWord t wa) := by
  unfold Machine.settleWord
  split
  · exact h
  · exact h
  · dsimp only
    split
    · exact (h.synSet _).bump _ _ _ _
    · exact h.synSet _
  · dsimp only
    split
    · exact (h.memSynSet _ _).bump _ _ _ _
    · exact h.memSynSet _ _
  · split
    · exact h.refetchLine _
    · dsimp only
      split
      · exact ((h.synSet _).bump _ _ _ _).raise _ _ _ _
      · exact (h.synSet _).raise _ _ _ _

theorem FabKept.sramSettle {s t : State} (h : FabKept s t) (a n : Nat) : FabKept s (sramSettle t a n) := by
  unfold Machine.sramSettle
  split
  · exact h
  · exact FabKept.fold (fun x i g => g.settleWord _) h _

theorem FabKept.sramPartial {s t : State} (h : FabKept s t) (a n : Nat) : FabKept s (sramPartial t a n) := by
  unfold Machine.sramPartial
  split
  · exact h
  · dsimp only
    have g : ∀ (b : Bool) (x : State) (i : Nat), FabKept s x → FabKept s (if b = true then Machine.settleWord x i else x) := by
      intro b x i g
      cases b
      · exact g
      · exact g.settleWord _
    exact g _ _ _ (g _ _ _ h)

theorem FabKept.hbmClear {s t : State} (h : FabKept s t) (wa : Nat) : FabKept s (hbmClear t wa) := by
  unfold Machine.hbmClear
  dsimp only
  split <;> exact h.lit rfl

theorem FabKept.setMarks {s t : State} (h : FabKept s t) (a n : Nat) (m : List Bool) : FabKept s (setMarks t a n m) := by
  unfold Machine.setMarks
  split
  · exact h
  · refine FabKept.fold (fun x i g => ?_) h _
    unfold setMark
    dsimp only
    repeat' split
    all_goals first
      | exact g
      | exact g.hbmMark _
      | exact g.hbmClear _

theorem FabKept.mcPath {s t : State} (h : FabKept s t) (a n : Nat) : FabKept s (mcPath t a n) := by
  unfold Machine.mcPath
  split
  · exact h
  · refine FabKept.fold (fun x i g => ?_) h _
    split
    · unfold mcPathWord
      dsimp only
      split
      · exact g.mcFlipsSet _
      · exact (g.mcFlipsSet _).hbmMark _
      · exact ((g.mcFlipsSet _).store _ _).hbmMark _
      · exact (g.mcFlipsSet _).bump _ _ _ _
    · exact g

theorem FabKept.putBack {s t : State} (h : FabKept s t) (a : Nat) (bs : List Byte) (m : List Bool) (k : Option Nat) :
    FabKept s (t.putBack a bs m k) := by
  unfold State.putBack
  extract_lets u v w
  have hu : FabKept s u := (h.store a bs).setMarks _ _ _
  have hv : FabKept s v := by
    show FabKept s (if _ then _ else _)
    split
    · exact hu.mcPath _ _
    · exact hu
  have hw : FabKept s w := by
    show FabKept s (if _ then _ else _)
    split
    · exact hv.lit rfl
    · exact hv
  clear_value w
  split
  · split
    · exact hw.lit rfl
    · exact hw
  · exact hw

/-- A write of memory leaves the fabric alone. -/
theorem FabKept.write {s t : State} (h : FabKept s t) (a : Nat) (bs : List Byte) (m : List Bool) (k : Option Nat) :
    FabKept s (t.write a bs m k) := by
  unfold State.write
  dsimp only
  refine FabKept.putBack ?_ _ _ _ _
  split
  · exact h.hbmPartial _ _
  · exact h.sramPartial _ _

/-- A read of memory leaves the fabric alone. -/
theorem FabKept.settle {s t : State} (h : FabKept s t) (a n : Nat) : FabKept s (t.settle a n) := by
  unfold State.settle
  split
  · exact h.hbmSettle _ _
  · exact h.sramSettle _ _

/-- What an operation does to plain bytes leaves the fabric alone. -/
theorem performData_fab (s : State) (k : Kind) (r : Req) : FabKept s (performData s k r).1 := by
  have h : FabKept s s := rfl
  unfold performData
  cases k
  case get => exact h.settle _ _
  case cmpcnt => exact h.settle _ _
  case put => exact h.write _ _ _ _
  case cput => exact h.write _ _ _ _
  all_goals
    dsimp only
    split
    · exact h.settle _ _
    · exact (h.settle _ _).putBack _ _ _ _

/-! ## Requests on their way (R17) -/

/-- Nothing happens to a payload on its way when no bit error is pending in the fabric. -/
theorem crossFabric_quiet {s : State} (h : s.sys.fab.flips = []) (src dst : Agent) (d : List Byte) (m : List Bool) :
    crossFabric s src dst d m = (s, d, m) := by
  unfold crossFabric
  simp [h]

/-- A request that meets no bit error on its way is performed as it was sent. -/
theorem performVia_quiet {s : State} {k : Kind} {r : Req} {ctr : Nat × Nat} {p : Option Nat}
    (h : s.sys.fab.flips = []) (h2 : (performAt s k r ctr p).1.sys.fab.flips = []) :
    performVia s k r ctr p = performAt s k r ctr p := by
  unfold performVia
  have e : (if (k == .put || k == .cput) = true then
      crossFabric s (originAgent s r.origin) (addressAgent s r.addr) r.data r.poison else (s, r.data, r.poison)) =
      (s, r.data, r.poison) := by
    split
    · exact crossFabric_quiet h _ _ _ _
    · rfl
  simp only [e]
  cases hq : (performAt s k r ctr p).2 with
  | none => simp only; rw [← hq]
  | some a =>
    simp only [crossFabric_quiet h2]
    rw [← hq]

/-- An operation on plain memory that meets no bit error on its way is performed as it was sent. -/
theorem performVia_plain {s : State} {k : Kind} {r : Req} {ctr : Nat × Nat} {p : Option Nat} (hp : PlainAt s r.addr)
    (he : effectCode s k r = .ok) (h : s.sys.fab.flips = []) : performVia s k r ctr p = performAt s k r ctr p := by
  refine performVia_quiet h ?_
  rw [performAt_plain hp he]
  have g : (performData s k r).1.sys.fab = s.sys.fab := performData_fab s k r
  dsimp only
  split
  · unfold passHold
    split <;> exact g ▸ h
  · exact g ▸ h

end Sys2Proof.Machine
end

