-- ==== Sys2Proof/Laws/Kept.lean ====
section
/-!
SUPPORT. What every operation keeps: memory stays canonical, fused values, the boot nonce and the queue stay, outputs given
stay given, `rst_req_n` stays low, the power-on phase does not come back, an MCC that is down stays down, and (for
`b = true`) SCHED_STEP stays. Rules for the forms in which operations are written.
-/

namespace Sys2Proof.Machine

open Sys2Proof

/-- What a state keeps of an earlier one (R13, R86, R370, R408, R447). -/
structure Kept (b : Bool) (s t : State) : Prop where
  mem : Memory.wf s.mem = true → Memory.wf t.mem = true
  fuses : t.fuses = s.fuses
  nonce : t.mgmt.nonce = s.mgmt.nonce
  pending : t.pending = s.pending
  req : s.sys.rstReqN = false → t.sys.rstReqN = false
  outbox : s.outbox <+: t.outbox
  phase : s.sys.phase ≠ 1 → t.sys.phase ≠ 1
  mcc : s.sys.phase ≠ 1 → ∀ n, (s.mcc n).state = .down → (t.mcc n).state = .down
  off : s.sys.phase = 1 → t.sys.phase = 1 → ∀ n, (s.mcc n).state = .off → (t.mcc n).state = .off
  step : b = true → t.sched.step = s.sched.step

variable {b : Bool} {s0 s t : State}

/-- A state keeps everything of itself. -/
theorem Kept.refl (b : Bool) (s : State) : Kept b s s :=
  ⟨id, rfl, rfl, rfl, id, List.prefix_rfl, id, fun _ _ h => h, fun _ _ _ h => h, fun _ => rfl⟩

/-- What is kept twice is kept. -/
theorem Kept.trans {s1 : State} (h : Kept b s0 s1) (g : Kept b s1 t) : Kept b s0 t :=
  ⟨fun x => g.mem (h.mem x), g.fuses.trans h.fuses, g.nonce.trans h.nonce, g.pending.trans h.pending,
    fun x => g.req (h.req x), h.outbox.trans g.outbox, fun x => g.phase (h.phase x),
    fun p n x => g.mcc (h.phase p) n (h.mcc p n x),
    fun p q n x => by
      by_cases e : s1.sys.phase = 1
      · exact g.off e q n (h.off p e n x)
      · exact absurd q (g.phase e),
    fun x => (g.step x).trans (h.step x)⟩

/-- Without the claim about SCHED_STEP. -/
theorem Kept.weak (h : Kept b s t) : Kept false s t :=
  ⟨h.mem, h.fuses, h.nonce, h.pending, h.req, h.outbox, h.phase, h.mcc, h.off, fun x => nomatch x⟩

/-- A state that differs elsewhere only. -/
theorem Kept.of_eq (h : Kept b s0 s) (hm : t.mem = s.mem) (hf : t.fuses = s.fuses) (hn : t.mgmt.nonce = s.mgmt.nonce)
    (hp : t.pending = s.pending) (hr : t.sys.rstReqN = s.sys.rstReqN) (ho : t.outbox = s.outbox)
    (hh : t.sys.phase = s.sys.phase) (hc : t.sys.mccs = s.sys.mccs) (hs : t.sched.step = s.sched.step) : Kept b s0 t := by
  refine h.trans ⟨fun x => hm ▸ x, hf, hn, hp, fun x => hr.trans x, ho ▸ List.prefix_rfl, fun x => hh ▸ x, ?_, ?_, fun _ => hs⟩
  · intro _ n x
    simpa [State.mcc, hc] using x
  · intro _ _ n x
    simpa [State.mcc, hc] using x

/-- A state written out that differs elsewhere only. -/
theorem Kept.lit {syn sev wtags dict charts sc remote cores clusters wires mcasts ports form m y free} (h : Kept b s0 s)
    (hn : m.nonce = s.mgmt.nonce) (hs : sc.step = s.sched.step) (hr : y.rstReqN = s.sys.rstReqN)
    (hp : y.phase = s.sys.phase) (hc : y.mccs = s.sys.mccs) :
    Kept b s0 ⟨s.pending, s.fuses, s.mem, syn, sev, wtags, dict, charts, sc, remote, cores, clusters, wires, mcasts, ports,
      form, m, y, s.outbox, free⟩ := Kept.of_eq h rfl rfl hn rfl hr rfl hp hc hs

/-- A fact shown first. -/
theorem Kept.cut {p q : Prop} (h : p) (f : p → q) : q := f h

/-- `Kept` for a part of a result. -/
def KeptAt {β : Type} (p : β → State) (b : Bool) (s0 : State) (x : β) : Prop := Kept b s0 (p x)

/-- What an outcome keeps: the state of `next`. -/
def KeptN (b : Bool) (s0 : State) (o : Host.Outcome State Fault Refusal) : Prop :=
  match o with
  | .next t => Kept b s0 t
  | _ => True

/-- A next state. -/
theorem KeptN.next (h : Kept b s0 s) : KeptN b s0 (.next s) := h

/-- A choice between states. -/
theorem Kept.cond {c : Prop} [Decidable c] {x y : State} (h : c → Kept b s0 x) (g : ¬c → Kept b s0 y) :
    Kept b s0 (if c then x else y) := by
  split
  · exact h ‹_›
  · exact g ‹_›

/-- A choice between results. -/
theorem KeptAt.cond {β : Type} {p : β → State} {c : Prop} [Decidable c] {x y : β} (h : c → KeptAt p b s0 x)
    (g : ¬c → KeptAt p b s0 y) : KeptAt p b s0 (if c then x else y) := by
  split
  · exact h ‹_›
  · exact g ‹_›

/-- A choice in an outcome. -/
theorem KeptN.cond {c : Prop} [Decidable c] {x y : Host.Outcome State Fault Refusal} (h : c → KeptN b s0 x)
    (g : ¬c → KeptN b s0 y) : KeptN b s0 (if c then x else y) := by
  split
  · exact h ‹_›
  · exact g ‹_›

/-- What a result that may be absent keeps. -/
def KeptO {β : Type} (p : β → State) (b : Bool) (s0 : State) (o : Option β) : Prop := ∀ x, o = some x → Kept b s0 (p x)

/-- A result that is there. -/
theorem KeptO.here {β : Type} {p : β → State} {x : β} (h : Kept b s0 (p x)) : KeptO p b s0 (some x) := by
  intro y e; cases e; exact h

/-- A state that is there. -/
theorem KeptO.hereS (h : Kept b s0 s) : KeptO id b s0 (some s) := KeptO.here h

/-- The state of an operation that answered one. -/
theorem KeptO.useS {o : Option State} (h : KeptO id b s0 o) (e : o = some s) : Kept b s0 s := h s e

/-- A result that is absent. -/
theorem KeptO.absent {β : Type} {p : β → State} : KeptO p b s0 (none : Option β) := nofun

/-- The result of an operation that answered one. -/
theorem KeptO.use {β : Type} {p : β → State} {o : Option β} {x : β} (h : KeptO p b s0 o) (e : o = some x) :
    Kept b s0 (p x) := h x e

/-- The same with the pair taken apart. -/
theorem KeptO.fst {α : Type} {o : Option (State × α)} {a : α} (h : KeptO Prod.fst b s0 o) (e : o = some (t, a)) :
    Kept b s0 t := h _ e

/-- A choice between results that may be absent. -/
theorem KeptO.cond {β : Type} {p : β → State} {c : Prop} [Decidable c] {x y : Option β} (h : c → KeptO p b s0 x)
    (g : ¬c → KeptO p b s0 y) : KeptO p b s0 (if c then x else y) := by
  split
  · exact h ‹_›
  · exact g ‹_›

/-- A fold keeps what each turn keeps. -/
theorem KeptAt.fold {α β : Type} {p : β → State} {f : β → α → β} {l : List α} {x : β}
    (hf : ∀ x a, KeptAt p b s0 x → KeptAt p b s0 (f x a)) (h : KeptAt p b s0 x) : KeptAt p b s0 (l.foldl f x) := by
  induction l generalizing x with
  | nil => exact h
  | cons a r ih => exact ih (hf _ _ h)

/-- A fold keeps what each turn keeps. -/
theorem Kept.fold {α : Type} {f : State → α → State} {l : List α}
    (hf : ∀ s a, Kept b s0 s → Kept b s0 (f s a)) (h : Kept b s0 s) : Kept b s0 (l.foldl f s) :=
  KeptAt.fold (p := id) hf h

/-- A fold that builds what is to be done with a state. -/
theorem Kept.foldK {α β : Type} {f : (State → State × β) → α → State → State × β} {l : List α} {k : State → State × β}
    (hf : ∀ k x s, (∀ s, Kept b s0 s → Kept b s0 (k s).1) → Kept b s0 s → Kept b s0 (f k x s).1)
    (hk : ∀ s, Kept b s0 s → Kept b s0 (k s).1) (h : Kept b s0 s) : Kept b s0 (l.foldl f k s).1 := by
  induction l generalizing k with
  | nil => exact hk _ h
  | cons a r ih => exact ih fun _ g => hf _ _ _ hk g

/-- The first part of a pair that has been taken apart. -/
theorem Kept.fst {α : Type} {p : State × α} {a : α} (e : p = (s, a)) (h : Kept b s0 p.1) : Kept b s0 s := by
  subst e; exact h

/-- The second part of a pair that has been taken apart. -/
theorem Kept.snd {α : Type} {p : α × State} {a : α} (e : p = (a, s)) (h : Kept b s0 p.2) : Kept b s0 s := by
  subst e; exact h

/-- The middle part of a triple that has been taken apart. -/
theorem Kept.mid {α β : Type} {p : α × State × β} {a : α} {c : β} (e : p = (a, s, c)) (h : Kept b s0 p.2.1) :
    Kept b s0 s := by subst e; exact h

/-- The last part of a triple that has been taken apart. -/
theorem Kept.last {α β : Type} {p : α × β × State} {a : α} {c : β} (e : p = (a, c, s)) (h : Kept b s0 p.2.2) :
    Kept b s0 s := by subst e; exact h

/-- An output is added to those given. -/
theorem emit_kept {o : Output} (h : Kept b s0 s) : Kept b s0 (s.emit o) :=
  h.trans ⟨id, rfl, rfl, rfl, id, List.prefix_append _ _, id, fun _ _ h => h, fun _ _ _ h => h, fun _ => rfl⟩

/-- Bytes stored in memory. -/
theorem poke_kept {a : Nat} {bs : List Byte} (h : Kept b s0 s) : Kept b s0 (s.poke a bs) :=
  h.trans ⟨Memory.wf_memSetAll a bs, rfl, rfl, rfl, id, List.prefix_rfl, id, fun _ _ h => h, fun _ _ _ h => h, fun _ => rfl⟩

/-- An MCC changed that leaves neither DOWN nor its state before the domains' release. -/
theorem updMcc_kept {n : Nat} {f : Mcc → Mcc} (hf : (s.mcc n).state = .down → (f (s.mcc n)).state = .down)
    (ho : (s.mcc n).state = .off → (f (s.mcc n)).state = .off) (h : Kept b s0 s) : Kept b s0 (s.updMcc n f) := by
  have e : ∀ k, (s.updMcc n f).mcc k = if k = n then f (s.mcc n) else s.mcc k := by
    intro k
    simp only [State.mcc, State.updMcc, Map.get_upd]
  refine h.trans ⟨id, rfl, rfl, rfl, id, List.prefix_rfl, id, ?_, ?_, fun _ => rfl⟩
  · intro _ k hk
    rw [e]
    split
    · rename_i g; subst g; exact hf hk
    · exact hk
  · intro _ _ k hk
    rw [e]
    split
    · rename_i g; subst g; exact ho hk
    · exact hk

/-- A range of memory cleared. -/
theorem clearRange_kept {a n : Nat} (h : Kept b s0 s) : Kept b s0 (clearRange s a n) :=
  h.trans ⟨Memory.wf_filter _, rfl, rfl, rfl, id, List.prefix_rfl, id, fun _ _ h => h, fun _ _ _ h => h, fun _ => rfl⟩

end Sys2Proof.Machine
end

