-- ==== Sys2Proof/Laws/KeptOps.lean ====
section
/-!
SUPPORT. What each operation of Machine/Ops.lean keeps (`Kept`).
-/

namespace Sys2Proof.Machine

open Sys2Proof

variable {b : Bool} {s0 s t : State}

theorem updCore_kept (h : Kept b s0 s) : Kept b s0 (State.updCore s x1 x2) := by
  unfold State.updCore
  refine Kept.lit ?_ rfl rfl rfl rfl rfl; assumption

theorem updCtx_kept (h : Kept b s0 s) : Kept b s0 (State.updCtx s x1 x2 x3) := by
  unfold State.updCtx
  refine updCore_kept ?_; assumption

theorem updCluster_kept (h : Kept b s0 s) : Kept b s0 (State.updCluster s x1 x2) := by
  unfold State.updCluster
  refine Kept.lit ?_ rfl rfl rfl rfl rfl; assumption

theorem updWire_kept (h : Kept b s0 s) : Kept b s0 (State.updWire s x1 x2) := by
  unfold State.updWire
  refine Kept.lit ?_ rfl rfl rfl rfl rfl; assumption

theorem updPort_kept (h : Kept b s0 s) : Kept b s0 (State.updPort s x1 x2) := by
  unfold State.updPort
  refine Kept.lit ?_ rfl rfl rfl rfl rfl; assumption

theorem updPass_kept (h : Kept b s0 s) : Kept b s0 (State.updPass s x1 x2) := by
  unfold State.updPass
  refine Kept.lit ?_ rfl rfl rfl rfl rfl; assumption

theorem updDesc_kept (h : Kept b s0 s) : Kept b s0 (State.updDesc s x1 x2) := by
  unfold State.updDesc
  refine Kept.lit ?_ rfl rfl rfl rfl rfl; assumption

theorem setEnt_kept (h : Kept b s0 s) : Kept b s0 (State.setEnt s x1 x2 x3 x4) := by
  unfold State.setEnt
  refine Kept.lit ?_ rfl rfl rfl rfl rfl; assumption

theorem setCnt_kept (h : Kept b s0 s) : Kept b s0 (State.setCnt s x1 x2 x3 x4) := by
  unfold State.setCnt
  refine Kept.lit ?_ rfl rfl rfl rfl rfl; assumption

theorem bump_kept (h : Kept b s0 s) : Kept b s0 (State.bump s x1 x2 x3 x4) := by
  unfold State.bump
  refine setCnt_kept ?_; assumption

theorem bumpTnt_kept (h : Kept b s0 s) : Kept b s0 (State.bumpTnt s x1 x2 x3 x4) := by
  unfold State.bumpTnt
  refine Kept.lit ?_ rfl rfl rfl rfl rfl; assumption

theorem storeByte_kept (h : Kept b s0 s) : Kept b s0 (State.storeByte s x1 x2) := by
  unfold State.storeByte
  split; refine Kept.lit ?_ rfl rfl rfl rfl rfl; assumption; refine poke_kept ?_; assumption

theorem store_kept (h : Kept b s0 s) : Kept b s0 (State.store s x1 x2) := by
  unfold State.store
  refine Kept.cond (fun _ => ?_) fun _ => ?_; extract_lets +onlyGivenNames y1 y2
  refine Kept.fold (fun _ _ _ => ?_) ?_; extract_lets +onlyGivenNames y3 y4 y5 y6; refine updDesc_kept ?_; assumption
  assumption; refine Kept.cond (fun _ => ?_) fun _ => ?_; refine Kept.fold (fun _ _ _ => ?_) ?_
  refine storeByte_kept ?_; assumption; assumption; refine poke_kept ?_; assumption

theorem trace_kept (h : Kept b s0 s) : Kept b s0 (State.trace s x1 x2) := by
  unfold State.trace
  refine Kept.cond (fun _ => ?_) fun _ => ?_; assumption; extract_lets +onlyGivenNames y1 y2 y3
  refine Kept.cond (fun _ => ?_) fun _ => ?_; refine bump_kept ?_; refine Kept.lit ?_ rfl rfl rfl rfl rfl; assumption
  extract_lets +onlyGivenNames y4 y5 y6 y7 y8; refine bump_kept ?_; refine store_kept ?_
  refine Kept.lit ?_ rfl rfl rfl rfl rfl; assumption

theorem discard_kept (h : Kept b s0 s) : Kept b s0 (State.discard s) := by
  unfold State.discard
  refine Kept.lit ?_ rfl rfl rfl rfl rfl; assumption

theorem irq_kept (h : Kept b s0 s) : Kept b s0 (State.irq s x1) := by
  unfold State.irq
  refine Kept.cond (fun _ => ?_) fun _ => ?_; refine emit_kept ?_; assumption; assumption

theorem eventIbi_kept (h : Kept b s0 s) : Kept b s0 (State.eventIbi s) := by
  unfold State.eventIbi
  extract_lets +onlyGivenNames y1; refine Kept.cond (fun _ => ?_) fun _ => ?_; assumption
  refine Kept.cond (fun _ => ?_) fun _ => ?_; refine emit_kept ?_; refine Kept.lit ?_ rfl rfl rfl rfl rfl; assumption
  refine Kept.lit ?_ rfl rfl rfl rfl rfl; assumption

theorem raise_kept (h : Kept b s0 s) : Kept b s0 (State.raise s x1 x2 x3 x4) := by
  unfold State.raise
  extract_lets +onlyGivenNames y1 y2 y3 y4 y5; refine Kept.cut (p := Kept b s0 y5) ?_ fun _ => ?_; unfold y5
  refine Kept.lit ?_ rfl rfl rfl rfl rfl; assumption; clear_value y5; extract_lets +onlyGivenNames y6
  refine Kept.cut (p := Kept b s0 y6) ?_ fun _ => ?_; unfold y6; refine Kept.cond (fun _ => ?_) fun _ => ?_
  refine bump_kept ?_; assumption; assumption; clear_value y6; extract_lets +onlyGivenNames y7
  refine Kept.cut (p := Kept b s0 y7) ?_ fun _ => ?_; unfold y7; refine eventIbi_kept ?_; refine irq_kept ?_
  assumption; clear_value y7; extract_lets +onlyGivenNames y8 y9; refine Kept.cut (p := Kept b s0 y9) ?_ fun _ => ?_
  unfold y9; refine trace_kept ?_; assumption; clear_value y9; refine Kept.cond (fun _ => ?_) fun _ => ?_
  extract_lets +onlyGivenNames y10; refine Kept.lit ?_ rfl rfl rfl rfl rfl; assumption; assumption

theorem hbmMark_kept (h : Kept b s0 s) : Kept b s0 (hbmMark s x1) := by
  unfold hbmMark
  split; extract_lets +onlyGivenNames y1; refine Kept.cond (fun _ => ?_) fun _ => ?_
  refine updMcc_kept (by intro e; simp_all) (by intro e; simp_all) ?_; assumption; refine setCnt_kept ?_
  refine raise_kept ?_; assumption

theorem hbmClear_kept (h : Kept b s0 s) : Kept b s0 (hbmClear s x1) := by
  unfold hbmClear
  extract_lets +onlyGivenNames y1; refine Kept.cut (p := Kept b s0 y1) ?_ fun _ => ?_; unfold y1
  refine Kept.lit ?_ rfl rfl rfl rfl rfl; assumption; clear_value y1; split; extract_lets +onlyGivenNames y2
  refine Kept.cond (fun _ => ?_) fun _ => ?_; extract_lets +onlyGivenNames y3
  refine updMcc_kept (by intro e; simp_all) (by intro e; simp_all) ?_; assumption; assumption

theorem hbmSettleHalf_kept (h : Kept b s0 s) : Kept b s0 (hbmSettleHalf s x1) := by
  unfold hbmSettleHalf
  split; split; assumption; extract_lets +onlyGivenNames y1; refine Kept.cut (p := Kept b s0 y1) ?_ fun _ => ?_
  unfold y1; refine raise_kept ?_; refine bump_kept ?_; assumption; clear_value y1; extract_lets +onlyGivenNames y2
  refine Kept.cut (p := Kept b s0 y2) ?_ fun _ => ?_; unfold y2; refine Kept.cond (fun _ => ?_) fun _ => ?_
  refine hbmMark_kept ?_; assumption; assumption; clear_value y2; refine Kept.cond (fun _ => ?_) fun _ => ?_
  refine hbmMark_kept ?_; assumption; assumption; refine bump_kept ?_; assumption

theorem hbmSettle_kept (h : Kept b s0 s) : Kept b s0 (hbmSettle s x1 x2) := by
  unfold hbmSettle
  refine Kept.cond (fun _ => ?_) fun _ => ?_; assumption; refine Kept.fold (fun _ _ _ => ?_) ?_
  refine hbmSettleHalf_kept ?_; assumption; assumption

theorem hbmPartial_kept (h : Kept b s0 s) : Kept b s0 (hbmPartial s x1 x2) := by
  unfold hbmPartial
  refine Kept.cond (fun _ => ?_) fun _ => ?_; assumption; extract_lets +onlyGivenNames y1 y2
  refine Kept.cut (p := Kept b s0 y2) ?_ fun _ => ?_; unfold y2; refine Kept.cond (fun _ => ?_) fun _ => ?_
  refine hbmSettleHalf_kept ?_; assumption; assumption; clear_value y2; refine Kept.cond (fun _ => ?_) fun _ => ?_
  refine hbmSettleHalf_kept ?_; assumption; assumption

theorem setLineSyn_kept (h : Kept b s0 s) : Kept b s0 (setLineSyn s x1 x2) := by
  unfold setLineSyn
  refine Kept.lit ?_ rfl rfl rfl rfl rfl; assumption

theorem refetchLine_kept (h : Kept b s0 s) : Kept b s0 (refetchLine s x1) := by
  unfold refetchLine
  split; assumption; extract_lets +onlyGivenNames y1 y2 y3; refine Kept.cut (p := Kept b s0 y3) ?_ fun _ => ?_
  unfold y3; refine hbmSettle_kept ?_; assumption; clear_value y3; extract_lets +onlyGivenNames y4
  refine Kept.cut (p := Kept b s0 y4) ?_ fun _ => ?_; unfold y4; refine Kept.cond (fun _ => ?_) fun _ => ?_; unfold y2
  refine hbmSettle_kept ?_; refine bump_kept ?_; assumption; assumption; clear_value y4
  refine Kept.cond (fun _ => ?_) fun _ => ?_; extract_lets +onlyGivenNames y5
  refine Kept.cut (p := Kept b s0 y5) ?_ fun _ => ?_; unfold y5; refine bump_kept ?_; refine bump_kept ?_; assumption
  clear_value y5; extract_lets +onlyGivenNames y6; refine Kept.cut (p := Kept b s0 y6) ?_ fun _ => ?_; unfold y6
  refine setLineSyn_kept ?_; refine Kept.lit ?_ rfl rfl rfl rfl rfl; assumption; clear_value y6; refine raise_kept ?_
  assumption; extract_lets +onlyGivenNames y7 y8; refine Kept.cut (p := Kept b s0 y8) ?_ fun _ => ?_; unfold y8
  refine poke_kept ?_; refine setLineSyn_kept ?_; refine bump_kept ?_; assumption; clear_value y8
  refine Kept.lit ?_ rfl rfl rfl rfl rfl; assumption

theorem memSet_kept {x b1 syn} (h : Kept b s0 s) : Kept b s0 { s with syn := syn, mem := memSet s.mem x b1 } :=
  h.trans ⟨Memory.wf_memSet x b1, rfl, rfl, rfl, id, List.prefix_rfl, id, fun _ _ h => h, fun _ _ _ h => h, fun _ => rfl⟩

theorem settleWord_kept (h : Kept b s0 s) : Kept b s0 (settleWord s x1) := by
  have g : ∀ syn, Kept b s0 { s with syn := syn } := fun _ => Kept.lit h rfl rfl rfl rfl rfl
  unfold settleWord
  split
  · exact h
  · exact h
  · exact Kept.cond (fun _ => bump_kept (g _)) fun _ => g _
  · exact Kept.cond (fun _ => bump_kept (memSet_kept h)) fun _ => memSet_kept h
  · refine Kept.cond (fun _ => refetchLine_kept h) fun _ => ?_
    exact Kept.cond (fun _ => raise_kept (bump_kept (g _))) fun _ => raise_kept (g _)

theorem sramSettle_kept (h : Kept b s0 s) : Kept b s0 (sramSettle s x1 x2) := by
  unfold sramSettle
  refine Kept.cond (fun _ => ?_) fun _ => ?_; assumption; refine Kept.fold (fun _ _ _ => ?_) ?_
  refine settleWord_kept ?_; assumption; assumption

theorem sramPartial_kept (h : Kept b s0 s) : Kept b s0 (sramPartial s x1 x2) := by
  unfold sramPartial
  refine Kept.cond (fun _ => ?_) fun _ => ?_; assumption; extract_lets +onlyGivenNames y1 y2
  refine Kept.cut (p := Kept b s0 y2) ?_ fun _ => ?_; unfold y2; refine Kept.cond (fun _ => ?_) fun _ => ?_
  refine settleWord_kept ?_; assumption; assumption; clear_value y2; refine Kept.cond (fun _ => ?_) fun _ => ?_
  refine settleWord_kept ?_; assumption; assumption

theorem settle_kept (h : Kept b s0 s) : Kept b s0 (State.settle s x1 x2) := by
  unfold State.settle
  refine Kept.cond (fun _ => ?_) fun _ => ?_; refine hbmSettle_kept ?_; assumption; refine sramSettle_kept ?_
  assumption

theorem setMark_kept (h : Kept b s0 s) : Kept b s0 (setMark s x1 x2 x3) := by
  unfold setMark
  refine Kept.cond (fun _ => ?_) fun _ => ?_; refine Kept.cond (fun _ => ?_) fun _ => ?_; refine hbmMark_kept ?_
  assumption; refine Kept.cond (fun _ => ?_) fun _ => ?_; refine hbmClear_kept ?_; assumption; assumption
  refine Kept.cond (fun _ => ?_) fun _ => ?_; refine Kept.lit ?_ rfl rfl rfl rfl rfl; assumption
  refine Kept.cond (fun _ => ?_) fun _ => ?_; refine Kept.lit ?_ rfl rfl rfl rfl rfl; assumption; assumption

theorem setMarks_kept (h : Kept b s0 s) : Kept b s0 (setMarks s x1 x2 x3) := by
  unfold setMarks
  refine Kept.cond (fun _ => ?_) fun _ => ?_; assumption; refine Kept.fold (fun _ _ _ => ?_) ?_
  extract_lets +onlyGivenNames y1; refine setMark_kept ?_; assumption; assumption

theorem commonsInvalidate_kept (h : Kept b s0 s) : Kept b s0 (commonsInvalidate s x1 x2 x3) := by
  unfold commonsInvalidate
  refine updCluster_kept ?_; assumption

theorem mcPathWord_kept (h : Kept b s0 s) : Kept b s0 (mcPathWord s x1) := by
  unfold mcPathWord
  extract_lets +onlyGivenNames y1 y2 y3; refine Kept.cut (p := Kept b s0 y3) ?_ fun _ => ?_; unfold y3
  refine Kept.lit ?_ rfl rfl rfl rfl rfl; assumption; clear_value y3; split; assumption; refine hbmMark_kept ?_
  assumption; refine hbmMark_kept ?_; refine store_kept ?_; assumption; refine bump_kept ?_; assumption

theorem mcPath_kept (h : Kept b s0 s) : Kept b s0 (mcPath s x1 x2) := by
  unfold mcPath
  refine Kept.cond (fun _ => ?_) fun _ => ?_; assumption; refine Kept.fold (fun _ _ _ => ?_) ?_
  refine Kept.cond (fun _ => ?_) fun _ => ?_; refine mcPathWord_kept ?_; assumption; assumption; assumption

theorem putBack_kept (h : Kept b s0 s) : Kept b s0 (State.putBack s x1 x2 x3 x4) := by
  unfold State.putBack
  extract_lets +onlyGivenNames y1; refine Kept.cut (p := Kept b s0 y1) ?_ fun _ => ?_; unfold y1
  refine setMarks_kept ?_; refine store_kept ?_; assumption; clear_value y1; extract_lets +onlyGivenNames y2
  refine Kept.cut (p := Kept b s0 y2) ?_ fun _ => ?_; unfold y2; refine Kept.cond (fun _ => ?_) fun _ => ?_
  refine mcPath_kept ?_; assumption; assumption; clear_value y2; extract_lets +onlyGivenNames y3
  refine Kept.cut (p := Kept b s0 y3) ?_ fun _ => ?_; unfold y3; refine Kept.cond (fun _ => ?_) fun _ => ?_
  refine Kept.lit ?_ rfl rfl rfl rfl rfl; assumption; assumption; clear_value y3; split
  refine Kept.cond (fun _ => ?_) fun _ => ?_; refine commonsInvalidate_kept ?_; assumption; assumption; assumption

theorem write_kept (h : Kept b s0 s) : Kept b s0 (State.write s x1 x2 x3 x4) := by
  unfold State.write
  extract_lets +onlyGivenNames y1; refine Kept.cut (p := Kept b s0 y1) ?_ fun _ => ?_; unfold y1
  refine Kept.cond (fun _ => ?_) fun _ => ?_; refine hbmPartial_kept ?_; assumption; refine sramPartial_kept ?_
  assumption; clear_value y1; refine putBack_kept ?_; assumption

theorem read_kept (h : Kept b s0 s) : Kept b s0 (State.read s x1 x2).1 := by
  show KeptAt Prod.fst _ _ _
  unfold State.read
  extract_lets +onlyGivenNames y1; refine Kept.cut (p := Kept b s0 y1) ?_ fun _ => ?_; unfold y1
  refine settle_kept ?_; assumption; clear_value y1; show Kept _ _ _; dsimp -zeta only; assumption

end Sys2Proof.Machine
end

