-- ==== Sys2Proof/Laws/KeptSync.lean ====
section
/-!
SUPPORT. What each operation of Machine/Sync.lean keeps (`Kept`).
-/

namespace Sys2Proof.Machine

open Sys2Proof

variable {b : Bool} {s0 s t : State}

theorem setCtxState_kept (h : Kept b s0 s) : Kept b s0 (setCtxState s x1 x2 x3) := by
  unfold setCtxState
  refine Kept.cond (fun _ => ?_) fun _ => ?_; assumption; extract_lets +onlyGivenNames y1
  refine Kept.cut (p := Kept b s0 y1) ?_ fun _ => ?_; unfold y1; refine updCtx_kept ?_; assumption; clear_value y1
  refine trace_kept ?_; assumption

theorem ctxSettle_kept (h : Kept b s0 s) : Kept b s0 (ctxSettle s x1 x2) := by
  unfold ctxSettle
  extract_lets +onlyGivenNames y1; split; refine Kept.cond (fun _ => ?_) fun _ => ?_; assumption
  extract_lets +onlyGivenNames y2; refine Kept.cut (p := Kept b s0 y2) ?_ fun _ => ?_; unfold y2
  refine updCtx_kept ?_; assumption; clear_value y2; refine setCtxState_kept ?_; assumption
  refine Kept.cond (fun _ => ?_) fun _ => ?_; refine Kept.cond (fun _ => ?_) fun _ => ?_; assumption
  refine setCtxState_kept ?_; assumption; refine setCtxState_kept ?_; assumption

theorem settleAll_kept (h : Kept b s0 s) : Kept b s0 (settleAll s x1) := by
  unfold settleAll
  refine Kept.fold (fun _ _ _ => ?_) ?_; refine Kept.cond (fun _ => ?_) fun _ => ?_; assumption
  refine ctxSettle_kept ?_; assumption; assumption

theorem writeCtxCtl_kept (h : Kept b s0 s) : Kept b s0 (writeCtxCtl s x1 x2 x3).2 := by
  show KeptAt Prod.snd _ _ _
  unfold writeCtxCtl
  refine KeptAt.cond (fun _ => ?_) fun _ => ?_; show Kept _ _ _; dsimp -zeta only; refine ctxSettle_kept ?_
  refine updCtx_kept ?_; assumption; show Kept _ _ _; dsimp -zeta only; assumption

theorem faultCtx_kept (h : Kept b s0 s) : Kept b s0 (faultCtx s x1 x2 x3) := by
  unfold faultCtx
  extract_lets +onlyGivenNames y1; refine Kept.cut (p := Kept b s0 y1) ?_ fun _ => ?_; unfold y1
  refine setCtxState_kept ?_; refine updCtx_kept ?_; assumption; clear_value y1; refine raise_kept ?_; assumption

theorem leaveRecess_kept (h : Kept b s0 s) : Kept b s0 (leaveRecess s x1) := by
  unfold leaveRecess
  refine Kept.cond (fun _ => ?_) fun _ => ?_; refine updCore_kept ?_; assumption; assumption

theorem setCounter_kept (h : Kept b s0 s) : Kept b s0 (setCounter s x1 x2 x3) := by
  unfold setCounter
  extract_lets +onlyGivenNames y1; refine Kept.cut (p := Kept b s0 y1) ?_ fun _ => ?_; unfold y1
  refine updCore_kept ?_; assumption; clear_value y1; extract_lets +onlyGivenNames y2
  refine Kept.cut (p := Kept b s0 y2) ?_ fun _ => ?_; unfold y2; refine Kept.cond (fun _ => ?_) fun _ => ?_
  refine leaveRecess_kept ?_; assumption; assumption; clear_value y2; refine settleAll_kept ?_; assumption

theorem sendSync_kept (h : Kept b s0 s) : Kept b s0 (sendSync s x1 x2 x3 x4 x5 x6 x7) := by
  unfold sendSync
  refine emit_kept ?_; assumption

theorem rcPropagate_kept (h : Kept b s0 s) : Kept b s0 (rcPropagate s x1) := by
  unfold rcPropagate
  extract_lets +onlyGivenNames y1 y2; refine Kept.cond (fun _ => ?_) fun _ => ?_; assumption; refine sendSync_kept ?_
  refine updWire_kept ?_; assumption

theorem rcArmGen_kept (h : Kept b s0 s) : Kept b s0 (rcArmGen s x1) := by
  unfold rcArmGen
  refine Kept.cond (fun _ => ?_) fun _ => ?_; assumption; refine updWire_kept ?_; assumption

theorem rcArrive_kept (h : Kept b s0 s) : Kept b s0 (rcArrive s x1 x2) := by
  unfold rcArrive
  refine rcPropagate_kept ?_; refine updWire_kept ?_; assumption

theorem rcCheck_kept (h : Kept b s0 s) : Kept b s0 (rcCheck s x1) := by
  unfold rcCheck
  refine Kept.fold (fun _ _ _ => ?_) ?_; extract_lets +onlyGivenNames y1; refine Kept.cond (fun _ => ?_) fun _ => ?_
  refine rcArrive_kept ?_; assumption; assumption; assumption

theorem counterApply_kept (h : Kept b s0 s) : Kept b s0 (counterApply s x1 x2 x3 x4).1 := by
  show KeptAt Prod.fst _ _ _
  unfold counterApply
  extract_lets +onlyGivenNames y1; subst y1; extract_lets +onlyGivenNames y2; subst y2
  extract_lets +onlyGivenNames y3; refine Kept.cut (p := Kept b s0 y3) ?_ fun _ => ?_; unfold y3
  refine setCounter_kept ?_; assumption; clear_value y3; extract_lets +onlyGivenNames y4
  refine Kept.cut (p := Kept b s0 y4) ?_ fun _ => ?_; unfold y4; split; refine bump_kept ?_; assumption
  refine bump_kept ?_; assumption; assumption; clear_value y4; show Kept _ _ _; dsimp -zeta only
  refine rcCheck_kept ?_; assumption

theorem armWrite_kept (h : Kept b s0 s) : Kept b s0 (armWrite s x1 x2 x3) := by
  unfold armWrite
  extract_lets +onlyGivenNames y1 y2; refine Kept.cut (p := Kept b s0 y2) ?_ fun _ => ?_; unfold y2
  refine updCore_kept ?_; assumption; clear_value y2; refine Kept.cond (fun _ => ?_) fun _ => ?_
  refine rcCheck_kept ?_; refine rcArmGen_kept ?_; assumption; assumption

theorem rcCompleteCore_kept (h : Kept b s0 s) : Kept b s0 (rcCompleteCore s x1 x2) := by
  unfold rcCompleteCore
  extract_lets +onlyGivenNames y1; refine Kept.cond (fun _ => ?_) fun _ => ?_; extract_lets +onlyGivenNames y2
  refine Kept.cut (p := Kept b s0 y2) ?_ fun _ => ?_; unfold y2; refine setCounter_kept ?_; assumption; clear_value y2
  extract_lets +onlyGivenNames y3 y4; refine Kept.cut (p := Kept b s0 y4) ?_ fun _ => ?_; unfold y4
  refine setCounter_kept ?_; assumption; clear_value y4; extract_lets +onlyGivenNames y5
  refine Kept.cut (p := Kept b s0 y5) ?_ fun _ => ?_; unfold y5; refine Kept.cond (fun _ => ?_) fun _ => ?_
  refine raise_kept ?_; refine bump_kept ?_; assumption; assumption; clear_value y5; refine leaveRecess_kept ?_
  refine updCore_kept ?_; assumption; refine Kept.cond (fun _ => ?_) fun _ => ?_; refine leaveRecess_kept ?_; assumption
  assumption

theorem rcComplete_kept (h : Kept b s0 s) : Kept b s0 (rcComplete s x1) := by
  unfold rcComplete
  extract_lets +onlyGivenNames y1 y2 y3; refine Kept.cut (p := Kept b s0 y3) ?_ fun _ => ?_; unfold y3
  refine Kept.fold (fun _ _ _ => ?_) ?_; refine rcCompleteCore_kept ?_; assumption; assumption; clear_value y3
  extract_lets +onlyGivenNames y4; refine Kept.cut (p := Kept b s0 y4) ?_ fun _ => ?_; unfold y4
  refine Kept.cond (fun _ => ?_) fun _ => ?_; refine emit_kept ?_; assumption; assumption; clear_value y4
  extract_lets +onlyGivenNames y5; refine Kept.cut (p := Kept b s0 y5) ?_ fun _ => ?_; unfold y5
  refine Kept.cond (fun _ => ?_) fun _ => ?_; refine bump_kept ?_; assumption; assumption; clear_value y5
  extract_lets +onlyGivenNames y6; refine Kept.cut (p := Kept b s0 y6) ?_ fun _ => ?_; unfold y6
  refine updWire_kept ?_; assumption; clear_value y6; extract_lets +onlyGivenNames y7
  refine Kept.cut (p := Kept b s0 y7) ?_ fun _ => ?_; unfold y7; refine trace_kept ?_; assumption; clear_value y7
  extract_lets +onlyGivenNames y8; refine Kept.cut (p := Kept b s0 y8) ?_ fun _ => ?_; unfold y8
  refine Kept.fold (fun _ _ _ => ?_) ?_; refine rcCheck_kept ?_; assumption; assumption; clear_value y8
  refine Kept.cond (fun _ => ?_) fun _ => ?_; refine rcPropagate_kept ?_; assumption; assumption

theorem rcSendRelease_kept (h : Kept b s0 s) : Kept b s0 (rcSendRelease s x1 x2) := by
  unfold rcSendRelease
  refine Kept.fold (fun _ _ _ => ?_) ?_; refine Kept.fold (fun _ _ _ => ?_) ?_; refine sendSync_kept ?_; assumption
  assumption; assumption

end Sys2Proof.Machine
end

