-- ==== Sys2Proof/Laws/KeptFabric.lean ====
section
/-!
SUPPORT. What each operation of Machine/Fabric.lean keeps (`Kept`).
-/

namespace Sys2Proof.Machine

open Sys2Proof

variable {b : Bool} {s0 s t : State}

theorem flipToggle_kept (h : Kept b s0 s) : Kept b s0 (flipToggle s x1 x2) := by
  unfold flipToggle
  split; refine Kept.lit ?_ rfl rfl rfl rfl rfl; assumption; refine updCore_kept ?_; assumption

theorem suEnqueue_kept (h : Kept b s0 s) : Kept b s0 (suEnqueue s x1 x2) := by
  unfold suEnqueue
  extract_lets +onlyGivenNames y1; subst y1; extract_lets +onlyGivenNames y2; subst y2
  extract_lets +onlyGivenNames y3; subst y3; extract_lets +onlyGivenNames y4; subst y4
  extract_lets +onlyGivenNames y5; subst y5; extract_lets +onlyGivenNames y6; subst y6
  extract_lets +onlyGivenNames y7; subst y7; extract_lets +onlyGivenNames y8
  refine Kept.cut (p := Kept b s0 y8) ?_ fun _ => ?_; unfold y8; refine updCore_kept ?_; assumption; clear_value y8
  split; refine flipToggle_kept ?_; assumption; assumption

theorem crossFabric_kept (h : Kept b s0 s) : Kept b s0 (crossFabric s x1 x2 x3 x4).1 := by
  show KeptAt Prod.fst _ _ _
  unfold crossFabric
  extract_lets +onlyGivenNames y1; refine KeptAt.cond (fun _ => ?_) fun _ => ?_; show Kept _ _ _; dsimp -zeta only
  assumption; extract_lets +onlyGivenNames y2 y3 y4 y5 y6 y7; refine Kept.cut (p := Kept b s0 y7) ?_ fun _ => ?_
  unfold y7; refine Kept.lit ?_ rfl rfl rfl rfl rfl; assumption; clear_value y7; extract_lets +onlyGivenNames y8
  refine Kept.cut (p := Kept b s0 y8) ?_ fun _ => ?_; unfold y8; refine Kept.cond (fun _ => ?_) fun _ => ?_
  assumption; refine bump_kept ?_; assumption; clear_value y8; extract_lets +onlyGivenNames y9
  refine Kept.cut (p := Kept b s0 y9) ?_ fun _ => ?_; unfold y9; refine Kept.fold (fun _ _ _ => ?_) ?_
  refine raise_kept ?_; refine bump_kept ?_; assumption; assumption; clear_value y9; show Kept _ _ _; dsimp -zeta only
  assumption

end Sys2Proof.Machine
end

