-- ==== Sys2Proof/Laws/KeptComplex.lean ====
section
/-!
SUPPORT. What each operation of Machine/Complex.lean keeps (`Kept`).
-/

namespace Sys2Proof.Machine

open Sys2Proof

variable {b : Bool} {s0 s t : State}

theorem updCc_kept (h : Kept b s0 s) : Kept b s0 (State.updCc s x1) := by
  unfold State.updCc
  refine Kept.lit ?_ rfl rfl rfl rfl rfl; assumption

theorem lowerReq_kept (h : Kept b s0 s) : Kept b s0 (lowerReq s x1) :=
  h.trans ⟨id, rfl, rfl, rfl, fun _ => rfl, List.prefix_rfl, id, fun _ _ h => h, fun _ _ _ h => h, fun _ => rfl⟩

theorem ccRun_kept (h : Kept b s0 s) : Kept b s0 (ccRun s x1) := by
  unfold ccRun
  refine updCc_kept ?_; assumption

theorem l2Word_kept (h : Kept b s0 s) : Kept b s0 (l2Word s x1) := by
  unfold l2Word
  split; assumption; assumption; extract_lets +onlyGivenNames y1; refine Kept.cut (p := Kept b s0 y1) ?_ fun _ => ?_
  unfold y1; refine updCc_kept ?_; assumption; clear_value y1; extract_lets +onlyGivenNames y2
  refine Kept.cut (p := Kept b s0 y2) ?_ fun _ => ?_; unfold y2; refine raise_kept ?_; refine bump_kept ?_; assumption
  clear_value y2; refine Kept.cond (fun _ => ?_) fun _ => ?_; refine lowerReq_kept ?_; assumption; assumption
  refine bump_kept ?_; refine updCc_kept ?_; assumption

theorem l2Read_kept (h : Kept b s0 s) : Kept b s0 (l2Read s x1 x2).1 := by
  show KeptAt Prod.fst _ _ _
  unfold l2Read
  extract_lets +onlyGivenNames y1 y2; refine Kept.cut (p := Kept b s0 y2) ?_ fun _ => ?_; unfold y2
  refine Kept.fold (fun _ _ _ => ?_) ?_; refine l2Word_kept ?_; assumption; assumption; clear_value y2
  show Kept _ _ _; dsimp -zeta only; assumption

theorem l2Written_kept (h : Kept b s0 s) : Kept b s0 (l2Written s x1 x2) := by
  unfold l2Written
  refine updCc_kept ?_; assumption

end Sys2Proof.Machine
end

