-- ==== Sys2Proof/Laws/KeptRequests.lean ====
section
/-!
SUPPORT. What each operation of Machine/Requests.lean keeps (`Kept`).
-/

namespace Sys2Proof.Machine

open Sys2Proof

variable {b : Bool} {s0 s t : State}

theorem setOnAlt_kept (h : Kept b s0 s) : Kept b s0 (setOnAlt s x1) := by
  unfold setOnAlt
  refine Kept.lit ?_ rfl rfl rfl rfl rfl; assumption

theorem sendVia_kept (h : Kept b s0 s) : Kept b s0 (sendVia s x1 x2) := by
  unfold sendVia
  split; assumption; extract_lets +onlyGivenNames y1; refine Kept.cut (p := Kept b s0 y1) ?_ fun _ => ?_; unfold y1
  refine Kept.cond (fun _ => ?_) fun _ => ?_; assumption; refine setOnAlt_kept ?_; assumption; clear_value y1; split
  refine emit_kept ?_; assumption; refine bump_kept ?_; assumption

theorem logRefusal_kept (h : Kept b s0 s) : Kept b s0 (logRefusal s x1 x2 x3 x4 x5 x6 x7 x8 x9) := by
  unfold logRefusal
  extract_lets +onlyGivenNames y1 y2 y3 y4; refine Kept.cut (p := Kept b s0 y4) ?_ fun _ => ?_; unfold y4
  refine Kept.lit ?_ rfl rfl rfl rfl rfl; assumption; clear_value y4; extract_lets +onlyGivenNames y5
  refine Kept.cut (p := Kept b s0 y5) ?_ fun _ => ?_; unfold y5; refine trace_kept ?_
  refine bump_kept ?_; assumption; clear_value y5; refine Kept.cond (fun _ => ?_) fun _ => ?_; refine bumpTnt_kept ?_
  assumption; assumption

theorem suRequest_kept (h : Kept b s0 s) : Kept b s0 (suRequest s x1 x2).1 := by
  show KeptAt Prod.fst _ _ _
  unfold suRequest
  extract_lets +onlyGivenNames y1 y2; refine KeptAt.cond (fun _ => ?_) fun _ => ?_; extract_lets +onlyGivenNames y3
  refine Kept.cut (p := Kept b s0 y3) ?_ fun _ => ?_; unfold y3; refine updCore_kept ?_; assumption; clear_value y3
  split; show Kept _ _ _; dsimp -zeta only; refine Kept.fst (by assumption) ?_; refine counterApply_kept ?_
  assumption; show Kept _ _ _; dsimp -zeta only; refine suEnqueue_kept ?_; assumption

theorem performData_kept (h : Kept b s0 s) : Kept b s0 (performData s x1 x2).1 := by
  show KeptAt Prod.fst _ _ _
  unfold performData
  extract_lets +onlyGivenNames y1 y2; split; split; show Kept _ _ _; dsimp -zeta only
  refine Kept.fst (by assumption) ?_; refine read_kept ?_; assumption; split; extract_lets +onlyGivenNames y3
  show Kept _ _ _; dsimp -zeta only; refine Kept.fst (by assumption) ?_; refine read_kept ?_; assumption
  show Kept _ _ _; dsimp -zeta only; refine write_kept ?_; assumption; show Kept _ _ _; dsimp -zeta only
  refine write_kept ?_; assumption; split; refine KeptAt.cond (fun _ => ?_) fun _ => ?_; show Kept _ _ _
  dsimp -zeta only; refine Kept.fst (by assumption) ?_; refine read_kept ?_; assumption
  extract_lets +onlyGivenNames y4 y5; refine Kept.cut (p := Kept b s0 y5) ?_ fun _ => ?_; unfold y5
  refine putBack_kept ?_; refine Kept.fst (by assumption) ?_; refine read_kept ?_; assumption; clear_value y5
  show Kept _ _ _; dsimp -zeta only; assumption

theorem passDone_kept (h : Kept b s0 s) : Kept b s0 (passDone s x1) := by
  unfold passDone
  split; refine updPass_kept ?_; assumption; assumption

theorem passHold_kept (h : Kept b s0 s) : Kept b s0 (passHold s x1) := by
  unfold passHold
  split; refine updPass_kept ?_; assumption; assumption

theorem performAt_kept (h : Kept b s0 s) : Kept b s0 (performAt s x1 x2 x3 x4).1 := by
  show KeptAt Prod.fst _ _ _
  unfold performAt
  extract_lets +onlyGivenNames y1; split; split; refine KeptAt.cond (fun _ => ?_) fun _ => ?_
  extract_lets +onlyGivenNames y2 y3; refine Kept.cut (p := Kept b s0 y3) ?_ fun _ => ?_; unfold y3
  refine write_kept ?_; assumption; clear_value y3; extract_lets +onlyGivenNames y4
  refine Kept.cut (p := Kept b s0 y4) ?_ fun _ => ?_; unfold y4; refine updCtx_kept ?_; assumption; clear_value y4
  show Kept _ _ _; dsimp -zeta only; refine passHold_kept ?_; assumption; split; show Kept _ _ _; dsimp -zeta only
  refine Kept.fst (by assumption) ?_; refine read_kept ?_; assumption; split; extract_lets +onlyGivenNames y5; split
  extract_lets +onlyGivenNames y6; split; show Kept _ _ _; dsimp -zeta only
  refine Kept.cond (fun _ => ?_) fun _ => ?_; refine passHold_kept ?_; refine Kept.fst (by assumption) ?_
  refine suRequest_kept ?_; assumption; refine Kept.fst (by assumption) ?_; refine suRequest_kept ?_; assumption
  show Kept _ _ _; dsimp -zeta only; refine armWrite_kept ?_; assumption; show Kept _ _ _; dsimp -zeta only
  assumption; show Kept _ _ _; dsimp -zeta only; assumption; split; refine KeptAt.cond (fun _ => ?_) fun _ => ?_
  extract_lets +onlyGivenNames y7; show Kept _ _ _; dsimp -zeta only; refine passHold_kept ?_
  refine Kept.lit ?_ rfl rfl rfl rfl rfl; refine Kept.fst (by assumption) ?_; refine performData_kept ?_; assumption
  show Kept _ _ _; dsimp -zeta only; refine Kept.fst (by assumption) ?_; refine performData_kept ?_; assumption
  show Kept _ _ _; dsimp -zeta only; assumption

theorem performVia_kept (h : Kept b s0 s) : Kept b s0 (performVia s x1 x2 x3 x4).1 := by
  show KeptAt Prod.fst _ _ _
  unfold performVia
  extract_lets +onlyGivenNames y1 y2 y3; split; split; split; show Kept _ _ _; dsimp -zeta only
  refine Kept.fst (by assumption) ?_; refine performAt_kept ?_; refine Kept.fst (by assumption) ?_
  show KeptAt Prod.fst _ _ _; refine KeptAt.cond (fun _ => ?_) fun _ => ?_; show Kept _ _ _
  refine crossFabric_kept ?_; assumption; show Kept _ _ _; dsimp -zeta only; assumption; split; show Kept _ _ _
  dsimp -zeta only; refine Kept.fst (by assumption) ?_; refine crossFabric_kept ?_; refine Kept.fst (by assumption) ?_
  refine performAt_kept ?_; refine Kept.fst (by assumption) ?_; show KeptAt Prod.fst _ _ _
  refine KeptAt.cond (fun _ => ?_) fun _ => ?_; show Kept _ _ _; refine crossFabric_kept ?_; assumption
  show Kept _ _ _; dsimp -zeta only; assumption

theorem serveInside_kept (h : Kept b s0 s) : Kept b s0 (serveInside s x1 x2).1 := by
  show KeptAt Prod.fst _ _ _
  unfold serveInside
  split; show Kept _ _ _; refine performVia_kept ?_; assumption; show Kept _ _ _; dsimp -zeta only; assumption

theorem sendOut_kept (h : Kept b s0 s) : Kept b s0 (sendOut s x1 x2 x3 x4).1 := by
  show KeptAt Prod.fst _ _ _
  unfold sendOut
  extract_lets +onlyGivenNames y1; refine KeptAt.cond (fun _ => ?_) fun _ => ?_
  refine KeptAt.cond (fun _ => ?_) fun _ => ?_; show Kept _ _ _; dsimp -zeta only; assumption
  refine KeptAt.cond (fun _ => ?_) fun _ => ?_; show Kept _ _ _; dsimp -zeta only; assumption; show Kept _ _ _
  dsimp -zeta only; refine emit_kept ?_; assumption; refine KeptAt.cond (fun _ => ?_) fun _ => ?_; show Kept _ _ _
  dsimp -zeta only; assumption; split; show Kept _ _ _; dsimp -zeta only; assumption; split; show Kept _ _ _
  dsimp -zeta only; assumption; extract_lets +onlyGivenNames y2 y3 y4 y5 y6 y7 y8
  refine Kept.cut (p := Kept b s0 y8) ?_ fun _ => ?_; unfold y8; refine Kept.lit ?_ rfl rfl rfl rfl rfl; assumption
  clear_value y8; show Kept _ _ _; dsimp -zeta only; refine sendVia_kept ?_; assumption

theorem sendCompletion_kept (h : Kept b s0 s) : Kept b s0 (sendCompletion s x1 x2 x3 x4).1 := by
  show KeptAt Prod.fst _ _ _
  unfold sendCompletion
  refine KeptAt.cond (fun _ => ?_) fun _ => ?_; show Kept _ _ _; dsimp -zeta only; assumption
  extract_lets +onlyGivenNames y1 y2; refine KeptAt.cond (fun _ => ?_) fun _ => ?_; show Kept _ _ _
  refine serveInside_kept ?_; assumption; show Kept _ _ _; refine sendOut_kept ?_; assumption

theorem completeCmd_kept (h : Kept b s0 s) : Kept b s0 (completeCmd s x1 x2 x3 x4 x5) := by
  unfold completeCmd
  refine sendCompletion_kept ?_; assumption

theorem sbRelease_kept (h : Kept b s0 s) : Kept b s0 (sbRelease s x1 x2 x3) := by
  unfold sbRelease
  refine updCore_kept ?_; assumption

theorem unissue_kept (h : Kept b s0 s) : Kept b s0 (unissue s x1 x2 x3) := by
  unfold unissue
  refine ctxSettle_kept ?_; refine updCtx_kept ?_; assumption

theorem landLocal_kept (h : Kept b s0 s) : Kept b s0 (landLocal s x1 x2 x3 x4) := by
  unfold landLocal
  refine write_kept ?_; assumption

theorem ropEnd_kept (h : Kept b s0 s) : Kept b s0 (ropEnd s x1 x2 x3 x4) := by
  unfold ropEnd
  split; assumption; split; extract_lets +onlyGivenNames y1 y2 y3; refine Kept.cut (p := Kept b s0 y3) ?_ fun _ => ?_
  unfold y3; refine Kept.cond (fun _ => ?_) fun _ => ?_; assumption; refine Kept.cond (fun _ => ?_) fun _ => ?_
  refine Kept.cond (fun _ => ?_) fun _ => ?_; refine Kept.cond (fun _ => ?_) fun _ => ?_; assumption
  refine landLocal_kept ?_; assumption; refine landLocal_kept ?_; assumption
  refine Kept.cond (fun _ => ?_) fun _ => ?_; refine landLocal_kept ?_; assumption; assumption; clear_value y3
  extract_lets +onlyGivenNames y4 y5; refine Kept.cut (p := Kept b s0 y5) ?_ fun _ => ?_; unfold y5
  refine completeCmd_kept ?_; assumption; clear_value y5; extract_lets +onlyGivenNames y6
  refine Kept.cut (p := Kept b s0 y6) ?_ fun _ => ?_; unfold y6; refine unissue_kept ?_; refine sbRelease_kept ?_
  assumption; clear_value y6; refine Kept.cond (fun _ => ?_) fun _ => ?_; assumption; refine faultCtx_kept ?_
  assumption

theorem hostAnswer_kept (h : Kept b s0 s) : Kept b s0 (hostAnswer s x1 x2) := by
  unfold hostAnswer
  extract_lets +onlyGivenNames y1 y2 y3; refine Kept.cond (fun _ => ?_) fun _ => ?_; assumption
  refine Kept.cond (fun _ => ?_) fun _ => ?_; refine bump_kept ?_; refine emit_kept ?_; assumption
  refine Kept.cond (fun _ => ?_) fun _ => ?_; refine emit_kept ?_; assumption; refine emit_kept ?_; assumption

theorem answer_kept (h : Kept b s0 s) : Kept b s0 (answer s x1 x2 x3) := by
  unfold answer
  split; refine Kept.cond (fun _ => ?_) fun _ => ?_; refine hostAnswer_kept ?_; assumption; refine emit_kept ?_
  assumption; refine Kept.cond (fun _ => ?_) fun _ => ?_; refine ropEnd_kept ?_; assumption
  extract_lets +onlyGivenNames y1; refine Kept.cut (p := Kept b s0 y1) ?_ fun _ => ?_; unfold y1; refine emit_kept ?_
  assumption; clear_value y1; refine Kept.cond (fun _ => ?_) fun _ => ?_; refine faultCtx_kept ?_; assumption
  assumption; refine Kept.cond (fun _ => ?_) fun _ => ?_; split; refine faultCtx_kept ?_; assumption; assumption
  assumption; extract_lets +onlyGivenNames y2; refine Kept.cut (p := Kept b s0 y2) ?_ fun _ => ?_; unfold y2
  refine emit_kept ?_; assumption; clear_value y2; refine Kept.cond (fun _ => ?_) fun _ => ?_; refine faultCtx_kept ?_
  assumption; assumption; refine emit_kept ?_; assumption

theorem answer?_kept (h : Kept b s0 s) : Kept b s0 (answer? s x1 x2 x3) := by
  unfold answer?
  split; refine answer_kept ?_; assumption; assumption

theorem issueInside_kept (h : Kept b s0 s) : Kept b s0 (issueInside s x1 x2 x3) := by
  unfold issueInside
  refine Kept.cond (fun _ => ?_) fun _ => ?_; split; refine answer?_kept ?_; refine Kept.fst (by assumption) ?_
  refine serveInside_kept ?_; assumption; split; refine answer?_kept ?_; refine Kept.fst (by assumption) ?_
  refine sendOut_kept ?_; assumption

theorem serveArrival_kept (h : Kept b s0 s) : Kept b s0 (serveArrival s x1 x2 x3 x4).1 := by
  show KeptAt Prod.fst _ _ _
  unfold serveArrival
  split; refine KeptAt.cond (fun _ => ?_) fun _ => ?_; extract_lets +onlyGivenNames y1 y2
  refine Kept.cut (p := Kept b s0 y2) ?_ fun _ => ?_; unfold y2; refine updPass_kept ?_; assumption; clear_value y2
  extract_lets +onlyGivenNames y3; refine KeptAt.cond (fun _ => ?_) fun _ => ?_; show Kept _ _ _
  refine performVia_kept ?_; assumption; show Kept _ _ _; dsimp -zeta only; assumption
  extract_lets +onlyGivenNames y4; show Kept _ _ _; dsimp -zeta only; refine logRefusal_kept ?_; assumption

theorem admitNow_kept (h : Kept b s0 s) : Kept b s0 (admitNow s x1 x2) := by
  unfold admitNow
  split; split; refine answer?_kept ?_; refine Kept.fst (by assumption) ?_; refine serveArrival_kept ?_; assumption
  assumption

theorem drainHeld_kept (h : Kept b s0 s) : Kept b s0 (drainHeld x1 s x2 x3) := by
  induction x1 generalizing s with
  | zero => exact h
  | succ n ih =>
    unfold drainHeld
    split
    · exact h
    · split
      · exact h
      · refine ih ?_
        have g : ∀ r, Kept b s0 { s with remote := r } := fun _ => Kept.lit h rfl rfl rfl rfl rfl
        split
        · exact admitNow_kept (g _)
        · exact g _

theorem arrive_kept (h : Kept b s0 s) : Kept b s0 (arrive s x1 x2 x3 x4 x5) := by
  unfold arrive
  extract_lets +onlyGivenNames y1 y2 y3; refine Kept.cond (fun _ => ?_) fun _ => ?_
  extract_lets +onlyGivenNames y4 y5; refine Kept.cut (p := Kept b s0 y5) ?_ fun _ => ?_; unfold y5
  refine Kept.lit ?_ rfl rfl rfl rfl rfl; assumption; clear_value y5; refine drainHeld_kept ?_
  refine admitNow_kept ?_; assumption; refine Kept.cond (fun _ => ?_) fun _ => ?_; extract_lets +onlyGivenNames y6 y7
  refine Kept.lit ?_ rfl rfl rfl rfl rfl; assumption; assumption

theorem linkArrival_kept (h : Kept b s0 s) : Kept b s0 (linkArrival s x1 x2 x3 x4 x5) := by
  unfold linkArrival
  refine Kept.cond (fun _ => ?_) fun _ => ?_; assumption; refine Kept.cond (fun _ => ?_) fun _ => ?_
  refine arrive_kept ?_; assumption; refine Kept.cond (fun _ => ?_) fun _ => ?_
  refine Kept.cond (fun _ => ?_) fun _ => ?_; refine emit_kept ?_; refine emit_kept ?_; assumption
  refine emit_kept ?_; assumption; refine sendVia_kept ?_; assumption

theorem request_kept (h : Kept b s0 s) : Kept b s0 (request s x1 x2) := by
  unfold request
  split; refine issueInside_kept ?_; assumption; refine linkArrival_kept ?_; assumption

theorem execPut_kept (h : Kept b s0 s) : KeptN b s0 (execPut x1 s) := by
  unfold execPut
  refine KeptN.next ?_; refine request_kept ?_; assumption

theorem execGet_kept (h : Kept b s0 s) : KeptN b s0 (execGet x1 s) := by
  unfold execGet
  refine KeptN.next ?_; refine request_kept ?_; assumption

theorem execCput_kept (h : Kept b s0 s) : KeptN b s0 (execCput x1 s) := by
  unfold execCput
  refine KeptN.next ?_; refine request_kept ?_; assumption

theorem execAdd_kept (h : Kept b s0 s) : KeptN b s0 (execAdd x1 s) := by
  unfold execAdd
  refine KeptN.next ?_; refine request_kept ?_; assumption

theorem execMax_kept (h : Kept b s0 s) : KeptN b s0 (execMax x1 s) := by
  unfold execMax
  refine KeptN.next ?_; refine request_kept ?_; assumption

theorem execCmpcnt_kept (h : Kept b s0 s) : KeptN b s0 (execCmpcnt x1 s) := by
  unfold execCmpcnt
  refine KeptN.next ?_; refine request_kept ?_; assumption

theorem execCountedIncrement_kept (h : Kept b s0 s) : KeptN b s0 (execCountedIncrement x1 s) := by
  unfold execCountedIncrement
  split; refine KeptN.next ?_; assumption; extract_lets +onlyGivenNames y1 y2
  refine Kept.cut (p := Kept b s0 y2) ?_ fun _ => ?_; unfold y2; refine Kept.lit ?_ rfl rfl rfl rfl rfl; assumption
  clear_value y2; refine KeptN.cond (fun _ => ?_) fun _ => ?_; refine KeptN.next ?_; refine answer_kept ?_
  refine passDone_kept ?_; assumption; extract_lets +onlyGivenNames y3; split; refine KeptN.next ?_; split
  refine answer_kept ?_; refine passDone_kept ?_; refine Kept.fst (by assumption) ?_; refine suRequest_kept ?_
  assumption; refine Kept.fst (by assumption) ?_; refine suRequest_kept ?_; assumption

theorem execSuQueueApply_kept (h : Kept b s0 s) : KeptN b s0 (execSuQueueApply x1 x2 s) := by
  unfold execSuQueueApply
  extract_lets +onlyGivenNames y1 y2; split; refine KeptN.next ?_; assumption
  refine KeptN.cond (fun _ => ?_) fun _ => ?_; refine KeptN.next ?_; assumption; extract_lets +onlyGivenNames y3
  refine Kept.cut (p := Kept b s0 y3) ?_ fun _ => ?_; unfold y3; refine updCore_kept ?_; assumption; clear_value y3
  extract_lets +onlyGivenNames y4; refine Kept.cut (p := Kept b s0 y4) ?_ fun _ => ?_; unfold y4; refine bump_kept ?_
  assumption; clear_value y4; split; refine KeptN.next ?_; refine answer_kept ?_; refine passDone_kept ?_
  refine Kept.fst (by assumption) ?_; refine counterApply_kept ?_; assumption

theorem execCommandCounted_kept (h : Kept b s0 s) : KeptN b s0 (execCommandCounted x1 x2 s) := by
  unfold execCommandCounted
  extract_lets +onlyGivenNames y1; split; refine KeptN.next ?_; assumption; extract_lets +onlyGivenNames y2
  refine Kept.cut (p := Kept b s0 y2) ?_ fun _ => ?_; unfold y2; refine updCtx_kept ?_; assumption; clear_value y2
  refine KeptN.next ?_; refine ctxSettle_kept ?_; refine leaveRecess_kept ?_; refine passDone_kept ?_; assumption

theorem admitAfterLoss_kept (h : Kept b s0 s) : Kept b s0 (admitAfterLoss s x1) := by
  unfold admitAfterLoss
  split; split; extract_lets +onlyGivenNames y1; refine answer_kept ?_; refine Kept.fst (by assumption) ?_
  refine serveArrival_kept ?_; assumption; refine admitNow_kept ?_; assumption; assumption

theorem execSeqGapTimeout_kept (h : Kept b s0 s) : KeptN b s0 (execSeqGapTimeout x1 x2 s) := by
  unfold execSeqGapTimeout
  split; refine KeptN.next ?_; assumption; split; refine KeptN.next ?_; assumption
  extract_lets +onlyGivenNames y1 y2 y3 y4; refine Kept.cut (p := Kept b s0 y4) ?_ fun _ => ?_; unfold y4
  refine Kept.lit ?_ rfl rfl rfl rfl rfl; assumption; clear_value y4; extract_lets +onlyGivenNames y5
  refine Kept.cut (p := Kept b s0 y5) ?_ fun _ => ?_; unfold y5; refine bump_kept ?_; assumption; clear_value y5
  refine KeptN.next ?_; refine drainHeld_kept ?_; refine admitAfterLoss_kept ?_; assumption

end Sys2Proof.Machine
end

