-- ==== Sys2Proof/Laws/KeptScratchpad.lean ====
section
/-!
SUPPORT. What each operation of Machine/Scratchpad.lean keeps (`Kept`).
-/

namespace Sys2Proof.Machine

open Sys2Proof

variable {b : Bool} {s0 s t : State}

theorem sbTake_kept (h : Kept b s0 s) : Kept b s0 (sbTake s x1 x2 x3 x4 x5) := by
  unfold sbTake
  refine updCore_kept ?_; assumption

theorem refuseCmd_kept (h : Kept b s0 s) : Kept b s0 (refuseCmd s x1 x2 x3 x4) := by
  unfold refuseCmd
  refine faultCtx_kept ?_; refine completeCmd_kept ?_; assumption

theorem parkCmd_kept (h : Kept b s0 s) : Kept b s0 (parkCmd s x1 x2 x3 x4 x5 x6) := by
  unfold parkCmd
  refine updCtx_kept ?_; assumption

theorem issued_kept (h : Kept b s0 s) : Kept b s0 (issued s x1 x2 x3) := by
  unfold issued
  refine ctxSettle_kept ?_; refine updCtx_kept ?_; assumption

theorem msuRead_kept (h : Kept b s0 s) : Kept b s0 (msuRead s x1 x2).1 := by
  show KeptAt Prod.fst _ _ _
  unfold msuRead
  refine KeptAt.fold (fun _ _ _ => ?_) ?_; refine KeptAt.cond (fun _ => ?_) fun _ => ?_; assumption; split
  show Kept _ _ _; dsimp -zeta only; refine Kept.fst (by assumption) ?_; refine read_kept ?_; assumption
  show Kept _ _ _; dsimp -zeta only; assumption

theorem msuStart_kept (h : Kept b s0 s) : Kept b s0 (msuStart s x1 x2) := by
  unfold msuStart
  extract_lets +onlyGivenNames y1; refine Kept.cond (fun _ => ?_) fun _ => ?_; extract_lets +onlyGivenNames y2
  unfold y1; refine updCore_kept ?_; refine landLocal_kept ?_; assumption; split
  extract_lets +onlyGivenNames y3 y4 y5; refine Kept.cond (fun _ => ?_) fun _ => ?_; extract_lets +onlyGivenNames y6
  refine Kept.cut (p := Kept b s0 y6) ?_ fun _ => ?_; unfold y6; refine Kept.cond (fun _ => ?_) fun _ => ?_
  refine Kept.fst (by assumption) ?_; refine msuRead_kept ?_; assumption; refine landLocal_kept ?_
  refine Kept.fst (by assumption) ?_; refine msuRead_kept ?_; assumption; clear_value y6; unfold y1
  refine updCore_kept ?_; assumption; extract_lets +onlyGivenNames y7; unfold y1; refine updCore_kept ?_
  refine Kept.fst (by assumption) ?_; refine msuRead_kept ?_; assumption

theorem issueMsu_kept (h : Kept b s0 s) : Kept b s0 (issueMsu s x1 x2 x3 x4 x5) := by
  unfold issueMsu
  extract_lets +onlyGivenNames y1; split; refine Kept.cond (fun _ => ?_) fun _ => ?_; refine refuseCmd_kept ?_
  assumption; refine Kept.cond (fun _ => ?_) fun _ => ?_; refine parkCmd_kept ?_; assumption
  extract_lets +onlyGivenNames y2; refine Kept.cut (p := Kept b s0 y2) ?_ fun _ => ?_; unfold y2
  refine issued_kept ?_; refine sbTake_kept ?_; assumption; clear_value y2; refine Kept.cond (fun _ => ?_) fun _ => ?_
  refine msuStart_kept ?_; assumption; refine updCore_kept ?_; assumption; refine refuseCmd_kept ?_; assumption

theorem execFill_kept (h : Kept b s0 s) : KeptN b s0 (execFill x1 x2 x3 x4 s) := by
  unfold execFill
  refine KeptN.next ?_; refine Kept.cond (fun _ => ?_) fun _ => ?_; refine issueMsu_kept ?_; assumption; assumption

theorem execCopy_kept (h : Kept b s0 s) : KeptN b s0 (execCopy x1 x2 x3 x4 s) := by
  unfold execCopy
  refine KeptN.next ?_; refine Kept.cond (fun _ => ?_) fun _ => ?_; refine issueMsu_kept ?_; assumption; assumption

theorem execMsCmpcnt_kept (h : Kept b s0 s) : KeptN b s0 (execMsCmpcnt x1 x2 x3 x4 s) := by
  unfold execMsCmpcnt
  refine KeptN.next ?_; refine Kept.cond (fun _ => ?_) fun _ => ?_; refine issueMsu_kept ?_; assumption; assumption

theorem execMsuCommandEnd_kept (h : Kept b s0 s) : KeptN b s0 (execMsuCommandEnd x1 s) := by
  unfold execMsuCommandEnd
  split; refine KeptN.next ?_; assumption; extract_lets +onlyGivenNames y1 y2
  refine Kept.cut (p := Kept b s0 y2) ?_ fun _ => ?_; unfold y2; refine updCore_kept ?_; assumption; clear_value y2
  extract_lets +onlyGivenNames y3; refine Kept.cut (p := Kept b s0 y3) ?_ fun _ => ?_; unfold y3
  refine completeCmd_kept ?_; assumption; clear_value y3; extract_lets +onlyGivenNames y4
  refine Kept.cut (p := Kept b s0 y4) ?_ fun _ => ?_; unfold y4; refine unissue_kept ?_; refine sbRelease_kept ?_
  assumption; clear_value y4; extract_lets +onlyGivenNames y5; refine Kept.cut (p := Kept b s0 y5) ?_ fun _ => ?_
  unfold y5; refine Kept.cond (fun _ => ?_) fun _ => ?_; refine faultCtx_kept ?_; assumption; assumption
  clear_value y5; refine KeptN.next ?_; split; assumption; refine msuStart_kept ?_; refine updCore_kept ?_; assumption

theorem weightFill_kept (h : Kept b s0 s) : Kept b s0 (weightFill s x1 x2 x3 x4 x5 x6) := by
  unfold weightFill
  extract_lets +onlyGivenNames y1 y2; refine Kept.cut (p := Kept b s0 y2) ?_ fun _ => ?_; unfold y2
  refine write_kept ?_; assumption; clear_value y2; refine Kept.lit ?_ rfl rfl rfl rfl rfl; assumption

theorem execWeightRefetch_kept (h : Kept b s0 s) : KeptN b s0 (execWeightRefetch x1 x2 s) := by
  unfold execWeightRefetch
  extract_lets +onlyGivenNames y1; refine KeptN.next ?_; refine Kept.cond (fun _ => ?_) fun _ => ?_
  refine refetchLine_kept ?_; assumption; assumption

theorem execScrubVisit_kept (h : Kept b s0 s) : KeptN b s0 (execScrubVisit x1 s) := by
  unfold execScrubVisit
  refine KeptN.cond (fun _ => ?_) fun _ => ?_; refine KeptN.next ?_; assumption; extract_lets +onlyGivenNames y1
  subst y1; extract_lets +onlyGivenNames y2; subst y2; split; refine KeptN.cond (fun _ => ?_) fun _ => ?_
  refine KeptN.next ?_; assumption; refine KeptN.next ?_; refine updCore_kept ?_; refine bump_kept ?_; assumption
  extract_lets +onlyGivenNames y3; subst y3; extract_lets +onlyGivenNames y4
  refine Kept.cut (p := Kept b s0 y4) ?_ fun _ => ?_; unfold y4; refine settle_kept ?_; assumption; clear_value y4
  extract_lets +onlyGivenNames y5; refine Kept.cut (p := Kept b s0 y5) ?_ fun _ => ?_; unfold y5
  refine Kept.cond (fun _ => ?_) fun _ => ?_; refine refetchLine_kept ?_; assumption; assumption; clear_value y5
  extract_lets +onlyGivenNames y6; refine Kept.cut (p := Kept b s0 y6) ?_ fun _ => ?_; unfold y6
  refine updCore_kept ?_; assumption; clear_value y6; refine KeptN.next ?_; refine Kept.cond (fun _ => ?_) fun _ => ?_
  refine bump_kept ?_; assumption; assumption

theorem commonsFill_kept (h : Kept b s0 s) : Kept b s0 (commonsFill s x1 x2).1 := by
  show KeptAt Prod.fst _ _ _
  unfold commonsFill
  refine KeptAt.cond (fun _ => ?_) fun _ => ?_; show Kept _ _ _; dsimp -zeta only; assumption; split; split
  show Kept _ _ _; dsimp -zeta only; refine Kept.cond (fun _ => ?_) fun _ => ?_; refine Kept.fst (by assumption) ?_
  refine crossFabric_kept ?_; refine Kept.fst (by assumption) ?_; refine read_kept ?_; assumption
  refine updCluster_kept ?_; refine Kept.fst (by assumption) ?_; refine crossFabric_kept ?_
  refine Kept.fst (by assumption) ?_; refine read_kept ?_; assumption

theorem commonsLine_kept (h : Kept b s0 s) : Kept b s0 (commonsLine s x1 x2).1 := by
  show KeptAt Prod.fst _ _ _
  unfold commonsLine
  extract_lets +onlyGivenNames y1 y2; split; extract_lets +onlyGivenNames y3 y4
  refine Kept.cut (p := Kept b s0 y4) ?_ fun _ => ?_; unfold y4; refine bump_kept ?_; assumption; clear_value y4
  split; show Kept _ _ _; dsimp -zeta only; refine updCluster_kept ?_; assumption; show Kept _ _ _
  refine commonsFill_kept ?_; refine bump_kept ?_; refine updCluster_kept ?_; assumption; show Kept _ _ _
  refine commonsFill_kept ?_; refine bump_kept ?_; assumption

theorem commonsRead_kept (h : Kept b s0 s) : Kept b s0 (commonsRead s x1 x2 x3).1 := by
  show KeptAt Prod.fst _ _ _
  unfold commonsRead
  refine KeptAt.cond (fun _ => ?_) fun _ => ?_; show Kept _ _ _; dsimp -zeta only; assumption
  extract_lets +onlyGivenNames y1 y2; split; extract_lets +onlyGivenNames y3; show Kept _ _ _; dsimp -zeta only
  refine Kept.fst (by assumption) ?_; show KeptAt Prod.fst _ _ _; refine KeptAt.fold (fun _ _ _ => ?_) ?_; split
  split; show Kept _ _ _; dsimp -zeta only; refine Kept.fst (by assumption) ?_; refine commonsLine_kept ?_; assumption
  show Kept _ _ _; dsimp -zeta only; assumption

theorem hbmRead_kept (h : Kept b s0 s) : Kept b s0 (hbmRead s x1 x2 x3 x4).1 := by
  show KeptAt Prod.fst _ _ _
  unfold hbmRead
  refine KeptAt.cond (fun _ => ?_) fun _ => ?_; show Kept _ _ _; refine commonsRead_kept ?_; assumption
  refine KeptAt.cond (fun _ => ?_) fun _ => ?_; show Kept _ _ _; dsimp -zeta only; assumption; split; split
  show Kept _ _ _; dsimp -zeta only; refine Kept.fst (by assumption) ?_; refine crossFabric_kept ?_
  refine Kept.fst (by assumption) ?_; refine read_kept ?_; assumption

theorem commonsBumpEpoch_kept (h : Kept b s0 s) : Kept b s0 (commonsBumpEpoch s x1) := by
  unfold commonsBumpEpoch
  refine updCluster_kept ?_; assumption

theorem commonsDropAll_kept (h : Kept b s0 s) : Kept b s0 (commonsDropAll s x1 x2) := by
  unfold commonsDropAll
  refine Kept.fold (fun _ _ _ => ?_) ?_; refine commonsInvalidate_kept ?_; assumption; assumption

theorem applyPinWays_kept (h : Kept b s0 s) : Kept b s0 (applyPinWays s x1 x2) := by
  unfold applyPinWays
  extract_lets +onlyGivenNames y1 y2; refine Kept.cut (p := Kept b s0 y2) ?_ fun _ => ?_; unfold y2
  refine updCluster_kept ?_; assumption; clear_value y2; extract_lets +onlyGivenNames y3; refine clearRange_kept ?_
  assumption

theorem mcastDeliver_kept (h : Kept b s0 s) : Kept b s0 (mcastDeliver s x1 x2 x3 x4 x5 x6 x7).1 := by
  show KeptAt Prod.fst _ _ _
  unfold mcastDeliver
  refine KeptAt.fold (fun _ _ _ => ?_) ?_; split; extract_lets +onlyGivenNames y1
  refine KeptAt.cond (fun _ => ?_) fun _ => ?_; show Kept _ _ _; dsimp -zeta only; assumption
  refine KeptAt.cond (fun _ => ?_) fun _ => ?_; show Kept _ _ _; dsimp -zeta only; assumption
  extract_lets +onlyGivenNames y2; refine Kept.cut (p := Kept b s0 y2) ?_ fun _ => ?_; unfold y2; split
  refine weightFill_kept ?_; assumption; refine write_kept ?_; assumption; clear_value y2; show Kept _ _ _
  dsimp -zeta only; refine Kept.lit ?_ rfl rfl rfl rfl rfl; assumption; show Kept _ _ _; dsimp -zeta only; assumption

theorem multicast_kept (h : Kept b s0 s) : Kept b s0 (multicast s x1 x2 x3 x4 x5 x6 x7 x8).1 := by
  show KeptAt Prod.fst _ _ _
  unfold multicast
  extract_lets +onlyGivenNames y1; split; extract_lets +onlyGivenNames y2
  refine KeptAt.cond (fun _ => ?_) fun _ => ?_; show Kept _ _ _; dsimp -zeta only; assumption
  refine KeptAt.cond (fun _ => ?_) fun _ => ?_; show Kept _ _ _; dsimp -zeta only; assumption
  extract_lets +onlyGivenNames y3; refine Kept.cut (p := Kept b s0 y3) ?_ fun _ => ?_; unfold y3; refine bump_kept ?_
  assumption; clear_value y3; split; refine KeptAt.cond (fun _ => ?_) fun _ => ?_; show Kept _ _ _; dsimp -zeta only
  refine Kept.fst (by assumption) ?_; show KeptAt Prod.fst _ _ _; refine KeptAt.cond (fun _ => ?_) fun _ => ?_
  show Kept _ _ _; refine hbmRead_kept ?_; assumption; split; show Kept _ _ _; dsimp -zeta only
  refine Kept.fst (by assumption) ?_; refine read_kept ?_; assumption; show Kept _ _ _; refine mcastDeliver_kept ?_
  refine Kept.fst (by assumption) ?_; show KeptAt Prod.fst _ _ _; refine KeptAt.cond (fun _ => ?_) fun _ => ?_
  show Kept _ _ _; refine hbmRead_kept ?_; assumption; split; show Kept _ _ _; dsimp -zeta only
  refine Kept.fst (by assumption) ?_; refine read_kept ?_; assumption; show Kept _ _ _; dsimp -zeta only; assumption

theorem execMulticastRequest_kept (h : Kept b s0 s) :
    KeptN b s0 (execMulticastRequest x1 x2 x3 x4 x5 x6 x7 x8 x9 x10 s) := by
  unfold execMulticastRequest
  extract_lets +onlyGivenNames y1 y2; refine KeptN.cond (fun _ => ?_) fun _ => ?_; refine KeptN.next ?_
  refine emit_kept ?_; assumption; split; refine KeptN.next ?_; refine emit_kept ?_
  refine Kept.fst (by assumption) ?_; refine multicast_kept ?_; assumption

theorem execMulticastLanded_kept (h : Kept b s0 s) : KeptN b s0 (execMulticastLanded x1 s) := by
  unfold execMulticastLanded
  split; refine KeptN.next ?_; assumption; refine KeptN.next ?_; refine counterApply_kept ?_
  refine Kept.lit ?_ rfl rfl rfl rfl rfl; assumption

end Sys2Proof.Machine
end

