-- ==== Sys2Proof/Laws/KeptWindows.lean ====
section
/-!
SUPPORT. What each operation of Machine/Windows.lean keeps (`Kept`).
-/

namespace Sys2Proof.Machine

open Sys2Proof

variable {b : Bool} {s0 s t : State}

theorem writePass_kept (h : Kept b s0 s) : Kept b s0 (writePass s x1).2 := by
  show KeptAt Prod.snd _ _ _
  unfold writePass
  refine KeptAt.cond (fun _ => ?_) fun _ => ?_; show Kept _ _ _; dsimp -zeta only; refine updPass_kept ?_; assumption
  show Kept _ _ _; dsimp -zeta only; assumption

theorem openPass_kept (h : Kept b s0 s) : Kept b s0 (openPass s x1).2 := by
  show KeptAt Prod.snd _ _ _
  unfold openPass
  split; show Kept _ _ _; dsimp -zeta only; refine updPass_kept ?_; assumption; show Kept _ _ _; dsimp -zeta only
  assumption

theorem closePass_kept (h : Kept b s0 s) : Kept b s0 (closePass s x1).2 := by
  show KeptAt Prod.snd _ _ _
  unfold closePass
  refine KeptAt.cond (fun _ => ?_) fun _ => ?_; show Kept _ _ _; dsimp -zeta only; refine updPass_kept ?_; assumption
  show Kept _ _ _; dsimp -zeta only; assumption

theorem execHpDrained_kept (h : Kept b s0 s) : KeptN b s0 (execHpDrained x1 s) := by
  unfold execHpDrained
  extract_lets +onlyGivenNames y1; refine KeptN.next ?_; refine Kept.cond (fun _ => ?_) fun _ => ?_
  refine updPass_kept ?_; assumption; assumption

theorem closePassesOf_kept (h : Kept b s0 s) : Kept b s0 (closePassesOf s x1) := by
  unfold closePassesOf
  extract_lets +onlyGivenNames y1; refine Kept.lit ?_ rfl rfl rfl rfl rfl; assumption

theorem writeRwt_kept (h : Kept b s0 s) : Kept b s0 (writeRwt s x1) := by
  unfold writeRwt
  refine Kept.lit ?_ rfl rfl rfl rfl rfl; assumption

theorem writeCtxTenant_kept (h : Kept b s0 s) : Kept b s0 (writeCtxTenant s x1 x2 x3).2 := by
  show KeptAt Prod.snd _ _ _
  unfold writeCtxTenant
  extract_lets +onlyGivenNames y1; refine KeptAt.cond (fun _ => ?_) fun _ => ?_; show Kept _ _ _; dsimp -zeta only
  refine updCtx_kept ?_; assumption; show Kept _ _ _; dsimp -zeta only; assumption

end Sys2Proof.Machine
end

