-- ==== Sys2Proof/Laws/KeptKeys.lean ====
section
/-!
SUPPORT. What each operation of Machine/Keys.lean keeps (`Kept`).
-/

namespace Sys2Proof.Machine

open Sys2Proof

variable {b : Bool} {s0 s t : State}

theorem updKey_kept (h : Kept b s0 s) : Kept b s0 (updKey s x1 x2) := by
  unfold updKey
  extract_lets +onlyGivenNames y1; refine Kept.lit ?_ rfl rfl rfl rfl rfl; assumption

theorem rotateKey_kept (h : Kept b s0 s) : Kept b s0 (rotateKey s x1) := by
  unfold rotateKey
  refine updKey_kept ?_; assumption

theorem writeWrapped_kept (h : Kept b s0 s) : Kept b s0 (writeWrapped s x1 x2 x3).2 := by
  show KeptAt Prod.snd _ _ _
  unfold writeWrapped
  extract_lets +onlyGivenNames y1; split; show Kept _ _ _; dsimp -zeta only; assumption
  refine KeptAt.cond (fun _ => ?_) fun _ => ?_; show Kept _ _ _; dsimp -zeta only; assumption; split; show Kept _ _ _
  dsimp -zeta only; assumption; split; show Kept _ _ _; dsimp -zeta only; assumption
  refine KeptAt.cond (fun _ => ?_) fun _ => ?_; refine KeptAt.cond (fun _ => ?_) fun _ => ?_; show Kept _ _ _
  dsimp -zeta only; assumption; show Kept _ _ _; dsimp -zeta only; refine updKey_kept ?_; assumption; show Kept _ _ _
  dsimp -zeta only; refine updKey_kept ?_; assumption

theorem writeKeyPerm_kept (h : Kept b s0 s) : Kept b s0 (writeKeyPerm s x1 x2).2 := by
  show KeptAt Prod.snd _ _ _
  unfold writeKeyPerm
  refine KeptAt.cond (fun _ => ?_) fun _ => ?_; show Kept _ _ _; dsimp -zeta only; assumption; show Kept _ _ _
  dsimp -zeta only; refine updKey_kept ?_; assumption

theorem writeRotateAt_kept (h : Kept b s0 s) : Kept b s0 (writeRotateAt s x1).2 := by
  show KeptAt Prod.snd _ _ _
  unfold writeRotateAt
  show Kept _ _ _; dsimp -zeta only; refine updKey_kept ?_; assumption

theorem zeroiseKey_kept (h : Kept b s0 s) : Kept b s0 (zeroiseKey s x1).2 := by
  show KeptAt Prod.snd _ _ _
  unfold zeroiseKey
  refine KeptAt.cond (fun _ => ?_) fun _ => ?_; show Kept _ _ _; dsimp -zeta only; assumption; show Kept _ _ _
  dsimp -zeta only; refine updKey_kept ?_; assumption

theorem verify_kept (h : Kept b s0 s) : Kept b s0 (verify s x1 x2 x3 x4 x5 x6).2 := by
  show KeptAt Prod.snd _ _ _
  unfold verify
  extract_lets +onlyGivenNames y1; refine KeptAt.cond (fun _ => ?_) fun _ => ?_; show Kept _ _ _; dsimp -zeta only
  assumption; refine KeptAt.cond (fun _ => ?_) fun _ => ?_; show Kept _ _ _; dsimp -zeta only; assumption; split
  show Kept _ _ _; dsimp -zeta only; assumption; refine KeptAt.cond (fun _ => ?_) fun _ => ?_; show Kept _ _ _
  dsimp -zeta only; assumption; refine KeptAt.cond (fun _ => ?_) fun _ => ?_; show Kept _ _ _; dsimp -zeta only
  refine bump_kept ?_; assumption; split; refine KeptAt.cond (fun _ => ?_) fun _ => ?_; show Kept _ _ _
  dsimp -zeta only; refine bump_kept ?_; assumption; show Kept _ _ _; dsimp -zeta only
  refine Kept.lit ?_ rfl rfl rfl rfl rfl; assumption; refine KeptAt.cond (fun _ => ?_) fun _ => ?_; show Kept _ _ _
  dsimp -zeta only; assumption; show Kept _ _ _; dsimp -zeta only; refine Kept.lit ?_ rfl rfl rfl rfl rfl; assumption

end Sys2Proof.Machine
end

