-- ==== Sys2Proof/Laws/KeptCharts.lean ====
section
/-!
SUPPORT. What each operation of Machine/Charts.lean keeps (`Kept`).
-/

namespace Sys2Proof.Machine

open Sys2Proof

variable {b : Bool} {s0 s t : State}

theorem fetchGlobal_kept (h : Kept b s0 s) : Kept b s0 (fetchGlobal s x1 x2 x3).1 := by
  show KeptAt Prod.fst _ _ _
  unfold fetchGlobal
  extract_lets +onlyGivenNames y1 y2; refine KeptAt.cond (fun _ => ?_) fun _ => ?_; extract_lets +onlyGivenNames y3
  refine KeptAt.cond (fun _ => ?_) fun _ => ?_; show Kept _ _ _; dsimp -zeta only; assumption
  refine KeptAt.cond (fun _ => ?_) fun _ => ?_; show Kept _ _ _; dsimp -zeta only; assumption; split; show Kept _ _ _
  dsimp -zeta only; refine Kept.fst (by assumption) ?_; refine read_kept ?_; assumption
  refine KeptAt.cond (fun _ => ?_) fun _ => ?_; show Kept _ _ _; dsimp -zeta only; assumption
  refine KeptAt.cond (fun _ => ?_) fun _ => ?_; show Kept _ _ _; dsimp -zeta only; assumption
  refine KeptAt.cond (fun _ => ?_) fun _ => ?_; show Kept _ _ _; dsimp -zeta only; assumption; split
  extract_lets +onlyGivenNames y4; show Kept _ _ _; dsimp -zeta only; assumption; split; show Kept _ _ _
  dsimp -zeta only; assumption; show Kept _ _ _; dsimp -zeta only; assumption

theorem updPart_kept (h : Kept b s0 s) : Kept b s0 (State.updPart s x1 x2) := by
  unfold State.updPart
  split; refine Kept.lit ?_ rfl rfl rfl rfl rfl; assumption; assumption

theorem freeFrame_kept (h : Kept b s0 s) : Kept b s0 (freeFrame s x1) := by
  unfold freeFrame
  refine updPart_kept ?_; assumption

theorem setShare_kept (h : Kept b s0 s) : Kept b s0 (setShare s x1 x2) := by
  unfold setShare
  refine updPart_kept ?_; assumption

theorem claimBit_kept (h : Kept b s0 s) : Kept b s0 (claimBit s x1 x2) := by
  unfold claimBit
  refine setShare_kept ?_; assumption

theorem releaseBit_kept (h : Kept b s0 s) : Kept b s0 (releaseBit s x1 x2) := by
  unfold releaseBit
  refine Kept.cond (fun _ => ?_) fun _ => ?_; assumption; extract_lets +onlyGivenNames y1 y2
  refine Kept.cut (p := Kept b s0 y2) ?_ fun _ => ?_; unfold y2; refine setShare_kept ?_; assumption; clear_value y2
  refine Kept.cond (fun _ => ?_) fun _ => ?_; refine Kept.lit ?_ rfl rfl rfl rfl rfl; assumption; assumption

theorem preparePage_kept (h : Kept b s0 s) : Kept b s0 (preparePage s x1 x2 x3 x4 x5) := by
  unfold preparePage
  extract_lets +onlyGivenNames y1; refine Kept.cut (p := Kept b s0 y1) ?_ fun _ => ?_; unfold y1; refine write_kept ?_
  assumption; clear_value y1; refine Kept.cond (fun _ => ?_) fun _ => ?_; assumption
  refine Kept.fold (fun _ _ _ => ?_) ?_; refine write_kept ?_; assumption; assumption

theorem allocFrame_kept (h : Kept b s0 s) : KeptO Prod.fst b s0 (allocFrame s x1 x2 x3 x4 x5) := by
  unfold allocFrame
  split; exact KeptO.absent; split; exact KeptO.absent; extract_lets +onlyGivenNames y1 y2
  refine Kept.cut (p := Kept b s0 y2) ?_ fun _ => ?_; unfold y2; refine updPart_kept ?_; assumption; clear_value y2
  refine KeptO.here ?_; dsimp -zeta only; refine preparePage_kept ?_; assumption

theorem copySlot_kept (h : Kept b s0 s) : Kept b s0 (copySlot s x1 x2 x3 x4 x5 x6) := by
  unfold copySlot
  refine Kept.fold (fun _ _ _ => ?_) ?_; refine Kept.fold (fun _ _ _ => ?_) ?_; split; extract_lets +onlyGivenNames y1
  refine Kept.cut (p := Kept b s0 y1) ?_ fun _ => ?_; unfold y1; refine write_kept ?_
  refine Kept.fst (by assumption) ?_; refine read_kept ?_; assumption; clear_value y1
  refine Kept.cond (fun _ => ?_) fun _ => ?_; extract_lets +onlyGivenNames y2; split; refine write_kept ?_
  refine Kept.fst (by assumption) ?_; refine read_kept ?_; assumption; assumption; assumption; assumption

theorem widenSummary_kept (h : Kept b s0 s) : Kept b s0 (widenSummary s x1 x2 x3 x4) := by
  unfold widenSummary
  extract_lets +onlyGivenNames y1 y2 y3 y4; split; refine write_kept ?_; assumption

theorem resummarise_kept (h : Kept b s0 s) : Kept b s0 (resummarise s x1 x2 x3 x4) := by
  unfold resummarise
  refine Kept.cond (fun _ => ?_) fun _ => ?_; assumption; refine Kept.fold (fun _ _ _ => ?_) ?_
  refine widenSummary_kept ?_; assumption; assumption

theorem updPend_kept (h : Kept b s0 s) : Kept b s0 (State.updPend s x1 x2) := by
  unfold State.updPend
  refine Kept.lit ?_ rfl rfl rfl rfl rfl; assumption

theorem allocNode_kept (h : Kept b s0 s) : KeptO Prod.fst b s0 (allocNode s x1) := by
  unfold allocNode
  extract_lets +onlyGivenNames y1 y2; refine KeptO.cond (fun _ => ?_) fun _ => ?_
  extract_lets +onlyGivenNames y3 y4 y5; refine Kept.cut (p := Kept b s0 y5) ?_ fun _ => ?_; unfold y5
  refine Kept.lit ?_ rfl rfl rfl rfl rfl; assumption; clear_value y5; extract_lets +onlyGivenNames y6
  refine Kept.cut (p := Kept b s0 y6) ?_ fun _ => ?_; unfold y6; refine clearRange_kept ?_; assumption; clear_value y6
  extract_lets +onlyGivenNames y7; refine Kept.cut (p := Kept b s0 y7) ?_ fun _ => ?_; unfold y7
  refine Kept.fold (fun _ _ _ => ?_) ?_; refine hbmClear_kept ?_; assumption; assumption; clear_value y7
  refine KeptO.here ?_; dsimp -zeta only; refine updPend_kept ?_; assumption; exact KeptO.absent

theorem freeNode_kept (h : Kept b s0 s) : Kept b s0 (freeNode s x1) := by
  unfold freeNode
  refine Kept.lit ?_ rfl rfl rfl rfl rfl; assumption

theorem freshNode_kept (h : Kept b s0 s) : KeptO Prod.fst b s0 (freshNode s x1 x2) := by
  unfold freshNode
  refine KeptO.cond (fun _ => ?_) fun _ => ?_; refine KeptO.here ?_; dsimp -zeta only; assumption; split
  exact KeptO.absent; split; refine KeptO.here ?_; dsimp -zeta only; refine write_kept ?_
  refine Kept.fst (by assumption) ?_; refine read_kept ?_; refine KeptO.fst (allocNode_kept ?_) (by assumption)
  assumption

theorem setBelow_kept (h : Kept b s0 s) : Kept b s0 (setBelow s x1 x2 x3 x4 x5).2.1 := by
  induction x2 generalizing s x3 with
  | zero =>
    unfold setBelow
    split
    · exact h
    · dsimp only
      exact write_kept ((freshNode_kept h).fst ‹_›)
  | succ j ih =>
    have kid : ∀ (c : Prop) [Decidable c] (e : Nat) {o}, o = (if c then some (s, e) else allocNode s x1) →
        KeptO Prod.fst b s0 o := fun _ _ _ _ e => e ▸ KeptO.cond (fun _ => KeptO.here h) fun _ => allocNode_kept h
    unfold setBelow
    split
    refine KeptAt.cond (p := fun r : FC × State × Nat => r.2.1) (fun _ => h) fun _ => ?_
    dsimp only
    split
    · exact h
    · rename_i ch _
      have g := ih (x3 := ch) ((kid _ _ rfl).fst ‹_›)
      refine KeptAt.cond (p := fun r : FC × State × Nat => r.2.1) (fun _ => g) fun _ => ?_
      refine KeptAt.cond (p := fun r : FC × State × Nat => r.2.1) (fun _ => g) fun _ => ?_
      show Kept _ _ _
      split
      · exact g
      · dsimp only
        exact write_kept ((freshNode_kept g).fst ‹_›)

theorem setLeaf_kept (h : Kept b s0 s) : Kept b s0 (setLeaf s x1 x2 x3).2 := by
  show KeptAt Prod.snd _ _ _
  unfold setLeaf
  extract_lets +onlyGivenNames y1; refine KeptAt.cond (fun _ => ?_) fun _ => ?_; show Kept _ _ _; dsimp -zeta only
  assumption; refine KeptAt.cond (fun _ => ?_) fun _ => ?_; show Kept _ _ _; dsimp -zeta only; assumption
  refine KeptAt.cond (fun _ => ?_) fun _ => ?_; show Kept _ _ _; dsimp -zeta only; assumption; split; show Kept _ _ _
  dsimp -zeta only; refine Kept.cond (fun _ => ?_) fun _ => ?_; refine updDesc_kept ?_
  refine Kept.mid (by assumption) ?_; refine setBelow_kept ?_; assumption; refine Kept.mid (by assumption) ?_
  refine setBelow_kept ?_; assumption

theorem growLevels_kept (h : Kept b s0 s) : Kept b s0 (growLevels s x1 x2).2 := by
  induction x2 generalizing s with
  | zero => exact h
  | succ k ih =>
    unfold growLevels
    split
    · exact h
    · exact ih (updDesc_kept (write_kept ((allocNode_kept h).fst ‹_›)))

theorem growFor_kept (h : Kept b s0 s) : Kept b s0 (growFor s x1 x2).2 := by
  show KeptAt Prod.snd _ _ _
  unfold growFor
  refine KeptAt.cond (fun _ => ?_) fun _ => ?_; show Kept _ _ _; dsimp -zeta only; assumption; show Kept _ _ _
  refine growLevels_kept ?_; assumption

theorem emptyRoot_kept (h : Kept b s0 s) : KeptO id b s0 (emptyRoot s x1) := by
  unfold emptyRoot
  split; exact KeptO.absent; refine KeptO.hereS ?_; refine updDesc_kept ?_
  refine KeptO.fst (allocNode_kept ?_) (by assumption); assumption

end Sys2Proof.Machine
end

