-- ==== Sys2Proof/Laws/KeptEdits.lean ====
section
/-!
SUPPORT. What each operation of Machine/Edits.lean keeps (`Kept`).
-/

namespace Sys2Proof.Machine

open Sys2Proof

variable {b : Bool} {s0 s t : State}

theorem walkBegin_kept (h : Kept b s0 s) : Kept b s0 (walkBegin s x1 x2) := by
  unfold walkBegin
  extract_lets +onlyGivenNames y1 y2; refine Kept.cut (p := Kept b s0 y2) ?_ fun _ => ?_; unfold y2
  refine Kept.lit ?_ rfl rfl rfl rfl rfl; assumption; clear_value y2; refine updDesc_kept ?_; assumption

theorem walkEnd_kept (h : Kept b s0 s) : Kept b s0 (walkEnd s x1 x2) := by
  unfold walkEnd
  refine Kept.cond (fun _ => ?_) fun _ => ?_; extract_lets +onlyGivenNames y1 y2
  refine Kept.cut (p := Kept b s0 y2) ?_ fun _ => ?_; unfold y2; refine Kept.lit ?_ rfl rfl rfl rfl rfl; assumption
  clear_value y2; refine updDesc_kept ?_; assumption; assumption

theorem walkEndAll_kept (h : Kept b s0 s) : Kept b s0 (walkEndAll s x1) := by
  unfold walkEndAll
  refine Kept.fold (fun _ _ _ => ?_) ?_; refine walkEnd_kept ?_; assumption; assumption

theorem andThen_kept {p : FC × State} {f : State → FC × State} (hf : ∀ s, Kept b s0 s → Kept b s0 (f s).2)
    (h : Kept b s0 p.2) : Kept b s0 (andThen p f).2 := by
  unfold andThen
  split
  · exact hf _ h
  · exact h

theorem steps_kept {α : Type} {l : List α} {f : State → α → FC × State}
    (hf : ∀ s x, Kept b s0 s → Kept b s0 (f s x).2) (h : Kept b s0 s) : Kept b s0 (steps l s f).2 := by
  unfold steps
  exact KeptAt.fold (p := Prod.snd) (fun p x g => andThen_kept (fun s k => hf s x k) g) h

theorem claimFrame_kept (h : Kept b s0 s) : Kept b s0 (claimFrame s x1 x2) := by
  unfold claimFrame
  refine updPend_kept ?_; assumption

theorem mapFresh_kept (h : Kept b s0 s) : Kept b s0 (mapFresh s x1 x2 x3 x4 x5).2 := by
  show KeptAt Prod.snd _ _ _
  unfold mapFresh
  split; show Kept _ _ _; dsimp -zeta only; assumption; show Kept _ _ _; refine setLeaf_kept ?_
  refine claimFrame_kept ?_; refine KeptO.fst (allocFrame_kept ?_) (by assumption); assumption

theorem landRemote_kept (h : Kept b s0 s) : Kept b s0 (landRemote s x1 x2 x3 x4).2 := by
  show KeptAt Prod.snd _ _ _
  unfold landRemote
  split; refine KeptAt.cond (fun _ => ?_) fun _ => ?_; show Kept _ _ _; dsimp -zeta only; refine write_kept ?_
  refine Kept.fst (by assumption) ?_; refine fetchGlobal_kept ?_; assumption; show Kept _ _ _; dsimp -zeta only
  refine Kept.fst (by assumption) ?_; refine fetchGlobal_kept ?_; assumption

theorem cowPage_kept (h : Kept b s0 s) : Kept b s0 (cowPage s x1 x2 x3 x4).2 := by
  show KeptAt Prod.snd _ _ _
  unfold cowPage
  extract_lets +onlyGivenNames y1; split; refine KeptAt.cond (fun _ => ?_) fun _ => ?_; show Kept _ _ _
  dsimp -zeta only; assumption; refine KeptAt.cond (fun _ => ?_) fun _ => ?_; show Kept _ _ _; dsimp -zeta only
  assumption; extract_lets +onlyGivenNames y2; show Kept _ _ _; apply steps_kept; intro _; intro _; intro _
  show KeptAt Prod.snd _ _ _; extract_lets +onlyGivenNames y3; split; show Kept _ _ _; dsimp -zeta only; assumption
  extract_lets +onlyGivenNames y4; refine Kept.cut (p := Kept b s0 y4) ?_ fun _ => ?_; unfold y4
  refine claimFrame_kept ?_; refine KeptO.fst (allocFrame_kept ?_) (by assumption); assumption; clear_value y4
  extract_lets +onlyGivenNames y5 y6; refine Kept.cut (p := Kept b s0 y6.2) ?_ fun _ => ?_; unfold y6
  show KeptAt Prod.snd _ _ _; refine KeptAt.cond (fun _ => ?_) fun _ => ?_; show Kept _ _ _; dsimp -zeta only
  assumption; refine KeptAt.cond (fun _ => ?_) fun _ => ?_; split; show Kept _ _ _; dsimp -zeta only
  refine write_kept ?_; refine Kept.snd (by assumption) ?_; refine landRemote_kept ?_; assumption; split
  extract_lets +onlyGivenNames y7; refine Kept.cut (p := Kept b s0 y7) ?_ fun _ => ?_; unfold y7; refine write_kept ?_
  refine Kept.fst (by assumption) ?_; refine read_kept ?_; assumption; clear_value y7; extract_lets +onlyGivenNames y8
  refine Kept.cut (p := Kept b s0 y8) ?_ fun _ => ?_; unfold y8; refine write_kept ?_; assumption; clear_value y8
  show Kept _ _ _; dsimp -zeta only; refine Kept.fold (fun _ _ _ => ?_) ?_; refine copySlot_kept ?_; assumption
  assumption; clear_value y6; show Kept _ _ _; apply andThen_kept; intro _; intro _; show KeptAt Prod.snd _ _ _
  extract_lets +onlyGivenNames y9; refine Kept.cut (p := Kept b s0 y9) ?_ fun _ => ?_; unfold y9
  refine Kept.fold (fun _ _ _ => ?_) ?_; refine Kept.cond (fun _ => ?_) fun _ => ?_; refine write_kept ?_; assumption
  assumption; assumption; clear_value y9; extract_lets +onlyGivenNames y10
  refine Kept.cut (p := Kept b s0 y10) ?_ fun _ => ?_; unfold y10; refine Kept.cond (fun _ => ?_) fun _ => ?_
  refine resummarise_kept ?_; assumption; assumption; clear_value y10; show Kept _ _ _; refine setLeaf_kept ?_
  assumption; assumption; assumption

theorem editExtend_kept (h : Kept b s0 s) : Kept b s0 (editExtend s x1 x2 x3).2 := by
  show KeptAt Prod.snd _ _ _
  unfold editExtend
  split; show Kept _ _ _; dsimp -zeta only; assumption; refine KeptAt.cond (fun _ => ?_) fun _ => ?_; show Kept _ _ _
  dsimp -zeta only; assumption; extract_lets +onlyGivenNames y1 y2 y3 y4 y5
  refine KeptAt.cond (fun _ => ?_) fun _ => ?_; show Kept _ _ _; dsimp -zeta only; assumption
  refine KeptAt.cond (fun _ => ?_) fun _ => ?_; show Kept _ _ _; dsimp -zeta only; assumption; show Kept _ _ _
  apply andThen_kept; intro _; intro _; apply steps_kept; intro _; intro _; intro _; split; show KeptAt Prod.snd _ _ _
  refine KeptAt.cond (fun _ => ?_) fun _ => ?_; show Kept _ _ _; dsimp -zeta only; assumption
  refine KeptAt.cond (fun _ => ?_) fun _ => ?_; show Kept _ _ _; refine cowPage_kept ?_; assumption
  extract_lets +onlyGivenNames y6; show Kept _ _ _; apply steps_kept; intro _; intro _; intro _
  show KeptAt Prod.snd _ _ _; extract_lets +onlyGivenNames y7; refine KeptAt.cond (fun _ => ?_) fun _ => ?_
  show Kept _ _ _; refine mapFresh_kept ?_; assumption; refine KeptAt.cond (fun _ => ?_) fun _ => ?_; show Kept _ _ _
  refine setLeaf_kept ?_; assumption; show Kept _ _ _; dsimp -zeta only; assumption; assumption; assumption
  refine growFor_kept ?_; assumption

theorem editAttach_kept (h : Kept b s0 s) : Kept b s0 (editAttach s x1 x2 x3 x4).2 := by
  show KeptAt Prod.snd _ _ _
  unfold editAttach
  refine KeptAt.cond (fun _ => ?_) fun _ => ?_; show Kept _ _ _; dsimp -zeta only; assumption
  refine KeptAt.cond (fun _ => ?_) fun _ => ?_; show Kept _ _ _; dsimp -zeta only; assumption; split; show Kept _ _ _
  dsimp -zeta only; assumption; extract_lets +onlyGivenNames y1 y2; show Kept _ _ _; apply andThen_kept; intro _
  intro _; apply andThen_kept; intro _; intro _; dsimp -zeta only; refine updPend_kept ?_; assumption
  apply steps_kept; intro _; intro _; intro _; split; show KeptAt Prod.snd _ _ _
  refine KeptAt.cond (fun _ => ?_) fun _ => ?_; show Kept _ _ _; dsimp -zeta only; assumption
  refine KeptAt.cond (fun _ => ?_) fun _ => ?_; show Kept _ _ _; dsimp -zeta only; assumption
  refine KeptAt.cond (fun _ => ?_) fun _ => ?_; show Kept _ _ _; dsimp -zeta only; assumption; split; show Kept _ _ _
  dsimp -zeta only; assumption; extract_lets +onlyGivenNames y3; refine Kept.cut (p := Kept b s0 y3) ?_ fun _ => ?_
  unfold y3; refine updPend_kept ?_; refine claimBit_kept ?_; assumption; clear_value y3
  extract_lets +onlyGivenNames y4; refine Kept.cut (p := Kept b s0 y4.2) ?_ fun _ => ?_; unfold y4
  show KeptAt Prod.snd _ _ _; refine KeptAt.cond (fun _ => ?_) fun _ => ?_; show Kept _ _ _; dsimp -zeta only
  assumption; show Kept _ _ _; refine setLeaf_kept ?_; assumption; clear_value y4; show Kept _ _ _; apply andThen_kept
  intro _; intro _; split; dsimp -zeta only; assumption; show KeptAt Prod.snd _ _ _; extract_lets +onlyGivenNames y5
  refine Kept.cut (p := Kept b s0 y5) ?_ fun _ => ?_; unfold y5; refine updPend_kept ?_; refine claimBit_kept ?_
  assumption; clear_value y5; show Kept _ _ _; refine setLeaf_kept ?_; assumption; assumption; assumption
  refine growFor_kept ?_; assumption

theorem claimNamed_kept (h : Kept b s0 s) : Kept b s0 (claimNamed s x1 x2 x3) := by
  unfold claimNamed
  split; assumption; refine Kept.cond (fun _ => ?_) fun _ => ?_; assumption; extract_lets +onlyGivenNames y1
  refine Kept.cut (p := Kept b s0 y1) ?_ fun _ => ?_; unfold y1; refine claimFrame_kept ?_; refine updPart_kept ?_
  assumption; clear_value y1; split; assumption; refine preparePage_kept ?_; assumption

theorem takeLeaf_kept (h : Kept b s0 s) : Kept b s0 (takeLeaf s x1 x2 x3).2 := by
  show KeptAt Prod.snd _ _ _
  unfold takeLeaf
  refine KeptAt.cond (fun _ => ?_) fun _ => ?_; show Kept _ _ _; dsimp -zeta only; assumption; show Kept _ _ _
  apply andThen_kept; intro _; intro _; dsimp -zeta only; refine Kept.cond (fun _ => ?_) fun _ => ?_; split
  assumption; extract_lets +onlyGivenNames y1; refine Kept.cut (p := Kept b s0 y1) ?_ fun _ => ?_; unfold y1
  refine claimNamed_kept ?_; assumption; clear_value y1; refine Kept.cond (fun _ => ?_) fun _ => ?_
  refine updPend_kept ?_; refine claimBit_kept ?_; assumption; assumption; assumption; refine setLeaf_kept ?_
  assumption

theorem editRemap_kept (h : Kept b s0 s) : Kept b s0 (editRemap s x1 x2 x3 x4 x5).2 := by
  show KeptAt Prod.snd _ _ _
  unfold editRemap
  split; show Kept _ _ _; dsimp -zeta only; assumption; extract_lets +onlyGivenNames y1 y2 y3 y4
  refine KeptAt.cond (fun _ => ?_) fun _ => ?_; show Kept _ _ _; dsimp -zeta only; assumption
  refine KeptAt.cond (fun _ => ?_) fun _ => ?_; show Kept _ _ _; dsimp -zeta only; assumption
  extract_lets +onlyGivenNames y5 y6; show Kept _ _ _; apply andThen_kept; intro _; intro _; apply andThen_kept
  intro _; intro _; dsimp -zeta only; refine updDesc_kept ?_; assumption; apply steps_kept; intro _; intro _; intro _
  show KeptAt Prod.snd _ _ _; extract_lets +onlyGivenNames y7 y8; refine KeptAt.cond (fun _ => ?_) fun _ => ?_
  show Kept _ _ _; dsimp -zeta only; assumption; show Kept _ _ _; refine setLeaf_kept ?_; assumption; assumption
  apply steps_kept; intro _; intro _; intro _; show KeptAt Prod.snd _ _ _; extract_lets +onlyGivenNames y9 y10
  refine Kept.cut (p := Kept b s0 y10) ?_ fun _ => ?_; unfold y10; split; assumption; refine claimNamed_kept ?_
  assumption; clear_value y10; show Kept _ _ _; refine setLeaf_kept ?_; assumption; assumption

theorem jobEnd_kept (h : Kept b s0 s) : Kept b s0 (jobEnd s x1) := by
  unfold jobEnd
  refine Kept.cond (fun _ => ?_) fun _ => ?_; assumption; extract_lets +onlyGivenNames y1 y2
  refine Kept.cut (p := Kept b s0 y2) ?_ fun _ => ?_; unfold y2; refine Kept.lit ?_ rfl rfl rfl rfl rfl; assumption
  clear_value y2; refine walkEnd_kept ?_; refine updDesc_kept ?_; assumption

theorem breakJob_kept (h : Kept b s0 s) : Kept b s0 (breakJob s x1 x2) := by
  unfold breakJob
  split; extract_lets +onlyGivenNames y1 y2; refine Kept.cond (fun _ => ?_) fun _ => ?_
  refine Kept.lit ?_ rfl rfl rfl rfl rfl; assumption; assumption; assumption

theorem editSetEntry_kept (h : Kept b s0 s) : Kept b s0 (editSetEntry s x1 x2 x3).2 := by
  show KeptAt Prod.snd _ _ _
  unfold editSetEntry
  show Kept _ _ _; apply andThen_kept; intro _; intro _; dsimp -zeta only; refine breakJob_kept ?_; assumption
  refine takeLeaf_kept ?_; assumption

theorem editTruncate_kept (h : Kept b s0 s) : Kept b s0 (editTruncate s x1 x2 x3).2 := by
  show KeptAt Prod.snd _ _ _
  unfold editTruncate
  split; show Kept _ _ _; dsimp -zeta only; assumption; extract_lets +onlyGivenNames y1 y2; split
  extract_lets +onlyGivenNames y3; refine KeptAt.cond (fun _ => ?_) fun _ => ?_; show Kept _ _ _; dsimp -zeta only
  assumption; refine KeptAt.cond (fun _ => ?_) fun _ => ?_; show Kept _ _ _; dsimp -zeta only; assumption
  show Kept _ _ _; apply andThen_kept; intro _; intro _; show KeptAt Prod.snd _ _ _; extract_lets +onlyGivenNames y4
  refine Kept.cut (p := Kept b s0 y4) ?_ fun _ => ?_; unfold y4; refine updPend_kept ?_; assumption; clear_value y4
  extract_lets +onlyGivenNames y5; refine Kept.cut (p := Kept b s0 y5) ?_ fun _ => ?_; unfold y5
  refine updDesc_kept ?_; assumption; clear_value y5; show Kept _ _ _; dsimp -zeta only; split
  refine Kept.cond (fun _ => ?_) fun _ => ?_; refine jobEnd_kept ?_; assumption; assumption; assumption
  apply steps_kept; intro _; intro _; intro _; refine setLeaf_kept ?_; assumption; assumption

theorem editReport_kept (h : Kept b s0 s) : Kept b s0 (editReport s x1 x2) := by
  unfold editReport
  refine sendCompletion_kept ?_; assumption

theorem reportEdits_kept (h : Kept b s0 s) : Kept b s0 (reportEdits s x1 x2 x3) := by
  unfold reportEdits
  extract_lets +onlyGivenNames y1 y2; refine Kept.cut (p := Kept b s0 y2) ?_ fun _ => ?_; unfold y2
  refine Kept.fold (fun _ _ _ => ?_) ?_; refine editReport_kept ?_; assumption; assumption; clear_value y2
  refine Kept.lit ?_ rfl rfl rfl rfl rfl; assumption

theorem dropShadow_kept (h : Kept b s0 s) : Kept b s0 (dropShadow s x1) := by
  unfold dropShadow
  extract_lets +onlyGivenNames y1 y2; split; extract_lets +onlyGivenNames y3
  refine Kept.cut (p := Kept b s0 y3) ?_ fun _ => ?_; unfold y3; refine Kept.fold (fun _ _ _ => ?_) ?_
  refine freeFrame_kept ?_; assumption; assumption; clear_value y3; extract_lets +onlyGivenNames y4
  refine Kept.cut (p := Kept b s0 y4) ?_ fun _ => ?_; unfold y4; refine Kept.fold (fun _ _ _ => ?_) ?_
  refine releaseBit_kept ?_; assumption; assumption; clear_value y4; extract_lets +onlyGivenNames y5
  refine Kept.cut (p := Kept b s0 y5) ?_ fun _ => ?_; unfold y5; refine Kept.fold (fun _ _ _ => ?_) ?_
  refine freeNode_kept ?_; assumption; assumption; clear_value y5; refine updDesc_kept ?_; refine updPend_kept ?_
  assumption

theorem editRelease_kept (h : Kept b s0 s) : Kept b s0 (editRelease s x1 x2).2 := by
  show KeptAt Prod.snd _ _ _
  unfold editRelease
  extract_lets +onlyGivenNames y1; refine Kept.cut (p := Kept b s0 y1) ?_ fun _ => ?_; unfold y1
  refine dropShadow_kept ?_; assumption; clear_value y1; refine KeptAt.cond (fun _ => ?_) fun _ => ?_; show Kept _ _ _
  dsimp -zeta only; assumption; split; show Kept _ _ _; dsimp -zeta only; assumption; extract_lets +onlyGivenNames y2
  refine Kept.cut (p := Kept b s0 y2) ?_ fun _ => ?_; unfold y2; refine reportEdits_kept ?_
  refine KeptO.useS (emptyRoot_kept ?_) (by assumption); assumption; clear_value y2; extract_lets +onlyGivenNames y3
  refine Kept.cut (p := Kept b s0 y3) ?_ fun _ => ?_; unfold y3; refine updDesc_kept ?_; assumption; clear_value y3
  extract_lets +onlyGivenNames y4; refine Kept.cut (p := Kept b s0 y4) ?_ fun _ => ?_; unfold y4
  refine updPend_kept ?_; assumption; clear_value y4; extract_lets +onlyGivenNames y5 y6
  refine Kept.cut (p := Kept b s0 y6) ?_ fun _ => ?_; unfold y6; refine Kept.lit ?_ rfl rfl rfl rfl rfl; assumption
  clear_value y6; show Kept _ _ _; dsimp -zeta only; refine jobEnd_kept ?_; assumption

theorem editVerdict_kept (h : Kept b s0 s) : Kept b s0 (editVerdict s x1 x2).2 := by
  show KeptAt Prod.snd _ _ _
  unfold editVerdict
  refine KeptAt.cond (fun _ => ?_) fun _ => ?_; show Kept _ _ _; dsimp -zeta only; assumption; show Kept _ _ _
  dsimp -zeta only; refine updDesc_kept ?_; assumption

theorem freeUnlinked_kept (h : Kept b s0 s) : Kept b s0 (freeUnlinked s x1) := by
  unfold freeUnlinked
  extract_lets +onlyGivenNames y1; refine Kept.cut (p := Kept b s0 y1) ?_ fun _ => ?_; unfold y1
  refine Kept.fold (fun _ _ _ => ?_) ?_; refine freeNode_kept ?_; assumption; assumption; clear_value y1
  extract_lets +onlyGivenNames y2; refine Kept.cut (p := Kept b s0 y2) ?_ fun _ => ?_; unfold y2
  refine Kept.fold (fun _ _ _ => ?_) ?_; refine Kept.cond (fun _ => ?_) fun _ => ?_; refine freeFrame_kept ?_
  assumption; assumption; assumption; clear_value y2; refine Kept.fold (fun _ _ _ => ?_) ?_; refine releaseBit_kept ?_
  assumption; assumption

theorem swapRoot_kept (h : Kept b s0 s) : Kept b s0 (swapRoot s x1).1 := by
  show KeptAt Prod.fst _ _ _
  unfold swapRoot
  extract_lets +onlyGivenNames y1 y2 y3 y4; split; split; extract_lets +onlyGivenNames y5 y6 y7 y8
  refine Kept.cut (p := Kept b s0 y8) ?_ fun _ => ?_; unfold y8; refine Kept.lit ?_ rfl rfl rfl rfl rfl; assumption
  clear_value y8; show Kept _ _ _; dsimp -zeta only; refine updDesc_kept ?_; assumption

theorem peakFrames_kept (h : Kept b s0 s) : Kept b s0 (peakFrames s x1) := by
  unfold peakFrames
  extract_lets +onlyGivenNames y1; refine Kept.cond (fun _ => ?_) fun _ => ?_; refine Kept.lit ?_ rfl rfl rfl rfl rfl
  assumption; assumption

theorem commitChart_kept (h : Kept b s0 s) : Kept b s0 (commitChart s x1) := by
  unfold commitChart
  extract_lets +onlyGivenNames y1 y2 y3; split; extract_lets +onlyGivenNames y4
  refine Kept.cut (p := Kept b s0 y4) ?_ fun _ => ?_; unfold y4; refine updDesc_kept ?_
  refine Kept.fst (by assumption) ?_; refine swapRoot_kept ?_; assumption; clear_value y4
  extract_lets +onlyGivenNames y5; refine Kept.cut (p := Kept b s0 y5) ?_ fun _ => ?_; unfold y5
  refine bumpTnt_kept ?_; assumption; clear_value y5; extract_lets +onlyGivenNames y6
  refine Kept.cut (p := Kept b s0 y6) ?_ fun _ => ?_; unfold y6; refine bump_kept ?_; assumption; clear_value y6
  extract_lets +onlyGivenNames y7; refine Kept.cut (p := Kept b s0 y7) ?_ fun _ => ?_; unfold y7
  refine freeUnlinked_kept ?_; assumption; clear_value y7; refine peakFrames_kept ?_; assumption

theorem commitNow_kept (h : Kept b s0 s) : Kept b s0 (commitNow s x1) := by
  unfold commitNow
  extract_lets +onlyGivenNames y1 y2 y3; refine Kept.cut (p := Kept b s0 y3) ?_ fun _ => ?_; unfold y3
  refine commitChart_kept ?_; assumption; clear_value y3; extract_lets +onlyGivenNames y4
  refine Kept.cut (p := Kept b s0 y4) ?_ fun _ => ?_; unfold y4; refine Kept.fold (fun _ _ _ => ?_) ?_
  refine editReport_kept ?_; assumption; assumption; clear_value y4; refine Kept.lit ?_ rfl rfl rfl rfl rfl
  assumption

theorem commitSeq_kept (h : Kept b s0 s) : Kept b s0 (commitSeq s x1) := by
  unfold commitSeq
  refine Kept.cond (fun _ => ?_) fun _ => ?_; assumption; refine Kept.cond (fun _ => ?_) fun _ => ?_
  refine raise_kept ?_; refine updDesc_kept ?_; assumption; refine Kept.cond (fun _ => ?_) fun _ => ?_
  refine updDesc_kept ?_; assumption; refine commitNow_kept ?_; assumption

theorem forceRelease_kept (h : Kept b s0 s) : Kept b s0 (forceRelease s x1 x2).2 := by
  show KeptAt Prod.snd _ _ _
  unfold forceRelease
  split; refine KeptAt.cond (fun _ => ?_) fun _ => ?_; show Kept _ _ _; dsimp -zeta only; assumption
  extract_lets +onlyGivenNames y1 y2; split; extract_lets +onlyGivenNames y3
  refine Kept.cut (p := Kept b s0 y3) ?_ fun _ => ?_; unfold y3; refine updDesc_kept ?_
  refine Kept.fst (by assumption) ?_; refine swapRoot_kept ?_; refine Kept.snd (by assumption) ?_
  refine editRelease_kept ?_; assumption; clear_value y3; show Kept _ _ _; dsimp -zeta only
  refine Kept.lit ?_ rfl rfl rfl rfl rfl; assumption

theorem raiseAssist_kept (h : Kept b s0 s) : Kept b s0 (raiseAssist s x1 x2 x3 x4 x5 x6).2 := by
  show KeptAt Prod.snd _ _ _
  unfold raiseAssist
  extract_lets +onlyGivenNames y1; refine KeptAt.cond (fun _ => ?_) fun _ => ?_; show Kept _ _ _; dsimp -zeta only
  assumption; refine KeptAt.cond (fun _ => ?_) fun _ => ?_; show Kept _ _ _; dsimp -zeta only; assumption
  refine KeptAt.cond (fun _ => ?_) fun _ => ?_; show Kept _ _ _; dsimp -zeta only; assumption
  refine KeptAt.cond (fun _ => ?_) fun _ => ?_; show Kept _ _ _; dsimp -zeta only; assumption
  extract_lets +onlyGivenNames y2; show Kept _ _ _; dsimp -zeta only; refine Kept.cond (fun _ => ?_) fun _ => ?_
  refine Kept.lit ?_ rfl rfl rfl rfl rfl; assumption; refine Kept.lit ?_ rfl rfl rfl rfl rfl; assumption

theorem unstall_kept (h : Kept b s0 s) : Kept b s0 (unstall s) := by
  unfold unstall
  refine Kept.fold (fun _ _ _ => ?_) ?_; refine Kept.cond (fun _ => ?_) fun _ => ?_
  refine Kept.lit ?_ rfl rfl rfl rfl rfl; assumption; assumption; assumption

theorem hostPuts_kept (h : Kept b s0 s) : Kept b s0 (hostPuts s x1 x2) := by
  unfold hostPuts
  refine Kept.fold (fun _ _ _ => ?_) ?_; refine emit_kept ?_; assumption; assumption

theorem forwardAssists_kept (h : Kept b s0 s) : Kept b s0 (forwardAssists s) := by
  unfold forwardAssists
  refine Kept.cond (fun _ => ?_) fun _ => ?_; assumption; refine Kept.fold (fun _ _ _ => ?_) ?_
  refine Kept.cond (fun _ => ?_) fun _ => ?_; assumption; extract_lets +onlyGivenNames y1; split; assumption
  refine Kept.cond (fun _ => ?_) fun _ => ?_; assumption; extract_lets +onlyGivenNames y2
  refine Kept.cut (p := Kept b s0 y2) ?_ fun _ => ?_; unfold y2; refine hostPuts_kept ?_; assumption; clear_value y2
  extract_lets +onlyGivenNames y3; refine Kept.cut (p := Kept b s0 y3) ?_ fun _ => ?_; unfold y3; refine emit_kept ?_
  assumption; clear_value y3; extract_lets +onlyGivenNames y4 y5; refine Kept.cut (p := Kept b s0 y5) ?_ fun _ => ?_
  unfold y5; refine Kept.lit ?_ rfl rfl rfl rfl rfl; assumption; clear_value y5; refine irq_kept ?_; assumption
  assumption

theorem jobStart_kept (h : Kept b s0 s) : Kept b s0 (jobStart s x1 x2) := by
  unfold jobStart
  extract_lets +onlyGivenNames y1 y2 y3; refine Kept.cond (fun _ => ?_) fun _ => ?_
  extract_lets +onlyGivenNames y4 y5; refine Kept.cut (p := Kept b s0 y5) ?_ fun _ => ?_; unfold y5
  refine Kept.lit ?_ rfl rfl rfl rfl rfl; assumption; clear_value y5; refine walkBegin_kept ?_; refine updDesc_kept ?_
  assumption; extract_lets +onlyGivenNames y6; split; refine forwardAssists_kept ?_
  refine Kept.lit ?_ rfl rfl rfl rfl rfl; refine Kept.snd (by assumption) ?_; refine raiseAssist_kept ?_; assumption
  refine raise_kept ?_; refine Kept.snd (by assumption) ?_; refine raiseAssist_kept ?_; assumption

theorem jobPump_kept (h : Kept b s0 s) : Kept b s0 (jobPump s) := by
  unfold jobPump
  refine Kept.fold (fun _ _ _ => ?_) ?_; refine Kept.cond (fun _ => ?_) fun _ => ?_; refine jobStart_kept ?_
  refine Kept.lit ?_ rfl rfl rfl rfl rfl; assumption; assumption; assumption

theorem jobRequest_kept (h : Kept b s0 s) : Kept b s0 (jobRequest s x1 x2) := by
  unfold jobRequest
  refine Kept.cond (fun _ => ?_) fun _ => ?_; assumption; extract_lets +onlyGivenNames y1 y2; refine jobPump_kept ?_
  refine Kept.lit ?_ rfl rfl rfl rfl rfl; assumption

theorem jobsAtBoundary_kept (h : Kept b s0 s) : Kept b s0 (jobsAtBoundary s) := by
  unfold jobsAtBoundary
  extract_lets +onlyGivenNames y1 y2 y3; refine Kept.cut (p := Kept b s0 y3) ?_ fun _ => ?_; unfold y3
  refine Kept.fold (fun _ _ _ => ?_) ?_; refine Kept.cond (fun _ => ?_) fun _ => ?_; assumption
  refine jobRequest_kept ?_; assumption; refine Kept.lit ?_ rfl rfl rfl rfl rfl; assumption; clear_value y3
  refine jobPump_kept ?_; refine Kept.fold (fun _ _ _ => ?_) ?_; extract_lets +onlyGivenNames y4
  refine Kept.cond (fun _ => ?_) fun _ => ?_; refine jobRequest_kept ?_; assumption; assumption; assumption

theorem evictFrames_kept (h : Kept b s0 s) : KeptO Prod.fst b s0 (evictFrames s x1 x2 x3 x4) := by
  unfold evictFrames
  generalize List.range (x4 * x1.pg) = l
  have g : KeptO Prod.fst b s0 (some (s, ([] : List (Nat × Nat)), ([] : List Nat))) := KeptO.here h
  generalize (some (s, ([] : List (Nat × Nat)), ([] : List Nat))) = o at g ⊢
  induction l generalizing o with
  | nil => exact g
  | cons i r ih =>
    refine ih _ ?_
    dsimp only
    split
    · exact KeptO.absent
    · split
      · exact KeptO.absent
      · exact KeptO.here ((allocFrame_kept (g.fst rfl)).fst ‹_›)

theorem evictCopy_kept (h : Kept b s0 s) : Kept b s0 (evictCopy s x1 x2 x3 x4 x5) := by
  unfold evictCopy
  extract_lets +onlyGivenNames y1 y2; refine Kept.cut (p := Kept b s0 y2) ?_ fun _ => ?_; unfold y2
  show KeptAt Prod.fst _ _ _; refine KeptAt.fold (fun _ _ _ => ?_) ?_; split; split
  extract_lets +onlyGivenNames y3 y4 y5; refine Kept.cut (p := Kept b s0 y5) ?_ fun _ => ?_; unfold y5
  refine Kept.fold (fun _ _ _ => ?_) ?_; extract_lets +onlyGivenNames y6 y7 y8
  refine Kept.cut (p := Kept b s0 y8) ?_ fun _ => ?_; unfold y8; refine Kept.cond (fun _ => ?_) fun _ => ?_; split
  refine write_kept ?_; refine Kept.fst (by assumption) ?_; refine read_kept ?_; assumption; assumption
  clear_value y8; extract_lets +onlyGivenNames y9; refine Kept.cut (p := Kept b s0 y9) ?_ fun _ => ?_; unfold y9
  refine copySlot_kept ?_; assumption; clear_value y9; refine write_kept ?_; assumption; assumption; clear_value y5
  show Kept _ _ _; dsimp -zeta only; assumption; show Kept _ _ _; dsimp -zeta only; assumption; clear_value y2
  refine Kept.fold (fun _ _ _ => ?_) ?_; extract_lets +onlyGivenNames y10; refine Kept.fold (fun _ _ _ => ?_) ?_
  refine resummarise_kept ?_; assumption; assumption; assumption

theorem jobAgain_kept (h : Kept b s0 s) : Kept b s0 (jobAgain s x1 x2) := by
  unfold jobAgain
  refine Kept.lit ?_ rfl rfl rfl rfl rfl; assumption

theorem jobFinish_kept (h : Kept b s0 s) : Kept b s0 (jobFinish s x1 x2) := by
  unfold jobFinish
  split; refine jobEnd_kept ?_; assumption; split; extract_lets +onlyGivenNames y1 y2 y3 y4 y5 y6 y7 y8
  refine Kept.cond (fun _ => ?_) fun _ => ?_; refine jobPump_kept ?_; refine jobEnd_kept ?_; assumption
  extract_lets +onlyGivenNames y9 y10 y11 y12 y13 y14 y15 y16; refine Kept.cut (p := Kept b s0 y16) ?_ fun _ => ?_
  unfold y16; refine raise_kept ?_; assumption; clear_value y16; extract_lets +onlyGivenNames y17 y18
  refine Kept.cut (p := Kept b s0 y18) ?_ fun _ => ?_; unfold y18; refine Kept.cond (fun _ => ?_) fun _ => ?_
  refine Kept.lit ?_ rfl rfl rfl rfl rfl; assumption; assumption; clear_value y18; split; refine jobPump_kept ?_
  refine jobAgain_kept ?_; refine jobEnd_kept ?_; refine raise_kept ?_; assumption; extract_lets +onlyGivenNames y19
  refine Kept.cut (p := Kept b s0 y19) ?_ fun _ => ?_; unfold y19; refine evictCopy_kept ?_
  refine KeptO.fst (evictFrames_kept ?_) (by assumption); assumption; clear_value y19; split
  refine Kept.cond (fun _ => ?_) fun _ => ?_; extract_lets +onlyGivenNames y20
  refine Kept.cut (p := Kept b s0 y20) ?_ fun _ => ?_; unfold y20; refine updPend_kept ?_
  refine Kept.snd (by assumption) ?_; show KeptAt Prod.snd _ _ _; refine KeptAt.cond (fun _ => ?_) fun _ => ?_
  show Kept _ _ _; dsimp -zeta only; assumption; show Kept _ _ _; refine editRemap_kept ?_; assumption
  clear_value y20; refine jobPump_kept ?_; refine jobEnd_kept ?_; assumption; refine jobPump_kept ?_
  refine jobAgain_kept ?_; refine jobEnd_kept ?_; refine Kept.fold (fun _ _ _ => ?_) ?_; refine freeFrame_kept ?_
  assumption; assumption

theorem applyOp_kept (h : Kept b s0 s) : Kept b s0 (applyOp s x1 x2 x3).2 := by
  show KeptAt Prod.snd _ _ _
  unfold applyOp
  extract_lets +onlyGivenNames y1; split; show Kept _ _ _; refine editExtend_kept ?_; assumption; show Kept _ _ _
  refine editAttach_kept ?_; assumption; split; show Kept _ _ _; dsimp -zeta only; assumption
  refine KeptAt.cond (fun _ => ?_) fun _ => ?_; show Kept _ _ _; dsimp -zeta only; assumption; show Kept _ _ _
  refine cowPage_kept ?_; assumption; extract_lets +onlyGivenNames y2; refine KeptAt.cond (fun _ => ?_) fun _ => ?_
  show Kept _ _ _; dsimp -zeta only; assumption; show Kept _ _ _; refine growLevels_kept ?_; assumption
  show Kept _ _ _; refine editSetEntry_kept ?_; assumption; refine KeptAt.cond (fun _ => ?_) fun _ => ?_
  show Kept _ _ _; dsimp -zeta only; assumption; show Kept _ _ _; refine editRemap_kept ?_; assumption
  show Kept _ _ _; refine editTruncate_kept ?_; assumption; show Kept _ _ _; refine editRelease_kept ?_; assumption
  show Kept _ _ _; refine editVerdict_kept ?_; assumption; show Kept _ _ _; refine editVerdict_kept ?_; assumption
  show Kept _ _ _; dsimp -zeta only; refine jobRequest_kept ?_; assumption; show Kept _ _ _
  refine forceRelease_kept ?_; assumption

theorem dropEdit_kept (h : Kept b s0 s) : Kept b s0 (dropEdit s x1) := by
  unfold dropEdit
  refine Kept.lit ?_ rfl rfl rfl rfl rfl; assumption

theorem finishEdit_kept (h : Kept b s0 s) (hq : Kept b s0 x4.2) : Kept b s0 (finishEdit s x1 x2 x3 x4) := by
  unfold finishEdit
  refine Kept.cond (fun _ => dropEdit_kept (editReport_kept h)) fun _ => ?_
  extract_lets +onlyGivenNames t
  have g : Kept b s0 t := Kept.cond (fun _ => hq) fun _ => updPend_kept hq
  exact Kept.cond (fun _ => dropEdit_kept (editReport_kept g)) fun _ => Kept.lit g rfl rfl rfl rfl rfl

theorem runEdit_kept (h : Kept b s0 s) : Kept b s0 (runEdit s x1 x2 x3) := by
  unfold runEdit
  refine jobPump_kept ?_; apply finishEdit_kept; assumption; refine applyOp_kept ?_; assumption

theorem submitEdit_kept (h : Kept b s0 s) : Kept b s0 (submitEdit s x1 x2) := by
  unfold submitEdit
  extract_lets +onlyGivenNames y1; refine Kept.cond (fun _ => ?_) fun _ => ?_; refine editReport_kept ?_; assumption
  refine Kept.cond (fun _ => ?_) fun _ => ?_; refine editReport_kept ?_; assumption
  refine Kept.cond (fun _ => ?_) fun _ => ?_; refine editReport_kept ?_; assumption
  extract_lets +onlyGivenNames y2 y3 y4 y5; refine Kept.cut (p := Kept b s0 y5) ?_ fun _ => ?_; unfold y5
  refine Kept.lit ?_ rfl rfl rfl rfl rfl; assumption; clear_value y5; extract_lets +onlyGivenNames y6
  refine Kept.cond (fun _ => ?_) fun _ => ?_; split; refine Kept.cond (fun _ => ?_) fun _ => ?_
  refine forwardAssists_kept ?_; refine Kept.snd (by assumption) ?_; refine raiseAssist_kept ?_; assumption
  refine dropEdit_kept ?_; refine editReport_kept ?_; assumption; refine runEdit_kept ?_; assumption

theorem submitOrReserved_kept (h : Kept b s0 s) : Kept b s0 (submitOrReserved s x1 x2 x3) := by
  unfold submitOrReserved
  refine Kept.cond (fun _ => ?_) fun _ => ?_; refine editReport_kept ?_; assumption; refine submitEdit_kept ?_
  assumption

theorem execExtend_kept (h : Kept b s0 s) : KeptN b s0 (execExtend x1 x2 s) := by
  unfold execExtend
  refine KeptN.next ?_; refine submitOrReserved_kept ?_; assumption

theorem execAttach_kept (h : Kept b s0 s) : KeptN b s0 (execAttach x1 x2 x3 s) := by
  unfold execAttach
  refine KeptN.next ?_; refine submitOrReserved_kept ?_; assumption

theorem execCow_kept (h : Kept b s0 s) : KeptN b s0 (execCow x1 x2 s) := by
  unfold execCow
  refine KeptN.next ?_; refine submitOrReserved_kept ?_; assumption

theorem execGrow_kept (h : Kept b s0 s) : KeptN b s0 (execGrow x1 x2 s) := by
  unfold execGrow
  refine KeptN.next ?_; refine submitOrReserved_kept ?_; assumption

theorem execSetEntry_kept (h : Kept b s0 s) : KeptN b s0 (execSetEntry x1 x2 x3 s) := by
  unfold execSetEntry
  refine KeptN.next ?_; refine submitOrReserved_kept ?_; assumption

theorem remapOp_kept (h : Kept b s0 s) : Kept b s0 (remapOp s x1 x2 x3 x4).1 := by
  show KeptAt Prod.fst _ _ _
  unfold remapOp
  extract_lets +onlyGivenNames y1 y2; split; show Kept _ _ _; dsimp -zeta only; assumption
  refine KeptAt.cond (fun _ => ?_) fun _ => ?_; show Kept _ _ _; dsimp -zeta only; assumption
  extract_lets +onlyGivenNames y3; split; refine KeptAt.cond (fun _ => ?_) fun _ => ?_; show Kept _ _ _
  dsimp -zeta only; refine Kept.fst (by assumption) ?_; refine fetchGlobal_kept ?_; assumption
  refine KeptAt.cond (fun _ => ?_) fun _ => ?_; show Kept _ _ _; dsimp -zeta only; refine Kept.fst (by assumption) ?_
  refine fetchGlobal_kept ?_; assumption; refine KeptAt.cond (fun _ => ?_) fun _ => ?_; show Kept _ _ _
  dsimp -zeta only; refine Kept.fst (by assumption) ?_; refine fetchGlobal_kept ?_; assumption; show Kept _ _ _
  dsimp -zeta only; refine Kept.fst (by assumption) ?_; refine fetchGlobal_kept ?_; assumption

theorem submitRemap_kept (h : Kept b s0 s) : Kept b s0 (submitRemap s x1 x2 x3 x4) := by
  unfold submitRemap
  refine Kept.cond (fun _ => ?_) fun _ => ?_; refine submitEdit_kept ?_; assumption; split
  refine Kept.cond (fun _ => ?_) fun _ => ?_; refine submitEdit_kept ?_; refine Kept.fst (by assumption) ?_
  refine remapOp_kept ?_; assumption; refine editReport_kept ?_; refine Kept.fst (by assumption) ?_
  refine remapOp_kept ?_; assumption

theorem execRemap_kept (h : Kept b s0 s) : KeptN b s0 (execRemap x1 x2 x3 x4 s) := by
  unfold execRemap
  refine KeptN.next ?_; refine submitRemap_kept ?_; assumption

theorem execTruncate_kept (h : Kept b s0 s) : KeptN b s0 (execTruncate x1 x2 s) := by
  unfold execTruncate
  refine KeptN.next ?_; refine submitOrReserved_kept ?_; assumption

theorem execRelease_kept (h : Kept b s0 s) : KeptN b s0 (execRelease x1 s) := by
  unfold execRelease
  refine KeptN.next ?_; refine submitEdit_kept ?_; assumption

theorem execDraftCommit_kept (h : Kept b s0 s) : KeptN b s0 (execDraftCommit x1 x2 s) := by
  unfold execDraftCommit
  refine KeptN.next ?_; refine submitOrReserved_kept ?_; assumption

theorem execDraftRollback_kept (h : Kept b s0 s) : KeptN b s0 (execDraftRollback x1 s) := by
  unfold execDraftRollback
  refine KeptN.next ?_; refine submitEdit_kept ?_; assumption

theorem execEvict_kept (h : Kept b s0 s) : KeptN b s0 (execEvict x1 x2 s) := by
  unfold execEvict
  refine KeptN.next ?_; refine submitOrReserved_kept ?_; assumption

theorem execForceRelease_kept (h : Kept b s0 s) : KeptN b s0 (execForceRelease x1 s) := by
  unfold execForceRelease
  refine KeptN.next ?_; refine submitEdit_kept ?_; assumption

theorem execForceReleaseFree_kept (h : Kept b s0 s) : KeptN b s0 (execForceReleaseFree x1 s) := by
  unfold execForceReleaseFree
  split; refine KeptN.next ?_; assumption; refine KeptN.cond (fun _ => ?_) fun _ => ?_; refine KeptN.next ?_
  assumption; extract_lets +onlyGivenNames y1 y2; refine Kept.cut (p := Kept b s0 y2) ?_ fun _ => ?_; unfold y2
  refine Kept.lit ?_ rfl rfl rfl rfl rfl; assumption; clear_value y2; refine KeptN.next ?_
  refine freeUnlinked_kept ?_; assumption

theorem execHeldCommit_kept (h : Kept b s0 s) : KeptN b s0 (execHeldCommit x1 s) := by
  unfold execHeldCommit
  extract_lets +onlyGivenNames y1; refine KeptN.next ?_; refine Kept.cond (fun _ => ?_) fun _ => ?_
  refine Kept.cond (fun _ => ?_) fun _ => ?_; refine commitNow_kept ?_; assumption; refine updDesc_kept ?_; assumption
  assumption

theorem execEvictJobDone_kept (h : Kept b s0 s) : KeptN b s0 (execEvictJobDone x1 s) := by
  unfold execEvictJobDone
  split; refine KeptN.next ?_; assumption; refine KeptN.next ?_; refine Kept.cond (fun _ => ?_) fun _ => ?_
  assumption; refine jobFinish_kept ?_; assumption

theorem execSharedFrameInvalidated_kept (h : Kept b s0 s) : KeptN b s0 (execSharedFrameInvalidated x1 x2 s) := by
  unfold execSharedFrameInvalidated
  extract_lets +onlyGivenNames y1; refine KeptN.cond (fun _ => ?_) fun _ => ?_; extract_lets +onlyGivenNames y2 y3
  refine Kept.cut (p := Kept b s0 y3) ?_ fun _ => ?_; unfold y3; refine Kept.lit ?_ rfl rfl rfl rfl rfl; assumption
  clear_value y3; extract_lets +onlyGivenNames y4; refine Kept.cut (p := Kept b s0 y4) ?_ fun _ => ?_; unfold y4
  split; refine commonsDropAll_kept ?_; assumption; assumption; clear_value y4; refine KeptN.next ?_
  refine freeFrame_kept ?_; assumption; refine KeptN.next ?_; assumption

end Sys2Proof.Machine
end

