-- ==== Sys2Proof/Laws/KeptSfu.lean ====
section
/-!
SUPPORT. What each operation of Machine/Sfu.lean keeps (`Kept`).
-/

namespace Sys2Proof.Machine

open Sys2Proof

variable {b : Bool} {s0 s t : State}

theorem sfuLoad_kept (h : Kept b s0 s) : Kept b s0 (sfuLoad s x1 x2 x3).2 := by
  show KeptAt Prod.snd _ _ _
  unfold sfuLoad
  extract_lets +onlyGivenNames y1; refine KeptAt.cond (fun _ => ?_) fun _ => ?_; show Kept _ _ _; dsimp -zeta only
  assumption; refine KeptAt.cond (fun _ => ?_) fun _ => ?_; show Kept _ _ _; dsimp -zeta only; assumption
  refine KeptAt.cond (fun _ => ?_) fun _ => ?_; show Kept _ _ _; dsimp -zeta only; assumption
  extract_lets +onlyGivenNames y2; refine Kept.cut (p := Kept b s0 y2) ?_ fun _ => ?_; unfold y2
  refine Kept.cond (fun _ => ?_) fun _ => ?_; assumption; refine bump_kept ?_; assumption; clear_value y2
  show Kept _ _ _; dsimp -zeta only; refine updCore_kept ?_; assumption

theorem sfuCommand_kept (h : Kept b s0 s) : Kept b s0 (sfuCommand s x1 x2).2 := by
  show KeptAt Prod.snd _ _ _
  unfold sfuCommand
  show Kept _ _ _; refine sfuLoad_kept ?_; assumption

theorem execSfuLoadComplete_kept (h : Kept b s0 s) : KeptN b s0 (execSfuLoadComplete x1 x2 s) := by
  unfold execSfuLoadComplete
  split; refine KeptN.next ?_; assumption; refine KeptN.cond (fun _ => ?_) fun _ => ?_; refine KeptN.next ?_
  assumption; extract_lets +onlyGivenNames y1; refine Kept.cut (p := Kept b s0 y1) ?_ fun _ => ?_; unfold y1
  refine updCore_kept ?_; assumption; clear_value y1; extract_lets +onlyGivenNames y2; split
  extract_lets +onlyGivenNames y3; refine KeptN.cond (fun _ => ?_) fun _ => ?_; extract_lets +onlyGivenNames y4
  refine Kept.cut (p := Kept b s0 y4) ?_ fun _ => ?_; unfold y4; refine updCore_kept ?_
  refine Kept.fst (by assumption) ?_; show KeptAt Prod.fst _ _ _; refine KeptAt.cond (fun _ => ?_) fun _ => ?_
  show Kept _ _ _; dsimp -zeta only; assumption; show Kept _ _ _; refine read_kept ?_; assumption; clear_value y4
  refine KeptN.next ?_; refine setCnt_kept ?_; assumption; refine KeptN.next ?_; refine raise_kept ?_
  refine setCnt_kept ?_; refine Kept.fst (by assumption) ?_; show KeptAt Prod.fst _ _ _
  refine KeptAt.cond (fun _ => ?_) fun _ => ?_; show Kept _ _ _; dsimp -zeta only; assumption; show Kept _ _ _
  refine read_kept ?_; assumption

end Sys2Proof.Machine
end

