-- ==== Sys2Proof/Laws/KeptLessons.lean ====
section
/-!
SUPPORT. What each operation of Machine/Lessons.lean keeps (`Kept`).
-/

namespace Sys2Proof.Machine

open Sys2Proof

variable {b : Bool} {s0 s t : State}

theorem settleControl_kept (h : Kept b s0 s) : Kept b s0 (settleControl s x1 x2) := by
  unfold settleControl
  extract_lets +onlyGivenNames y1 y2; refine Kept.cut (p := Kept b s0 y2) ?_ fun _ => ?_; unfold y2; unfold y1
  refine settle_kept ?_; assumption; clear_value y2; extract_lets +onlyGivenNames y3
  refine Kept.cut (p := Kept b s0 y3) ?_ fun _ => ?_; unfold y3; refine Kept.cond (fun _ => ?_) fun _ => ?_; unfold y1
  refine settle_kept ?_; assumption; assumption; clear_value y3; extract_lets +onlyGivenNames y4
  refine Kept.cut (p := Kept b s0 y4) ?_ fun _ => ?_; unfold y4; refine Kept.cond (fun _ => ?_) fun _ => ?_; unfold y1
  refine settle_kept ?_; assumption; assumption; clear_value y4; refine Kept.fold (fun _ _ _ => ?_) ?_
  refine Kept.cond (fun _ => ?_) fun _ => ?_; extract_lets +onlyGivenNames y5
  refine Kept.cut (p := Kept b s0 y5) ?_ fun _ => ?_; unfold y5; unfold y1; refine settle_kept ?_; assumption
  clear_value y5; refine Kept.cond (fun _ => ?_) fun _ => ?_; unfold y1; refine settle_kept ?_; assumption; assumption
  assumption; assumption

end Sys2Proof.Machine
end

