-- ==== Sys2Proof/Laws/KeptChain.lean ====
section
/-!
SUPPORT. What each operation of Machine/Chain.lean keeps (`Kept`).
-/

namespace Sys2Proof.Machine

open Sys2Proof

variable {b : Bool} {s0 s t : State}

theorem updLesson_kept (h : Kept b s0 s) : Kept b s0 (updLesson s x1 x2 x3) := by
  unfold updLesson
  split; assumption; refine updCore_kept ?_; assumption

theorem updStream_kept (h : Kept b s0 s) : Kept b s0 (updStream s x1 x2 x3) := by
  unfold updStream
  refine updCore_kept ?_; assumption

theorem noteBound_kept (h : Kept b s0 s) : Kept b s0 (noteBound s x1) := by
  unfold noteBound
  refine setCnt_kept ?_; assumption

theorem streamRelease_kept (h : Kept b s0 s) : Kept b s0 (streamRelease s x1 x2) := by
  unfold streamRelease
  extract_lets +onlyGivenNames y1; refine Kept.cond (fun _ => ?_) fun _ => ?_; assumption
  extract_lets +onlyGivenNames y2 y3; refine Kept.cut (p := Kept b s0 y3) ?_ fun _ => ?_; unfold y3
  refine Kept.cond (fun _ => ?_) fun _ => ?_; refine walkEnd_kept ?_; assumption; assumption; clear_value y3
  extract_lets +onlyGivenNames y4 y5; refine Kept.cut (p := Kept b s0 y5) ?_ fun _ => ?_; unfold y5
  refine updStream_kept ?_; assumption; clear_value y5; extract_lets +onlyGivenNames y6 y7 y8
  refine Kept.cut (p := Kept b s0 y8) ?_ fun _ => ?_; unfold y8; refine Kept.lit ?_ rfl rfl rfl rfl rfl; assumption
  clear_value y8; refine noteBound_kept ?_; refine updCore_kept ?_; assumption

theorem faultSeq_kept (h : Kept b s0 s) : Kept b s0 (faultSeq s x1 x2) := by
  unfold faultSeq
  refine Kept.cond (fun _ => ?_) fun _ => ?_; assumption; refine updDesc_kept ?_; assumption

theorem blameSeqs_kept (h : Kept b s0 s) : Kept b s0 (blameSeqs s x1 x2 x3) := by
  unfold blameSeqs
  refine Kept.cond (fun _ => ?_) fun _ => ?_; assumption; extract_lets +onlyGivenNames y1 y2 y3 y4
  refine Kept.cut (p := Kept b s0 y4) ?_ fun _ => ?_; unfold y4; refine Kept.lit ?_ rfl rfl rfl rfl rfl; assumption
  clear_value y4; split; refine Kept.cond (fun _ => ?_) fun _ => ?_; refine faultSeq_kept ?_; assumption; assumption
  extract_lets +onlyGivenNames y5; refine Kept.fold (fun _ _ _ => ?_) ?_; refine faultSeq_kept ?_; assumption
  assumption

theorem lessonDrop_kept (h : Kept b s0 s) : Kept b s0 (lessonDrop s x1 x2 x3) := by
  unfold lessonDrop
  extract_lets +onlyGivenNames y1; refine Kept.cut (p := Kept b s0 y1) ?_ fun _ => ?_; unfold y1
  refine Kept.fold (fun _ _ _ => ?_) ?_; refine Kept.cond (fun _ => ?_) fun _ => ?_; refine streamRelease_kept ?_
  assumption; assumption; assumption; clear_value y1; extract_lets +onlyGivenNames y2
  refine Kept.cut (p := Kept b s0 y2) ?_ fun _ => ?_; unfold y2; refine walkEndAll_kept ?_; assumption; clear_value y2
  extract_lets +onlyGivenNames y3; refine Kept.cut (p := Kept b s0 y3) ?_ fun _ => ?_; unfold y3
  refine updCore_kept ?_; assumption; clear_value y3; refine unissue_kept ?_; refine sbRelease_kept ?_; assumption

theorem lessonEnded_kept (h : Kept b s0 s) : Kept b s0 (lessonEnded s x1 x2 x3) := by
  unfold lessonEnded
  extract_lets +onlyGivenNames y1 y2; refine Kept.cut (p := Kept b s0 y2) ?_ fun _ => ?_; unfold y2
  refine bumpTnt_kept ?_; refine bump_kept ?_; assumption; clear_value y2; refine trace_kept ?_; assumption

theorem lessonFaultSeq_kept (h : Kept b s0 s) : Kept b s0 (lessonFaultSeq s x1 x2 x3 x4) := by
  unfold lessonFaultSeq
  split; assumption; extract_lets +onlyGivenNames y1; refine Kept.cut (p := Kept b s0 y1) ?_ fun _ => ?_; unfold y1
  refine lessonDrop_kept ?_; assumption; clear_value y1; extract_lets +onlyGivenNames y2
  refine Kept.cut (p := Kept b s0 y2) ?_ fun _ => ?_; unfold y2; refine lessonEnded_kept ?_; assumption
  clear_value y2; extract_lets +onlyGivenNames y3; refine Kept.cut (p := Kept b s0 y3) ?_ fun _ => ?_; unfold y3
  refine completeCmd_kept ?_; assumption; clear_value y3; refine blameSeqs_kept ?_; refine faultCtx_kept ?_
  assumption

theorem lessonFault_kept (h : Kept b s0 s) : Kept b s0 (lessonFault s x1 x2 x3) := by
  unfold lessonFault
  refine lessonFaultSeq_kept ?_; assumption

theorem countHbm_kept (h : Kept b s0 s) : Kept b s0 (countHbm s x1 x2 x3 x4) := by
  unfold countHbm
  refine Kept.cond (fun _ => ?_) fun _ => ?_; refine bumpTnt_kept ?_; assumption; assumption

theorem noteLines_kept (h : Kept b s0 s) : Kept b s0 (noteLines s x1 x2 x3) := by
  unfold noteLines
  refine bump_kept ?_; refine bump_kept ?_; assumption

theorem rdSp_kept (h : Kept b s0 s) : Kept b s0 (rdSp s x1 x2 x3 x4).1 := by
  show KeptAt Prod.fst _ _ _
  unfold rdSp
  refine KeptAt.cond (fun _ => ?_) fun _ => ?_; show Kept _ _ _; dsimp -zeta only; assumption
  extract_lets +onlyGivenNames y1; split; show Kept _ _ _; dsimp -zeta only; refine Kept.fst (by assumption) ?_
  refine read_kept ?_; assumption

theorem wrSp_kept (h : Kept b s0 s) : KeptO id b s0 (wrSp s x1 x2 x3 x4) := by
  unfold wrSp
  refine KeptO.cond (fun _ => ?_) fun _ => ?_; exact KeptO.absent; extract_lets +onlyGivenNames y1
  refine KeptO.hereS ?_; refine write_kept ?_; assumption

theorem rotaryParams_kept (h : Kept b s0 s) : Kept b s0 (rotaryParams s x1 x2 x3).1 := by
  show KeptAt Prod.fst _ _ _
  unfold rotaryParams
  extract_lets +onlyGivenNames y1; split; extract_lets +onlyGivenNames y2 y3
  refine KeptAt.cond (fun _ => ?_) fun _ => ?_; show Kept _ _ _; dsimp -zeta only; refine Kept.fst (by assumption) ?_
  refine rdSp_kept ?_; assumption; split; show Kept _ _ _; dsimp -zeta only; refine Kept.fst (by assumption) ?_
  refine rdSp_kept ?_; refine Kept.fst (by assumption) ?_; refine rdSp_kept ?_; assumption

theorem saturate_kept (h : Kept b s0 s) : Kept b s0 (saturate s x1 x2 x3 x4) := by
  unfold saturate
  refine Kept.cond (fun _ => ?_) fun _ => ?_; assumption; extract_lets +onlyGivenNames y1
  refine Kept.cut (p := Kept b s0 y1) ?_ fun _ => ?_; unfold y1; refine updLesson_kept ?_; assumption; clear_value y1
  split; refine bump_kept ?_; assumption; assumption

theorem formatErrors_kept (h : Kept b s0 s) : Kept b s0 (formatErrors s x1 x2 x3) := by
  unfold formatErrors
  refine Kept.cond (fun _ => ?_) fun _ => ?_; assumption; refine bump_kept ?_; assumption

theorem sfuTables_kept (h : Kept b s0 s) : Kept b s0 (sfuTables s x1 x2 x3 x4).1 := by
  show KeptAt Prod.fst _ _ _
  unfold sfuTables
  extract_lets +onlyGivenNames y1 y2; refine Kept.cut (p := Kept b s0 y2) ?_ fun _ => ?_; unfold y2
  refine updLesson_kept ?_; assumption; clear_value y2; show Kept _ _ _; dsimp -zeta only; assumption

theorem sfuDone_kept (h : Kept b s0 s) : Kept b s0 (sfuDone s x1 x2 x3) := by
  unfold sfuDone
  refine updLesson_kept ?_; assumption

theorem opTook_kept (h : Kept b s0 s) : Kept b s0 (opTook s x1 x2 x3) := by
  unfold opTook
  split; assumption; extract_lets +onlyGivenNames y1 y2; refine Kept.cut (p := Kept b s0 y2) ?_ fun _ => ?_; unfold y2
  refine updLesson_kept ?_; assumption; clear_value y2; split; extract_lets +onlyGivenNames y3
  refine Kept.cond (fun _ => ?_) fun _ => ?_; refine sfuDone_kept ?_; assumption; assumption; assumption

theorem stageFault_kept (h : Kept b s0 s) : Kept b s0 (stageFault s x1 x2 x3).1 := by
  show KeptAt Prod.fst _ _ _
  unfold stageFault
  show Kept _ _ _; dsimp -zeta only; refine lessonFault_kept ?_; assumption

theorem withRead_kept {x1 x2 x3 x4 x5 k} (hf : ∀ s x, Kept b s0 s → Kept b s0 (k s x).1) (h : Kept b s0 s) :
    Kept b s0 (withRead s x1 x2 x3 x4 x5 k).1 := by
  unfold withRead
  split
  · exact hf _ _ (Kept.fst ‹_› (rdSp_kept h))
  · exact stageFault_kept (Kept.fst ‹_› (rdSp_kept h))

theorem withWrite_kept {x1 x2 x3 x4 x5 k} (hf : ∀ s, Kept b s0 s → Kept b s0 (k s).1) (h : Kept b s0 s) :
    Kept b s0 (withWrite s x1 x2 x3 x4 x5 k).1 := by
  unfold withWrite
  split
  · exact hf _ ((wrSp_kept h).useS ‹_›)
  · exact stageFault_kept h

theorem runActivation_kept (h : Kept b s0 s) : Kept b s0 (runActivation s x1 x2 x3 x4 x5 x6 x7).1 := by
  show KeptAt Prod.fst _ _ _
  unfold runActivation
  extract_lets +onlyGivenNames y1 y2 y3 y4 y5 y6 y7 y8; split; extract_lets +onlyGivenNames y9 y10 y11 y12
  refine KeptAt.cond (fun _ => ?_) fun _ => ?_; extract_lets +onlyGivenNames y13; unfold y10
  refine KeptAt.cond (fun _ => ?_) fun _ => ?_; dsimp -zeta only; show Kept _ _ _; apply withRead_kept; intro _
  intro _; intro _; show KeptAt Prod.fst _ _ _; extract_lets +onlyGivenNames y14; unfold y9; split
  extract_lets +onlyGivenNames y15; refine Kept.cut (p := Kept b s0 y15) ?_ fun _ => ?_; unfold y15
  refine saturate_kept ?_; assumption; clear_value y15; extract_lets +onlyGivenNames y16
  refine Kept.cut (p := Kept b s0 y16) ?_ fun _ => ?_; unfold y16; refine bump_kept ?_; assumption; clear_value y16
  extract_lets +onlyGivenNames y17; refine Kept.cut (p := Kept b s0 y17) ?_ fun _ => ?_; unfold y17
  refine Kept.cond (fun _ => ?_) fun _ => ?_; assumption; refine Kept.cond (fun _ => ?_) fun _ => ?_
  refine bump_kept ?_; assumption; refine bump_kept ?_; assumption; clear_value y17; show Kept _ _ _; dsimp -zeta only
  refine opTook_kept ?_; assumption; refine Kept.fst (by assumption) ?_; refine sfuTables_kept ?_; assumption
  show Kept _ _ _; apply withRead_kept; intro _; intro _; intro _; show KeptAt Prod.fst _ _ _
  extract_lets +onlyGivenNames y18; dsimp -zeta only; show Kept _ _ _; apply withRead_kept; intro _; intro _; intro _
  show KeptAt Prod.fst _ _ _; extract_lets +onlyGivenNames y19; unfold y9; split; extract_lets +onlyGivenNames y20
  refine Kept.cut (p := Kept b s0 y20) ?_ fun _ => ?_; unfold y20; refine saturate_kept ?_; assumption
  clear_value y20; extract_lets +onlyGivenNames y21; refine Kept.cut (p := Kept b s0 y21) ?_ fun _ => ?_; unfold y21
  refine bump_kept ?_; assumption; clear_value y21; extract_lets +onlyGivenNames y22
  refine Kept.cut (p := Kept b s0 y22) ?_ fun _ => ?_; unfold y22; refine Kept.cond (fun _ => ?_) fun _ => ?_
  assumption; refine Kept.cond (fun _ => ?_) fun _ => ?_; refine bump_kept ?_; assumption; refine bump_kept ?_
  assumption; clear_value y22; show Kept _ _ _; dsimp -zeta only; refine opTook_kept ?_; assumption; assumption
  refine Kept.fst (by assumption) ?_; refine sfuTables_kept ?_; assumption
  refine KeptAt.cond (fun _ => ?_) fun _ => ?_; extract_lets +onlyGivenNames y23 y24; unfold y10
  refine KeptAt.cond (fun _ => ?_) fun _ => ?_; dsimp -zeta only; show Kept _ _ _; apply withRead_kept; intro _
  intro _; intro _; show KeptAt Prod.fst _ _ _; extract_lets +onlyGivenNames y25 y26 y27; unfold y9; split
  extract_lets +onlyGivenNames y28; refine Kept.cut (p := Kept b s0 y28) ?_ fun _ => ?_; unfold y28
  refine saturate_kept ?_; assumption; clear_value y28; extract_lets +onlyGivenNames y29
  refine Kept.cut (p := Kept b s0 y29) ?_ fun _ => ?_; unfold y29; refine bump_kept ?_; assumption; clear_value y29
  extract_lets +onlyGivenNames y30; refine Kept.cut (p := Kept b s0 y30) ?_ fun _ => ?_; unfold y30
  refine Kept.cond (fun _ => ?_) fun _ => ?_; assumption; refine Kept.cond (fun _ => ?_) fun _ => ?_
  refine bump_kept ?_; assumption; refine bump_kept ?_; assumption; clear_value y30; show Kept _ _ _; dsimp -zeta only
  refine opTook_kept ?_; assumption; refine Kept.fst (by assumption) ?_; refine sfuTables_kept ?_; assumption
  show Kept _ _ _; apply withRead_kept; intro _; intro _; intro _; show KeptAt Prod.fst _ _ _
  extract_lets +onlyGivenNames y31; dsimp -zeta only; show Kept _ _ _; apply withRead_kept; intro _; intro _; intro _
  show KeptAt Prod.fst _ _ _; extract_lets +onlyGivenNames y32 y33 y34; unfold y9; split
  extract_lets +onlyGivenNames y35; refine Kept.cut (p := Kept b s0 y35) ?_ fun _ => ?_; unfold y35
  refine saturate_kept ?_; assumption; clear_value y35; extract_lets +onlyGivenNames y36
  refine Kept.cut (p := Kept b s0 y36) ?_ fun _ => ?_; unfold y36; refine bump_kept ?_; assumption; clear_value y36
  extract_lets +onlyGivenNames y37; refine Kept.cut (p := Kept b s0 y37) ?_ fun _ => ?_; unfold y37
  refine Kept.cond (fun _ => ?_) fun _ => ?_; assumption; refine Kept.cond (fun _ => ?_) fun _ => ?_
  refine bump_kept ?_; assumption; refine bump_kept ?_; assumption; clear_value y37; show Kept _ _ _; dsimp -zeta only
  refine opTook_kept ?_; assumption; assumption; refine Kept.fst (by assumption) ?_; refine sfuTables_kept ?_
  assumption; unfold y10; refine KeptAt.cond (fun _ => ?_) fun _ => ?_; dsimp -zeta only
  refine KeptAt.cond (fun _ => ?_) fun _ => ?_; extract_lets +onlyGivenNames y38 y39; unfold y9; split
  extract_lets +onlyGivenNames y40; refine Kept.cut (p := Kept b s0 y40) ?_ fun _ => ?_; unfold y40
  refine saturate_kept ?_; refine Kept.fst (by assumption) ?_; refine sfuTables_kept ?_; assumption; clear_value y40
  extract_lets +onlyGivenNames y41; refine Kept.cut (p := Kept b s0 y41) ?_ fun _ => ?_; unfold y41
  refine bump_kept ?_; assumption; clear_value y41; extract_lets +onlyGivenNames y42
  refine Kept.cut (p := Kept b s0 y42) ?_ fun _ => ?_; unfold y42; refine Kept.cond (fun _ => ?_) fun _ => ?_
  assumption; refine Kept.cond (fun _ => ?_) fun _ => ?_; refine bump_kept ?_; assumption; refine bump_kept ?_
  assumption; clear_value y42; show Kept _ _ _; dsimp -zeta only; refine opTook_kept ?_; assumption; unfold y9; split
  extract_lets +onlyGivenNames y43; refine Kept.cut (p := Kept b s0 y43) ?_ fun _ => ?_; unfold y43
  refine saturate_kept ?_; refine Kept.fst (by assumption) ?_; refine sfuTables_kept ?_; assumption; clear_value y43
  extract_lets +onlyGivenNames y44; refine Kept.cut (p := Kept b s0 y44) ?_ fun _ => ?_; unfold y44
  refine bump_kept ?_; assumption; clear_value y44; extract_lets +onlyGivenNames y45
  refine Kept.cut (p := Kept b s0 y45) ?_ fun _ => ?_; unfold y45; refine Kept.cond (fun _ => ?_) fun _ => ?_
  assumption; refine Kept.cond (fun _ => ?_) fun _ => ?_; refine bump_kept ?_; assumption; refine bump_kept ?_
  assumption; clear_value y45; show Kept _ _ _; dsimp -zeta only; refine opTook_kept ?_; assumption; show Kept _ _ _
  apply withRead_kept; intro _; intro _; intro _; show KeptAt Prod.fst _ _ _; extract_lets +onlyGivenNames y46
  dsimp -zeta only; refine KeptAt.cond (fun _ => ?_) fun _ => ?_; extract_lets +onlyGivenNames y47 y48; unfold y9
  split; extract_lets +onlyGivenNames y49; refine Kept.cut (p := Kept b s0 y49) ?_ fun _ => ?_; unfold y49
  refine saturate_kept ?_; assumption; clear_value y49; extract_lets +onlyGivenNames y50
  refine Kept.cut (p := Kept b s0 y50) ?_ fun _ => ?_; unfold y50; refine bump_kept ?_; assumption; clear_value y50
  extract_lets +onlyGivenNames y51; refine Kept.cut (p := Kept b s0 y51) ?_ fun _ => ?_; unfold y51
  refine Kept.cond (fun _ => ?_) fun _ => ?_; assumption; refine Kept.cond (fun _ => ?_) fun _ => ?_
  refine bump_kept ?_; assumption; refine bump_kept ?_; assumption; clear_value y51; show Kept _ _ _; dsimp -zeta only
  refine opTook_kept ?_; assumption; unfold y9; split; extract_lets +onlyGivenNames y52
  refine Kept.cut (p := Kept b s0 y52) ?_ fun _ => ?_; unfold y52; refine saturate_kept ?_; assumption
  clear_value y52; extract_lets +onlyGivenNames y53; refine Kept.cut (p := Kept b s0 y53) ?_ fun _ => ?_; unfold y53
  refine bump_kept ?_; assumption; clear_value y53; extract_lets +onlyGivenNames y54
  refine Kept.cut (p := Kept b s0 y54) ?_ fun _ => ?_; unfold y54; refine Kept.cond (fun _ => ?_) fun _ => ?_
  assumption; refine Kept.cond (fun _ => ?_) fun _ => ?_; refine bump_kept ?_; assumption; refine bump_kept ?_
  assumption; clear_value y54; show Kept _ _ _; dsimp -zeta only; refine opTook_kept ?_; assumption
  refine Kept.fst (by assumption) ?_; refine sfuTables_kept ?_; assumption

theorem withNormGrad_kept {x1 x2 x3 x4 x5 x6 x7 x8 x9 k} (hf : ∀ s x y z, Kept b s0 s → Kept b s0 (k s x y z).1)
    (h : Kept b s0 s) : Kept b s0 (withNormGrad s x1 x2 x3 x4 x5 x6 x7 x8 x9 k).1 := by
  unfold withNormGrad
  refine withRead_kept (fun _ _ h => withRead_kept (fun _ _ h => ?_) h) h
  exact KeptAt.cond (p := Prod.fst) (fun _ => hf _ _ _ _ h) fun _ => withRead_kept (fun _ _ h => hf _ _ _ _ h) h

theorem runRowStats_kept (h : Kept b s0 s) : Kept b s0 (runRowStats s x1 x2 x3 x4 x5 x6 x7).1 := by
  show KeptAt Prod.fst _ _ _
  unfold runRowStats
  extract_lets +onlyGivenNames y1 y2 y3 y4 y5; refine KeptAt.cond (fun _ => ?_) fun _ => ?_
  extract_lets +onlyGivenNames y6 y7; split; show Kept _ _ _; apply withNormGrad_kept; intro _; intro _; intro _
  intro _; intro _; split; unfold y5; show KeptAt Prod.fst _ _ _; extract_lets +onlyGivenNames y8 y9 y10
  refine Kept.cut (p := Kept b s0 y10) ?_ fun _ => ?_; unfold y10; refine updLesson_kept ?_; refine opTook_kept ?_
  assumption; clear_value y10; refine KeptAt.cond (fun _ => ?_) fun _ => ?_; show Kept _ _ _; dsimp -zeta only
  assumption; extract_lets +onlyGivenNames y11 y12; refine Kept.cut (p := Kept b s0 y12) ?_ fun _ => ?_; unfold y12
  refine updLesson_kept ?_; assumption; clear_value y12; show Kept _ _ _; apply withWrite_kept; intro _; intro _
  dsimp -zeta only; assumption; assumption; refine Kept.fst (by assumption) ?_; refine sfuTables_kept ?_; assumption
  unfold y5; extract_lets +onlyGivenNames y13 y14 y15; refine Kept.cut (p := Kept b s0 y15) ?_ fun _ => ?_; unfold y15
  refine updLesson_kept ?_; assumption; clear_value y15; refine KeptAt.cond (fun _ => ?_) fun _ => ?_; show Kept _ _ _
  dsimp -zeta only; assumption; extract_lets +onlyGivenNames y16 y17
  refine Kept.cut (p := Kept b s0 y17) ?_ fun _ => ?_; unfold y17; refine updLesson_kept ?_; assumption
  clear_value y17; show Kept _ _ _; apply withWrite_kept; intro _; intro _; dsimp -zeta only; assumption; assumption

theorem runNormalise_kept (h : Kept b s0 s) : Kept b s0 (runNormalise s x1 x2 x3 x4 x5 x6 x7).1 := by
  show KeptAt Prod.fst _ _ _
  unfold runNormalise
  extract_lets +onlyGivenNames y1 y2 y3 y4 y5 y6 y7 y8 y9; split; extract_lets +onlyGivenNames y10 y11
  show Kept _ _ _; apply withRead_kept; intro _; intro _; intro _; show KeptAt Prod.fst _ _ _
  extract_lets +onlyGivenNames y12; refine KeptAt.cond (fun _ => ?_) fun _ => ?_; show Kept _ _ _
  apply withNormGrad_kept; intro _; intro _; intro _; intro _; intro _; split; show KeptAt Prod.fst _ _ _
  extract_lets +onlyGivenNames y13; unfold y11; show Kept _ _ _; dsimp -zeta only; refine bump_kept ?_
  refine opTook_kept ?_; assumption; assumption; extract_lets +onlyGivenNames y14 y15 y16 y17 y18 y19; unfold y19
  refine KeptAt.cond (fun _ => ?_) fun _ => ?_; dsimp -zeta only; refine KeptAt.cond (fun _ => ?_) fun _ => ?_
  unfold y11; show Kept _ _ _; dsimp -zeta only; refine bump_kept ?_; refine opTook_kept ?_; assumption
  show Kept _ _ _; apply withRead_kept; intro _; intro _; intro _; unfold y11; dsimp -zeta only; refine bump_kept ?_
  refine opTook_kept ?_; assumption; assumption; show Kept _ _ _; apply withRead_kept; intro _; intro _; intro _
  dsimp -zeta only; show KeptAt Prod.fst _ _ _; refine KeptAt.cond (fun _ => ?_) fun _ => ?_; unfold y11
  show Kept _ _ _; dsimp -zeta only; refine bump_kept ?_; refine opTook_kept ?_; assumption; show Kept _ _ _
  apply withRead_kept; intro _; intro _; intro _; unfold y11; dsimp -zeta only; refine bump_kept ?_
  refine opTook_kept ?_; assumption; assumption; assumption; refine Kept.fst (by assumption) ?_
  refine sfuTables_kept ?_; assumption

theorem runQuantise_kept (h : Kept b s0 s) : Kept b s0 (runQuantise s x1 x2 x3 x4 x5 x6 x7).1 := by
  show KeptAt Prod.fst _ _ _
  unfold runQuantise
  extract_lets +onlyGivenNames y1 y2 y3 y4 y5 y6 y7 y8 y9 y10 y11 y12 y13
  refine Kept.cut (p := Kept b s0 y13) ?_ fun _ => ?_; unfold y13; refine saturate_kept ?_; assumption
  clear_value y13; extract_lets +onlyGivenNames y14 y15 y16; unfold y16; refine KeptAt.cond (fun _ => ?_) fun _ => ?_
  dsimp -zeta only; refine KeptAt.cond (fun _ => ?_) fun _ => ?_; show Kept _ _ _; dsimp -zeta only; assumption
  extract_lets +onlyGivenNames y17 y18 y19; refine Kept.foldK (fun _ _ _ _ _ => ?_) ?_ ?_; apply withWrite_kept
  assumption; assumption; intro _; intro _; dsimp -zeta only; assumption; assumption
  refine Kept.foldK (fun _ _ _ _ _ => ?_) ?_ ?_; apply withWrite_kept; assumption; assumption; intro _; intro _
  show KeptAt Prod.fst _ _ _; refine KeptAt.cond (fun _ => ?_) fun _ => ?_; show Kept _ _ _; dsimp -zeta only
  assumption; extract_lets +onlyGivenNames y20 y21 y22; refine Kept.foldK (fun _ _ _ _ _ => ?_) ?_ ?_
  apply withWrite_kept; assumption; assumption; intro _; intro _; dsimp -zeta only; assumption; assumption; assumption

theorem rotateRows_kept (h : Kept b s0 s) : Kept b s0 (rotateRows s x1 x2 x3 x4 x5).1 := by
  show KeptAt Prod.fst _ _ _
  unfold rotateRows
  extract_lets +onlyGivenNames y1 y2; split; show Kept _ _ _; dsimp -zeta only; refine Kept.fst (by assumption) ?_
  refine rotaryParams_kept ?_; assumption; extract_lets +onlyGivenNames y3; show Kept _ _ _; dsimp -zeta only
  refine Kept.fst (by assumption) ?_; refine rotaryParams_kept ?_; assumption

theorem runRotary_kept (h : Kept b s0 s) : Kept b s0 (runRotary s x1 x2 x3 x4 x5 x6 x7).1 := by
  show KeptAt Prod.fst _ _ _
  unfold runRotary
  split; show Kept _ _ _; refine stageFault_kept ?_; refine Kept.fst (by assumption) ?_; refine rotateRows_kept ?_
  assumption; show Kept _ _ _; dsimp -zeta only; refine Kept.fst (by assumption) ?_; refine rotateRows_kept ?_
  assumption

theorem rotaryHold_kept (h : Kept b s0 s) : Kept b s0 (rotaryHold s x1 x2 x3 x4 x5 x6).1 := by
  show KeptAt Prod.fst _ _ _
  unfold rotaryHold
  extract_lets +onlyGivenNames y1 y2 y3; refine KeptAt.cond (fun _ => ?_) fun _ => ?_; show Kept _ _ _
  dsimp -zeta only; refine updLesson_kept ?_; assumption; extract_lets +onlyGivenNames y4
  refine Kept.cut (p := Kept b s0 y4) ?_ fun _ => ?_; unfold y4; refine updLesson_kept ?_; assumption; clear_value y4
  extract_lets +onlyGivenNames y5 y6; split; show Kept _ _ _; dsimp -zeta only; refine lessonFault_kept ?_
  refine Kept.fst (by assumption) ?_; refine rotateRows_kept ?_; assumption; show Kept _ _ _; dsimp -zeta only
  refine Kept.fst (by assumption) ?_; refine rotateRows_kept ?_; assumption

theorem setFlag_kept (h : Kept b s0 s) : Kept b s0 (setFlag s x1 x2 x3 x4 x5) := by
  unfold setFlag
  refine updCore_kept ?_; assumption

theorem takeQueue_kept (h : Kept b s0 s) : Kept b s0 (takeQueue s x1 x2 x3 x4).1 := by
  show KeptAt Prod.fst _ _ _
  unfold takeQueue
  split; show Kept _ _ _; dsimp -zeta only; assumption; extract_lets +onlyGivenNames y1 y2
  refine Kept.cut (p := Kept b s0 y2) ?_ fun _ => ?_; unfold y2; refine updLesson_kept ?_; assumption; clear_value y2
  show Kept _ _ _; dsimp -zeta only; refine Kept.cond (fun _ => ?_) fun _ => ?_; refine setFlag_kept ?_; assumption
  assumption

theorem runStage_kept (h : Kept b s0 s) : Kept b s0 (runStage s x1 x2 x3 x4 x5).1 := by
  show KeptAt Prod.fst _ _ _
  unfold runStage
  split; show Kept _ _ _; dsimp -zeta only; assumption; extract_lets +onlyGivenNames y1 y2
  refine KeptAt.cond (fun _ => ?_) fun _ => ?_; show Kept _ _ _; refine stageFault_kept ?_; assumption; split
  show Kept _ _ _; dsimp -zeta only; assumption; refine KeptAt.cond (fun _ => ?_) fun _ => ?_; show Kept _ _ _
  dsimp -zeta only; assumption; extract_lets +onlyGivenNames y3 y4 y5 y6
  refine Kept.cut (p := Kept b s0 y6) ?_ fun _ => ?_; unfold y6; refine formatErrors_kept ?_; assumption
  clear_value y6; extract_lets +onlyGivenNames y7 y8; show Kept _ _ _; dsimp -zeta only; assumption; show Kept _ _ _
  dsimp -zeta only; assumption; show Kept _ _ _; refine runRotary_kept ?_; assumption
  refine KeptAt.cond (fun _ => ?_) fun _ => ?_; show Kept _ _ _; apply withRead_kept; intro _; intro _; intro _
  show KeptAt Prod.fst _ _ _; extract_lets +onlyGivenNames y9; show Kept _ _ _; dsimp -zeta only; assumption
  assumption; extract_lets +onlyGivenNames y10; show Kept _ _ _; apply withRead_kept; intro _; intro _; intro _
  show KeptAt Prod.fst _ _ _; extract_lets +onlyGivenNames y11; show Kept _ _ _; dsimp -zeta only; assumption
  assumption; show Kept _ _ _; refine runActivation_kept ?_; assumption; refine KeptAt.cond (fun _ => ?_) fun _ => ?_
  show Kept _ _ _; dsimp -zeta only; assumption; show Kept _ _ _; dsimp -zeta only; assumption
  extract_lets +onlyGivenNames y12 y13; split; extract_lets +onlyGivenNames y14 y15
  refine Kept.cut (p := Kept b s0 y15) ?_ fun _ => ?_; unfold y15; refine formatErrors_kept ?_
  refine Kept.fst (by assumption) ?_; refine takeQueue_kept ?_; assumption; clear_value y15
  extract_lets +onlyGivenNames y16 y17; show Kept _ _ _; dsimp -zeta only; assumption
  refine KeptAt.cond (fun _ => ?_) fun _ => ?_; extract_lets +onlyGivenNames y18 y19 y20
  refine Kept.foldK (fun _ _ _ _ _ => ?_) ?_ ?_; apply withWrite_kept; assumption; assumption; intro _; intro _
  dsimp -zeta only; assumption; assumption; show Kept _ _ _; refine runNormalise_kept ?_; assumption; show Kept _ _ _
  refine runRowStats_kept ?_; assumption; show Kept _ _ _; refine runQuantise_kept ?_; assumption; show Kept _ _ _
  dsimp -zeta only; refine setFlag_kept ?_; refine updLesson_kept ?_; assumption; show Kept _ _ _; dsimp -zeta only
  refine setFlag_kept ?_; refine updLesson_kept ?_; assumption; show Kept _ _ _; dsimp -zeta only; assumption

theorem runFrom_kept (h : Kept b s0 s) : Kept b s0 (runFrom s x1 x2 x3 x4 x5) := by
  unfold runFrom
  split; assumption; extract_lets +onlyGivenNames y1 y2; show KeptAt Prod.fst _ _ _
  refine KeptAt.fold (fun _ _ _ => ?_) ?_; refine KeptAt.fold (fun _ _ _ => ?_) ?_; split
  refine KeptAt.cond (fun _ => ?_) fun _ => ?_; extract_lets +onlyGivenNames y3
  refine Kept.cut (p := Kept b s0 y3.1) ?_ fun _ => ?_; unfold y3; refine rotaryHold_kept ?_; assumption
  clear_value y3; show Kept _ _ _; dsimp -zeta only; assumption; extract_lets +onlyGivenNames y4
  refine Kept.cut (p := Kept b s0 y4.1) ?_ fun _ => ?_; unfold y4; refine runStage_kept ?_; assumption; clear_value y4
  show Kept _ _ _; dsimp -zeta only; assumption; extract_lets +onlyGivenNames y5
  refine Kept.cut (p := Kept b s0 y5.1) ?_ fun _ => ?_; unfold y5; refine runStage_kept ?_; assumption; clear_value y5
  show Kept _ _ _; dsimp -zeta only; assumption; show Kept _ _ _; dsimp -zeta only; assumption; show Kept _ _ _
  dsimp -zeta only; assumption

theorem operandRows_kept (h : Kept b s0 s) : Kept b s0 (operandRows s x1 x2 x3 x4 x5 x6 x7 x8 x9 x10 x11).1 := by
  show KeptAt Prod.fst _ _ _
  unfold operandRows
  extract_lets +onlyGivenNames y1 y2; split; show Kept _ _ _; dsimp -zeta only; refine Kept.fst (by assumption) ?_
  show KeptAt Prod.fst _ _ _; refine KeptAt.fold (fun _ _ _ => ?_) ?_; unfold y2; split; assumption; split
  show Kept _ _ _; dsimp -zeta only; refine Kept.fst (by assumption) ?_; unfold y1; split; dsimp -zeta only
  assumption; split; dsimp -zeta only; refine Kept.fst (by assumption) ?_; refine rdSp_kept ?_; assumption
  dsimp -zeta only; refine Kept.fst (by assumption) ?_; refine rdSp_kept ?_; assumption
  extract_lets +onlyGivenNames y3 y4; split; show Kept _ _ _; dsimp -zeta only; refine Kept.fst (by assumption) ?_
  unfold y1; split; dsimp -zeta only; assumption; split; dsimp -zeta only; refine Kept.fst (by assumption) ?_
  refine rdSp_kept ?_; assumption; dsimp -zeta only; refine Kept.fst (by assumption) ?_; refine rdSp_kept ?_
  assumption; split; show Kept _ _ _; dsimp -zeta only; refine Kept.fst (by assumption) ?_; unfold y1; split
  dsimp -zeta only; assumption; split; dsimp -zeta only; refine Kept.fst (by assumption) ?_; refine rdSp_kept ?_
  assumption; dsimp -zeta only; refine Kept.fst (by assumption) ?_; refine rdSp_kept ?_; assumption; show Kept _ _ _
  dsimp -zeta only; assumption; show Kept _ _ _; dsimp -zeta only; refine saturate_kept ?_
  refine formatErrors_kept ?_; refine Kept.fst (by assumption) ?_; show KeptAt Prod.fst _ _ _
  refine KeptAt.fold (fun _ _ _ => ?_) ?_; unfold y2; split; assumption; split; show Kept _ _ _; dsimp -zeta only
  refine Kept.fst (by assumption) ?_; unfold y1; split; dsimp -zeta only; assumption; split; dsimp -zeta only
  refine Kept.fst (by assumption) ?_; refine rdSp_kept ?_; assumption; dsimp -zeta only
  refine Kept.fst (by assumption) ?_; refine rdSp_kept ?_; assumption; extract_lets +onlyGivenNames y5 y6; split
  show Kept _ _ _; dsimp -zeta only; refine Kept.fst (by assumption) ?_; unfold y1; split; dsimp -zeta only
  assumption; split; dsimp -zeta only; refine Kept.fst (by assumption) ?_; refine rdSp_kept ?_; assumption
  dsimp -zeta only; refine Kept.fst (by assumption) ?_; refine rdSp_kept ?_; assumption; split; show Kept _ _ _
  dsimp -zeta only; refine Kept.fst (by assumption) ?_; unfold y1; split; dsimp -zeta only; assumption; split
  dsimp -zeta only; refine Kept.fst (by assumption) ?_; refine rdSp_kept ?_; assumption; dsimp -zeta only
  refine Kept.fst (by assumption) ?_; refine rdSp_kept ?_; assumption; show Kept _ _ _; dsimp -zeta only; assumption

theorem takeOperand_kept (h : Kept b s0 s) : Kept b s0 (takeOperand s x1 x2 x3 x4 x5 x6).1 := by
  show KeptAt Prod.fst _ _ _
  unfold takeOperand
  split; show Kept _ _ _; dsimp -zeta only; assumption; extract_lets +onlyGivenNames y1 y2; split
  extract_lets +onlyGivenNames y3 y4 y5 y6 y7 y8 y9; split; extract_lets +onlyGivenNames y10 y11 y12; split; unfold y7
  split; show Kept _ _ _; dsimp -zeta only; refine lessonFault_kept ?_; refine Kept.fst (by assumption) ?_
  refine operandRows_kept ?_; refine Kept.fst (by assumption) ?_; refine takeQueue_kept ?_; assumption
  show Kept _ _ _; dsimp -zeta only; refine Kept.fst (by assumption) ?_; refine operandRows_kept ?_
  refine Kept.fst (by assumption) ?_; refine takeQueue_kept ?_; assumption; split; show Kept _ _ _; dsimp -zeta only
  refine lessonFault_kept ?_; assumption; extract_lets +onlyGivenNames y13 y14 y15 y16; split; show Kept _ _ _
  dsimp -zeta only; refine lessonFault_kept ?_; refine Kept.fst (by assumption) ?_; show KeptAt Prod.fst _ _ _
  refine KeptAt.fold (fun _ _ _ => ?_) ?_; split; assumption; split; show Kept _ _ _; dsimp -zeta only
  refine Kept.fst (by assumption) ?_; refine rdSp_kept ?_; assumption; show Kept _ _ _; dsimp -zeta only
  refine Kept.fst (by assumption) ?_; refine rdSp_kept ?_; assumption; show Kept _ _ _; dsimp -zeta only; assumption
  unfold y7; split; show Kept _ _ _; dsimp -zeta only; refine lessonFault_kept ?_; refine Kept.fst (by assumption) ?_
  refine operandRows_kept ?_; refine Kept.fst (by assumption) ?_; show KeptAt Prod.fst _ _ _
  refine KeptAt.fold (fun _ _ _ => ?_) ?_; split; assumption; split; show Kept _ _ _; dsimp -zeta only
  refine Kept.fst (by assumption) ?_; refine rdSp_kept ?_; assumption; show Kept _ _ _; dsimp -zeta only
  refine Kept.fst (by assumption) ?_; refine rdSp_kept ?_; assumption; show Kept _ _ _; dsimp -zeta only; assumption
  show Kept _ _ _; dsimp -zeta only; refine Kept.fst (by assumption) ?_; refine operandRows_kept ?_
  refine Kept.fst (by assumption) ?_; show KeptAt Prod.fst _ _ _; refine KeptAt.fold (fun _ _ _ => ?_) ?_; split
  assumption; split; show Kept _ _ _; dsimp -zeta only; refine Kept.fst (by assumption) ?_; refine rdSp_kept ?_
  assumption; show Kept _ _ _; dsimp -zeta only; refine Kept.fst (by assumption) ?_; refine rdSp_kept ?_; assumption
  show Kept _ _ _; dsimp -zeta only; assumption; extract_lets +onlyGivenNames y17 y18 y19 y20 y21 y22; split
  show Kept _ _ _; dsimp -zeta only; refine lessonFault_kept ?_; refine Kept.fst (by assumption) ?_
  refine rdSp_kept ?_; assumption; extract_lets +onlyGivenNames y23; unfold y7; split; show Kept _ _ _
  dsimp -zeta only; refine lessonFault_kept ?_; refine Kept.fst (by assumption) ?_; refine operandRows_kept ?_
  refine Kept.fst (by assumption) ?_; refine rdSp_kept ?_; assumption; show Kept _ _ _; dsimp -zeta only
  refine Kept.fst (by assumption) ?_; refine operandRows_kept ?_; refine Kept.fst (by assumption) ?_
  refine rdSp_kept ?_; assumption; show Kept _ _ _; dsimp -zeta only; assumption

theorem preloadOf_kept (h : Kept b s0 s) : Kept b s0 (preloadOf s x1 x2 x3 x4 x5).1 := by
  show KeptAt Prod.fst _ _ _
  unfold preloadOf
  extract_lets +onlyGivenNames y1 y2 y3; refine KeptAt.cond (fun _ => ?_) fun _ => ?_; show Kept _ _ _
  dsimp -zeta only; assumption; refine KeptAt.cond (fun _ => ?_) fun _ => ?_; split; show Kept _ _ _; dsimp -zeta only
  refine Kept.fst (by assumption) ?_; refine rdSp_kept ?_; assumption; extract_lets +onlyGivenNames y4
  show Kept _ _ _; dsimp -zeta only; refine Kept.fst (by assumption) ?_; refine rdSp_kept ?_; assumption; split
  show Kept _ _ _; dsimp -zeta only; refine Kept.fst (by assumption) ?_; refine rdSp_kept ?_; assumption
  show Kept _ _ _; dsimp -zeta only; refine Kept.fst (by assumption) ?_; refine rdSp_kept ?_; assumption

end Sys2Proof.Machine
end

