-- ==== Sys2Proof/Laws/KeptWalks.lean ====
section
/-!
SUPPORT. What each operation of Machine/Walks.lean keeps (`Kept`).
-/

namespace Sys2Proof.Machine

open Sys2Proof

variable {b : Bool} {s0 s t : State}

theorem tcInsert_kept (h : Kept b s0 s) : Kept b s0 (tcInsert s x1 x2) := by
  unfold tcInsert
  refine updCore_kept ?_; assumption

theorem translate_kept (h : Kept b s0 s) : Kept b s0 (translate s x1 x2 x3 x4 x5).1 := by
  show KeptAt Prod.fst _ _ _
  unfold translate
  extract_lets +onlyGivenNames y1; refine KeptAt.cond (fun _ => ?_) fun _ => ?_; show Kept _ _ _; dsimp -zeta only
  assumption; split; show Kept _ _ _; dsimp -zeta only; assumption; extract_lets +onlyGivenNames y2 y3
  refine KeptAt.cond (fun _ => ?_) fun _ => ?_; refine KeptAt.cond (fun _ => ?_) fun _ => ?_; show Kept _ _ _
  dsimp -zeta only; assumption; split; show Kept _ _ _; dsimp -zeta only; refine forwardAssists_kept ?_
  refine Kept.snd (by assumption) ?_; refine raiseAssist_kept ?_; assumption; show Kept _ _ _; dsimp -zeta only
  refine Kept.snd (by assumption) ?_; refine raiseAssist_kept ?_; assumption; split
  refine KeptAt.cond (fun _ => ?_) fun _ => ?_; show Kept _ _ _; dsimp -zeta only; assumption; show Kept _ _ _
  dsimp -zeta only; refine tcInsert_kept ?_; assumption; show Kept _ _ _; dsimp -zeta only; assumption

theorem fetchPage_kept (h : Kept b s0 s) : Kept b s0 (fetchPage s x1 x2 x3 x4).1 := by
  show KeptAt Prod.fst _ _ _
  unfold fetchPage
  split; extract_lets +onlyGivenNames y1; refine KeptAt.cond (fun _ => ?_) fun _ => ?_; show Kept _ _ _
  refine fetchGlobal_kept ?_; assumption; split; show Kept _ _ _; dsimp -zeta only; refine Kept.fst (by assumption) ?_
  refine commonsRead_kept ?_; assumption; show Kept _ _ _; refine fetchGlobal_kept ?_; assumption

theorem pageRow_kept (h : Kept b s0 s) : Kept b s0 (pageRow s x1 x2 x3 x4 x5 x6 x7 x8 x9 x10).1 := by
  show KeptAt Prod.fst _ _ _
  unfold pageRow
  extract_lets +onlyGivenNames y1; split; extract_lets +onlyGivenNames y2 y3
  refine Kept.cut (p := Kept b s0 y3) ?_ fun _ => ?_; unfold y3; refine Kept.cond (fun _ => ?_) fun _ => ?_
  refine noteLines_kept ?_; refine Kept.fst (by assumption) ?_; refine fetchPage_kept ?_; assumption
  refine Kept.fst (by assumption) ?_; refine fetchPage_kept ?_; assumption; clear_value y3
  refine KeptAt.cond (fun _ => ?_) fun _ => ?_; show Kept _ _ _; dsimp -zeta only; assumption
  extract_lets +onlyGivenNames y4; split; extract_lets +onlyGivenNames y5; show Kept _ _ _; dsimp -zeta only
  refine Kept.cond (fun _ => ?_) fun _ => ?_; refine noteLines_kept ?_; refine Kept.fst (by assumption) ?_
  refine fetchPage_kept ?_; assumption; refine Kept.fst (by assumption) ?_; refine fetchPage_kept ?_; assumption

theorem pageSlots_kept (h : Kept b s0 s) : Kept b s0 (pageSlots s x1 x2 x3 x4 x5 x6 x7 x8 x9).1 := by
  show KeptAt Prod.fst _ _ _
  unfold pageSlots
  refine KeptAt.fold (fun _ _ _ => ?_) ?_; refine KeptAt.cond (fun _ => ?_) fun _ => ?_; assumption; split
  show Kept _ _ _; dsimp -zeta only; refine Kept.fst (by assumption) ?_; refine pageRow_kept ?_; assumption
  show Kept _ _ _; dsimp -zeta only; assumption

theorem pageMeta_kept (h : Kept b s0 s) : Kept b s0 (pageMeta s x1 x2 x3 x4).1 := by
  show KeptAt Prod.fst _ _ _
  unfold pageMeta
  split; extract_lets +onlyGivenNames y1; show Kept _ _ _; dsimp -zeta only
  refine Kept.cond (fun _ => ?_) fun _ => ?_; refine noteLines_kept ?_; refine Kept.fst (by assumption) ?_
  refine fetchPage_kept ?_; assumption; refine Kept.fst (by assumption) ?_; refine fetchPage_kept ?_; assumption

end Sys2Proof.Machine
end

