-- ==== Sys2Proof/Laws/KeptAttend.lean ====
section
/-!
SUPPORT. What each operation of Machine/Attend.lean keeps (`Kept`).
-/

namespace Sys2Proof.Machine

open Sys2Proof

variable {b : Bool} {s0 s t : State}

theorem attStart_kept (h : Kept b s0 s) : Kept b s0 (attStart s x1 x2 x3).1 := by
  show KeptAt Prod.fst _ _ _
  unfold attStart
  extract_lets +onlyGivenNames y1 y2; split; show Kept _ _ _; dsimp -zeta only; assumption; split
  extract_lets +onlyGivenNames y3; split; extract_lets +onlyGivenNames y4
  refine Kept.cut (p := Kept b s0 y4) ?_ fun _ => ?_; unfold y4; refine Kept.fold (fun _ _ _ => ?_) ?_
  refine Kept.cond (fun _ => ?_) fun _ => ?_; refine walkEnd_kept ?_; assumption; assumption
  refine Kept.fst (by assumption) ?_; show KeptAt Prod.fst _ _ _; refine KeptAt.cond (fun _ => ?_) fun _ => ?_; split
  show Kept _ _ _; dsimp -zeta only; refine Kept.fst (by assumption) ?_; refine rdSp_kept ?_
  refine Kept.fst (by assumption) ?_; show KeptAt Prod.fst _ _ _; refine KeptAt.fold (fun _ _ _ => ?_) ?_; split
  extract_lets +onlyGivenNames y5 y6; refine Kept.cut (p := Kept b s0 y6) ?_ fun _ => ?_; unfold y6
  refine walkBegin_kept ?_; assumption; clear_value y6; split; extract_lets +onlyGivenNames y7
  refine Kept.cut (p := Kept b s0 y7) ?_ fun _ => ?_; unfold y7; refine Kept.cond (fun _ => ?_) fun _ => ?_
  assumption; refine bump_kept ?_; assumption; clear_value y7; show Kept _ _ _; dsimp -zeta only; assumption
  show Kept _ _ _; dsimp -zeta only; assumption; show Kept _ _ _; dsimp -zeta only; refine Kept.fst (by assumption) ?_
  refine rdSp_kept ?_; refine Kept.fst (by assumption) ?_; show KeptAt Prod.fst _ _ _
  refine KeptAt.fold (fun _ _ _ => ?_) ?_; split; extract_lets +onlyGivenNames y8 y9
  refine Kept.cut (p := Kept b s0 y9) ?_ fun _ => ?_; unfold y9; refine walkBegin_kept ?_; assumption; clear_value y9
  split; extract_lets +onlyGivenNames y10; refine Kept.cut (p := Kept b s0 y10) ?_ fun _ => ?_; unfold y10
  refine Kept.cond (fun _ => ?_) fun _ => ?_; assumption; refine bump_kept ?_; assumption; clear_value y10
  show Kept _ _ _; dsimp -zeta only; assumption; show Kept _ _ _; dsimp -zeta only; assumption; show Kept _ _ _
  dsimp -zeta only; refine Kept.fst (by assumption) ?_; show KeptAt Prod.fst _ _ _
  refine KeptAt.fold (fun _ _ _ => ?_) ?_; split; extract_lets +onlyGivenNames y11 y12
  refine Kept.cut (p := Kept b s0 y12) ?_ fun _ => ?_; unfold y12; refine walkBegin_kept ?_; assumption
  clear_value y12; split; extract_lets +onlyGivenNames y13; refine Kept.cut (p := Kept b s0 y13) ?_ fun _ => ?_
  unfold y13; refine Kept.cond (fun _ => ?_) fun _ => ?_; assumption; refine bump_kept ?_; assumption; clear_value y13
  show Kept _ _ _; dsimp -zeta only; assumption; show Kept _ _ _; dsimp -zeta only; assumption; clear_value y4
  show Kept _ _ _; dsimp -zeta only; assumption

theorem rotCfg_kept (h : Kept b s0 s) : Kept b s0 (rotCfg s x1 x2).1 := by
  show KeptAt Prod.fst _ _ _
  unfold rotCfg
  split; show Kept _ _ _; dsimp -zeta only; assumption; split; show Kept _ _ _; dsimp -zeta only
  refine Kept.fst (by assumption) ?_; refine rotaryParams_kept ?_; assumption; show Kept _ _ _; dsimp -zeta only
  refine Kept.fst (by assumption) ?_; refine rotaryParams_kept ?_; assumption

theorem bufferPage_kept (h : Kept b s0 s) : Kept b s0 (bufferPage s x1 x2 x3 x4 x5 x6 x7).1 := by
  unfold bufferPage
  show KeptAt Prod.fst _ _ _
  extract_lets via pa first n
  split
  split
  rename_i s1 _ _ e1
  have h1 : Kept b s0 s1 := Kept.fst e1 (pageMeta_kept h)
  split
  rename_i s2 _ _ _ e2
  have h2 : Kept b s0 s2 := Kept.fst e2 (pageSlots_kept h1)
  split
  rename_i s3 _ _ _ e3
  have h3 : Kept b s0 s3 := Kept.fst e3 (pageSlots_kept h2)
  split
  · exact h3
  · extract_lets s4
    have h4 : Kept b s0 s4 := Kept.cond (fun _ => h3) fun _ => countHbm_kept h3
    clear_value s4
    split
    · exact h4
    · rename_i s5 e5
      have h5 : Kept b s0 s5 := KeptO.useS (wrSp_kept h4) e5
      split
      · exact h5
      · rename_i s6 e6
        have h6 : Kept b s0 s6 := KeptO.useS (wrSp_kept h5) e6
        split
        · exact h6
        · rename_i s7 e7
          exact KeptO.useS (wrSp_kept h6) e7

theorem rdPieces_kept (h : Kept b s0 s) : Kept b s0 (rdPieces s x1 x2 x3 x4 x5).1 := by
  show KeptAt Prod.fst _ _ _
  unfold rdPieces
  refine KeptAt.fold (fun _ _ _ => ?_) ?_; split; assumption; split; show Kept _ _ _; dsimp -zeta only
  refine Kept.fst (by assumption) ?_; refine rdSp_kept ?_; assumption; show Kept _ _ _; dsimp -zeta only
  refine Kept.fst (by assumption) ?_; refine rdSp_kept ?_; assumption; show Kept _ _ _; dsimp -zeta only; assumption

theorem placeRows_kept (h : Kept b s0 s) : Kept b s0 (placeRows s x1 x2 x3 x4 x5 x6).1 := by
  show KeptAt Prod.fst _ _ _
  unfold placeRows
  extract_lets +onlyGivenNames y1 y2; split; show Kept _ _ _; dsimp -zeta only; refine Kept.fst (by assumption) ?_
  refine rdPieces_kept ?_; assumption; refine KeptAt.cond (fun _ => ?_) fun _ => ?_; show Kept _ _ _; dsimp -zeta only
  refine Kept.fst (by assumption) ?_; refine rdPieces_kept ?_; assumption; split; show Kept _ _ _; dsimp -zeta only
  refine Kept.fst (by assumption) ?_; refine rdPieces_kept ?_; refine Kept.fst (by assumption) ?_
  refine rdPieces_kept ?_; assumption; show Kept _ _ _; dsimp -zeta only; refine Kept.fst (by assumption) ?_
  refine rdPieces_kept ?_; refine Kept.fst (by assumption) ?_; refine rdPieces_kept ?_; assumption

theorem pageOps_kept (h : Kept b s0 s) : Kept b s0 (pageOps s x1 x2 x3 x4 x5 x6 x7 x8 x9).1 := by
  show KeptAt Prod.fst _ _ _
  unfold pageOps
  split; show Kept _ _ _; dsimp -zeta only; refine Kept.fst (by assumption) ?_; refine translate_kept ?_; assumption
  show Kept _ _ _; dsimp -zeta only; refine Kept.fst (by assumption) ?_; refine translate_kept ?_; assumption
  extract_lets +onlyGivenNames y1 y2; split; refine KeptAt.cond (fun _ => ?_) fun _ => ?_; show Kept _ _ _
  dsimp -zeta only; refine Kept.fst (by assumption) ?_; refine fetchGlobal_kept ?_; refine Kept.fst (by assumption) ?_
  refine translate_kept ?_; assumption; split; split; split; show Kept _ _ _; dsimp -zeta only
  refine Kept.fst (by assumption) ?_; refine rdSp_kept ?_; refine Kept.fst (by assumption) ?_
  show KeptAt Prod.fst _ _ _; refine KeptAt.cond (fun _ => ?_) fun _ => ?_; show Kept _ _ _; refine bufferPage_kept ?_
  refine Kept.fst (by assumption) ?_; refine fetchGlobal_kept ?_; refine Kept.fst (by assumption) ?_
  refine translate_kept ?_; assumption; show Kept _ _ _; dsimp -zeta only; refine Kept.fst (by assumption) ?_
  refine fetchGlobal_kept ?_; refine Kept.fst (by assumption) ?_; refine translate_kept ?_; assumption; split
  show Kept _ _ _; dsimp -zeta only; refine Kept.fst (by assumption) ?_; refine placeRows_kept ?_
  refine Kept.fst (by assumption) ?_; refine rdSp_kept ?_; refine Kept.fst (by assumption) ?_
  show KeptAt Prod.fst _ _ _; refine KeptAt.cond (fun _ => ?_) fun _ => ?_; show Kept _ _ _; refine bufferPage_kept ?_
  refine Kept.fst (by assumption) ?_; refine fetchGlobal_kept ?_; refine Kept.fst (by assumption) ?_
  refine translate_kept ?_; assumption; show Kept _ _ _; dsimp -zeta only; refine Kept.fst (by assumption) ?_
  refine fetchGlobal_kept ?_; refine Kept.fst (by assumption) ?_; refine translate_kept ?_; assumption; split
  show Kept _ _ _; dsimp -zeta only; refine Kept.fst (by assumption) ?_; refine placeRows_kept ?_
  refine Kept.fst (by assumption) ?_; refine placeRows_kept ?_; refine Kept.fst (by assumption) ?_
  refine rdSp_kept ?_; refine Kept.fst (by assumption) ?_; show KeptAt Prod.fst _ _ _
  refine KeptAt.cond (fun _ => ?_) fun _ => ?_; show Kept _ _ _; refine bufferPage_kept ?_
  refine Kept.fst (by assumption) ?_; refine fetchGlobal_kept ?_; refine Kept.fst (by assumption) ?_
  refine translate_kept ?_; assumption; show Kept _ _ _; dsimp -zeta only; refine Kept.fst (by assumption) ?_
  refine fetchGlobal_kept ?_; refine Kept.fst (by assumption) ?_; refine translate_kept ?_; assumption
  extract_lets +onlyGivenNames y3 y4 y5 y6 y7 y8 y9 y10 y11 y12 y13; show Kept _ _ _; dsimp -zeta only
  refine Kept.fst (by assumption) ?_; refine placeRows_kept ?_; refine Kept.fst (by assumption) ?_
  refine placeRows_kept ?_; refine Kept.fst (by assumption) ?_; refine rdSp_kept ?_
  refine Kept.fst (by assumption) ?_; show KeptAt Prod.fst _ _ _; refine KeptAt.cond (fun _ => ?_) fun _ => ?_
  show Kept _ _ _; refine bufferPage_kept ?_; refine Kept.fst (by assumption) ?_; refine fetchGlobal_kept ?_
  refine Kept.fst (by assumption) ?_; refine translate_kept ?_; assumption; show Kept _ _ _; dsimp -zeta only
  refine Kept.fst (by assumption) ?_; refine fetchGlobal_kept ?_; refine Kept.fst (by assumption) ?_
  refine translate_kept ?_; assumption; show Kept _ _ _; dsimp -zeta only; refine Kept.fst (by assumption) ?_
  show KeptAt Prod.fst _ _ _; refine KeptAt.cond (fun _ => ?_) fun _ => ?_; show Kept _ _ _; refine bufferPage_kept ?_
  refine Kept.fst (by assumption) ?_; refine fetchGlobal_kept ?_; refine Kept.fst (by assumption) ?_
  refine translate_kept ?_; assumption; show Kept _ _ _; dsimp -zeta only; refine Kept.fst (by assumption) ?_
  refine fetchGlobal_kept ?_; refine Kept.fst (by assumption) ?_; refine translate_kept ?_; assumption

theorem takeQ_kept (h : Kept b s0 s) : Kept b s0 (takeQ s x1 x2 x3 x4 x5 x6).1 := by
  show KeptAt Prod.fst _ _ _
  unfold takeQ
  extract_lets +onlyGivenNames y1 y2 y3; split; extract_lets +onlyGivenNames y4 y5 y6; split; show Kept _ _ _
  dsimp -zeta only; refine Kept.fst (by assumption) ?_; refine operandRows_kept ?_; refine Kept.fst (by assumption) ?_
  refine takeQueue_kept ?_; assumption; show Kept _ _ _; dsimp -zeta only; refine Kept.fst (by assumption) ?_
  refine operandRows_kept ?_; refine Kept.fst (by assumption) ?_; refine takeQueue_kept ?_; assumption

theorem applyMass_kept (h : Kept b s0 s) : Kept b s0 (applyMass s x1 x2 x3 x4 x5) := by
  unfold applyMass
  refine Kept.cond (fun _ => ?_) fun _ => ?_; assumption; extract_lets +onlyGivenNames y1; split
  refine Kept.cond (fun _ => ?_) fun _ => ?_; refine bump_kept ?_; refine Kept.fst (by assumption) ?_
  show KeptAt Prod.fst _ _ _; refine KeptAt.fold (fun _ _ _ => ?_) ?_; split; split; extract_lets +onlyGivenNames y2
  refine KeptAt.cond (fun _ => ?_) fun _ => ?_; show Kept _ _ _; dsimp -zeta only; assumption
  refine KeptAt.cond (fun _ => ?_) fun _ => ?_; show Kept _ _ _; dsimp -zeta only; refine bump_kept ?_; assumption
  extract_lets +onlyGivenNames y3; refine KeptAt.cond (fun _ => ?_) fun _ => ?_; show Kept _ _ _; dsimp -zeta only
  assumption; show Kept _ _ _; dsimp -zeta only; refine write_kept ?_; assumption; show Kept _ _ _; dsimp -zeta only
  assumption; refine Kept.fst (by assumption) ?_; show KeptAt Prod.fst _ _ _; refine KeptAt.fold (fun _ _ _ => ?_) ?_
  split; split; extract_lets +onlyGivenNames y4; refine KeptAt.cond (fun _ => ?_) fun _ => ?_; show Kept _ _ _
  dsimp -zeta only; assumption; refine KeptAt.cond (fun _ => ?_) fun _ => ?_; show Kept _ _ _; dsimp -zeta only
  refine bump_kept ?_; assumption; extract_lets +onlyGivenNames y5; refine KeptAt.cond (fun _ => ?_) fun _ => ?_
  show Kept _ _ _; dsimp -zeta only; assumption; show Kept _ _ _; dsimp -zeta only; refine write_kept ?_; assumption
  show Kept _ _ _; dsimp -zeta only; assumption

theorem reportChecks_kept (h : Kept b s0 s) : Kept b s0 (reportChecks s x1 x2 x3) := by
  unfold reportChecks
  refine Kept.fold (fun _ _ _ => ?_) ?_; refine bump_kept ?_; refine raise_kept ?_; assumption; assumption

theorem checksum_kept (h : Kept b s0 s) : Kept b s0 (checksum s x1 x2 x3 x4 x5).1 := by
  show KeptAt Prod.fst _ _ _
  unfold checksum
  refine KeptAt.cond (fun _ => ?_) fun _ => ?_; show Kept _ _ _; dsimp -zeta only; assumption
  extract_lets +onlyGivenNames y1; show Kept _ _ _; dsimp -zeta only; refine reportChecks_kept ?_; assumption

theorem updAtt_kept (h : Kept b s0 s) : Kept b s0 (updAtt s x1 x2 x3) := by
  unfold updAtt
  refine updLesson_kept ?_; assumption

theorem attAdvance_kept (h : Kept b s0 s) : Kept b s0 (attAdvance s x1 x2 x3) := by
  unfold attAdvance
  split; assumption; extract_lets +onlyGivenNames y1; refine Kept.cut (p := Kept b s0 y1) ?_ fun _ => ?_; unfold y1
  refine updAtt_kept ?_; assumption; clear_value y1; refine Kept.cond (fun _ => ?_) fun _ => ?_; assumption; split
  refine walkEnd_kept ?_; assumption; assumption

theorem attPage_kept (h : Kept b s0 s) : Kept b s0 (attPage s x1 x2 x3 x4 x5 x6 x7 x8 x9 x10 x11) := by
  unfold attPage
  split; assumption
  extract_lets +onlyGivenNames y1 y2 y3 y4 y5 y6 y7 y8 y9 y10 y11 y12 y13 y14 y15 y16 y17 y18 y19 y20
  refine Kept.cut (p := Kept b s0 y20) ?_ fun _ => ?_; unfold y20; refine updAtt_kept ?_; assumption; clear_value y20
  extract_lets +onlyGivenNames y21; refine Kept.cut (p := Kept b s0 y21) ?_ fun _ => ?_; unfold y21
  refine saturate_kept ?_; assumption; clear_value y21; extract_lets +onlyGivenNames y22
  refine Kept.cut (p := Kept b s0 y22) ?_ fun _ => ?_; unfold y22; refine Kept.cond (fun _ => ?_) fun _ => ?_
  assumption; refine bump_kept ?_; assumption; clear_value y22; extract_lets +onlyGivenNames y23
  refine Kept.cut (p := Kept b s0 y23) ?_ fun _ => ?_; unfold y23; refine Kept.cond (fun _ => ?_) fun _ => ?_
  refine bump_kept ?_; assumption; assumption; clear_value y23; refine Kept.cond (fun _ => ?_) fun _ => ?_
  refine applyMass_kept ?_; assumption; assumption

theorem stepOps_kept (h : Kept b s0 s) : Kept b s0 (stepOps s x1 x2 x3 x4 x5 x6 x7 x8).1 := by
  show KeptAt Prod.fst _ _ _
  unfold stepOps
  refine KeptAt.fold (fun _ _ _ => ?_) ?_; refine KeptAt.cond (fun _ => ?_) fun _ => ?_; assumption; split
  show Kept _ _ _; dsimp -zeta only; refine Kept.fst (by assumption) ?_; refine pageOps_kept ?_; assumption
  show Kept _ _ _; dsimp -zeta only; refine Kept.fst (by assumption) ?_; refine pageOps_kept ?_; assumption
  show Kept _ _ _; dsimp -zeta only; assumption

theorem attStep_kept (h : Kept b s0 s) : Kept b s0 (attStep s x1 x2 x3 x4 x5 x6) := by
  unfold attStep
  split; extract_lets +onlyGivenNames y1 y2 y3; refine Kept.cond (fun _ => ?_) fun _ => ?_; assumption; split
  refine lessonFault_kept ?_; refine Kept.fst (by assumption) ?_; refine rotCfg_kept ?_; assumption; split
  refine lessonFaultSeq_kept ?_; refine Kept.fst (by assumption) ?_; refine stepOps_kept ?_
  refine Kept.fst (by assumption) ?_; refine rotCfg_kept ?_; assumption; refine Kept.fst (by assumption) ?_
  refine stepOps_kept ?_; refine Kept.fst (by assumption) ?_; refine rotCfg_kept ?_; assumption; split
  refine lessonFaultSeq_kept ?_; refine Kept.fst (by assumption) ?_; refine stepOps_kept ?_
  refine Kept.fst (by assumption) ?_; refine rotCfg_kept ?_; assumption; split; refine lessonFault_kept ?_
  refine Kept.fst (by assumption) ?_; refine takeQ_kept ?_; refine Kept.fst (by assumption) ?_; refine stepOps_kept ?_
  refine Kept.fst (by assumption) ?_; refine rotCfg_kept ?_; assumption; split; extract_lets +onlyGivenNames y4; split
  extract_lets +onlyGivenNames y5; refine Kept.cond (fun _ => ?_) fun _ => ?_; refine lessonFault_kept ?_
  refine Kept.fst (by assumption) ?_; refine checksum_kept ?_; refine Kept.fst (by assumption) ?_
  refine sfuTables_kept ?_; refine Kept.fst (by assumption) ?_; refine takeQ_kept ?_
  refine Kept.fst (by assumption) ?_; refine stepOps_kept ?_; refine Kept.fst (by assumption) ?_
  refine rotCfg_kept ?_; assumption; extract_lets +onlyGivenNames y6
  refine Kept.cut (p := Kept b s0 y6) ?_ fun _ => ?_; unfold y6; refine Kept.fold (fun _ _ _ => ?_) ?_
  extract_lets +onlyGivenNames y7; refine Kept.cut (p := Kept b s0 y7) ?_ fun _ => ?_; unfold y7
  refine formatErrors_kept ?_; refine saturate_kept ?_; assumption; clear_value y7; refine attPage_kept ?_; assumption
  refine Kept.fst (by assumption) ?_; refine checksum_kept ?_; refine Kept.fst (by assumption) ?_
  refine sfuTables_kept ?_; refine Kept.fst (by assumption) ?_; refine takeQ_kept ?_
  refine Kept.fst (by assumption) ?_; refine stepOps_kept ?_; refine Kept.fst (by assumption) ?_
  refine rotCfg_kept ?_; assumption; clear_value y6; extract_lets +onlyGivenNames y8
  refine Kept.cut (p := Kept b s0 y8) ?_ fun _ => ?_; unfold y8; refine bump_kept ?_; assumption; clear_value y8
  split; refine attAdvance_kept ?_; assumption; assumption; refine attAdvance_kept ?_; assumption

theorem attSelected_kept (h : Kept b s0 s) : Kept b s0 (attSelected s x1 x2 x3 x4 x5) := by
  unfold attSelected
  split; assumption; split; assumption; extract_lets +onlyGivenNames y1 y2
  refine Kept.cut (p := Kept b s0 y2) ?_ fun _ => ?_; unfold y2; refine updAtt_kept ?_; assumption; clear_value y2
  extract_lets +onlyGivenNames y3; refine Kept.cut (p := Kept b s0 y3) ?_ fun _ => ?_; unfold y3
  refine Kept.cond (fun _ => ?_) fun _ => ?_; assumption; refine bump_kept ?_; assumption; clear_value y3
  refine Kept.cond (fun _ => ?_) fun _ => ?_; refine walkEnd_kept ?_; assumption; assumption

theorem attSelect_kept (h : Kept b s0 s) : Kept b s0 (attSelect s x1 x2 x3 x4 x5) := by
  unfold attSelect
  split; extract_lets +onlyGivenNames y1 y2; refine Kept.cond (fun _ => ?_) fun _ => ?_; assumption
  refine Kept.cond (fun _ => ?_) fun _ => ?_; assumption; extract_lets +onlyGivenNames y3 y4 y5 y6; split; split
  refine lessonFaultSeq_kept ?_; refine Kept.fst (by assumption) ?_; show KeptAt Prod.fst _ _ _
  refine KeptAt.fold (fun _ _ _ => ?_) ?_; split; refine KeptAt.cond (fun _ => ?_) fun _ => ?_; show Kept _ _ _
  dsimp -zeta only; assumption; split; show Kept _ _ _; dsimp -zeta only; refine Kept.fst (by assumption) ?_
  refine translate_kept ?_; assumption; show Kept _ _ _; dsimp -zeta only; refine Kept.fst (by assumption) ?_
  refine translate_kept ?_; assumption; extract_lets +onlyGivenNames y7; split; extract_lets +onlyGivenNames y8
  show Kept _ _ _; dsimp -zeta only; refine Kept.fst (by assumption) ?_; refine fetchGlobal_kept ?_
  refine Kept.fst (by assumption) ?_; refine translate_kept ?_; assumption; show Kept _ _ _; dsimp -zeta only
  assumption; refine Kept.cond (fun _ => ?_) fun _ => ?_; refine Kept.fst (by assumption) ?_
  show KeptAt Prod.fst _ _ _; refine KeptAt.fold (fun _ _ _ => ?_) ?_; split
  refine KeptAt.cond (fun _ => ?_) fun _ => ?_; show Kept _ _ _; dsimp -zeta only; assumption; split; show Kept _ _ _
  dsimp -zeta only; refine Kept.fst (by assumption) ?_; refine translate_kept ?_; assumption; show Kept _ _ _
  dsimp -zeta only; refine Kept.fst (by assumption) ?_; refine translate_kept ?_; assumption
  extract_lets +onlyGivenNames y9; split; extract_lets +onlyGivenNames y10; show Kept _ _ _; dsimp -zeta only
  refine Kept.fst (by assumption) ?_; refine fetchGlobal_kept ?_; refine Kept.fst (by assumption) ?_
  refine translate_kept ?_; assumption; show Kept _ _ _; dsimp -zeta only; assumption; split
  refine lessonFault_kept ?_; refine Kept.fst (by assumption) ?_; refine takeQ_kept ?_
  refine Kept.fst (by assumption) ?_; show KeptAt Prod.fst _ _ _; refine KeptAt.fold (fun _ _ _ => ?_) ?_; split
  refine KeptAt.cond (fun _ => ?_) fun _ => ?_; show Kept _ _ _; dsimp -zeta only; assumption; split; show Kept _ _ _
  dsimp -zeta only; refine Kept.fst (by assumption) ?_; refine translate_kept ?_; assumption; show Kept _ _ _
  dsimp -zeta only; refine Kept.fst (by assumption) ?_; refine translate_kept ?_; assumption
  extract_lets +onlyGivenNames y11; split; extract_lets +onlyGivenNames y12; show Kept _ _ _; dsimp -zeta only
  refine Kept.fst (by assumption) ?_; refine fetchGlobal_kept ?_; refine Kept.fst (by assumption) ?_
  refine translate_kept ?_; assumption; show Kept _ _ _; dsimp -zeta only; assumption
  extract_lets +onlyGivenNames y13 y14 y15 y16 y17 y18; refine Kept.cut (p := Kept b s0 y18) ?_ fun _ => ?_
  unfold y18; refine bump_kept ?_; refine Kept.fst (by assumption) ?_; refine takeQ_kept ?_
  refine Kept.fst (by assumption) ?_; show KeptAt Prod.fst _ _ _; refine KeptAt.fold (fun _ _ _ => ?_) ?_; split
  refine KeptAt.cond (fun _ => ?_) fun _ => ?_; show Kept _ _ _; dsimp -zeta only; assumption; split; show Kept _ _ _
  dsimp -zeta only; refine Kept.fst (by assumption) ?_; refine translate_kept ?_; assumption; show Kept _ _ _
  dsimp -zeta only; refine Kept.fst (by assumption) ?_; refine translate_kept ?_; assumption
  extract_lets +onlyGivenNames y19; split; extract_lets +onlyGivenNames y20; show Kept _ _ _; dsimp -zeta only
  refine Kept.fst (by assumption) ?_; refine fetchGlobal_kept ?_; refine Kept.fst (by assumption) ?_
  refine translate_kept ?_; assumption; show Kept _ _ _; dsimp -zeta only; assumption; clear_value y18
  extract_lets +onlyGivenNames y21; refine Kept.cond (fun _ => ?_) fun _ => ?_; refine attSelected_kept ?_; assumption
  split; refine forwardAssists_kept ?_; refine updAtt_kept ?_; refine Kept.snd (by assumption) ?_
  refine raiseAssist_kept ?_; assumption; refine lessonFaultSeq_kept ?_; refine Kept.snd (by assumption) ?_
  refine raiseAssist_kept ?_; assumption; refine attAdvance_kept ?_; assumption

theorem lessonPut_kept (h : Kept b s0 s) : Kept b s0 (lessonPut s x1 x2 x3 x4 x5 x6) := by
  unfold lessonPut
  extract_lets +onlyGivenNames y1; refine Kept.fold (fun _ _ _ => ?_) ?_; split; split; assumption
  extract_lets +onlyGivenNames y2 y3 y4 y5 y6; split; split; refine Kept.cond (fun _ => ?_) fun _ => ?_
  refine Kept.fst (by assumption) ?_; show KeptAt Prod.fst _ _ _; refine KeptAt.cond (fun _ => ?_) fun _ => ?_
  show Kept _ _ _; dsimp -zeta only; assumption; refine KeptAt.cond (fun _ => ?_) fun _ => ?_; show Kept _ _ _
  refine serveInside_kept ?_; assumption; show Kept _ _ _; refine sendOut_kept ?_; assumption
  refine lessonFault_kept ?_; refine Kept.fst (by assumption) ?_; show KeptAt Prod.fst _ _ _
  refine KeptAt.cond (fun _ => ?_) fun _ => ?_; show Kept _ _ _; dsimp -zeta only; assumption
  refine KeptAt.cond (fun _ => ?_) fun _ => ?_; show Kept _ _ _; refine serveInside_kept ?_; assumption
  show Kept _ _ _; refine sendOut_kept ?_; assumption; refine Kept.fst (by assumption) ?_; show KeptAt Prod.fst _ _ _
  refine KeptAt.cond (fun _ => ?_) fun _ => ?_; show Kept _ _ _; dsimp -zeta only; assumption
  refine KeptAt.cond (fun _ => ?_) fun _ => ?_; show Kept _ _ _; refine serveInside_kept ?_; assumption
  show Kept _ _ _; refine sendOut_kept ?_; assumption; assumption

theorem attDrain_kept (h : Kept b s0 s) : Kept b s0 (attDrain s x1 x2 x3 x4 x5) := by
  unfold attDrain
  extract_lets +onlyGivenNames y1; refine Kept.cond (fun _ => ?_) fun _ => ?_; assumption
  extract_lets +onlyGivenNames y2 y3 y4 y5 y6; refine Kept.cut (p := Kept b s0 y6) ?_ fun _ => ?_; unfold y6
  refine bump_kept ?_; refine updAtt_kept ?_; assumption; clear_value y6; extract_lets +onlyGivenNames y7
  refine Kept.cut (p := Kept b s0 y7) ?_ fun _ => ?_; unfold y7; refine updLesson_kept ?_; assumption; clear_value y7
  refine Kept.cond (fun _ => ?_) fun _ => ?_; split; extract_lets +onlyGivenNames y8
  refine Kept.cut (p := Kept b s0 y8) ?_ fun _ => ?_; unfold y8; refine bump_kept ?_
  refine Kept.fst (by assumption) ?_; refine sfuTables_kept ?_; assumption; clear_value y8
  extract_lets +onlyGivenNames y9 y10; refine Kept.cut (p := Kept b s0 y10) ?_ fun _ => ?_; unfold y10
  refine Kept.cond (fun _ => ?_) fun _ => ?_; refine sfuDone_kept ?_; assumption; assumption; clear_value y10
  refine runFrom_kept ?_; assumption; refine Kept.cond (fun _ => ?_) fun _ => ?_; assumption
  extract_lets +onlyGivenNames y11 y12 y13; refine Kept.cut (p := Kept b s0 y13) ?_ fun _ => ?_; unfold y13
  refine Kept.cond (fun _ => ?_) fun _ => ?_; refine sfuDone_kept ?_; assumption; assumption; clear_value y13
  refine Kept.cond (fun _ => ?_) fun _ => ?_; refine lessonFault_kept ?_; assumption
  refine Kept.fold (fun _ _ _ => ?_) ?_; refine lessonPut_kept ?_; assumption; assumption

theorem attCombineHead_kept (h : Kept b s0 s) : Kept b s0 (attCombineHead s x1 x2 x3 x4) := by
  unfold attCombineHead
  extract_lets +onlyGivenNames y1; refine Kept.cond (fun _ => ?_) fun _ => ?_; assumption
  extract_lets +onlyGivenNames y2 y3 y4 y5 y6; refine Kept.cut (p := Kept b s0 y6) ?_ fun _ => ?_; unfold y6
  refine settle_kept ?_; assumption; clear_value y6; extract_lets +onlyGivenNames y7 y8
  refine Kept.cond (fun _ => ?_) fun _ => ?_; refine lessonFault_kept ?_; assumption; extract_lets +onlyGivenNames y9
  split; extract_lets +onlyGivenNames y10; refine Kept.cut (p := Kept b s0 y10) ?_ fun _ => ?_; unfold y10
  refine bump_kept ?_; refine Kept.fst (by assumption) ?_; refine sfuTables_kept ?_; assumption; clear_value y10
  extract_lets +onlyGivenNames y11 y12; refine Kept.cut (p := Kept b s0 y12) ?_ fun _ => ?_; unfold y12
  refine updAtt_kept ?_; assumption; clear_value y12; extract_lets +onlyGivenNames y13
  refine Kept.cut (p := Kept b s0 y13) ?_ fun _ => ?_; unfold y13; refine Kept.cond (fun _ => ?_) fun _ => ?_
  refine sfuDone_kept ?_; assumption; assumption; clear_value y13; refine runFrom_kept ?_; assumption

end Sys2Proof.Machine
end

