-- ==== Sys2Proof/Laws/KeptRun.lean ====
section
/-!
SUPPORT. What each operation of Machine/Run.lean keeps (`Kept`).
-/

namespace Sys2Proof.Machine

open Sys2Proof

variable {b : Bool} {s0 s t : State}

theorem giveFlags_kept (h : Kept b s0 s) : Kept b s0 (giveFlags s x1 x2 x3) := by
  unfold giveFlags
  refine Kept.fold (fun _ _ _ => ?_) ?_; split; refine updCore_kept ?_; assumption; assumption

theorem bindPageStreams_kept (h : Kept b s0 s) : Kept b s0 (bindPageStreams s x1 x2 x3) := by
  unfold bindPageStreams
  extract_lets +onlyGivenNames y1; refine noteBound_kept ?_; refine Kept.fold (fun _ _ _ => ?_) ?_; split
  refine updStream_kept ?_; assumption; assumption

theorem issueLesson_kept (h : Kept b s0 s) : Kept b s0 (issueLesson s x1 x2 x3 x4 x5 x6 x7) := by
  unfold issueLesson
  extract_lets +onlyGivenNames y1; refine Kept.cut (p := Kept b s0 y1) ?_ fun _ => ?_; unfold y1
  refine settleControl_kept ?_; assumption; clear_value y1; extract_lets +onlyGivenNames y2 y3 y4; split
  extract_lets +onlyGivenNames y5 y6 y7 y8 y9 y10 y11 y12; refine Kept.cond (fun _ => ?_) fun _ => ?_
  refine parkCmd_kept ?_; assumption; extract_lets +onlyGivenNames y13 y14 y15
  refine Kept.cut (p := Kept b s0 y15) ?_ fun _ => ?_; unfold y15; refine Kept.cond (fun _ => ?_) fun _ => ?_
  refine bump_kept ?_; refine raise_kept ?_; assumption; assumption; clear_value y15
  refine Kept.cond (fun _ => ?_) fun _ => ?_; refine parkCmd_kept ?_; assumption; extract_lets +onlyGivenNames y16 y17
  refine Kept.cut (p := Kept b s0 y17) ?_ fun _ => ?_; unfold y17; refine sbTake_kept ?_; assumption; clear_value y17
  extract_lets +onlyGivenNames y18; refine Kept.cut (p := Kept b s0 y18) ?_ fun _ => ?_; unfold y18
  refine updCore_kept ?_; assumption; clear_value y18; extract_lets +onlyGivenNames y19
  refine Kept.cut (p := Kept b s0 y19) ?_ fun _ => ?_; unfold y19; refine issued_kept ?_; assumption; clear_value y19
  extract_lets +onlyGivenNames y20; refine Kept.cut (p := Kept b s0 y20) ?_ fun _ => ?_; unfold y20
  refine giveFlags_kept ?_; assumption; clear_value y20; extract_lets +onlyGivenNames y21
  refine Kept.cut (p := Kept b s0 y21) ?_ fun _ => ?_; unfold y21; refine trace_kept ?_; assumption; clear_value y21
  refine Kept.cond (fun _ => ?_) fun _ => ?_; assumption; extract_lets +onlyGivenNames y22
  refine Kept.cut (p := Kept b s0 y22) ?_ fun _ => ?_; unfold y22; refine bindPageStreams_kept ?_; assumption
  clear_value y22; split; refine updLesson_kept ?_; refine Kept.fst (by assumption) ?_; refine attStart_kept ?_
  assumption; refine refuseCmd_kept ?_; assumption

theorem presentLesson_kept (h : Kept b s0 s) : Kept b s0 (presentLesson s x1 x2 x3 x4 x5) := by
  unfold presentLesson
  refine Kept.cond (fun _ => ?_) fun _ => ?_; refine issueLesson_kept ?_; assumption; assumption

theorem execLesson_kept (h : Kept b s0 s) : KeptN b s0 (execLesson x1 x2 x3 x4 x5 s) := by
  unfold execLesson
  refine KeptN.next ?_; refine presentLesson_kept ?_; assumption

theorem execAttend_kept (h : Kept b s0 s) : KeptN b s0 (execAttend x1 x2 x3 x4 x5 s) := by
  unfold execAttend
  refine KeptN.next ?_; refine presentLesson_kept ?_; assumption

theorem execRingLoad_kept (h : Kept b s0 s) : KeptN b s0 (execRingLoad x1 x2 x3 x4 x5 s) := by
  unfold execRingLoad
  refine KeptN.next ?_; refine presentLesson_kept ?_; assumption

theorem execActGrad_kept (h : Kept b s0 s) : KeptN b s0 (execActGrad x1 x2 x3 x4 x5 s) := by
  unfold execActGrad
  refine KeptN.next ?_; refine presentLesson_kept ?_; assumption

theorem execGateGrad_kept (h : Kept b s0 s) : KeptN b s0 (execGateGrad x1 x2 x3 x4 x5 s) := by
  unfold execGateGrad
  refine KeptN.next ?_; refine presentLesson_kept ?_; assumption

theorem execNormGrad_kept (h : Kept b s0 s) : KeptN b s0 (execNormGrad x1 x2 x3 x4 x5 s) := by
  unfold execNormGrad
  refine KeptN.next ?_; refine presentLesson_kept ?_; assumption

theorem execAttGrad_kept (h : Kept b s0 s) : KeptN b s0 (execAttGrad x1 x2 x3 x4 x5 s) := by
  unfold execAttGrad
  refine KeptN.next ?_; refine presentLesson_kept ?_; assumption

theorem execUpdate_kept (h : Kept b s0 s) : KeptN b s0 (execUpdate x1 x2 x3 x4 x5 s) := by
  unfold execUpdate
  refine KeptN.next ?_; refine presentLesson_kept ?_; assumption

theorem readMasters_kept (h : Kept b s0 s) : Kept b s0 (readMasters s x1 x2 x3 x4 x5).1 := by
  show KeptAt Prod.fst _ _ _
  unfold readMasters
  refine KeptAt.fold (fun _ _ _ => ?_) ?_; split; refine KeptAt.cond (fun _ => ?_) fun _ => ?_; show Kept _ _ _
  dsimp -zeta only; assumption; extract_lets +onlyGivenNames y1; split; show Kept _ _ _; dsimp -zeta only
  refine Kept.fst (by assumption) ?_; refine fetchGlobal_kept ?_; assumption; show Kept _ _ _; dsimp -zeta only
  assumption

theorem updateTile_kept (h : Kept b s0 s) : Kept b s0 (updateTile s x1 x2 x3 x4 x5 x6).1 := by
  show KeptAt Prod.fst _ _ _
  unfold updateTile
  extract_lets +onlyGivenNames y1 y2 y3 y4 y5; split; refine KeptAt.cond (fun _ => ?_) fun _ => ?_; show Kept _ _ _
  dsimp -zeta only; refine lessonFault_kept ?_; refine Kept.fst (by assumption) ?_; refine readMasters_kept ?_
  assumption; split; extract_lets +onlyGivenNames y6 y7 y8; refine Kept.cut (p := Kept b s0 y8) ?_ fun _ => ?_
  unfold y8; refine bump_kept ?_; refine Kept.fst (by assumption) ?_; refine sfuTables_kept ?_
  refine Kept.fst (by assumption) ?_; refine readMasters_kept ?_; assumption; clear_value y8
  extract_lets +onlyGivenNames y9 y10; refine Kept.cut (p := Kept b s0 y10) ?_ fun _ => ?_; unfold y10; unfold y9
  refine Kept.cond (fun _ => ?_) fun _ => ?_; assumption; refine lessonPut_kept ?_; assumption; clear_value y10
  extract_lets +onlyGivenNames y11; refine Kept.cut (p := Kept b s0 y11) ?_ fun _ => ?_; unfold y11; unfold y9
  refine Kept.cond (fun _ => ?_) fun _ => ?_; assumption; refine lessonPut_kept ?_; assumption; clear_value y11
  extract_lets +onlyGivenNames y12; refine Kept.cut (p := Kept b s0 y12) ?_ fun _ => ?_; unfold y12; unfold y9
  refine Kept.cond (fun _ => ?_) fun _ => ?_; assumption; refine lessonPut_kept ?_; assumption; clear_value y12
  extract_lets +onlyGivenNames y13; refine Kept.cut (p := Kept b s0 y13) ?_ fun _ => ?_; unfold y13
  refine updLesson_kept ?_; assumption; clear_value y13; show Kept _ _ _; dsimp -zeta only; assumption

theorem pumpTile_kept (h : Kept b s0 s) : KeptO id b s0 (pumpTile s x1 x2 x3) := by
  unfold pumpTile
  split; exact KeptO.absent; extract_lets +onlyGivenNames y1 y2 y3 y4; split
  extract_lets +onlyGivenNames y5 y6 y7 y8 y9; refine KeptO.cond (fun _ => ?_) fun _ => ?_; exact KeptO.absent; split
  extract_lets +onlyGivenNames y10; refine Kept.cut (p := Kept b s0 y10) ?_ fun _ => ?_; unfold y10
  refine updLesson_kept ?_; refine Kept.fst (by assumption) ?_; refine takeQueue_kept ?_; assumption; clear_value y10
  extract_lets +onlyGivenNames y11; refine KeptO.cond (fun _ => ?_) fun _ => ?_; extract_lets +onlyGivenNames y12
  refine KeptO.cond (fun _ => ?_) fun _ => ?_; split; refine KeptO.hereS ?_; refine runFrom_kept ?_
  refine Kept.fst (by assumption) ?_; refine updateTile_kept ?_; assumption; refine KeptO.hereS ?_
  refine Kept.fst (by assumption) ?_; refine updateTile_kept ?_; assumption; refine KeptO.hereS ?_
  refine runFrom_kept ?_; assumption; extract_lets +onlyGivenNames y13 y14
  refine Kept.cut (p := Kept b s0 y14.1) ?_ fun _ => ?_; unfold y14; show KeptAt Prod.fst _ _ _
  refine KeptAt.cond (fun _ => ?_) fun _ => ?_; show Kept _ _ _; dsimp -zeta only; assumption; split; show Kept _ _ _
  dsimp -zeta only; refine Kept.fst (by assumption) ?_; refine rdSp_kept ?_; assumption; show Kept _ _ _
  dsimp -zeta only; refine Kept.fst (by assumption) ?_; refine rdSp_kept ?_; assumption; clear_value y14; split
  refine KeptO.hereS ?_; refine runFrom_kept ?_; assumption; refine KeptO.hereS ?_; refine lessonFault_kept ?_
  assumption

theorem sourceDone_kept (h : Kept b s0 s) : Kept b s0 (sourceDone s x1 x2 x3) := by
  unfold sourceDone
  split; assumption; extract_lets +onlyGivenNames y1; refine Kept.cond (fun _ => ?_) fun _ => ?_; assumption
  refine Kept.fold (fun _ _ _ => ?_) ?_; refine Kept.cond (fun _ => ?_) fun _ => ?_; refine sfuDone_kept ?_
  assumption; assumption; assumption

theorem pumpSource_kept (h : Kept b s0 s) : Kept b s0 (pumpSource s x1 x2) := by
  unfold pumpSource
  split; assumption; extract_lets +onlyGivenNames y1; refine Kept.fold (fun _ _ _ => ?_) ?_
  extract_lets +onlyGivenNames y2; refine Kept.cut (p := Kept b s0 y2) ?_ fun _ => ?_; unfold y2
  show KeptAt Prod.fst _ _ _; refine KeptAt.fold (fun _ _ _ => ?_) ?_; refine KeptAt.cond (fun _ => ?_) fun _ => ?_
  assumption; split; show Kept _ _ _; dsimp -zeta only; refine KeptO.useS (pumpTile_kept ?_) (by assumption)
  assumption; show Kept _ _ _; dsimp -zeta only; assumption; show Kept _ _ _; dsimp -zeta only; assumption
  clear_value y2; refine sourceDone_kept ?_; assumption; assumption

theorem stageServing_kept (h : Kept b s0 s) : Kept b s0 (stageServing s x1 x2 x3) := by
  unfold stageServing
  extract_lets +onlyGivenNames w rows cols f es at_ quant a c off s1
  have g : Kept b s0 s1 := saturate_kept h
  clear_value s1 off c a
  split
  · exact (wrSp_kept g).useS ‹_›
  · exact lessonFault_kept g

theorem loadImage_kept (h : Kept b s0 s) : Kept b s0 (loadImage s x1 x2).1 := by
  show KeptAt Prod.fst _ _ _
  unfold loadImage
  split; show Kept _ _ _; dsimp -zeta only; refine Kept.fst (by assumption) ?_; refine read_kept ?_; assumption

theorem saveImage_kept (h : Kept b s0 s) : Kept b s0 (saveImage s x1 x2 x3) := by
  unfold saveImage
  refine write_kept ?_; assumption

theorem saveSoftmax_kept (h : Kept b s0 s) : Kept b s0 (saveSoftmax s x1 x2 x3 x4) := by
  unfold saveSoftmax
  extract_lets +onlyGivenNames y1; refine Kept.fold (fun _ _ _ => ?_) ?_; extract_lets +onlyGivenNames y2
  refine write_kept ?_; assumption; assumption

theorem loadSoftmax_kept (h : Kept b s0 s) : Kept b s0 (loadSoftmax s x1 x2 x3 x4) := by
  unfold loadSoftmax
  extract_lets +onlyGivenNames y1; refine Kept.fold (fun _ _ _ => ?_) ?_; split; refine updAtt_kept ?_
  refine Kept.fst (by assumption) ?_; refine read_kept ?_; assumption; assumption

theorem loadTotals_kept (h : Kept b s0 s) : Kept b s0 (loadTotals s x1 x2 x3 x4 x5) := by
  unfold loadTotals
  extract_lets +onlyGivenNames y1 y2; refine updAtt_kept ?_; assumption

theorem resumeTile_kept (h : Kept b s0 s) : Kept b s0 (resumeTile s x1 x2 x3) := by
  unfold resumeTile
  extract_lets +onlyGivenNames y1; split; extract_lets +onlyGivenNames y2; split; extract_lets +onlyGivenNames y3
  refine Kept.cut (p := Kept b s0 y3) ?_ fun _ => ?_; unfold y3; refine updCore_kept ?_
  refine Kept.fst (by assumption) ?_; show KeptAt Prod.fst _ _ _; refine KeptAt.cond (fun _ => ?_) fun _ => ?_
  show Kept _ _ _; dsimp -zeta only; assumption; show Kept _ _ _; refine loadImage_kept ?_; assumption; clear_value y3
  extract_lets +onlyGivenNames y4 y5; refine Kept.cut (p := Kept b s0 y5) ?_ fun _ => ?_; unfold y5
  refine Kept.cond (fun _ => ?_) fun _ => ?_; refine loadTotals_kept ?_; assumption; assumption; clear_value y5
  extract_lets +onlyGivenNames y6; refine Kept.cut (p := Kept b s0 y6) ?_ fun _ => ?_; unfold y6; split
  refine updLesson_kept ?_; assumption; refine Kept.cond (fun _ => ?_) fun _ => ?_; assumption
  refine loadSoftmax_kept ?_; assumption; clear_value y6; extract_lets +onlyGivenNames y7
  refine Kept.cut (p := Kept b s0 y7) ?_ fun _ => ?_; unfold y7; refine Kept.cond (fun _ => ?_) fun _ => ?_
  assumption; refine giveFlags_kept ?_; assumption; clear_value y7; extract_lets +onlyGivenNames y8 y9
  refine Kept.cond (fun _ => ?_) fun _ => ?_; refine ctxSettle_kept ?_; refine setCtxState_kept ?_; assumption
  assumption; assumption

theorem sendCombine_kept (h : Kept b s0 s) : Kept b s0 (sendCombine s x1 x2 x3 x4 x5 x6) := by
  unfold sendCombine
  extract_lets +onlyGivenNames y1 y2; refine lessonPut_kept ?_; assumption

theorem spillTile_kept (h : Kept b s0 s) : Kept b s0 (spillTile s x1 x2 x3 x4 x5 x6 x7) := by
  unfold spillTile
  extract_lets place s1 words
  refine Kept.cond (fun _ => h) fun _ => ?_
  have h1 : Kept b s0 s1 := Kept.cond (fun _ => bump_kept h) fun _ => h
  refine Kept.cond (fun _ => h1) fun _ => ?_
  split
  · rename_i s2 e2
    exact Kept.of_eq (KeptO.useS (wrSp_kept h1) e2) rfl rfl rfl rfl rfl rfl rfl rfl rfl
  · exact lessonFault_kept h1

theorem holdTile_kept (h : Kept b s0 s) : Kept b s0 (holdTile s x1 x2 x3 x4 x5 x6 x7) := by
  unfold holdTile
  extract_lets +onlyGivenNames y1; refine Kept.cut (p := Kept b s0 y1) ?_ fun _ => ?_; unfold y1; refine setFlag_kept ?_
  refine updLesson_kept ?_; assumption; clear_value y1; refine settleAll_kept ?_; refine updCore_kept ?_; assumption

theorem chainTile_kept (h : Kept b s0 s) : Kept b s0 (chainTile s x1 x2 x3 x4 x5) := by
  unfold chainTile
  split; assumption; extract_lets +onlyGivenNames y1 y2 y3 y4; split; split; refine Kept.fst (by assumption) ?_
  refine takeOperand_kept ?_; assumption; split; refine Kept.fst (by assumption) ?_; refine takeOperand_kept ?_
  refine Kept.fst (by assumption) ?_; refine takeOperand_kept ?_; assumption; split; refine lessonFault_kept ?_
  refine Kept.fst (by assumption) ?_; refine preloadOf_kept ?_; refine Kept.fst (by assumption) ?_
  refine takeOperand_kept ?_; refine Kept.fst (by assumption) ?_; refine takeOperand_kept ?_; assumption
  extract_lets +onlyGivenNames y5 y6 y7 y8; split; refine Kept.cond (fun _ => ?_) fun _ => ?_
  refine lessonFault_kept ?_; refine Kept.fst (by assumption) ?_; refine checksum_kept ?_
  refine Kept.fst (by assumption) ?_; refine preloadOf_kept ?_; refine Kept.fst (by assumption) ?_
  refine takeOperand_kept ?_; refine Kept.fst (by assumption) ?_; refine takeOperand_kept ?_; assumption
  extract_lets +onlyGivenNames y9 y10 y11; refine Kept.cut (p := Kept b s0 y11) ?_ fun _ => ?_; unfold y11
  refine bump_kept ?_; refine Kept.fst (by assumption) ?_; refine checksum_kept ?_; refine Kept.fst (by assumption) ?_
  refine preloadOf_kept ?_; refine Kept.fst (by assumption) ?_; refine takeOperand_kept ?_
  refine Kept.fst (by assumption) ?_; refine takeOperand_kept ?_; assumption; clear_value y11
  extract_lets +onlyGivenNames y12; refine Kept.cut (p := Kept b s0 y12) ?_ fun _ => ?_; unfold y12
  refine updLesson_kept ?_; assumption; clear_value y12; extract_lets +onlyGivenNames y13
  refine Kept.cut (p := Kept b s0 y13) ?_ fun _ => ?_; unfold y13; refine spillTile_kept ?_; assumption
  clear_value y13; refine Kept.cond (fun _ => ?_) fun _ => ?_; refine sendCombine_kept ?_; assumption
  refine Kept.cond (fun _ => ?_) fun _ => ?_; refine holdTile_kept ?_; assumption; refine runFrom_kept ?_
  assumption

theorem attRelease_kept (h : Kept b s0 s) : Kept b s0 (attRelease s x1 x2 x3 x4) := by
  unfold attRelease
  split; assumption; split; assumption; refine Kept.cond (fun _ => ?_) fun _ => ?_; split; refine attDrain_kept ?_
  refine Kept.fst (by assumption) ?_; show KeptAt Prod.fst _ _ _; refine KeptAt.cond (fun _ => ?_) fun _ => ?_
  show Kept _ _ _; refine checksum_kept ?_; assumption; show Kept _ _ _; dsimp -zeta only; assumption; split
  assumption; refine Kept.cond (fun _ => ?_) fun _ => ?_; refine attSelect_kept ?_; assumption; refine attStep_kept ?_
  assumption

theorem execTileRelease_kept (h : Kept b s0 s) : KeptN b s0 (execTileRelease x1 x2 x3 s) := by
  unfold execTileRelease
  extract_lets +onlyGivenNames y1 y2; refine KeptN.next ?_; split; assumption; split; assumption
  refine Kept.cond (fun _ => ?_) fun _ => ?_; assumption; split; refine Kept.cond (fun _ => ?_) fun _ => ?_
  refine attRelease_kept ?_; refine resumeTile_kept ?_; assumption; assumption
  refine Kept.cond (fun _ => ?_) fun _ => ?_; refine pumpSource_kept ?_; refine chainTile_kept ?_
  refine resumeTile_kept ?_; assumption; assumption; assumption

theorem heldTile_kept (h : Kept b s0 s) : Kept b s0 (heldTile s x1 x2 x3 x4 x5).1 := by
  show KeptAt Prod.fst _ _ _
  unfold heldTile
  extract_lets +onlyGivenNames y1 y2 y3 y4 y5; refine KeptAt.fold (fun _ _ _ => ?_) ?_; split; assumption; split
  show Kept _ _ _; dsimp -zeta only; refine Kept.fst (by assumption) ?_; refine rdSp_kept ?_; assumption
  show Kept _ _ _; dsimp -zeta only; refine lessonFault_kept ?_; refine Kept.fst (by assumption) ?_
  refine rdSp_kept ?_; assumption; show Kept _ _ _; dsimp -zeta only; assumption

theorem execSecondSweep_kept (h : Kept b s0 s) : KeptN b s0 (execSecondSweep x1 x2 x3 s) := by
  unfold execSecondSweep
  extract_lets +onlyGivenNames y1; refine KeptN.next ?_; split; assumption; split; assumption; split; assumption
  extract_lets +onlyGivenNames y2 y3; refine Kept.cond (fun _ => ?_) fun _ => ?_; assumption
  extract_lets +onlyGivenNames y4; refine Kept.cut (p := Kept b s0 y4) ?_ fun _ => ?_; unfold y4
  refine updLesson_kept ?_; assumption; clear_value y4; refine Kept.fold (fun _ _ _ => ?_) ?_
  refine Kept.cond (fun _ => ?_) fun _ => ?_; assumption; extract_lets +onlyGivenNames y5; split
  refine runFrom_kept ?_; refine Kept.fst (by assumption) ?_; refine heldTile_kept ?_; assumption
  refine Kept.fst (by assumption) ?_; refine heldTile_kept ?_; assumption; assumption

theorem unitTiles_kept (h : Kept b s0 s) : Kept b s0 (unitTiles s x1 x2 x3 x4 x5).1 := by
  show KeptAt Prod.fst _ _ _
  unfold unitTiles
  refine KeptAt.fold (fun _ _ _ => ?_) ?_; split; assumption; split; show Kept _ _ _; dsimp -zeta only
  refine Kept.fst (by assumption) ?_; refine rdSp_kept ?_; assumption; extract_lets +onlyGivenNames y1
  show Kept _ _ _; dsimp -zeta only; refine Kept.fst (by assumption) ?_; refine rdSp_kept ?_; assumption
  show Kept _ _ _; dsimp -zeta only; assumption

theorem execSplitCombine_kept (h : Kept b s0 s) : KeptN b s0 (execSplitCombine x1 x2 s) := by
  unfold execSplitCombine
  extract_lets +onlyGivenNames y1; refine KeptN.next ?_; split; assumption; split; assumption
  extract_lets +onlyGivenNames y2 y3 y4 y5 y6 y7 y8 y9; refine Kept.cond (fun _ => ?_) fun _ => ?_; assumption; split
  split; refine lessonFault_kept ?_; refine Kept.fst (by assumption) ?_; refine unitTiles_kept ?_; assumption
  extract_lets +onlyGivenNames y10; refine Kept.cut (p := Kept b s0 y10) ?_ fun _ => ?_; unfold y10
  refine updLesson_kept ?_; refine Kept.fst (by assumption) ?_; refine unitTiles_kept ?_; assumption; clear_value y10
  extract_lets +onlyGivenNames y11; refine Kept.cut (p := Kept b s0 y11) ?_ fun _ => ?_; unfold y11
  refine Kept.cond (fun _ => ?_) fun _ => ?_; assumption; refine setFlag_kept ?_; assumption; clear_value y11
  extract_lets +onlyGivenNames y12; refine Kept.cut (p := Kept b s0 y12) ?_ fun _ => ?_; unfold y12
  refine updCore_kept ?_; assumption; clear_value y12; refine runFrom_kept ?_; assumption

theorem execAttendCombine_kept (h : Kept b s0 s) : KeptN b s0 (execAttendCombine x1 x2 s) := by
  unfold execAttendCombine
  refine KeptN.next ?_; split; split; refine attCombineHead_kept ?_; assumption; assumption; assumption

theorem addSaturation_kept (h : Kept b s0 s) : Kept b s0 (addSaturation s x1) := by
  unfold addSaturation
  refine Kept.cond (fun _ => ?_) fun _ => ?_; refine Kept.lit ?_ rfl rfl rfl rfl rfl; assumption; assumption

theorem execLessonRetire_kept (h : Kept b s0 s) : KeptN b s0 (execLessonRetire x1 x2 s) := by
  unfold execLessonRetire
  extract_lets +onlyGivenNames y1; refine KeptN.next ?_; split; assumption; refine Kept.cond (fun _ => ?_) fun _ => ?_
  assumption; extract_lets +onlyGivenNames y2 y3; refine Kept.cut (p := Kept b s0 y3) ?_ fun _ => ?_; unfold y3
  refine Kept.cond (fun _ => ?_) fun _ => ?_; refine stageServing_kept ?_; assumption; assumption; clear_value y3
  split; assumption; extract_lets +onlyGivenNames y4; refine Kept.cut (p := Kept b s0 y4) ?_ fun _ => ?_; unfold y4
  refine addSaturation_kept ?_; assumption; clear_value y4; split; extract_lets +onlyGivenNames y5
  refine Kept.cut (p := Kept b s0 y5) ?_ fun _ => ?_; unfold y5; refine completeCmd_kept ?_
  refine Kept.fst (by assumption) ?_; show KeptAt Prod.fst _ _ _; refine KeptAt.cond (fun _ => ?_) fun _ => ?_; split
  show Kept _ _ _; dsimp -zeta only; refine Kept.fst (by assumption) ?_; refine counterApply_kept ?_; assumption
  show Kept _ _ _; dsimp -zeta only; assumption; clear_value y5; extract_lets +onlyGivenNames y6
  refine Kept.cut (p := Kept b s0 y6) ?_ fun _ => ?_; unfold y6; refine Kept.cond (fun _ => ?_) fun _ => ?_
  refine bump_kept ?_; assumption; assumption; clear_value y6; extract_lets +onlyGivenNames y7 y8 y9 y10 y11
  refine Kept.cut (p := Kept b s0 y11) ?_ fun _ => ?_; unfold y11; refine Kept.cond (fun _ => ?_) fun _ => ?_
  refine Kept.lit ?_ rfl rfl rfl rfl rfl; assumption; assumption; clear_value y11; extract_lets +onlyGivenNames y12
  refine Kept.cut (p := Kept b s0 y12) ?_ fun _ => ?_; unfold y12; refine lessonDrop_kept ?_
  refine lessonEnded_kept ?_; assumption; clear_value y12; refine Kept.cond (fun _ => ?_) fun _ => ?_; assumption
  refine faultCtx_kept ?_; assumption

theorem execContextSwitch_kept (h : Kept b s0 s) : KeptN b s0 (execContextSwitch x1 x2 x3 x4 x5 s) := by
  unfold execContextSwitch
  extract_lets +onlyGivenNames y1 y2 y3; refine KeptN.next ?_; split; extract_lets +onlyGivenNames y4 y5 y6 y7
  refine Kept.cond (fun _ => ?_) fun _ => ?_; assumption; split; extract_lets +onlyGivenNames y8
  refine Kept.cut (p := Kept b s0 y8) ?_ fun _ => ?_; unfold y8; refine Kept.lit ?_ rfl rfl rfl rfl rfl; assumption
  clear_value y8; extract_lets +onlyGivenNames y9; refine Kept.cut (p := Kept b s0 y9) ?_ fun _ => ?_; unfold y9
  refine Kept.cond (fun _ => ?_) fun _ => ?_; refine saveImage_kept ?_; assumption; assumption; clear_value y9
  extract_lets +onlyGivenNames y10; refine Kept.cut (p := Kept b s0 y10) ?_ fun _ => ?_; unfold y10; split
  refine Kept.cond (fun _ => ?_) fun _ => ?_; refine saveSoftmax_kept ?_; assumption; assumption; assumption
  clear_value y10; extract_lets +onlyGivenNames y11 y12; refine Kept.cut (p := Kept b s0 y12) ?_ fun _ => ?_
  unfold y12; refine updCore_kept ?_; assumption; clear_value y12; extract_lets +onlyGivenNames y13
  refine Kept.cut (p := Kept b s0 y13) ?_ fun _ => ?_; unfold y13; refine setCtxState_kept ?_; assumption
  clear_value y13; refine bump_kept ?_; refine resumeTile_kept ?_; assumption; assumption

theorem execRecessEntry_kept (h : Kept b s0 s) : KeptN b s0 (execRecessEntry x1 s) := by
  unfold execRecessEntry
  extract_lets +onlyGivenNames y1 y2; refine KeptN.next ?_; refine Kept.cond (fun _ => ?_) fun _ => ?_; assumption
  refine bump_kept ?_; refine updCore_kept ?_; assumption

end Sys2Proof.Machine
end

