-- ==== Sys2Proof/Laws/KeptStreams.lean ====
section
/-!
SUPPORT. What each operation of Machine/Streams.lean keeps (`Kept`).
-/

namespace Sys2Proof.Machine

open Sys2Proof

variable {b : Bool} {s0 s t : State}

theorem execStreamArm_kept (h : Kept b s0 s) : KeptN b s0 (execStreamArm x1 x2 x3 s) := by
  unfold execStreamArm
  extract_lets +onlyGivenNames y1; subst y1; refine KeptN.next ?_; split; assumption; extract_lets +onlyGivenNames y2
  subst y2; extract_lets +onlyGivenNames y3; subst y3; extract_lets +onlyGivenNames y4; subst y4
  extract_lets +onlyGivenNames y5; subst y5; refine Kept.cond (fun _ => ?_) fun _ => ?_; assumption
  extract_lets +onlyGivenNames y6; subst y6; extract_lets +onlyGivenNames y7; subst y7
  extract_lets +onlyGivenNames y8; refine Kept.cut (p := Kept b s0 y8) ?_ fun _ => ?_; unfold y8
  refine Kept.cond (fun _ => ?_) fun _ => ?_; refine settle_kept ?_; assumption; assumption; clear_value y8
  extract_lets +onlyGivenNames y9; subst y9; extract_lets +onlyGivenNames y10; subst y10; split
  extract_lets +onlyGivenNames y11; subst y11; extract_lets +onlyGivenNames y12; subst y12
  refine Kept.cond (fun _ => ?_) fun _ => ?_; assumption; extract_lets +onlyGivenNames y13; subst y13
  extract_lets +onlyGivenNames y14; subst y14; refine Kept.cond (fun _ => ?_) fun _ => ?_; refine lessonFault_kept ?_
  assumption; extract_lets +onlyGivenNames y15; subst y15; extract_lets +onlyGivenNames y16; subst y16
  extract_lets +onlyGivenNames y17; subst y17; extract_lets +onlyGivenNames y18; subst y18
  extract_lets +onlyGivenNames y19; refine Kept.cut (p := Kept b s0 y19) ?_ fun _ => ?_; unfold y19
  refine Kept.cond (fun _ => ?_) fun _ => ?_; refine walkBegin_kept ?_; assumption; assumption; clear_value y19
  extract_lets +onlyGivenNames y20; refine Kept.cut (p := Kept b s0 y20) ?_ fun _ => ?_; unfold y20
  refine updStream_kept ?_; assumption; clear_value y20; extract_lets +onlyGivenNames y21
  refine Kept.cut (p := Kept b s0 y21) ?_ fun _ => ?_; unfold y21; refine updLesson_kept ?_; assumption
  clear_value y21; refine noteBound_kept ?_; refine bump_kept ?_; assumption; refine lessonFault_kept ?_; assumption

theorem streamStep_kept (h : Kept b s0 s) : KeptN b s0 (streamStep s x1 x2 x3 x4) := by
  unfold streamStep
  extract_lets +onlyGivenNames y1; refine KeptN.next ?_; refine Kept.cond (fun _ => ?_) fun _ => ?_
  refine updStream_kept ?_; assumption; assumption

theorem execEnd_kept (h : Kept b s0 s) : KeptN b s0 (execEnd x1 x2 s) := by
  unfold execEnd
  refine streamStep_kept ?_; assumption

theorem execLoop_kept (h : Kept b s0 s) : KeptN b s0 (execLoop x1 x2 s) := by
  unfold execLoop
  refine streamStep_kept ?_; assumption

theorem execHloop_kept (h : Kept b s0 s) : KeptN b s0 (execHloop x1 x2 s) := by
  unfold execHloop
  refine streamStep_kept ?_; assumption

theorem execEndl_kept (h : Kept b s0 s) : KeptN b s0 (execEndl x1 x2 s) := by
  unfold execEndl
  refine streamStep_kept ?_; assumption

theorem execSeta_kept (h : Kept b s0 s) : KeptN b s0 (execSeta x1 x2 s) := by
  unfold execSeta
  refine streamStep_kept ?_; assumption

theorem execAdda_kept (h : Kept b s0 s) : KeptN b s0 (execAdda x1 x2 s) := by
  unfold execAdda
  refine streamStep_kept ?_; assumption

theorem execSetd_kept (h : Kept b s0 s) : KeptN b s0 (execSetd x1 x2 s) := by
  unfold execSetd
  refine streamStep_kept ?_; assumption

theorem execWalk_kept (h : Kept b s0 s) : KeptN b s0 (execWalk x1 x2 s) := by
  unfold execWalk
  extract_lets +onlyGivenNames y1 y2 y3; refine KeptN.next ?_; refine Kept.cond (fun _ => ?_) fun _ => ?_; assumption
  split; assumption; extract_lets +onlyGivenNames y4 y5 y6 y7 y8 y9 y10
  refine Kept.cut (p := Kept b s0 y10.1) ?_ fun _ => ?_; unfold y10; show KeptAt Prod.fst _ _ _
  refine KeptAt.cond (fun _ => ?_) fun _ => ?_; split; show Kept _ _ _; dsimp -zeta only
  refine Kept.fst (by assumption) ?_; refine rdSp_kept ?_; assumption; extract_lets +onlyGivenNames y11
  refine KeptAt.cond (fun _ => ?_) fun _ => ?_; show Kept _ _ _; dsimp -zeta only; refine Kept.fst (by assumption) ?_
  refine rdSp_kept ?_; assumption; show Kept _ _ _; dsimp -zeta only; refine updStream_kept ?_
  refine Kept.fst (by assumption) ?_; refine rdSp_kept ?_; assumption; show Kept _ _ _; dsimp -zeta only; assumption
  clear_value y10; split; refine updStream_kept ?_; assumption; refine Kept.cond (fun _ => ?_) fun _ => ?_
  refine updStream_kept ?_; assumption; split; refine lessonFaultSeq_kept ?_; assumption; split
  refine updStream_kept ?_; refine Kept.fst (by assumption) ?_; refine translate_kept ?_; assumption
  refine Kept.cond (fun _ => ?_) fun _ => ?_; refine updStream_kept ?_; refine Kept.fst (by assumption) ?_
  refine translate_kept ?_; assumption; refine Kept.fst (by assumption) ?_; refine translate_kept ?_; assumption
  refine lessonFaultSeq_kept ?_; refine Kept.fst (by assumption) ?_; refine translate_kept ?_; assumption
  refine lessonFault_kept ?_; assumption

theorem emitDone_kept (h : Kept b s0 s) : Kept b s0 (emitDone s x1 x2) := by
  unfold emitDone
  refine updStream_kept ?_; assumption

theorem deliver_kept (h : Kept b s0 s) : Kept b s0 (deliver s x1 x2 x3 x4 x5) := by
  unfold deliver
  extract_lets +onlyGivenNames y1; subst y1; extract_lets +onlyGivenNames y2; subst y2
  extract_lets +onlyGivenNames y3; subst y3; extract_lets +onlyGivenNames y4; subst y4
  extract_lets +onlyGivenNames y5; subst y5; extract_lets +onlyGivenNames y6; subst y6
  extract_lets +onlyGivenNames y7; refine Kept.cut (p := Kept b s0 y7) ?_ fun _ => ?_; unfold y7
  refine noteLines_kept ?_; assumption; clear_value y7; extract_lets +onlyGivenNames y8; subst y8
  extract_lets +onlyGivenNames y9; subst y9; extract_lets +onlyGivenNames y10; subst y10
  extract_lets +onlyGivenNames y11; subst y11; extract_lets +onlyGivenNames y12; subst y12; split
  refine Kept.cond (fun _ => ?_) fun _ => ?_; refine lessonFault_kept ?_; assumption
  refine Kept.cond (fun _ => ?_) fun _ => ?_; refine lessonFault_kept ?_; assumption; split
  refine lessonFault_kept ?_; assumption; dsimp -zeta only; refine Kept.cond (fun _ => ?_) fun _ => ?_
  refine lessonFault_kept ?_; refine updStream_kept ?_; refine Kept.cond (fun _ => ?_) fun _ => ?_
  refine weightFill_kept ?_; assumption; refine KeptO.useS (wrSp_kept ?_) (by assumption); assumption
  refine emitDone_kept ?_; refine updStream_kept ?_; refine Kept.cond (fun _ => ?_) fun _ => ?_
  refine weightFill_kept ?_; assumption; refine KeptO.useS (wrSp_kept ?_) (by assumption); assumption
  extract_lets +onlyGivenNames y13; subst y13; extract_lets +onlyGivenNames y14; subst y14
  refine Kept.cond (fun _ => ?_) fun _ => ?_; refine lessonFault_kept ?_; assumption
  refine Kept.cond (fun _ => ?_) fun _ => ?_; refine lessonFault_kept ?_; assumption; extract_lets +onlyGivenNames y15
  refine Kept.cut (p := Kept b s0 y15) ?_ fun _ => ?_; unfold y15; refine bump_kept ?_; assumption; clear_value y15
  split; refine Kept.cond (fun _ => ?_) fun _ => ?_; refine lessonFault_kept ?_; refine Kept.fst (by assumption) ?_
  refine mcastDeliver_kept ?_; assumption; dsimp -zeta only; refine Kept.cond (fun _ => ?_) fun _ => ?_
  refine lessonFault_kept ?_; refine updStream_kept ?_; refine Kept.fst (by assumption) ?_
  refine mcastDeliver_kept ?_; assumption; refine emitDone_kept ?_; refine updStream_kept ?_
  refine Kept.fst (by assumption) ?_; refine mcastDeliver_kept ?_; assumption; extract_lets +onlyGivenNames y16
  subst y16; extract_lets +onlyGivenNames y17; refine Kept.cut (p := Kept b s0 y17) ?_ fun _ => ?_; unfold y17
  refine updLesson_kept ?_; assumption; clear_value y17; extract_lets +onlyGivenNames y18
  refine Kept.cut (p := Kept b s0 y18) ?_ fun _ => ?_; unfold y18; refine setFlag_kept ?_; assumption; clear_value y18
  refine pumpSource_kept ?_; dsimp -zeta only; refine Kept.cond (fun _ => ?_) fun _ => ?_; refine lessonFault_kept ?_
  assumption; refine emitDone_kept ?_; assumption

theorem staleFault_kept (h : Kept b s0 s) : Kept b s0 (staleFault s x1 x2) := by
  unfold staleFault
  refine lessonFaultSeq_kept ?_; assumption

theorem readLocal_kept (h : Kept b s0 s) : Kept b s0 (readLocal s x1 x2 x3 x4 x5).1 := by
  show KeptAt Prod.fst _ _ _
  unfold readLocal
  extract_lets +onlyGivenNames y1 y2 y3 y4; refine KeptAt.cond (fun _ => ?_) fun _ => ?_; show Kept _ _ _
  dsimp -zeta only; assumption; refine KeptAt.fold (fun _ _ _ => ?_) ?_; split
  refine KeptAt.cond (fun _ => ?_) fun _ => ?_; show Kept _ _ _; dsimp -zeta only; assumption
  extract_lets +onlyGivenNames y5 y6; split; refine KeptAt.cond (fun _ => ?_) fun _ => ?_; split; show Kept _ _ _
  dsimp -zeta only; refine countHbm_kept ?_; refine Kept.fst (by assumption) ?_; show KeptAt Prod.fst _ _ _
  refine KeptAt.cond (fun _ => ?_) fun _ => ?_; show Kept _ _ _; refine commonsRead_kept ?_; assumption
  show Kept _ _ _; refine hbmRead_kept ?_; assumption; split; show Kept _ _ _; dsimp -zeta only
  refine Kept.fst (by assumption) ?_; refine serveInside_kept ?_; assumption; show Kept _ _ _; dsimp -zeta only
  refine Kept.fst (by assumption) ?_; refine serveInside_kept ?_; assumption; show Kept _ _ _; dsimp -zeta only
  assumption; show Kept _ _ _; dsimp -zeta only; assumption

theorem chartStored_kept (h : Kept b s0 s) : Kept b s0 (chartStored s x1 x2 x3 x4 x5 x6 x7) := by
  unfold chartStored
  extract_lets +onlyGivenNames y1 y2 y3 y4 y5; refine Kept.cut (p := Kept b s0 y5) ?_ fun _ => ?_; unfold y5
  refine Kept.fold (fun _ _ _ => ?_) ?_; split; refine write_kept ?_; assumption; assumption; assumption
  clear_value y5; refine Kept.cond (fun _ => ?_) fun _ => ?_; assumption; refine Kept.fold (fun _ _ _ => ?_) ?_
  extract_lets +onlyGivenNames y6; refine Kept.cond (fun _ => ?_) fun _ => ?_; assumption; refine widenSummary_kept ?_
  assumption; assumption

theorem writeLines_kept (h : Kept b s0 s) : Kept b s0 (writeLines s x1 x2 x3 x4 x5).1 := by
  show KeptAt Prod.fst _ _ _
  unfold writeLines
  extract_lets +onlyGivenNames y1 y2 y3 y4 y5; refine KeptAt.cond (fun _ => ?_) fun _ => ?_; show Kept _ _ _
  dsimp -zeta only; assumption; refine KeptAt.fold (fun _ _ _ => ?_) ?_; split
  refine KeptAt.cond (fun _ => ?_) fun _ => ?_; show Kept _ _ _; dsimp -zeta only; assumption
  extract_lets +onlyGivenNames y6 y7 y8; refine KeptAt.cond (fun _ => ?_) fun _ => ?_; show Kept _ _ _
  dsimp -zeta only; assumption; refine KeptAt.cond (fun _ => ?_) fun _ => ?_; split; show Kept _ _ _; dsimp -zeta only
  refine countHbm_kept ?_; refine Kept.fst (by assumption) ?_; refine serveInside_kept ?_; assumption; show Kept _ _ _
  dsimp -zeta only; refine Kept.fst (by assumption) ?_; refine serveInside_kept ?_; assumption; split; show Kept _ _ _
  dsimp -zeta only; refine Kept.fst (by assumption) ?_; refine sendOut_kept ?_; assumption; show Kept _ _ _
  dsimp -zeta only; refine updStream_kept ?_; refine Kept.fst (by assumption) ?_; refine sendOut_kept ?_; assumption
  show Kept _ _ _; dsimp -zeta only; assumption

theorem storeData_kept (h : Kept b s0 s) : Kept b s0 (storeData s x1 x2 x3 x4).1 := by
  show KeptAt Prod.fst _ _ _
  unfold storeData
  extract_lets +onlyGivenNames y1; refine KeptAt.cond (fun _ => ?_) fun _ => ?_; split; show Kept _ _ _
  dsimp -zeta only; refine updStream_kept ?_; refine Kept.fst (by assumption) ?_; refine rdSp_kept ?_; assumption
  show Kept _ _ _; dsimp -zeta only; refine Kept.fst (by assumption) ?_; refine rdSp_kept ?_; assumption
  extract_lets +onlyGivenNames y2; refine KeptAt.cond (fun _ => ?_) fun _ => ?_; show Kept _ _ _; dsimp -zeta only
  assumption; extract_lets +onlyGivenNames y3; refine Kept.cut (p := Kept b s0 y3) ?_ fun _ => ?_; unfold y3
  refine updLesson_kept ?_; assumption; clear_value y3; show Kept _ _ _; dsimp -zeta only
  refine Kept.cond (fun _ => ?_) fun _ => ?_; refine setFlag_kept ?_; assumption; assumption

theorem emitStoreGo_kept (h : Kept b s0 s) : Kept b s0 (emitStore.go x1 x2 x3 s x4 x5 x6 x7 x8 x9 x10 x11) := by
  unfold emitStore.go
  split; refine Kept.fst (by assumption) ?_; refine storeData_kept ?_; assumption
  extract_lets +onlyGivenNames y1 y2 y3; refine Kept.cut (p := Kept b s0 y3) ?_ fun _ => ?_; unfold y3
  refine bump_kept ?_; refine Kept.fst (by assumption) ?_; refine storeData_kept ?_; assumption; clear_value y3
  extract_lets +onlyGivenNames y4; refine Kept.cut (p := Kept b s0 y4) ?_ fun _ => ?_; unfold y4; refine bump_kept ?_
  assumption; clear_value y4; split; refine Kept.cond (fun _ => ?_) fun _ => ?_; refine lessonFault_kept ?_
  refine Kept.fst (by assumption) ?_; refine writeLines_kept ?_; assumption; refine emitDone_kept ?_; split
  refine chartStored_kept ?_; refine Kept.fst (by assumption) ?_; refine writeLines_kept ?_; assumption
  refine Kept.fst (by assumption) ?_; refine writeLines_kept ?_; assumption; refine lessonFaultSeq_kept ?_
  refine Kept.fst (by assumption) ?_; refine writeLines_kept ?_; assumption; refine lessonFault_kept ?_
  refine Kept.fst (by assumption) ?_; refine storeData_kept ?_; assumption

theorem emitStore_kept (h : Kept b s0 s) : Kept b s0 (emitStore s x1 x2 x3) := by
  unfold emitStore
  extract_lets +onlyGivenNames t id i len g seq lay page
  clear_value page
  split
  · exact Kept.cond (fun _ => lessonFaultSeq_kept h) fun _ => emitStoreGo_kept h
  · exact emitStoreGo_kept h

theorem go_kept (h : Kept b s0 s) : Kept b s0 (emitStore.go x1 x2 x3 s x4 x5 x6 x7 x8 x9 x10 x11) := by
  unfold emitStore.go
  split; refine Kept.fst (by assumption) ?_; refine storeData_kept ?_; assumption
  extract_lets +onlyGivenNames y1 y2 y3; refine Kept.cut (p := Kept b s0 y3) ?_ fun _ => ?_; unfold y3
  refine bump_kept ?_; refine Kept.fst (by assumption) ?_; refine storeData_kept ?_; assumption; clear_value y3
  extract_lets +onlyGivenNames y4; refine Kept.cut (p := Kept b s0 y4) ?_ fun _ => ?_; unfold y4; refine bump_kept ?_
  assumption; clear_value y4; split; refine Kept.cond (fun _ => ?_) fun _ => ?_; refine lessonFault_kept ?_
  refine Kept.fst (by assumption) ?_; refine writeLines_kept ?_; assumption; refine emitDone_kept ?_; split
  refine chartStored_kept ?_; refine Kept.fst (by assumption) ?_; refine writeLines_kept ?_; assumption
  refine Kept.fst (by assumption) ?_; refine writeLines_kept ?_; assumption; refine lessonFaultSeq_kept ?_
  refine Kept.fst (by assumption) ?_; refine writeLines_kept ?_; assumption; refine lessonFault_kept ?_
  refine Kept.fst (by assumption) ?_; refine storeData_kept ?_; assumption

theorem emitLoad_kept (h : Kept b s0 s) : Kept b s0 (emitLoad s x1 x2 x3) := by
  unfold emitLoad
  extract_lets +onlyGivenNames y1 y2 y3 y4 y5 y6 y7; refine Kept.cond (fun _ => ?_) fun _ => ?_
  refine lessonFault_kept ?_; assumption; refine Kept.cond (fun _ => ?_) fun _ => ?_; split; refine deliver_kept ?_
  refine Kept.fst (by assumption) ?_; refine readLocal_kept ?_; assumption; refine lessonFault_kept ?_
  refine Kept.fst (by assumption) ?_; refine readLocal_kept ?_; assumption; extract_lets +onlyGivenNames y8; split
  refine Kept.cond (fun _ => ?_) fun _ => ?_; refine Kept.fst (by assumption) ?_; show KeptAt Prod.fst _ _ _
  refine KeptAt.fold (fun _ _ _ => ?_) ?_; split; refine KeptAt.cond (fun _ => ?_) fun _ => ?_; show Kept _ _ _
  dsimp -zeta only; assumption; extract_lets +onlyGivenNames y9 y10; split; show Kept _ _ _; dsimp -zeta only
  refine Kept.fst (by assumption) ?_; refine sendOut_kept ?_; assumption; show Kept _ _ _; dsimp -zeta only
  refine updStream_kept ?_; refine Kept.fst (by assumption) ?_; refine sendOut_kept ?_; assumption; show Kept _ _ _
  dsimp -zeta only; assumption; refine lessonFaultSeq_kept ?_; refine Kept.fst (by assumption) ?_
  show KeptAt Prod.fst _ _ _; refine KeptAt.fold (fun _ _ _ => ?_) ?_; split
  refine KeptAt.cond (fun _ => ?_) fun _ => ?_; show Kept _ _ _; dsimp -zeta only; assumption
  extract_lets +onlyGivenNames y11 y12; split; show Kept _ _ _; dsimp -zeta only; refine Kept.fst (by assumption) ?_
  refine sendOut_kept ?_; assumption; show Kept _ _ _; dsimp -zeta only; refine updStream_kept ?_
  refine Kept.fst (by assumption) ?_; refine sendOut_kept ?_; assumption; show Kept _ _ _; dsimp -zeta only
  assumption

theorem execEmit_kept (h : Kept b s0 s) : KeptN b s0 (execEmit x1 x2 s) := by
  unfold execEmit
  extract_lets +onlyGivenNames y1; refine KeptN.next ?_; refine Kept.cond (fun _ => ?_) fun _ => ?_; assumption; split
  assumption; refine Kept.cond (fun _ => ?_) fun _ => ?_; assumption; refine Kept.cond (fun _ => ?_) fun _ => ?_
  refine staleFault_kept ?_; assumption; refine Kept.cond (fun _ => ?_) fun _ => ?_; refine emitStore_kept ?_
  assumption; refine emitLoad_kept ?_; assumption

theorem streamReply_kept (h : Kept b s0 s) : Kept b s0 (streamReply s x1 x2 x3 x4 x5 x6) := by
  unfold streamReply
  refine Kept.cond (fun _ => ?_) fun _ => ?_; refine Kept.cond (fun _ => ?_) fun _ => ?_; assumption
  refine lessonFault_kept ?_; assumption; extract_lets +onlyGivenNames y1 y2
  refine Kept.cond (fun _ => ?_) fun _ => ?_; refine discard_kept ?_; assumption
  refine Kept.cond (fun _ => ?_) fun _ => ?_; refine staleFault_kept ?_; refine discard_kept ?_; assumption
  refine Kept.cond (fun _ => ?_) fun _ => ?_; extract_lets +onlyGivenNames y3; refine lessonFaultSeq_kept ?_
  assumption; refine Kept.cond (fun _ => ?_) fun _ => ?_; refine updStream_kept ?_; assumption
  extract_lets +onlyGivenNames y4 y5 y6; refine Kept.cut (p := Kept b s0 y6) ?_ fun _ => ?_; unfold y6
  refine updStream_kept ?_; assumption; clear_value y6; refine Kept.cond (fun _ => ?_) fun _ => ?_; assumption; split
  refine deliver_kept ?_; assumption; assumption

theorem streamCount_kept (h : Kept b s0 s) : Kept b s0 (streamCount s x1 x2 x3) := by
  unfold streamCount
  split; refine Kept.cond (fun _ => ?_) fun _ => ?_; refine Kept.fst (by assumption) ?_; refine counterApply_kept ?_
  assumption; refine faultCtx_kept ?_; refine Kept.fst (by assumption) ?_; refine counterApply_kept ?_; assumption

theorem execMark_kept (h : Kept b s0 s) : KeptN b s0 (execMark x1 x2 s) := by
  unfold execMark
  extract_lets +onlyGivenNames y1; refine KeptN.next ?_; refine Kept.cond (fun _ => ?_) fun _ => ?_; assumption; split
  assumption; refine streamCount_kept ?_; refine updStream_kept ?_; assumption

theorem execWait_kept (h : Kept b s0 s) : KeptN b s0 (execWait x1 x2 s) := by
  unfold execWait
  extract_lets +onlyGivenNames y1 y2 y3; refine KeptN.next ?_; refine Kept.cond (fun _ => ?_) fun _ => ?_; assumption
  refine Kept.cond (fun _ => ?_) fun _ => ?_; refine settleAll_kept ?_; refine updCore_kept ?_
  refine updStream_kept ?_; assumption; refine settleAll_kept ?_; refine updCore_kept ?_; assumption

theorem ringLoaded_kept (h : Kept b s0 s) : Kept b s0 (ringLoaded s x1 x2 x3 x4) := by
  unfold ringLoaded
  split; assumption; extract_lets +onlyGivenNames y1; refine Kept.cond (fun _ => ?_) fun _ => ?_
  refine lessonFault_kept ?_; assumption; extract_lets +onlyGivenNames y2 y3 y4; refine updCore_kept ?_; assumption

theorem execStreamEnd_kept (h : Kept b s0 s) : KeptN b s0 (execStreamEnd x1 x2 s) := by
  unfold execStreamEnd
  extract_lets +onlyGivenNames y1 y2; refine KeptN.next ?_; refine Kept.cond (fun _ => ?_) fun _ => ?_; assumption
  split; assumption; refine Kept.cond (fun _ => ?_) fun _ => ?_; refine staleFault_kept ?_; assumption
  extract_lets +onlyGivenNames y3; refine Kept.cut (p := Kept b s0 y3) ?_ fun _ => ?_; unfold y3
  refine streamRelease_kept ?_; assumption; clear_value y3; extract_lets +onlyGivenNames y4
  refine Kept.cut (p := Kept b s0 y4) ?_ fun _ => ?_; unfold y4; refine Kept.cond (fun _ => ?_) fun _ => ?_
  refine streamCount_kept ?_; assumption; assumption; clear_value y4; refine pumpSource_kept ?_
  refine ringLoaded_kept ?_; assumption

end Sys2Proof.Machine
end

