-- ==== Sys2Proof/Laws/KeptRings.lean ====
section
/-!
SUPPORT. What each operation of Machine/Rings.lean keeps (`Kept`).
-/

namespace Sys2Proof.Machine

open Sys2Proof

variable {b : Bool} {s0 s t : State}

theorem setPass_kept (h : Kept b s0 s) : Kept b s0 (setPass s x1 x2) := by
  unfold setPass
  refine updCore_kept ?_; assumption

theorem ringEmpty_kept (h : Kept b s0 s) : Kept b s0 (ringEmpty s x1 x2) := by
  unfold ringEmpty
  refine Kept.fold (fun _ _ _ => ?_) ?_; extract_lets +onlyGivenNames y1 y2 y3
  refine Kept.cut (p := Kept b s0 y3) ?_ fun _ => ?_; unfold y3; refine updCore_kept ?_; assumption; clear_value y3
  refine Kept.cond (fun _ => ?_) fun _ => ?_; refine Kept.fold (fun _ _ _ => ?_) ?_; refine lessonFault_kept ?_
  assumption; assumption; assumption; assumption

theorem sendSlice_kept (h : Kept b s0 s) : Kept b s0 (sendSlice s x1 x2 x3 x4 x5) := by
  unfold sendSlice
  refine Kept.fold (fun _ _ _ => ?_) ?_; extract_lets +onlyGivenNames y1; subst y1; extract_lets +onlyGivenNames y2
  subst y2; extract_lets +onlyGivenNames y3; subst y3; extract_lets +onlyGivenNames y4; subst y4; split; split
  refine write_kept ?_; refine Kept.fst (by assumption) ?_; refine read_kept ?_; assumption
  extract_lets +onlyGivenNames y5; refine Kept.cut (p := Kept b s0 y5) ?_ fun _ => ?_; unfold y5
  refine weightFill_kept ?_; refine Kept.fst (by assumption) ?_; refine read_kept ?_; assumption; clear_value y5
  refine Kept.cond (fun _ => ?_) fun _ => ?_; refine bump_kept ?_; refine refetchLine_kept ?_; assumption; assumption
  assumption

theorem execRingPass_kept (h : Kept b s0 s) : KeptN b s0 (execRingPass x1 x2 s) := by
  unfold execRingPass
  extract_lets +onlyGivenNames y1; refine KeptN.next ?_; split; assumption; extract_lets +onlyGivenNames y2 y3 y4
  split; extract_lets +onlyGivenNames y5; refine Kept.cond (fun _ => ?_) fun _ => ?_; assumption
  extract_lets +onlyGivenNames y6 y7; refine Kept.cut (p := Kept b s0 y7) ?_ fun _ => ?_; unfold y7
  refine setPass_kept ?_; assumption; clear_value y7; extract_lets +onlyGivenNames y8
  refine Kept.cond (fun _ => ?_) fun _ => ?_; refine lessonFault_kept ?_; assumption
  refine Kept.cond (fun _ => ?_) fun _ => ?_; assumption; extract_lets +onlyGivenNames y9 y10
  refine Kept.cut (p := Kept b s0 y10) ?_ fun _ => ?_; unfold y10; refine sendSlice_kept ?_; assumption
  clear_value y10; extract_lets +onlyGivenNames y11 y12; refine Kept.cut (p := Kept b s0 y12) ?_ fun _ => ?_
  unfold y12; refine setPass_kept ?_; assumption; clear_value y12; split; refine setPass_kept ?_; assumption
  assumption; refine lessonFault_kept ?_; assumption; assumption

theorem execRingPassComplete_kept (h : Kept b s0 s) : KeptN b s0 (execRingPassComplete x1 x2 x3 s) := by
  unfold execRingPassComplete
  extract_lets +onlyGivenNames y1; refine KeptN.next ?_; split; split; refine Kept.cond (fun _ => ?_) fun _ => ?_
  assumption; refine bump_kept ?_; refine updCore_kept ?_; assumption; assumption; assumption

end Sys2Proof.Machine
end

