-- ==== Sys2Proof/Laws/KeptValues.lean ====
section
/-!
SUPPORT. What each operation of Machine/Values.lean keeps (`Kept`).
-/

namespace Sys2Proof.Machine

open Sys2Proof

variable {b : Bool} {s0 s t : State}

theorem moveTable_wf {p : Nat × Byte → Bool} {a : Nat × Desc → Nat} (m : FMap Byte) (l : FMap Desc)
    (h : Memory.wf m = true) :
    Memory.wf (l.foldl (fun m p => memSetAll m (a p) p.2.bytes) (m.filter p)) = true := by
  have g : Memory.wf (m.filter p) = true := Memory.wf_filter _ h
  generalize m.filter p = k at g
  induction l generalizing k with
  | nil => exact g
  | cons x r ih =>
    rw [List.foldl_cons]
    exact ih (memSetAll k (a x) x.2.bytes) (Memory.wf_memSetAll (a x) x.2.bytes g)

theorem moveTable_lit {m c} (h : Kept b s0 s) (hm : Memory.wf s.mem = true → Memory.wf m = true) :
    Kept b s0 { s with mem := m, charts := c } :=
  h.trans ⟨hm, rfl, rfl, rfl, id, List.prefix_rfl, id, fun _ _ h => h, fun _ _ _ h => h, fun _ => rfl⟩

theorem moveTable_kept (h : Kept b s0 s) : Kept b s0 (moveTable s x1) := by
  unfold moveTable
  extract_lets from_ m1 m2 seqs
  refine moveTable_lit h fun x => ?_
  exact moveTable_wf _ _ x

theorem applySets_kept (h : Kept b s0 s) : Kept b s0 (applySets s) := by
  unfold applySets
  extract_lets +onlyGivenNames y1 y2 y3 y4 y5; refine Kept.cut (p := Kept b s0 y5) ?_ fun _ => ?_; unfold y5
  refine Kept.cond (fun _ => ?_) fun _ => ?_; assumption; refine moveTable_kept ?_; assumption; clear_value y5
  refine Kept.lit ?_ rfl rfl rfl rfl rfl; assumption

theorem clampChunk_kept (h : Kept b s0 s) : Kept b s0 (clampChunk s) := by
  unfold clampChunk
  refine Kept.cond (fun _ => ?_) fun _ => ?_; refine setEnt_kept ?_; assumption; assumption

theorem takeEff_kept (h : Kept b s0 s) : Kept b s0 (takeEff s x1 x2) := by
  unfold takeEff
  extract_lets +onlyGivenNames y1 y2 y3; refine Kept.cut (p := Kept b s0 y3) ?_ fun _ => ?_; unfold y3
  refine Kept.lit ?_ rfl rfl rfl rfl rfl; assumption; clear_value y3; split; assumption
  refine Kept.cond (fun _ => ?_) fun _ => ?_; refine clampChunk_kept ?_; assumption
  refine Kept.cond (fun _ => ?_) fun _ => ?_; assumption; refine Kept.cond (fun _ => ?_) fun _ => ?_
  refine applyPinWays_kept ?_; assumption; refine Kept.cond (fun _ => ?_) fun _ => ?_; refine ringEmpty_kept ?_
  assumption; refine Kept.cond (fun _ => ?_) fun _ => ?_; refine applySets_kept ?_; assumption
  refine Kept.cond (fun _ => ?_) fun _ => ?_; refine rcPropagate_kept ?_; assumption; assumption

theorem takeWrite_kept (h : Kept b s0 s) : Kept b s0 (takeWrite s x1 x2) := by
  unfold takeWrite
  refine takeEff_kept ?_; refine Kept.cond (fun _ => ?_) fun _ => ?_; refine Kept.lit ?_ rfl rfl rfl rfl rfl
  assumption; assumption

end Sys2Proof.Machine
end

