-- ==== Sys2Proof/Laws/KeptOverlays.lean ====
section
/-!
SUPPORT. What each operation of Machine/Overlays.lean keeps (`Kept`).
-/

namespace Sys2Proof.Machine

open Sys2Proof

variable {b : Bool} {s0 s t : State}

theorem fetchImage_kept (h : Kept b s0 s) : Kept b s0 (fetchImage s x1 x2 x3).1 := by
  show KeptAt Prod.fst _ _ _
  unfold fetchImage
  split; refine KeptAt.cond (fun _ => ?_) fun _ => ?_; show Kept _ _ _; dsimp -zeta only
  refine Kept.fst (by assumption) ?_; refine fetchGlobal_kept ?_; assumption; extract_lets +onlyGivenNames y1
  refine KeptAt.cond (fun _ => ?_) fun _ => ?_; show Kept _ _ _; dsimp -zeta only; refine Kept.fst (by assumption) ?_
  refine fetchGlobal_kept ?_; assumption; split; refine KeptAt.cond (fun _ => ?_) fun _ => ?_; show Kept _ _ _
  dsimp -zeta only; refine Kept.fst (by assumption) ?_; refine fetchGlobal_kept ?_; refine Kept.fst (by assumption) ?_
  refine fetchGlobal_kept ?_; assumption; refine KeptAt.cond (fun _ => ?_) fun _ => ?_; show Kept _ _ _
  dsimp -zeta only; refine Kept.fst (by assumption) ?_; refine fetchGlobal_kept ?_; refine Kept.fst (by assumption) ?_
  refine fetchGlobal_kept ?_; assumption; show Kept _ _ _; dsimp -zeta only; refine Kept.fst (by assumption) ?_
  refine fetchGlobal_kept ?_; refine Kept.fst (by assumption) ?_; refine fetchGlobal_kept ?_; assumption

theorem updOvl_kept (h : Kept b s0 s) : Kept b s0 (State.updOvl s x1) := by
  unfold State.updOvl
  refine Kept.lit ?_ rfl rfl rfl rfl rfl; assumption

theorem loadOverlay_kept (h : Kept b s0 s) : Kept b s0 (loadOverlay s x1 x2).2 := by
  show KeptAt Prod.snd _ _ _
  unfold loadOverlay
  split; refine KeptAt.cond (fun _ => ?_) fun _ => ?_; show Kept _ _ _; dsimp -zeta only
  refine Kept.fst (by assumption) ?_; refine fetchImage_kept ?_; assumption; split; extract_lets +onlyGivenNames y1
  refine KeptAt.cond (fun _ => ?_) fun _ => ?_; show Kept _ _ _; dsimp -zeta only; refine Kept.fst (by assumption) ?_
  refine fetchImage_kept ?_; assumption; refine KeptAt.cond (fun _ => ?_) fun _ => ?_; show Kept _ _ _
  dsimp -zeta only; refine Kept.fst (by assumption) ?_; refine fetchImage_kept ?_; assumption; show Kept _ _ _
  dsimp -zeta only; refine l2Written_kept ?_; refine updOvl_kept ?_; refine Kept.fst (by assumption) ?_
  refine fetchImage_kept ?_; assumption; show Kept _ _ _; dsimp -zeta only; refine Kept.fst (by assumption) ?_
  refine fetchImage_kept ?_; assumption

theorem unloadOverlay_kept (h : Kept b s0 s) : Kept b s0 (unloadOverlay s x1).2 := by
  show KeptAt Prod.snd _ _ _
  unfold unloadOverlay
  refine KeptAt.cond (fun _ => ?_) fun _ => ?_; show Kept _ _ _; dsimp -zeta only; assumption
  refine KeptAt.cond (fun _ => ?_) fun _ => ?_; show Kept _ _ _; dsimp -zeta only; assumption; show Kept _ _ _
  dsimp -zeta only; refine updOvl_kept ?_; assumption

theorem overlayCommand_kept (h : Kept b s0 s) : Kept b s0 (overlayCommand s x1 x2).2 := by
  show KeptAt Prod.snd _ _ _
  unfold overlayCommand
  extract_lets +onlyGivenNames y1 y2; refine KeptAt.cond (fun _ => ?_) fun _ => ?_; show Kept _ _ _; dsimp -zeta only
  assumption; refine KeptAt.cond (fun _ => ?_) fun _ => ?_; show Kept _ _ _; refine loadOverlay_kept ?_; assumption
  refine KeptAt.cond (fun _ => ?_) fun _ => ?_; show Kept _ _ _; refine unloadOverlay_kept ?_; assumption
  refine KeptAt.cond (fun _ => ?_) fun _ => ?_; show Kept _ _ _; dsimp -zeta only; assumption; show Kept _ _ _
  dsimp -zeta only; refine updOvl_kept ?_; assumption

theorem formEffective_kept (h : Kept b s0 s) : Kept b s0 (formEffective s) := by
  unfold formEffective
  extract_lets +onlyGivenNames y1 y2 y3 y4 y5 y6; refine Kept.fold (fun _ _ _ => ?_) ?_; refine takeEff_kept ?_
  assumption; assumption

theorem tableLoads_kept (h : Kept b s0 s) : Kept b s0 (tableLoads s x1 x2) := by
  unfold tableLoads
  refine Kept.fold (fun _ _ _ => ?_) ?_; split; refine Kept.fold (fun _ _ _ => ?_) ?_
  refine Kept.cond (fun _ => ?_) fun _ => ?_; refine raise_kept ?_; refine setCnt_kept ?_; assumption
  extract_lets +onlyGivenNames y1; refine Kept.cut (p := Kept b s0 y1) ?_ fun _ => ?_; unfold y1; refine write_kept ?_
  assumption; clear_value y1; split; refine Kept.cond (fun _ => ?_) fun _ => ?_; refine Kept.snd (by assumption) ?_
  refine sfuLoad_kept ?_; assumption; refine raise_kept ?_; refine setCnt_kept ?_; refine Kept.snd (by assumption) ?_
  refine sfuLoad_kept ?_; assumption; refine Kept.fst (by assumption) ?_; refine fetchGlobal_kept ?_; assumption
  assumption

theorem applyOverlay_kept (h : Kept b s0 s) : Kept b s0 (applyOverlay s x1 x2).2 := by
  show KeptAt Prod.snd _ _ _
  unfold applyOverlay
  refine KeptAt.cond (fun _ => ?_) fun _ => ?_; show Kept _ _ _; dsimp -zeta only; refine formEffective_kept ?_
  refine updOvl_kept ?_; assumption; split; show Kept _ _ _; dsimp -zeta only; assumption; split
  refine KeptAt.cond (fun _ => ?_) fun _ => ?_; show Kept _ _ _; dsimp -zeta only; refine Kept.fst (by assumption) ?_
  refine l2Read_kept ?_; assumption; refine KeptAt.cond (fun _ => ?_) fun _ => ?_
  refine KeptAt.cond (fun _ => ?_) fun _ => ?_; show Kept _ _ _; dsimp -zeta only; refine Kept.fst (by assumption) ?_
  refine l2Read_kept ?_; assumption; show Kept _ _ _; dsimp -zeta only; refine tableLoads_kept ?_
  refine formEffective_kept ?_; refine updOvl_kept ?_; refine Kept.fst (by assumption) ?_; refine l2Read_kept ?_
  assumption; refine KeptAt.cond (fun _ => ?_) fun _ => ?_; show Kept _ _ _; dsimp -zeta only
  refine Kept.fst (by assumption) ?_; refine l2Read_kept ?_; assumption; refine KeptAt.cond (fun _ => ?_) fun _ => ?_
  show Kept _ _ _; dsimp -zeta only; refine updOvl_kept ?_; refine Kept.fst (by assumption) ?_; refine l2Read_kept ?_
  assumption; extract_lets +onlyGivenNames y1; refine KeptAt.cond (fun _ => ?_) fun _ => ?_; show Kept _ _ _
  dsimp -zeta only; refine Kept.fst (by assumption) ?_; refine l2Read_kept ?_; assumption; show Kept _ _ _
  dsimp -zeta only; refine updOvl_kept ?_; refine Kept.fst (by assumption) ?_; refine l2Read_kept ?_; assumption

theorem applyBase_kept (h : Kept b s0 s) : Kept b s0 (applyBase s x1).2 := by
  show KeptAt Prod.snd _ _ _
  unfold applyBase
  extract_lets +onlyGivenNames y1; split; extract_lets +onlyGivenNames y2
  refine Kept.cut (p := Kept b s0 y2) ?_ fun _ => ?_; unfold y2; refine Kept.fold (fun _ _ _ => ?_) ?_
  refine Kept.lit ?_ rfl rfl rfl rfl rfl; assumption; assumption; clear_value y2; extract_lets +onlyGivenNames y3 y4
  refine Kept.cut (p := Kept b s0 y4) ?_ fun _ => ?_; unfold y4; refine Kept.fold (fun _ _ _ => ?_) ?_
  refine Kept.cond (fun _ => ?_) fun _ => ?_; assumption; refine takeEff_kept ?_; assumption; assumption
  clear_value y4; extract_lets +onlyGivenNames y5 y6; refine Kept.cut (p := Kept b s0 y6) ?_ fun _ => ?_; unfold y6
  refine Kept.cond (fun _ => ?_) fun _ => ?_; refine Kept.lit ?_ rfl rfl rfl rfl rfl; assumption; assumption
  clear_value y6; show Kept _ _ _; dsimp -zeta only; refine formEffective_kept ?_; assumption; show Kept _ _ _
  dsimp -zeta only; assumption

theorem baseApply_kept (h : Kept b s0 s) : Kept b s0 (baseApply s x1).2 := by
  show KeptAt Prod.snd _ _ _
  unfold baseApply
  split; extract_lets +onlyGivenNames y1; refine KeptAt.cond (fun _ => ?_) fun _ => ?_; show Kept _ _ _
  dsimp -zeta only; refine setCnt_kept ?_; refine Kept.fst (by assumption) ?_; refine fetchImage_kept ?_; assumption
  refine KeptAt.cond (fun _ => ?_) fun _ => ?_; split; show Kept _ _ _; dsimp -zeta only; refine setCnt_kept ?_
  refine Kept.snd (by assumption) ?_; refine applyBase_kept ?_; refine Kept.fst (by assumption) ?_
  refine fetchImage_kept ?_; assumption; show Kept _ _ _; dsimp -zeta only; refine updOvl_kept ?_
  refine Kept.fst (by assumption) ?_; refine fetchImage_kept ?_; assumption

theorem ccPut_kept (h : Kept b s0 s) : Kept b s0 (ccPut s x1 x2).2 := by
  show KeptAt Prod.snd _ _ _
  unfold ccPut
  extract_lets +onlyGivenNames y1; refine KeptAt.cond (fun _ => ?_) fun _ => ?_; split; show Kept _ _ _
  dsimp -zeta only; refine Kept.fst (by assumption) ?_; refine serveInside_kept ?_; assumption; split; show Kept _ _ _
  dsimp -zeta only; refine Kept.fst (by assumption) ?_; refine sendOut_kept ?_; assumption

theorem ccPutAll_kept (h : Kept b s0 s) : Kept b s0 (ccPutAll s x1 x2).2 := by
  show KeptAt Prod.snd _ _ _
  unfold ccPutAll
  refine KeptAt.fold (fun _ _ _ => ?_) ?_; refine KeptAt.cond (fun _ => ?_) fun _ => ?_; show Kept _ _ _
  refine ccPut_kept ?_; assumption; assumption; show Kept _ _ _; dsimp -zeta only; assumption

theorem baseSave_kept (h : Kept b s0 s) : Kept b s0 (baseSave s).2 := by
  show KeptAt Prod.snd _ _ _
  unfold baseSave
  extract_lets +onlyGivenNames y1; split; extract_lets +onlyGivenNames y2
  refine Kept.cut (p := Kept b s0 y2) ?_ fun _ => ?_; unfold y2; refine setCnt_kept ?_
  refine Kept.snd (by assumption) ?_; refine ccPutAll_kept ?_; assumption; clear_value y2; show Kept _ _ _
  dsimp -zeta only; refine Kept.cond (fun _ => ?_) fun _ => ?_; refine setCnt_kept ?_; assumption; assumption

theorem baseCommand_kept (h : Kept b s0 s) : Kept b s0 (baseCommand s x1 x2).2 := by
  show KeptAt Prod.snd _ _ _
  unfold baseCommand
  refine KeptAt.cond (fun _ => ?_) fun _ => ?_; show Kept _ _ _; refine baseApply_kept ?_; assumption
  refine KeptAt.cond (fun _ => ?_) fun _ => ?_; show Kept _ _ _; refine baseSave_kept ?_; assumption; show Kept _ _ _
  dsimp -zeta only; assumption

theorem serveCopy_kept (h : Kept b s0 s) : Kept b s0 (serveCopy s x1 x2 x3 x4) := by
  unfold serveCopy
  split; extract_lets +onlyGivenNames y1 y2; refine Kept.cond (fun _ => ?_) fun _ => ?_
  refine Kept.fst (by assumption) ?_; refine read_kept ?_; assumption; refine Kept.cond (fun _ => ?_) fun _ => ?_
  refine write_kept ?_; refine Kept.fst (by assumption) ?_; refine read_kept ?_; assumption; refine raise_kept ?_
  refine Kept.fst (by assumption) ?_; refine read_kept ?_; assumption

theorem writeServing_kept (h : Kept b s0 s) : Kept b s0 (writeServing s) := by
  unfold writeServing
  extract_lets +onlyGivenNames y1; refine Kept.cut (p := Kept b s0 y1) ?_ fun _ => ?_; unfold y1
  refine Kept.fold (fun _ _ _ => ?_) ?_; refine bump_kept ?_; refine serveCopy_kept ?_; refine serveCopy_kept ?_
  assumption; assumption; clear_value y1; refine Kept.lit ?_ rfl rfl rfl rfl rfl; assumption

theorem takePend_kept {f : State → DictPend → State} (hf : ∀ s p, Kept b s0 s → Kept b s0 (f s p))
    (h : Kept b s0 s) : Kept b s0 (takePend s x1 f) := by
  unfold takePend
  exact Kept.fold hf (Kept.lit h rfl rfl rfl rfl rfl)

theorem action2_kept (h : Kept b s0 s) : Kept b s0 (action2 s x1) := by
  unfold action2
  extract_lets +onlyGivenNames y1; refine Kept.cut (p := Kept b s0 y1) ?_ fun _ => ?_; unfold y1; apply takePend_kept
  intro _; intro _; intro _; refine takeWrite_kept ?_; assumption; assumption; clear_value y1
  extract_lets +onlyGivenNames y2; refine Kept.cut (p := Kept b s0 y2) ?_ fun _ => ?_; unfold y2; split; assumption
  split; refine setCnt_kept ?_; refine Kept.snd (by assumption) ?_; refine applyBase_kept ?_; refine updOvl_kept ?_
  assumption; clear_value y2; extract_lets +onlyGivenNames y3 y4; refine Kept.cut (p := Kept b s0 y4) ?_ fun _ => ?_
  unfold y4; refine Kept.fold (fun _ _ _ => ?_) ?_; split; extract_lets +onlyGivenNames y5
  refine Kept.cut (p := Kept b s0 y5) ?_ fun _ => ?_; unfold y5; refine setCnt_kept ?_
  refine Kept.snd (by assumption) ?_; refine applyOverlay_kept ?_; assumption; clear_value y5
  refine Kept.cond (fun _ => ?_) fun _ => ?_; assumption; refine raise_kept ?_; assumption; refine updOvl_kept ?_
  assumption; clear_value y4; refine writeServing_kept ?_; assumption

end Sys2Proof.Machine
end

