-- ==== Sys2Proof/Laws/KeptScheduler.lean ====
section
/-!
SUPPORT. What each operation of Machine/Scheduler.lean keeps (`Kept`).
-/

namespace Sys2Proof.Machine

open Sys2Proof

variable {b : Bool} {s0 s t : State}

theorem seqReport_kept (h : Kept b s0 s) : Kept b s0 (seqReport s x1 x2) := by
  unfold seqReport
  refine completeCmd_kept ?_; assumption

theorem seqAdmit_lit {c : State} (h : Kept b s0 s) (e : c.sched.step = s.sched.step) {l : List Nat} :
    Kept b s0 { s with sched := { c.sched with admitOrder := l } } := Kept.lit h rfl e rfl rfl rfl

theorem seqAdmit_kept (h : Kept b s0 s) : Kept b s0 (seqAdmit s x1 x2 x3 x4 x5 x6 x7).2 := by
  show KeptAt Prod.snd _ _ _
  unfold seqAdmit
  extract_lets +onlyGivenNames n old
  refine KeptAt.cond (fun _ => h) fun _ => ?_
  refine KeptAt.cond (fun _ => h) fun _ => ?_
  refine KeptAt.cond (fun _ => h) fun _ => ?_
  refine KeptAt.cond (fun _ => h) fun _ => ?_
  split
  · exact h
  · have g := (emptyRoot_kept h).useS ‹_›
    refine seqAdmit_lit (updDesc_kept (Kept.lit g rfl rfl rfl rfl rfl)) rfl

theorem seqAppend_kept (h : Kept b s0 s) : Kept b s0 (seqAppend s x1 x2 x3 x4).2 := by
  show KeptAt Prod.snd _ _ _
  unfold seqAppend
  extract_lets +onlyGivenNames y1; refine KeptAt.cond (fun _ => ?_) fun _ => ?_; show Kept _ _ _; dsimp -zeta only
  assumption; refine KeptAt.cond (fun _ => ?_) fun _ => ?_; show Kept _ _ _; dsimp -zeta only; assumption
  refine KeptAt.cond (fun _ => ?_) fun _ => ?_; show Kept _ _ _; dsimp -zeta only; assumption; show Kept _ _ _
  dsimp -zeta only; refine updDesc_kept ?_; assumption

theorem seqRetire_kept (h : Kept b s0 s) : Kept b s0 (seqRetire s x1).2 := by
  show KeptAt Prod.snd _ _ _
  unfold seqRetire
  refine KeptAt.cond (fun _ => ?_) fun _ => ?_; show Kept _ _ _; dsimp -zeta only; assumption
  refine KeptAt.cond (fun _ => ?_) fun _ => ?_; show Kept _ _ _; dsimp -zeta only; assumption
  extract_lets +onlyGivenNames y1 y2 y3 y4 y5; refine Kept.cut (p := Kept b s0 y5) ?_ fun _ => ?_; unfold y5
  refine Kept.lit ?_ rfl rfl rfl rfl rfl; assumption; clear_value y5; split; extract_lets +onlyGivenNames y6
  refine Kept.cut (p := Kept b s0 y6) ?_ fun _ => ?_; unfold y6; refine updPend_kept ?_
  refine Kept.snd (by assumption) ?_; refine applyOp_kept ?_; assumption; clear_value y6; show Kept _ _ _
  dsimp -zeta only; refine updDesc_kept ?_; assumption; show Kept _ _ _; dsimp -zeta only; assumption

theorem seqRepLoad_kept (h : Kept b s0 s) : Kept b s0 (seqRepLoad s x1 x2 x3).2 := by
  show KeptAt Prod.snd _ _ _
  unfold seqRepLoad
  refine KeptAt.cond (fun _ => ?_) fun _ => ?_; show Kept _ _ _; dsimp -zeta only; assumption; split
  refine KeptAt.cond (fun _ => ?_) fun _ => ?_; show Kept _ _ _; dsimp -zeta only; refine Kept.fst (by assumption) ?_
  refine fetchGlobal_kept ?_; assumption; refine KeptAt.cond (fun _ => ?_) fun _ => ?_; show Kept _ _ _
  dsimp -zeta only; refine Kept.fst (by assumption) ?_; refine fetchGlobal_kept ?_; assumption; split; show Kept _ _ _
  dsimp -zeta only; refine write_kept ?_; refine Kept.fst (by assumption) ?_; refine fetchGlobal_kept ?_; assumption
  show Kept _ _ _; dsimp -zeta only; refine Kept.fst (by assumption) ?_; refine fetchGlobal_kept ?_; assumption

theorem seqEscClear_kept (h : Kept b s0 s) : Kept b s0 (seqEscClear s x1 x2).2 := by
  show KeptAt Prod.snd _ _ _
  unfold seqEscClear
  refine KeptAt.cond (fun _ => ?_) fun _ => ?_; show Kept _ _ _; dsimp -zeta only; assumption
  extract_lets +onlyGivenNames y1 y2; show Kept _ _ _; dsimp -zeta only; refine write_kept ?_; assumption

theorem applySeq_kept (h : Kept b s0 s) : Kept b s0 (applySeq s x1 x2).2 := by
  show KeptAt Prod.snd _ _ _
  unfold applySeq
  extract_lets +onlyGivenNames y1 y2 y3; split; show Kept _ _ _; dsimp -zeta only; assumption; show Kept _ _ _
  refine seqAdmit_kept ?_; assumption; show Kept _ _ _; refine seqRepLoad_kept ?_; assumption; show Kept _ _ _
  refine seqEscClear_kept ?_; assumption; unfold y3; refine KeptAt.cond (fun _ => ?_) fun _ => ?_; show Kept _ _ _
  dsimp -zeta only; assumption; show Kept _ _ _; refine seqAppend_kept ?_; assumption; unfold y3
  refine KeptAt.cond (fun _ => ?_) fun _ => ?_; show Kept _ _ _; dsimp -zeta only; assumption
  refine KeptAt.cond (fun _ => ?_) fun _ => ?_; show Kept _ _ _; dsimp -zeta only; assumption; show Kept _ _ _
  dsimp -zeta only; refine updDesc_kept ?_; assumption; unfold y3; refine KeptAt.cond (fun _ => ?_) fun _ => ?_
  show Kept _ _ _; dsimp -zeta only; assumption; refine KeptAt.cond (fun _ => ?_) fun _ => ?_; show Kept _ _ _
  dsimp -zeta only; refine updDesc_kept ?_; assumption; show Kept _ _ _; dsimp -zeta only; assumption; unfold y3
  refine KeptAt.cond (fun _ => ?_) fun _ => ?_; show Kept _ _ _; dsimp -zeta only; assumption; show Kept _ _ _
  refine seqRetire_kept ?_; assumption

theorem runSeq_kept (h : Kept b s0 s) : Kept b s0 (runSeq s x1 x2) := by
  unfold runSeq
  split; refine seqReport_kept ?_; refine Kept.snd (by assumption) ?_; refine applySeq_kept ?_; assumption

theorem queueSeq_kept (h : Kept b s0 s) : Kept b s0 (queueSeq s x1 x2) := by
  unfold queueSeq
  extract_lets +onlyGivenNames y1; refine Kept.lit ?_ rfl rfl rfl rfl rfl; assumption

theorem execAdmit_kept (h : Kept b s0 s) : KeptN b s0 (execAdmit x1 x2 x3 x4 x5 s) := by
  unfold execAdmit
  refine KeptN.next ?_; refine queueSeq_kept ?_; assumption

theorem execAppend_kept (h : Kept b s0 s) : KeptN b s0 (execAppend x1 x2 x3 x4 s) := by
  unfold execAppend
  refine KeptN.next ?_; refine queueSeq_kept ?_; assumption

theorem execSuspend_kept (h : Kept b s0 s) : KeptN b s0 (execSuspend x1 s) := by
  unfold execSuspend
  refine KeptN.next ?_; refine queueSeq_kept ?_; assumption

theorem execResume_kept (h : Kept b s0 s) : KeptN b s0 (execResume x1 s) := by
  unfold execResume
  refine KeptN.next ?_; refine queueSeq_kept ?_; assumption

theorem execRetire_kept (h : Kept b s0 s) : KeptN b s0 (execRetire x1 s) := by
  unfold execRetire
  refine KeptN.next ?_; refine queueSeq_kept ?_; assumption

theorem execRepLoad_kept (h : Kept b s0 s) : KeptN b s0 (execRepLoad x1 x2 x3 s) := by
  unfold execRepLoad
  refine KeptN.next ?_; refine queueSeq_kept ?_; assumption

theorem execEscClear_kept (h : Kept b s0 s) : KeptN b s0 (execEscClear x1 x2 x3 s) := by
  unfold execEscClear
  refine KeptN.next ?_; refine queueSeq_kept ?_; assumption

theorem traceAction_kept (h : Kept b s0 s) : Kept b s0 (traceAction s x1) := by
  unfold traceAction
  refine trace_kept ?_; assumption

theorem settleOne_kept (h : Kept b s0 s) : Kept b s0 (settleOne s x1) := by
  unfold settleOne
  refine Kept.cond (fun _ => ?_) fun _ => ?_; refine updDesc_kept ?_; assumption; refine updDesc_kept ?_; assumption

theorem settleBatch_kept (h : Kept b s0 s) : Kept b s0 (settleBatch s) := by
  unfold settleBatch
  extract_lets +onlyGivenNames y1; refine Kept.cut (p := Kept b s0 y1) ?_ fun _ => ?_; unfold y1
  refine Kept.fold (fun _ _ _ => ?_) ?_; refine settleOne_kept ?_; assumption; assumption; clear_value y1
  refine Kept.lit ?_ rfl rfl rfl rfl rfl; assumption

theorem retireNow_kept (h : Kept b s0 s) : Kept b s0 (retireNow s x1) := by
  unfold retireNow
  extract_lets +onlyGivenNames y1 y2 y3 y4; refine Kept.cut (p := Kept b s0 y4) ?_ fun _ => ?_; unfold y4
  refine Kept.fold (fun _ _ _ => ?_) ?_; refine freeNode_kept ?_; assumption; assumption; clear_value y4
  extract_lets +onlyGivenNames y5; refine Kept.cut (p := Kept b s0 y5) ?_ fun _ => ?_; unfold y5
  refine reportEdits_kept ?_; assumption; clear_value y5; extract_lets +onlyGivenNames y6 y7
  refine Kept.cut (p := Kept b s0 y7) ?_ fun _ => ?_; unfold y7; refine Kept.lit ?_ rfl rfl rfl rfl rfl; assumption
  clear_value y7; refine updDesc_kept ?_; assumption

theorem transitions_kept (h : Kept b s0 s) : Kept b s0 (transitions s) := by
  unfold transitions
  extract_lets +onlyGivenNames y1; refine Kept.cut (p := Kept b s0 y1) ?_ fun _ => ?_; unfold y1
  refine Kept.fold (fun _ _ _ => ?_) ?_; extract_lets +onlyGivenNames y2; refine Kept.cond (fun _ => ?_) fun _ => ?_
  refine updDesc_kept ?_; assumption; assumption; assumption; clear_value y1; extract_lets +onlyGivenNames y3
  refine Kept.cut (p := Kept b s0 y3) ?_ fun _ => ?_; unfold y3; refine Kept.fold (fun _ _ _ => ?_) ?_
  refine Kept.cond (fun _ => ?_) fun _ => ?_; refine retireNow_kept ?_; assumption; assumption; assumption
  clear_value y3; refine Kept.lit ?_ rfl rfl rfl rfl rfl; assumption

theorem routesReturn_kept (h : Kept b s0 s) : Kept b s0 (routesReturn s) := by
  unfold routesReturn
  refine Kept.cond (fun _ => ?_) fun _ => ?_; assumption; refine Kept.lit ?_ rfl rfl rfl rfl rfl; assumption

theorem boundaryBegins_kept (h : Kept b s0 s) : Kept b s0 (boundaryBegins s) := by
  unfold boundaryBegins
  extract_lets +onlyGivenNames y1; refine Kept.cut (p := Kept b s0 y1) ?_ fun _ => ?_; unfold y1; apply takePend_kept
  intro _; intro _; intro _; refine takeWrite_kept ?_; assumption; assumption; clear_value y1
  extract_lets +onlyGivenNames y2; refine Kept.cut (p := Kept b s0 y2) ?_ fun _ => ?_; unfold y2; apply takePend_kept
  intro _; intro _; intro _; refine Kept.cond (fun _ => ?_) fun _ => ?_; assumption; refine updDesc_kept ?_
  assumption; assumption; clear_value y2; refine routesReturn_kept ?_; assumption

theorem action1_kept (h : Kept b s0 s) : Kept b s0 (action1 s) := by
  unfold action1
  extract_lets +onlyGivenNames y1; refine Kept.cut (p := Kept b s0 y1) ?_ fun _ => ?_; unfold y1
  refine traceAction_kept ?_; assumption; clear_value y1; extract_lets +onlyGivenNames y2
  refine Kept.cut (p := Kept b s0 y2) ?_ fun _ => ?_; unfold y2; refine Kept.fold (fun _ _ _ => ?_) ?_
  refine commitSeq_kept ?_; assumption; assumption; clear_value y2; refine jobsAtBoundary_kept ?_
  refine transitions_kept ?_; assumption

theorem escalateLayer_kept (h : Kept b s0 s) : Kept b s0 (escalateLayer s x1 x2) := by
  unfold escalateLayer
  refine Kept.cond (fun _ => ?_) fun _ => ?_; assumption; extract_lets +onlyGivenNames y1 y2
  refine Kept.cut (p := Kept b s0 y2) ?_ fun _ => ?_; unfold y2; refine write_kept ?_; assumption; clear_value y2
  refine raise_kept ?_; assumption

theorem action3_kept (h : Kept b s0 s) : Kept b s0 (action3 s) := by
  unfold action3
  extract_lets +onlyGivenNames y1; refine Kept.cut (p := Kept b s0 y1) ?_ fun _ => ?_; unfold y1
  refine traceAction_kept ?_; assumption; clear_value y1; extract_lets +onlyGivenNames y2 y3 y4 y5
  refine Kept.cut (p := Kept b s0 y5) ?_ fun _ => ?_; unfold y5; refine Kept.lit ?_ rfl rfl rfl rfl rfl; assumption
  clear_value y5; extract_lets +onlyGivenNames y6; refine Kept.cut (p := Kept b s0 y6) ?_ fun _ => ?_; unfold y6
  refine Kept.fold (fun _ _ _ => ?_) ?_; refine escalateLayer_kept ?_; assumption; assumption; clear_value y6
  extract_lets +onlyGivenNames y7 y8; refine Kept.cut (p := Kept b s0 y8) ?_ fun _ => ?_; unfold y8
  refine Kept.fold (fun _ _ _ => ?_) ?_; extract_lets +onlyGivenNames y9 y10; split; assumption
  refine Kept.cond (fun _ => ?_) fun _ => ?_; assumption; refine Kept.cond (fun _ => ?_) fun _ => ?_
  refine escalateLayer_kept ?_; assumption; split; refine Kept.cond (fun _ => ?_) fun _ => ?_
  refine Kept.snd (by assumption) ?_; refine raiseAssist_kept ?_; assumption; refine raise_kept ?_
  refine Kept.snd (by assumption) ?_; refine raiseAssist_kept ?_; assumption; assumption; clear_value y8
  refine forwardAssists_kept ?_; assumption

theorem action4_kept (h : Kept b s0 s) : Kept b s0 (action4 s) := by
  unfold action4
  extract_lets +onlyGivenNames y1; refine Kept.cut (p := Kept b s0 y1) ?_ fun _ => ?_; unfold y1
  refine traceAction_kept ?_; assumption; clear_value y1; extract_lets +onlyGivenNames y2
  refine Kept.lit ?_ rfl rfl rfl rfl rfl; assumption

theorem takeSched_kept (h : Kept b s0 s) : Kept b s0 (takeSched s x1) := by
  unfold takeSched
  extract_lets +onlyGivenNames y1 y2; refine Kept.cond (fun _ => ?_) fun _ => ?_; unfold y2
  refine Kept.lit ?_ rfl rfl rfl rfl rfl; assumption; refine Kept.cond (fun _ => ?_) fun _ => ?_; unfold y2
  refine Kept.lit ?_ rfl rfl rfl rfl rfl; assumption; refine Kept.cond (fun _ => ?_) fun _ => ?_; unfold y2
  refine Kept.lit ?_ rfl rfl rfl rfl rfl; assumption; refine Kept.cond (fun _ => ?_) fun _ => ?_; unfold y2
  refine Kept.lit ?_ rfl rfl rfl rfl rfl; assumption; refine takeWrite_kept ?_; assumption

theorem applyCmds_kept (h : Kept b s0 s) : Kept b s0 (applyCmds s) := by
  unfold applyCmds
  extract_lets +onlyGivenNames y1 y2 y3; refine Kept.cut (p := Kept b s0 y3) ?_ fun _ => ?_; unfold y3
  refine Kept.lit ?_ rfl rfl rfl rfl rfl; assumption; clear_value y3; refine Kept.fold (fun _ _ _ => ?_) ?_
  refine Kept.fold (fun _ _ _ => ?_) ?_; refine runSeq_kept ?_; assumption; assumption; assumption

theorem fetchDesc_kept (h : Kept b s0 s) : Kept b s0 (fetchDesc s x1) := by
  unfold fetchDesc
  refine Kept.cond (fun _ => ?_) fun _ => ?_; assumption; extract_lets +onlyGivenNames y1 y2
  refine Kept.cut (p := Kept b s0 y2) ?_ fun _ => ?_; unfold y2; refine Kept.cond (fun _ => ?_) fun _ => ?_
  assumption; split; assumption; refine setMarks_kept ?_; refine Kept.lit ?_ rfl rfl rfl rfl rfl; assumption
  clear_value y2; extract_lets +onlyGivenNames y3; refine Kept.cut (p := Kept b s0 y3) ?_ fun _ => ?_; unfold y3
  refine hbmSettle_kept ?_; assumption; clear_value y3; refine Kept.cond (fun _ => ?_) fun _ => ?_
  refine raise_kept ?_; refine updDesc_kept ?_; assumption; refine Kept.cond (fun _ => ?_) fun _ => ?_
  refine Kept.lit ?_ rfl rfl rfl rfl rfl; assumption; assumption

theorem admitOne_kept (h : Kept b s0 s) : Kept b s0 (admitOne s x1) := by
  unfold admitOne
  extract_lets +onlyGivenNames y1; refine Kept.cut (p := Kept b s0 y1) ?_ fun _ => ?_; unfold y1
  refine fetchDesc_kept ?_; assumption; clear_value y1; extract_lets +onlyGivenNames y2
  refine Kept.cut (p := Kept b s0 y2) ?_ fun _ => ?_; unfold y2; refine updDesc_kept ?_; assumption; clear_value y2
  refine Kept.lit ?_ rfl rfl rfl rfl rfl; assumption

theorem admitList_kept (h : Kept b s0 s) : Kept b s0 (admitList s x1 x2 x3).1 := by
  show KeptAt Prod.fst _ _ _
  unfold admitList
  refine KeptAt.fold (fun _ _ _ => ?_) ?_; refine KeptAt.cond (fun _ => ?_) fun _ => ?_; show Kept _ _ _
  dsimp -zeta only; refine admitOne_kept ?_; assumption; refine KeptAt.cond (fun _ => ?_) fun _ => ?_; show Kept _ _ _
  dsimp -zeta only; refine raise_kept ?_; assumption; assumption; show Kept _ _ _; dsimp -zeta only; assumption

theorem admission_kept (h : Kept b s0 s) : Kept b s0 (admission s) := by
  unfold admission
  extract_lets +onlyGivenNames y1 y2; refine Kept.cut (p := Kept b s0 y2) ?_ fun _ => ?_; unfold y2
  refine Kept.lit ?_ rfl rfl rfl rfl rfl; assumption; clear_value y2; extract_lets +onlyGivenNames y3 y4; split
  extract_lets +onlyGivenNames y5; refine Kept.cond (fun _ => ?_) fun _ => ?_; refine admitList_kept ?_
  refine Kept.fst (by assumption) ?_; refine admitList_kept ?_; refine Kept.lit ?_ rfl rfl rfl rfl rfl; assumption
  refine Kept.cond (fun _ => ?_) fun _ => ?_; refine Kept.fst (by assumption) ?_; refine admitList_kept ?_
  refine Kept.lit ?_ rfl rfl rfl rfl rfl; assumption; split; refine Kept.cond (fun _ => ?_) fun _ => ?_
  refine forwardAssists_kept ?_; refine Kept.snd (by assumption) ?_; refine raiseAssist_kept ?_
  refine Kept.fst (by assumption) ?_; refine admitList_kept ?_; refine Kept.lit ?_ rfl rfl rfl rfl rfl; assumption
  refine raise_kept ?_; refine Kept.snd (by assumption) ?_; refine raiseAssist_kept ?_
  refine Kept.fst (by assumption) ?_; refine admitList_kept ?_; refine Kept.lit ?_ rfl rfl rfl rfl rfl; assumption

theorem fetchReady_kept (h : Kept b s0 s) : Kept b s0 (fetchReady s) := by
  unfold fetchReady
  refine Kept.fold (fun _ _ _ => ?_) ?_; refine Kept.cond (fun _ => ?_) fun _ => ?_; refine fetchDesc_kept ?_
  assumption; assumption; assumption

theorem release_kept (h : Kept b s0 s) : Kept b s0 (release s) := by
  unfold release
  extract_lets +onlyGivenNames y1 y2; refine Kept.lit ?_ rfl rfl rfl rfl rfl; assumption

theorem chartFault_kept (h : Kept b s0 s) : Kept b s0 (chartFault s x1 x2) := by
  unfold chartFault
  refine raise_kept ?_; refine updDesc_kept ?_; assumption

theorem placeEdits_kept (h : Kept b s0 s) : Kept b s0 (placeEdits s x1 x2 x3 x4).1 := by
  show KeptAt Prod.fst _ _ _
  unfold placeEdits
  extract_lets +onlyGivenNames y1; split; show Kept _ _ _; dsimp -zeta only; assumption
  extract_lets +onlyGivenNames y2 y3; refine KeptAt.cond (fun _ => ?_) fun _ => ?_; show Kept _ _ _; dsimp -zeta only
  assumption; extract_lets +onlyGivenNames y4; refine Kept.cut (p := Kept b s0 y4) ?_ fun _ => ?_; unfold y4
  refine updDesc_kept ?_; assumption; clear_value y4; extract_lets +onlyGivenNames y5; split
  extract_lets +onlyGivenNames y6; refine Kept.cut (p := Kept b s0 y6) ?_ fun _ => ?_; unfold y6
  refine updDesc_kept ?_; refine Kept.snd (by assumption) ?_; refine applyOp_kept ?_; assumption; clear_value y6
  refine KeptAt.cond (fun _ => ?_) fun _ => ?_; show Kept _ _ _; dsimp -zeta only; refine updDesc_kept ?_
  refine updPend_kept ?_; assumption; show Kept _ _ _; dsimp -zeta only; refine commitNow_kept ?_; assumption
  show Kept _ _ _; dsimp -zeta only; refine raise_kept ?_; refine Kept.lit ?_ rfl rfl rfl rfl rfl; assumption
  show Kept _ _ _; dsimp -zeta only; refine raise_kept ?_; refine Kept.lit ?_ rfl rfl rfl rfl rfl; assumption
  show Kept _ _ _; dsimp -zeta only; refine chartFault_kept ?_; assumption

theorem place_kept (h : Kept b s0 s) : Kept b s0 (place s x1 x2 x3 x4).1 := by
  show KeptAt Prod.fst _ _ _
  unfold place
  split; extract_lets +onlyGivenNames y1 y2; refine KeptAt.cond (fun _ => ?_) fun _ => ?_; show Kept _ _ _
  dsimp -zeta only; refine Kept.fst (by assumption) ?_; refine placeEdits_kept ?_; assumption
  extract_lets +onlyGivenNames y3; refine Kept.cut (p := Kept b s0 y3) ?_ fun _ => ?_; unfold y3
  refine updDesc_kept ?_; refine Kept.fst (by assumption) ?_; refine placeEdits_kept ?_; assumption; clear_value y3
  show Kept _ _ _; dsimp -zeta only; refine Kept.lit ?_ rfl rfl rfl rfl rfl; assumption

theorem passDecode_kept (h : Kept b s0 x2.1) : Kept b s0 (passDecode x1 x2 x3).1 := by
  show KeptAt Prod.fst _ _ _
  unfold passDecode
  extract_lets +onlyGivenNames y1; refine KeptAt.cond (fun _ => ?_) fun _ => ?_; split; show Kept _ _ _
  dsimp -zeta only; refine Kept.fst (by assumption) ?_; refine place_kept ?_; assumption; assumption

theorem passPrefill_kept (h : Kept b s0 x2.1) : Kept b s0 (passPrefill x1 x2 x3).1 := by
  show KeptAt Prod.fst _ _ _
  unfold passPrefill
  extract_lets +onlyGivenNames y1 y2; refine KeptAt.cond (fun _ => ?_) fun _ => ?_; assumption; split; show Kept _ _ _
  dsimp -zeta only; refine Kept.fst (by assumption) ?_; refine place_kept ?_; assumption

theorem formBatch_kept (h : Kept b s0 s) : Kept b s0 (formBatch s x1) := by
  unfold formBatch
  extract_lets +onlyGivenNames cs dec pre b' d q
  have g : KeptAt Prod.fst b s0 q := KeptAt.fold (fun _ _ h => passDecode_kept h) h
  clear_value q
  exact KeptAt.fold (p := Prod.fst) (fun _ _ h => passPrefill_kept h) g

theorem beginStep_kept (h : Kept b s0 s) : Kept b s0 (beginStep s) := by
  unfold beginStep
  extract_lets +onlyGivenNames y1 y2; refine Kept.cut (p := Kept b s0 y2) ?_ fun _ => ?_; unfold y2
  refine Kept.lit ?_ rfl rfl rfl rfl rfl; assumption; clear_value y2; refine Kept.cond (fun _ => ?_) fun _ => ?_
  refine Kept.lit ?_ rfl rfl rfl rfl rfl; assumption; extract_lets +onlyGivenNames y3 y4
  refine Kept.cut (p := Kept b s0 y4) ?_ fun _ => ?_; unfold y4; refine Kept.fold (fun _ _ _ => ?_) ?_
  refine bumpTnt_kept ?_; assumption; assumption; clear_value y4; refine Kept.lit ?_ rfl rfl rfl rfl rfl; assumption

theorem action5_kept (h : Kept b s0 s) : Kept b s0 (action5 s x1) := by
  unfold action5
  extract_lets +onlyGivenNames y1; refine Kept.cut (p := Kept b s0 y1) ?_ fun _ => ?_; unfold y1
  refine traceAction_kept ?_; assumption; clear_value y1; extract_lets +onlyGivenNames y2
  refine Kept.cut (p := Kept b s0 y2) ?_ fun _ => ?_; unfold y2; apply takePend_kept; intro _; intro _; intro _
  refine takeSched_kept ?_; assumption; assumption; clear_value y2; extract_lets +onlyGivenNames y3
  refine Kept.cut (p := Kept b s0 y3) ?_ fun _ => ?_; unfold y3; refine Kept.fold (fun _ _ _ => ?_) ?_
  refine Kept.cond (fun _ => ?_) fun _ => ?_; refine updDesc_kept ?_; assumption; assumption; assumption
  clear_value y3; extract_lets +onlyGivenNames y4; refine Kept.cut (p := Kept b s0 y4) ?_ fun _ => ?_; unfold y4
  refine admission_kept ?_; refine applyCmds_kept ?_; assumption; clear_value y4; extract_lets +onlyGivenNames y5
  refine Kept.cut (p := Kept b s0 y5) ?_ fun _ => ?_; unfold y5; refine release_kept ?_; refine fetchReady_kept ?_
  assumption; clear_value y5; extract_lets +onlyGivenNames y6; refine Kept.cond (fun _ => ?_) fun _ => ?_
  refine beginStep_kept ?_; refine formBatch_kept ?_; assumption; split; refine forwardAssists_kept ?_
  refine Kept.lit ?_ rfl rfl rfl rfl rfl; refine Kept.snd (by assumption) ?_; refine raiseAssist_kept ?_; assumption
  refine beginStep_kept ?_; refine raise_kept ?_; refine Kept.snd (by assumption) ?_; refine raiseAssist_kept ?_
  assumption

theorem actions45_kept (h : Kept b s0 s) : Kept b s0 (actions45 s x1) := by
  unfold actions45
  refine action5_kept ?_; refine action4_kept ?_; assumption

theorem endStep_kept (h : Kept b s0 s) : Kept false s0 (endStep s x1) := by
  have lit : ∀ {s : State} {v}, Kept false s0 s → Kept false s0 { s with sched := { s.sched with step := v } } :=
    fun h => h.trans ⟨id, rfl, rfl, rfl, id, List.prefix_rfl, id, fun _ _ h => h, fun _ _ _ h => h, fun x => nomatch x⟩
  unfold endStep
  split
  · exact lit (settleBatch_kept h.weak)
  · exact h.weak

theorem boundary_kept (h : Kept false s0 s) : Kept false s0 (boundary s x1 x2) := by
  unfold boundary
  extract_lets +onlyGivenNames y1; refine Kept.cut (p := Kept false s0 y1) ?_ fun _ => ?_; unfold y1
  refine action3_kept ?_; refine action2_kept ?_; refine traceAction_kept ?_; refine action1_kept ?_
  refine boundaryBegins_kept ?_; apply endStep_kept; assumption; clear_value y1; split
  refine Kept.lit ?_ rfl rfl rfl rfl rfl; assumption; refine actions45_kept ?_; assumption

end Sys2Proof.Machine
end

