-- ==== Sys2Proof/Laws/KeptForms.lean ====
section
/-!
SUPPORT. What each operation of Machine/Forms.lean keeps (`Kept`).
-/

namespace Sys2Proof.Machine

open Sys2Proof

variable {b : Bool} {s0 s t : State}

theorem passGo_kept (h : Kept b s0 s) : Kept b s0 (passGo s x1 x2) := by
  unfold passGo
  refine Kept.fold (fun _ _ _ => ?_) ?_; refine sendSync_kept ?_; assumption; assumption

theorem alignStep_kept (h : Kept false s0 s) : Kept false s0 (alignStep s x1) := by
  unfold alignStep
  refine Kept.cond (fun _ => ?_) fun _ => ?_; assumption; refine Kept.cond (fun _ => ?_) fun _ => ?_
  refine Kept.cond (fun _ => ?_) fun _ => ?_; refine boundary_kept ?_; assumption
  refine Kept.cond (fun _ => ?_) fun _ => ?_; assumption; refine boundary_kept ?_; assumption
  refine Kept.cond (fun _ => ?_) fun _ => ?_; refine boundary_kept ?_; refine Kept.lit ?_ rfl rfl rfl rfl rfl
  assumption; refine Kept.cond (fun _ => ?_) fun _ => ?_; assumption; refine Kept.cond (fun _ => ?_) fun _ => ?_
  refine Kept.cond (fun _ => ?_) fun _ => ?_; assumption; refine boundary_kept ?_; refine passGo_kept ?_; assumption
  refine Kept.cond (fun _ => ?_) fun _ => ?_; assumption; refine sendSync_kept ?_
  refine Kept.lit ?_ rfl rfl rfl rfl rfl; assumption

theorem execStepBoundary_kept (h : Kept false s0 s) : KeptN false s0 (execStepBoundary x1 s) := by
  unfold execStepBoundary
  refine KeptN.next ?_; refine alignStep_kept ?_; assumption

theorem repeatEmpty_kept (h : Kept b s0 s) : Kept b s0 (repeatEmpty s x1) := by
  unfold repeatEmpty
  refine Kept.cond (fun _ => ?_) fun _ => ?_; refine actions45_kept ?_; assumption
  refine Kept.cond (fun _ => ?_) fun _ => ?_; refine actions45_kept ?_; refine passGo_kept ?_; assumption; assumption

theorem execStepRetry_kept (h : Kept b s0 s) : KeptN b s0 (execStepRetry x1 s) := by
  unfold execStepRetry
  refine KeptN.next ?_; refine Kept.cond (fun _ => ?_) fun _ => ?_; assumption
  refine Kept.cond (fun _ => ?_) fun _ => ?_; refine repeatEmpty_kept ?_; assumption; refine sendSync_kept ?_
  assumption

theorem execStepDone_kept (h : Kept false s0 s) : KeptN false s0 (execStepDone x1 x2 x3 x4 s) := by
  unfold execStepDone
  refine KeptN.next ?_; refine Kept.cond (fun _ => ?_) fun _ => ?_; assumption; refine alignStep_kept ?_
  refine Kept.lit ?_ rfl rfl rfl rfl rfl; assumption

theorem execStepGo_kept (h : Kept false s0 s) : KeptN false s0 (execStepGo x1 x2 x3 s) := by
  unfold execStepGo
  refine KeptN.next ?_; refine Kept.cond (fun _ => ?_) fun _ => ?_; assumption; extract_lets +onlyGivenNames y1
  refine Kept.cut (p := Kept false s0 y1) ?_ fun _ => ?_; unfold y1; refine passGo_kept ?_; assumption; clear_value y1
  refine Kept.cond (fun _ => ?_) fun _ => ?_; refine Kept.cond (fun _ => ?_) fun _ => ?_; refine actions45_kept ?_
  assumption; assumption; refine alignStep_kept ?_; refine Kept.lit ?_ rfl rfl rfl rfl rfl; assumption

theorem execWake_kept (h : Kept b s0 s) : KeptN b s0 (execWake x1 s) := by
  unfold execWake
  refine KeptN.next ?_; refine Kept.cond (fun _ => ?_) fun _ => ?_; assumption
  refine Kept.cond (fun _ => ?_) fun _ => ?_; refine sendSync_kept ?_; assumption
  refine Kept.cond (fun _ => ?_) fun _ => ?_; assumption; refine repeatEmpty_kept ?_; assumption

theorem execHeartbeat_kept (h : Kept b s0 s) : KeptN b s0 (execHeartbeat x1 s) := by
  unfold execHeartbeat
  refine KeptN.next ?_; refine Kept.cond (fun _ => ?_) fun _ => ?_; assumption; refine Kept.lit ?_ rfl rfl rfl rfl rfl
  assumption

theorem execHeartbeatTimer_kept (h : Kept b s0 s) : KeptN b s0 (execHeartbeatTimer s) := by
  unfold execHeartbeatTimer
  refine KeptN.next ?_; refine Kept.cond (fun _ => ?_) fun _ => ?_; assumption; extract_lets +onlyGivenNames y1
  refine Kept.cut (p := Kept b s0 y1) ?_ fun _ => ?_; unfold y1; refine Kept.cond (fun _ => ?_) fun _ => ?_
  assumption; refine sendSync_kept ?_; assumption; clear_value y1; refine Kept.fold (fun _ _ _ => ?_) ?_
  refine sendSync_kept ?_; assumption; assumption

theorem applyLoss_kept (h : Kept b s0 s) : Kept b s0 (applyLoss s x1 x2) := by
  unfold applyLoss
  extract_lets +onlyGivenNames y1 y2 y3; refine Kept.cut (p := Kept b s0 y3) ?_ fun _ => ?_; unfold y3
  refine Kept.lit ?_ rfl rfl rfl rfl rfl; assumption; clear_value y3; refine Kept.fold (fun _ _ _ => ?_) ?_
  refine rcPropagate_kept ?_; assumption; assumption

theorem execMemberLost_kept (h : Kept false s0 s) : KeptN false s0 (execMemberLost x1 x2 s) := by
  unfold execMemberLost
  extract_lets +onlyGivenNames y1; refine KeptN.next ?_; split; assumption; refine Kept.cond (fun _ => ?_) fun _ => ?_
  assumption; split; extract_lets +onlyGivenNames y2 y3 y4; refine Kept.cut (p := Kept false s0 y4) ?_ fun _ => ?_
  unfold y4; refine raise_kept ?_; assumption; clear_value y4; extract_lets +onlyGivenNames y5
  refine Kept.cut (p := Kept false s0 y5) ?_ fun _ => ?_; unfold y5; refine Kept.fold (fun _ _ _ => ?_) ?_
  refine sendSync_kept ?_; assumption; assumption; clear_value y5; refine alignStep_kept ?_; refine applyLoss_kept ?_
  assumption

theorem execMemberLostMessage_kept (h : Kept false s0 s) : KeptN false s0 (execMemberLostMessage x1 x2 x3 s) := by
  unfold execMemberLostMessage
  refine KeptN.next ?_; refine Kept.cond (fun _ => ?_) fun _ => ?_; assumption; refine alignStep_kept ?_
  refine applyLoss_kept ?_; assumption

theorem execHeadLost_kept (h : Kept b s0 s) : KeptN b s0 (execHeadLost s) := by
  unfold execHeadLost
  refine KeptN.next ?_; refine Kept.cond (fun _ => ?_) fun _ => ?_; assumption; refine raise_kept ?_
  refine Kept.lit ?_ rfl rfl rfl rfl rfl; assumption

theorem setEnumStatus_kept (h : Kept b s0 s) : Kept b s0 (setEnumStatus s x1) := by
  unfold setEnumStatus
  refine setCnt_kept ?_; assumption

theorem commitForm_kept (h : Kept b s0 s) : Kept b s0 (commitForm s) := by
  unfold commitForm
  split; assumption; extract_lets +onlyGivenNames y1 y2 y3; refine Kept.cut (p := Kept b s0 y3) ?_ fun _ => ?_
  unfold y3; refine Kept.lit ?_ rfl rfl rfl rfl rfl; assumption; clear_value y3; extract_lets +onlyGivenNames y4
  refine Kept.cut (p := Kept b s0 y4) ?_ fun _ => ?_; unfold y4; refine setCnt_kept ?_; assumption; clear_value y4
  extract_lets +onlyGivenNames y5; refine Kept.cut (p := Kept b s0 y5) ?_ fun _ => ?_; unfold y5
  refine Kept.fold (fun _ _ _ => ?_) ?_; extract_lets +onlyGivenNames y6; refine updPort_kept ?_; assumption
  assumption; clear_value y5; extract_lets +onlyGivenNames y7 y8 y9 y10; refine Kept.cut (p := Kept b s0 y10) ?_ fun _ => ?_
  unfold y10; refine Kept.lit ?_ rfl rfl rfl rfl rfl; assumption; clear_value y10; refine Kept.fold (fun _ _ _ => ?_) ?_
  refine rcPropagate_kept ?_; assumption; assumption

theorem releaseForm_kept (h : Kept b s0 s) : Kept b s0 (releaseForm s) := by
  unfold releaseForm
  extract_lets +onlyGivenNames y1 y2; refine Kept.cut (p := Kept b s0 y2) ?_ fun _ => ?_; unfold y2
  refine Kept.lit ?_ rfl rfl rfl rfl rfl; assumption; clear_value y2; refine setCnt_kept ?_; assumption

theorem enumStart_kept (h : Kept b s0 s) : Kept b s0 (enumStart s x1).2 := by
  show KeptAt Prod.snd _ _ _
  unfold enumStart
  refine KeptAt.cond (fun _ => ?_) fun _ => ?_; show Kept _ _ _; dsimp -zeta only; assumption
  refine KeptAt.cond (fun _ => ?_) fun _ => ?_; show Kept _ _ _; dsimp -zeta only; refine setEnumStatus_kept ?_
  assumption; split; refine KeptAt.cond (fun _ => ?_) fun _ => ?_; show Kept _ _ _; dsimp -zeta only
  refine setEnumStatus_kept ?_; assumption; extract_lets +onlyGivenNames y1
  refine Kept.cut (p := Kept b s0 y1) ?_ fun _ => ?_; unfold y1; refine Kept.fold (fun _ _ _ => ?_) ?_
  refine emit_kept ?_; assumption; assumption; clear_value y1; refine KeptAt.cond (fun _ => ?_) fun _ => ?_
  show Kept _ _ _; dsimp -zeta only; refine setEnumStatus_kept ?_; assumption; extract_lets +onlyGivenNames y2
  refine Kept.cut (p := Kept b s0 y2) ?_ fun _ => ?_; unfold y2; refine Kept.fold (fun _ _ _ => ?_) ?_
  refine raise_kept ?_; assumption; assumption; clear_value y2; extract_lets +onlyGivenNames y3 y4
  refine Kept.cut (p := Kept b s0 y4) ?_ fun _ => ?_; unfold y4; refine Kept.lit ?_ rfl rfl rfl rfl rfl; assumption
  clear_value y4; extract_lets +onlyGivenNames y5; refine Kept.cut (p := Kept b s0 y5) ?_ fun _ => ?_; unfold y5
  refine Kept.cond (fun _ => ?_) fun _ => ?_; assumption; refine emit_kept ?_; assumption; clear_value y5
  show Kept _ _ _; dsimp -zeta only; refine setEnumStatus_kept ?_; refine commitForm_kept ?_; assumption

theorem enumRelease_kept (h : Kept b s0 s) : Kept b s0 (enumRelease s).2 := by
  show KeptAt Prod.snd _ _ _
  unfold enumRelease
  extract_lets +onlyGivenNames y1; refine Kept.cut (p := Kept b s0 y1) ?_ fun _ => ?_; unfold y1
  refine Kept.cond (fun _ => ?_) fun _ => ?_; assumption; refine emit_kept ?_; assumption; clear_value y1
  show Kept _ _ _; dsimp -zeta only; refine releaseForm_kept ?_; assumption

theorem execEnumAssign_kept (h : Kept b s0 s) : KeptN b s0 (execEnumAssign x1 x2 s) := by
  unfold execEnumAssign
  refine KeptN.next ?_; refine Kept.cond (fun _ => ?_) fun _ => ?_; refine Kept.lit ?_ rfl rfl rfl rfl rfl; assumption
  assumption

theorem execEnumCommit_kept (h : Kept b s0 s) : KeptN b s0 (execEnumCommit s) := by
  unfold execEnumCommit
  refine KeptN.next ?_; refine Kept.cond (fun _ => ?_) fun _ => ?_; assumption; extract_lets +onlyGivenNames y1
  refine Kept.cut (p := Kept b s0 y1) ?_ fun _ => ?_; unfold y1; refine commitForm_kept ?_; assumption; clear_value y1
  refine Kept.cond (fun _ => ?_) fun _ => ?_; assumption; refine emit_kept ?_; assumption

theorem writeRoute_kept (h : Kept b s0 s) : Kept b s0 (writeRoute s x1).2 := by
  show KeptAt Prod.snd _ _ _
  unfold writeRoute
  refine KeptAt.cond (fun _ => ?_) fun _ => ?_; show Kept _ _ _; dsimp -zeta only; assumption; show Kept _ _ _
  dsimp -zeta only; refine Kept.lit ?_ rfl rfl rfl rfl rfl; assumption

end Sys2Proof.Machine
end

