-- ==== Sys2Proof/Laws/KeptLinks.lean ====
section
/-!
SUPPORT. What each operation of Machine/Links.lean keeps (`Kept`).
-/

namespace Sys2Proof.Machine

open Sys2Proof

variable {b : Bool} {s0 s t : State}

theorem queueFlits_kept (h : Kept b s0 s) : Kept b s0 (queueFlits s x1 x2) := by
  unfold queueFlits
  refine updPort_kept ?_; assumption

theorem routeFlits_kept (h : Kept b s0 s) : Kept b s0 (routeFlits s x1 x2 x3) := by
  unfold routeFlits
  split; split; refine bump_kept ?_; assumption; assumption; extract_lets +onlyGivenNames y1
  refine Kept.cut (p := Kept b s0 y1) ?_ fun _ => ?_; unfold y1; refine Kept.cond (fun _ => ?_) fun _ => ?_
  assumption; refine setOnAlt_kept ?_; assumption; clear_value y1; split; refine bump_kept ?_; assumption
  refine Kept.cond (fun _ => ?_) fun _ => ?_; refine bump_kept ?_; assumption; refine queueFlits_kept ?_; assumption

theorem packetise_kept (h : Kept b s0 s) : Kept b s0 (packetise s x1) := by
  unfold packetise
  split; refine queueFlits_kept ?_; assumption; refine queueFlits_kept ?_; assumption
  refine Kept.cond (fun _ => ?_) fun _ => ?_; assumption; refine routeFlits_kept ?_; assumption
  refine routeFlits_kept ?_; assumption; assumption

theorem leaves_kept (h : Kept b s0 s) : Kept b s0 (leaves s x1 x2 x3).1 := by
  show KeptAt Prod.fst _ _ _
  unfold leaves
  extract_lets +onlyGivenNames y1 y2; split; extract_lets +onlyGivenNames y3; show Kept _ _ _; dsimp -zeta only
  refine emit_kept ?_; refine updPort_kept ?_; assumption

theorem sendIdle_kept (h : Kept b s0 s) : Kept b s0 (sendIdle s x1 x2) := by
  unfold sendIdle
  refine leaves_kept ?_; assumption

theorem sendOne_kept (h : Kept b s0 s) : Kept b s0 (sendOne s x1 x2) := by
  unfold sendOne
  extract_lets +onlyGivenNames y1; split; assumption; extract_lets +onlyGivenNames y2
  refine Kept.cut (p := Kept b s0 y2) ?_ fun _ => ?_; unfold y2; refine updPort_kept ?_; assumption; clear_value y2
  split; refine bump_kept ?_; refine updPort_kept ?_; refine Kept.fst (by assumption) ?_; refine leaves_kept ?_
  assumption

theorem drainPort_kept (h : Kept b s0 s) : Kept b s0 (drainPort x1 s x2) := by
  induction x1 generalizing s with
  | zero => exact h
  | succ n ih =>
    unfold drainPort
    refine Kept.cond (fun _ => h) fun _ => ?_
    split
    · exact h
    · exact ih (sendOne_kept h)

theorem linkPump_kept (h : Kept b s0 s) : Kept b s0 (linkPump s) := by
  unfold linkPump
  extract_lets +onlyGivenNames y1 y2; refine Kept.cut (p := Kept b s0 y2) ?_ fun _ => ?_; unfold y2
  refine Kept.fold (fun _ _ _ => ?_) ?_; refine packetise_kept ?_; assumption; assumption; clear_value y2
  extract_lets +onlyGivenNames y3; refine Kept.cut (p := Kept b s0 y3) ?_ fun _ => ?_; unfold y3
  refine Kept.fold (fun _ _ _ => ?_) ?_; refine drainPort_kept ?_; assumption; assumption; clear_value y3
  refine Kept.lit ?_ rfl rfl rfl rfl rfl; assumption

theorem entriesOnAlt_kept (h : Kept b s0 s) : Kept b s0 (entriesOnAlt s x1) := by
  unfold entriesOnAlt
  refine Kept.lit ?_ rfl rfl rfl rfl rfl; assumption

theorem portDown_kept (h : Kept b s0 s) : Kept b s0 (portDown s x1) := by
  unfold portDown
  extract_lets +onlyGivenNames y1; refine Kept.cond (fun _ => ?_) fun _ => ?_; assumption
  extract_lets +onlyGivenNames y2 y3; refine Kept.cut (p := Kept b s0 y3) ?_ fun _ => ?_; unfold y3
  refine bump_kept ?_; assumption; clear_value y3; extract_lets +onlyGivenNames y4
  refine Kept.cut (p := Kept b s0 y4) ?_ fun _ => ?_; unfold y4; refine updPort_kept ?_; assumption; clear_value y4
  refine raise_kept ?_; refine bump_kept ?_; refine entriesOnAlt_kept ?_; assumption

theorem execLinkDown_kept (h : Kept b s0 s) : KeptN b s0 (execLinkDown x1 x2 s) := by
  unfold execLinkDown
  refine KeptN.next ?_; refine updPort_kept ?_; refine portDown_kept ?_; assumption

theorem execLinkUp_kept (h : Kept b s0 s) : KeptN b s0 (execLinkUp x1 s) := by
  unfold execLinkUp
  extract_lets +onlyGivenNames y1; refine KeptN.next ?_; refine Kept.cond (fun _ => ?_) fun _ => ?_; assumption
  extract_lets +onlyGivenNames y2; refine Kept.cut (p := Kept b s0 y2) ?_ fun _ => ?_; unfold y2
  refine updPort_kept ?_; assumption; clear_value y2; refine Kept.cond (fun _ => ?_) fun _ => ?_; assumption
  refine emit_kept ?_; assumption

theorem execHello_kept (h : Kept b s0 s) : KeptN b s0 (execHello x1 x2 x3 x4 x5 x6 x7 x8 s) := by
  unfold execHello
  extract_lets +onlyGivenNames y1 y2; refine KeptN.next ?_; refine Kept.cond (fun _ => ?_) fun _ => ?_; assumption
  refine Kept.cond (fun _ => ?_) fun _ => ?_; refine raise_kept ?_; refine updPort_kept ?_; assumption
  extract_lets +onlyGivenNames y3; refine Kept.cut (p := Kept b s0 y3) ?_ fun _ => ?_; unfold y3
  refine updPort_kept ?_; assumption; clear_value y3; refine Kept.cond (fun _ => ?_) fun _ => ?_
  refine Kept.lit ?_ rfl rfl rfl rfl rfl; assumption; assumption

theorem nakOnce_kept (h : Kept b s0 s) : Kept b s0 (nakOnce s x1) := by
  unfold nakOnce
  refine Kept.cond (fun _ => ?_) fun _ => ?_; assumption; refine updPort_kept ?_; refine sendIdle_kept ?_; assumption

theorem ackTo_kept (h : Kept b s0 s) : Kept b s0 (ackTo s x1 x2) := by
  unfold ackTo
  refine updPort_kept ?_; assumption

theorem replayFrom_kept (h : Kept b s0 s) : Kept b s0 (replayFrom s x1 x2) := by
  unfold replayFrom
  extract_lets +onlyGivenNames y1 y2 y3; refine Kept.cut (p := Kept b s0 y3) ?_ fun _ => ?_; unfold y3
  refine bump_kept ?_; refine updPort_kept ?_; assumption; clear_value y3; refine Kept.cond (fun _ => ?_) fun _ => ?_
  refine portDown_kept ?_; assumption; extract_lets +onlyGivenNames y4; refine Kept.fold (fun _ _ _ => ?_) ?_
  refine leaves_kept ?_; assumption; assumption

theorem takeControl_kept (h : Kept b s0 s) : Kept b s0 (takeControl s x1 x2) := by
  unfold takeControl
  extract_lets +onlyGivenNames y1 y2; refine Kept.cut (p := Kept b s0 y2) ?_ fun _ => ?_; unfold y2
  refine Kept.cond (fun _ => ?_) fun _ => ?_; refine ackTo_kept ?_; assumption; assumption; clear_value y2
  extract_lets +onlyGivenNames y3 y4; refine Kept.cut (p := Kept b s0 y4) ?_ fun _ => ?_; unfold y4
  refine Kept.cond (fun _ => ?_) fun _ => ?_; refine updPort_kept ?_; assumption; assumption; clear_value y4
  refine Kept.cond (fun _ => ?_) fun _ => ?_; refine replayFrom_kept ?_; assumption; assumption

theorem packetArrived_kept (h : Kept b s0 s) : Kept b s0 (packetArrived s x1 x2) := by
  unfold packetArrived
  split; assumption; extract_lets +onlyGivenNames y1 y2 y3; refine Kept.cond (fun _ => ?_) fun _ => ?_; assumption
  refine Kept.cond (fun _ => ?_) fun _ => ?_; refine bump_kept ?_; assumption
  refine Kept.cond (fun _ => ?_) fun _ => ?_; assumption; refine Kept.cond (fun _ => ?_) fun _ => ?_
  refine bump_kept ?_; assumption; refine routeFlits_kept ?_; assumption

theorem acceptFlit_kept (h : Kept b s0 s) : Kept b s0 (acceptFlit s x1 x2) := by
  unfold acceptFlit
  extract_lets +onlyGivenNames y1 y2; refine Kept.cut (p := Kept b s0 y2) ?_ fun _ => ?_; unfold y2
  refine bump_kept ?_; refine updPort_kept ?_; assumption; clear_value y2; extract_lets +onlyGivenNames y3 y4
  refine Kept.cut (p := Kept b s0 y4) ?_ fun _ => ?_; unfold y4; refine updPort_kept ?_; assumption; clear_value y4
  extract_lets +onlyGivenNames y5; refine Kept.cut (p := Kept b s0 y5) ?_ fun _ => ?_; unfold y5
  refine Kept.cond (fun _ => ?_) fun _ => ?_; refine packetArrived_kept ?_; assumption; assumption; clear_value y5
  refine Kept.cond (fun _ => ?_) fun _ => ?_; refine sendIdle_kept ?_; assumption; assumption

theorem receiveFlit_kept (h : Kept b s0 s) : Kept b s0 (receiveFlit s x1 x2) := by
  unfold receiveFlit
  extract_lets +onlyGivenNames y1; refine Kept.cond (fun _ => ?_) fun _ => ?_; refine bump_kept ?_; assumption
  refine Kept.cond (fun _ => ?_) fun _ => ?_; refine nakOnce_kept ?_; refine bump_kept ?_; assumption
  extract_lets +onlyGivenNames y2; refine Kept.cut (p := Kept b s0 y2) ?_ fun _ => ?_; unfold y2
  refine takeControl_kept ?_; assumption; clear_value y2; refine Kept.cond (fun _ => ?_) fun _ => ?_; assumption
  refine Kept.cond (fun _ => ?_) fun _ => ?_; refine nakOnce_kept ?_; assumption
  refine Kept.cond (fun _ => ?_) fun _ => ?_; refine bump_kept ?_; refine updPort_kept ?_; assumption
  refine acceptFlit_kept ?_; assumption

theorem execFlitReceive_kept (h : Kept b s0 s) : KeptN b s0 (execFlitReceive x1 x2 s) := by
  unfold execFlitReceive
  refine KeptN.next ?_; refine linkPump_kept ?_; refine receiveFlit_kept ?_; assumption

theorem execLinkAckTimer_kept (h : Kept b s0 s) : KeptN b s0 (execLinkAckTimer x1 s) := by
  unfold execLinkAckTimer
  extract_lets +onlyGivenNames y1; refine Kept.cut (p := Kept b s0 y1) ?_ fun _ => ?_; unfold y1
  refine linkPump_kept ?_; assumption; clear_value y1; extract_lets +onlyGivenNames y2; refine KeptN.next ?_
  refine Kept.cond (fun _ => ?_) fun _ => ?_; refine sendIdle_kept ?_; assumption; assumption

end Sys2Proof.Machine
end

