-- ==== Sys2Proof/Laws/KeptReports.lean ====
section
/-!
SUPPORT. What each operation of Machine/Reports.lean keeps (`Kept`).
-/

namespace Sys2Proof.Machine

open Sys2Proof

variable {b : Bool} {s0 s t : State}

theorem asReset_kept (h : Kept b s0 s) : Kept b s0 (asReset s x1) := by
  unfold asReset
  extract_lets +onlyGivenNames y1; refine Kept.lit ?_ rfl rfl rfl rfl rfl; assumption

theorem cardPump_kept (h : Kept b s0 s) : Kept b s0 (cardPump s) := by
  unfold cardPump
  split; refine Kept.cond (fun _ => ?_) fun _ => ?_; assumption; extract_lets +onlyGivenNames y1 y2
  refine Kept.cut (p := Kept b s0 y2) ?_ fun _ => ?_; unfold y2; refine Kept.lit ?_ rfl rfl rfl rfl rfl; assumption
  refine Kept.cond (fun _ => ?_) fun _ => ?_; assumption; extract_lets +onlyGivenNames y3 y4
  refine Kept.lit ?_ rfl rfl rfl rfl rfl; assumption; assumption

theorem requestCard_kept (h : Kept b s0 s) : Kept b s0 (requestCard s x1 x2) := by
  unfold requestCard
  refine Kept.cond (fun _ => ?_) fun _ => ?_; assumption; refine cardPump_kept ?_
  refine Kept.lit ?_ rfl rfl rfl rfl rfl; assumption

theorem reportCommand_kept (h : Kept b s0 s) : Kept b s0 (reportCommand s).2 := by
  show KeptAt Prod.snd _ _ _
  unfold reportCommand
  refine KeptAt.cond (fun _ => ?_) fun _ => ?_; show Kept _ _ _; dsimp -zeta only; assumption; show Kept _ _ _
  dsimp -zeta only; refine requestCard_kept ?_; assumption

theorem landAt_kept (h : Kept b s0 s) : Kept b s0 (landAt s x1 x2).1 := by
  show KeptAt Prod.fst _ _ _
  unfold landAt
  refine KeptAt.fold (fun _ _ _ => ?_) ?_; split; extract_lets +onlyGivenNames y1
  refine KeptAt.cond (fun _ => ?_) fun _ => ?_; show Kept _ _ _; dsimp -zeta only; assumption
  refine KeptAt.cond (fun _ => ?_) fun _ => ?_; show Kept _ _ _; dsimp -zeta only; assumption; show Kept _ _ _
  dsimp -zeta only; refine write_kept ?_; assumption; show Kept _ _ _; dsimp -zeta only; assumption

theorem landCard_kept (h : Kept b s0 s) : Kept b s0 (landCard s x1).1 := by
  show KeptAt Prod.fst _ _ _
  unfold landCard
  show Kept _ _ _; refine landAt_kept ?_; assumption

theorem execReportCardLanded_kept (h : Kept b s0 s) : KeptN b s0 (execReportCardLanded s) := by
  unfold execReportCardLanded
  refine KeptN.next ?_; split; refine cardPump_kept ?_; assumption; extract_lets +onlyGivenNames y1; split
  extract_lets +onlyGivenNames y2 y3; refine Kept.cut (p := Kept b s0 y3) ?_ fun _ => ?_; unfold y3
  refine Kept.lit ?_ rfl rfl rfl rfl rfl; refine Kept.fst (by assumption) ?_; refine landCard_kept ?_; assumption
  clear_value y3; extract_lets +onlyGivenNames y4; refine Kept.cut (p := Kept b s0 y4) ?_ fun _ => ?_; unfold y4
  refine Kept.cond (fun _ => ?_) fun _ => ?_; refine raise_kept ?_; assumption; refine setCnt_kept ?_
  refine setCnt_kept ?_; refine bump_kept ?_; assumption; clear_value y4; refine cardPump_kept ?_; assumption

theorem execRcArm_kept (h : Kept b s0 s) : KeptN b s0 (execRcArm x1 x2 x3 x4 x5 s) := by
  unfold execRcArm
  refine KeptN.next ?_; refine request_kept ?_; assumption

theorem ccArrive_kept (h : Kept b s0 s) : Kept b s0 (ccArrive s x1 x2).2 := by
  show KeptAt Prod.snd _ _ _
  unfold ccArrive
  refine KeptAt.cond (fun _ => ?_) fun _ => ?_; show Kept _ _ _; dsimp -zeta only; assumption; show Kept _ _ _
  dsimp -zeta only; refine rcArrive_kept ?_; refine rcArmGen_kept ?_; assumption

theorem execRcExternalArrive_kept (h : Kept b s0 s) : KeptN b s0 (execRcExternalArrive x1 x2 s) := by
  unfold execRcExternalArrive
  refine KeptN.next ?_; refine Kept.cond (fun _ => ?_) fun _ => ?_; refine bump_kept ?_; assumption
  refine Kept.cond (fun _ => ?_) fun _ => ?_; refine rcArrive_kept ?_; assumption; refine bump_kept ?_; assumption

theorem execRcComplete_kept (h : Kept b s0 s) : KeptN b s0 (execRcComplete x1 s) := by
  unfold execRcComplete
  refine KeptN.next ?_; refine Kept.cond (fun _ => ?_) fun _ => ?_; refine rcComplete_kept ?_
  refine rcSendRelease_kept ?_; assumption; assumption

theorem execRcTimeout_kept (h : Kept b s0 s) : KeptN b s0 (execRcTimeout x1 s) := by
  unfold execRcTimeout
  extract_lets +onlyGivenNames y1; refine KeptN.next ?_; refine Kept.cond (fun _ => ?_) fun _ => ?_; assumption
  extract_lets +onlyGivenNames y2; refine Kept.cut (p := Kept b s0 y2) ?_ fun _ => ?_; unfold y2
  refine updWire_kept ?_; assumption; clear_value y2; extract_lets +onlyGivenNames y3
  refine Kept.cut (p := Kept b s0 y3) ?_ fun _ => ?_; unfold y3; refine bump_kept ?_; refine raise_kept ?_; assumption
  clear_value y3; refine requestCard_kept ?_; assumption

theorem execSyncArrive_kept (h : Kept b s0 s) : KeptN b s0 (execSyncArrive x1 x2 x3 s) := by
  unfold execSyncArrive
  refine KeptN.next ?_; refine Kept.cond (fun _ => ?_) fun _ => ?_; assumption
  refine Kept.cond (fun _ => ?_) fun _ => ?_; refine bump_kept ?_; assumption; refine rcPropagate_kept ?_
  refine updWire_kept ?_; assumption

theorem execSyncRelease_kept (h : Kept b s0 s) : KeptN b s0 (execSyncRelease x1 x2 s) := by
  unfold execSyncRelease
  refine KeptN.next ?_; refine Kept.cond (fun _ => ?_) fun _ => ?_; assumption
  refine Kept.cond (fun _ => ?_) fun _ => ?_; refine bump_kept ?_; assumption; refine rcComplete_kept ?_
  refine rcSendRelease_kept ?_; assumption

theorem freeBytes_kept (h : Kept b s0 s) : Kept b s0 (freeBytes s x1).1 := by
  unfold freeBytes
  refine Kept.lit ?_ rfl rfl rfl rfl rfl; assumption

theorem handSet_kept (h : Kept b s0 s) : Kept b s0 (handSet s x1 x2) := by
  unfold handSet
  split; assumption; extract_lets +onlyGivenNames y1; refine Kept.cond (fun _ => ?_) fun _ => ?_
  extract_lets +onlyGivenNames y2 y3; refine Kept.cond (fun _ => ?_) fun _ => ?_; assumption
  split; refine holdTile_kept ?_; refine Kept.fst (by assumption) ?_; refine freeBytes_kept ?_; assumption
  refine Kept.cond (fun _ => ?_) fun _ => ?_; split; refine updLesson_kept ?_; refine Kept.fst (by assumption) ?_
  refine freeBytes_kept ?_; assumption; refine Kept.cond (fun _ => ?_) fun _ => ?_; split; assumption; split
  refine pumpSource_kept ?_; refine updLesson_kept ?_; refine Kept.fst (by assumption) ?_; refine freeBytes_kept ?_
  assumption; assumption

theorem handClear_kept (h : Kept b s0 s) : Kept b s0 (handClear s x1 x2) := by
  unfold handClear
  split; assumption; extract_lets +onlyGivenNames y1; refine Kept.cond (fun _ => ?_) fun _ => ?_
  extract_lets +onlyGivenNames y2 y3; refine Kept.cut (p := Kept b s0 y3) ?_ fun _ => ?_; unfold y3
  refine updLesson_kept ?_; assumption; clear_value y3; refine settleAll_kept ?_; refine updCore_kept ?_; assumption
  refine Kept.cond (fun _ => ?_) fun _ => ?_; refine updLesson_kept ?_; assumption
  refine Kept.cond (fun _ => ?_) fun _ => ?_; split; assumption; refine updLesson_kept ?_; assumption; assumption

theorem syncFlag_kept (h : Kept b s0 s) : Kept b s0 (syncFlag s x1 x2 x3) := by
  unfold syncFlag
  extract_lets +onlyGivenNames y1; refine Kept.cut (p := Kept b s0 y1) ?_ fun _ => ?_; unfold y1
  refine updCore_kept ?_; assumption; clear_value y1; split; assumption; refine Kept.cond (fun _ => ?_) fun _ => ?_
  refine handSet_kept ?_; assumption; refine handClear_kept ?_; assumption

theorem syncSetApply_kept (h : Kept b s0 s) : Kept b s0 (syncSetApply s x1) := by
  unfold syncSetApply
  extract_lets +onlyGivenNames y1 y2; split; refine rcCheck_kept ?_; refine leaveRecess_kept ?_
  refine setCounter_kept ?_; assumption; refine syncFlag_kept ?_; refine leaveRecess_kept ?_; assumption
  refine rcComplete_kept ?_; assumption

theorem syncSet_kept (h : Kept b s0 s) : Kept b s0 (syncSet s x1).2 := by
  show KeptAt Prod.snd _ _ _
  unfold syncSet
  split; extract_lets +onlyGivenNames y1 y2; refine Kept.cut (p := Kept b s0 y2) ?_ fun _ => ?_; unfold y2
  refine bump_kept ?_; refine syncSetApply_kept ?_; assumption; clear_value y2; show Kept _ _ _; dsimp -zeta only
  refine raise_kept ?_; assumption; show Kept _ _ _; dsimp -zeta only; assumption

end Sys2Proof.Machine
end

