-- ==== Sys2Proof/Laws/KeptHostPort.lean ====
section
/-!
SUPPORT. What each operation of Machine/HostPort.lean keeps (`Kept`).
-/

namespace Sys2Proof.Machine

open Sys2Proof

variable {b : Bool} {s0 s t : State}

theorem hostSendOut_kept (h : Kept b s0 s) : Kept b s0 (hostSendOut s x1 x2 x3) := by
  unfold hostSendOut
  extract_lets +onlyGivenNames y1 y2 y3 y4 y5 y6 y7; refine Kept.cut (p := Kept b s0 y7) ?_ fun _ => ?_; unfold y7
  refine Kept.lit ?_ rfl rfl rfl rfl rfl; assumption; clear_value y7; refine sendVia_kept ?_; assumption

theorem hostLocal_kept (h : Kept b s0 s) : Kept b s0 (hostLocal s x1 x2 x3) := by
  unfold hostLocal
  extract_lets +onlyGivenNames y1 y2 y3 y4; refine Kept.cut (p := Kept b s0 y4) ?_ fun _ => ?_; unfold y4
  refine Kept.lit ?_ rfl rfl rfl rfl rfl; assumption; clear_value y4; refine arrive_kept ?_; assumption

theorem hostRequest_kept (h : Kept b s0 s) : Kept b s0 (hostRequest s x1 x2 x3) := by
  unfold hostRequest
  split; extract_lets +onlyGivenNames y1; refine hostAnswer_kept ?_; refine logRefusal_kept ?_; assumption
  extract_lets +onlyGivenNames y2 y3 y4 y5; refine Kept.cond (fun _ => ?_) fun _ => ?_; refine hostLocal_kept ?_
  assumption; refine Kept.cond (fun _ => ?_) fun _ => ?_; refine hostAnswer_kept ?_; refine logRefusal_kept ?_
  assumption; refine hostSendOut_kept ?_; assumption

theorem notePoison_kept (h : Kept b s0 s) : Kept b s0 (notePoison s x1) := by
  unfold notePoison
  refine Kept.cond (fun _ => ?_) fun _ => ?_; refine bump_kept ?_; assumption; assumption

theorem execHostMwr_kept (h : Kept b s0 s) : KeptN b s0 (execHostMwr x1 x2 x3 s) := by
  unfold execHostMwr
  refine KeptN.next ?_; refine Kept.cond (fun _ => ?_) fun _ => ?_; assumption; refine hostRequest_kept ?_
  refine notePoison_kept ?_; assumption

theorem execHostMrd_kept (h : Kept b s0 s) : KeptN b s0 (execHostMrd x1 x2 x3 x4 s) := by
  unfold execHostMrd
  refine KeptN.next ?_; refine Kept.cond (fun _ => ?_) fun _ => ?_; assumption; refine hostRequest_kept ?_; assumption

theorem answerUr_kept (h : Kept b s0 s) : Kept b s0 (answerUr s x1 x2) := by
  unfold answerUr
  refine bump_kept ?_; refine emit_kept ?_; assumption

theorem execHostFadd_kept (h : Kept b s0 s) : KeptN b s0 (execHostFadd x1 x2 x3 x4 x5 x6 x7 s) := by
  unfold execHostFadd
  refine KeptN.next ?_; refine Kept.cond (fun _ => ?_) fun _ => ?_; assumption; extract_lets +onlyGivenNames y1
  refine Kept.cut (p := Kept b s0 y1) ?_ fun _ => ?_; unfold y1; refine notePoison_kept ?_; assumption; clear_value y1
  refine Kept.cond (fun _ => ?_) fun _ => ?_; refine answerUr_kept ?_; assumption; refine hostRequest_kept ?_
  assumption

theorem execHostAtomicOther_kept (h : Kept b s0 s) : KeptN b s0 (execHostAtomicOther x1 x2 s) := by
  unfold execHostAtomicOther
  refine KeptN.next ?_; refine Kept.cond (fun _ => ?_) fun _ => ?_; assumption; refine answerUr_kept ?_; assumption

theorem execMccUp_kept (h : Kept b s0 s) : KeptN b s0 (execMccUp x1 s) := by
  unfold execMccUp
  refine KeptN.next ?_; refine Kept.cond (fun _ => ?_) fun _ => ?_
  refine updMcc_kept (by intro e; simp_all) (by intro e; simp_all) ?_; assumption; assumption

theorem mccDown_kept (hs : (s.mcc x1).state ≠ .off) (h : Kept b s0 s) : Kept b s0 (mccDown s x1 x2) :=
  raise_kept (updMcc_kept (fun _ => rfl) (fun e => absurd e hs) h)

theorem execMccDown_kept (h : Kept b s0 s) : KeptN b s0 (execMccDown x1 x2 s) := by
  have off : ∀ {t : State} {v : MccState}, (t.mcc x1).state = v → v ≠ .off → (t.mcc x1).state ≠ .off :=
    fun e g => e ▸ g
  unfold execMccDown
  refine KeptN.next (Kept.cond (fun _ => ?_) fun _ => Kept.cond (fun e => ?_) fun _ => h)
  · have g := bump_kept (x1 := .mcPhyErrors) (x2 := x1.val) (x3 := 0) (x4 := 1) h
    exact Kept.cond (fun e => mccDown_kept (off (v := .up) e (by decide)) g) fun _ => g
  · exact mccDown_kept (by simp_all) h

theorem execMcTempRead_kept (h : Kept b s0 s) : KeptN b s0 (execMcTempRead x1 x2 s) := by
  unfold execMcTempRead
  refine KeptN.next ?_; refine Kept.cond (fun _ => ?_) fun _ => ?_
  refine updMcc_kept (by intro e; simp_all) (by intro e; simp_all) ?_; assumption; assumption

end Sys2Proof.Machine
end

