-- ==== Sys2Proof/Laws/KeptPower.lean ====
section
/-!
SUPPORT. What each operation of Machine/Power.lean keeps (`Kept`).
-/

namespace Sys2Proof.Machine

open Sys2Proof

variable {b : Bool} {s0 s t : State}

theorem updGov_kept (h : Kept b s0 s) : Kept b s0 (State.updGov s x1) := by
  unfold State.updGov
  refine Kept.lit ?_ rfl rfl rfl rfl rfl; assumption

theorem updRail_kept (h : Kept b s0 s) : Kept b s0 (State.updRail s x1 x2) := by
  unfold State.updRail
  refine updGov_kept ?_; assumption

theorem judge_kept (h : Kept b s0 s) : Kept b s0 (judge s x1 x2) := by
  unfold judge
  extract_lets +onlyGivenNames y1; split; refine Kept.cond (fun _ => ?_) fun _ => ?_; refine updRail_kept ?_
  assumption; refine raise_kept ?_; refine bump_kept ?_; refine updRail_kept ?_; assumption; refine updRail_kept ?_
  assumption; refine updRail_kept ?_; assumption; refine Kept.cond (fun _ => ?_) fun _ => ?_; refine updRail_kept ?_
  assumption; refine bump_kept ?_; refine updRail_kept ?_; assumption; assumption

theorem endRail_kept (h : Kept b s0 s) : Kept b s0 (endRail s x1 x2) := by
  unfold endRail
  extract_lets +onlyGivenNames y1; subst y1; extract_lets +onlyGivenNames y2; subst y2
  extract_lets +onlyGivenNames y3; subst y3; extract_lets +onlyGivenNames y4; subst y4
  extract_lets +onlyGivenNames y5; subst y5; extract_lets +onlyGivenNames y6; subst y6
  extract_lets +onlyGivenNames y7; subst y7; extract_lets +onlyGivenNames y8
  refine Kept.cut (p := Kept b s0 y8) ?_ fun _ => ?_; unfold y8; refine updRail_kept ?_; assumption; clear_value y8
  split; assumption; refine judge_kept ?_; assumption

theorem targetRail_kept (h : Kept b s0 s) : Kept b s0 (targetRail s x1) := by
  unfold targetRail
  extract_lets +onlyGivenNames y1 y2 y3; refine updRail_kept ?_; assumption

theorem allotPeriod_kept (h : Kept b s0 s) : Kept b s0 (allotPeriod s x1) := by
  unfold allotPeriod
  extract_lets +onlyGivenNames y1 y2; refine Kept.cut (p := Kept b s0 y2) ?_ fun _ => ?_; unfold y2
  refine Kept.cond (fun _ => ?_) fun _ => ?_; refine updGov_kept ?_; assumption; assumption; clear_value y2; split
  extract_lets +onlyGivenNames y3; refine Kept.cut (p := Kept b s0 y3) ?_ fun _ => ?_; unfold y3; refine bump_kept ?_
  refine updGov_kept ?_; assumption; clear_value y3; extract_lets +onlyGivenNames y4
  refine Kept.cut (p := Kept b s0 y4) ?_ fun _ => ?_; unfold y4; refine updGov_kept ?_; assumption; clear_value y4
  refine Kept.fold (fun _ _ _ => ?_) ?_; refine Kept.cond (fun _ => ?_) fun _ => ?_; assumption; refine bump_kept ?_
  assumption; assumption

theorem execPeriodBoundary_kept (h : Kept b s0 s) : KeptN b s0 (execPeriodBoundary x1 s) := by
  unfold execPeriodBoundary
  extract_lets +onlyGivenNames y1; refine Kept.cut (p := Kept b s0 y1) ?_ fun _ => ?_; unfold y1
  refine Kept.fold (fun _ _ _ => ?_) ?_; refine endRail_kept ?_; assumption; assumption; clear_value y1
  extract_lets +onlyGivenNames y2; refine Kept.cut (p := Kept b s0 y2) ?_ fun _ => ?_; unfold y2
  refine updGov_kept ?_; assumption; clear_value y2; extract_lets +onlyGivenNames y3
  refine Kept.cut (p := Kept b s0 y3) ?_ fun _ => ?_; unfold y3; refine Kept.cond (fun _ => ?_) fun _ => ?_
  refine bump_kept ?_; assumption; assumption; clear_value y3; extract_lets +onlyGivenNames y4
  refine Kept.cut (p := Kept b s0 y4) ?_ fun _ => ?_; unfold y4; apply takePend_kept; intro _; intro _; intro _
  refine takeWrite_kept ?_; assumption; assumption; clear_value y4; extract_lets +onlyGivenNames y5
  refine Kept.cut (p := Kept b s0 y5) ?_ fun _ => ?_; unfold y5; refine updGov_kept ?_; assumption; clear_value y5
  extract_lets +onlyGivenNames y6 y7; refine Kept.cut (p := Kept b s0 y7) ?_ fun _ => ?_; unfold y7
  refine Kept.fold (fun _ _ _ => ?_) ?_; refine targetRail_kept ?_; assumption; assumption; clear_value y7
  extract_lets +onlyGivenNames y8; refine Kept.cut (p := Kept b s0 y8) ?_ fun _ => ?_; unfold y8
  refine updGov_kept ?_; assumption; clear_value y8; extract_lets +onlyGivenNames y9 y10
  refine Kept.cut (p := Kept b s0 y10) ?_ fun _ => ?_; unfold y10; refine updGov_kept ?_; assumption; clear_value y10
  extract_lets +onlyGivenNames y11; refine Kept.cut (p := Kept b s0 y11) ?_ fun _ => ?_; unfold y11
  refine Kept.cond (fun _ => ?_) fun _ => ?_; refine bump_kept ?_; assumption; assumption; clear_value y11
  extract_lets +onlyGivenNames y12; refine Kept.cut (p := Kept b s0 y12) ?_ fun _ => ?_; unfold y12
  refine allotPeriod_kept ?_; assumption; clear_value y12; refine KeptN.next ?_; refine Kept.fold (fun _ _ _ => ?_) ?_
  refine updRail_kept ?_; assumption; assumption

theorem execTelemetrySample_kept (h : Kept b s0 s) : KeptN b s0 (execTelemetrySample x1 x2 x3 x4 s) := by
  unfold execTelemetrySample
  extract_lets +onlyGivenNames y1 y2; refine KeptN.next ?_; refine Kept.cond (fun _ => ?_) fun _ => ?_
  refine updRail_kept ?_; assumption; extract_lets +onlyGivenNames y3 y4
  refine Kept.cut (p := Kept b s0 y4) ?_ fun _ => ?_; unfold y4; refine Kept.cond (fun _ => ?_) fun _ => ?_
  refine updRail_kept ?_; assumption; assumption; clear_value y4; refine updRail_kept ?_; assumption

theorem execTelemetryInvalid_kept (h : Kept b s0 s) : KeptN b s0 (execTelemetryInvalid x1 s) := by
  unfold execTelemetryInvalid
  extract_lets +onlyGivenNames y1; refine KeptN.next ?_; refine Kept.cond (fun _ => ?_) fun _ => ?_; assumption
  refine raise_kept ?_; refine updRail_kept ?_; assumption

theorem clipNow_kept (h : Kept b s0 s) : Kept b s0 (clipNow s) := by
  unfold clipNow
  refine updGov_kept ?_; assumption

theorem execAlertAssert_kept (h : Kept b s0 s) : KeptN b s0 (execAlertAssert x1 s) := by
  unfold execAlertAssert
  refine KeptN.next ?_; refine Kept.cond (fun _ => ?_) fun _ => ?_; refine bump_kept ?_; assumption
  refine clipNow_kept ?_; refine updGov_kept ?_; assumption

theorem execAlertDeassert_kept (h : Kept b s0 s) : KeptN b s0 (execAlertDeassert x1 s) := by
  unfold execAlertDeassert
  refine KeptN.next ?_; refine updGov_kept ?_; assumption

theorem requestPoint_kept (h : Kept b s0 s) : Kept b s0 (requestPoint s x1) := by
  unfold requestPoint
  refine updGov_kept ?_; assumption

theorem execAlertStuck_kept (h : Kept b s0 s) : KeptN b s0 (execAlertStuck s) := by
  unfold execAlertStuck
  refine KeptN.next ?_; refine Kept.cond (fun _ => ?_) fun _ => ?_; assumption; extract_lets +onlyGivenNames y1
  refine Kept.cut (p := Kept b s0 y1) ?_ fun _ => ?_; unfold y1; refine updGov_kept ?_; refine raise_kept ?_
  assumption; clear_value y1; extract_lets +onlyGivenNames y2; refine Kept.cut (p := Kept b s0 y2) ?_ fun _ => ?_
  unfold y2; refine clipNow_kept ?_; refine setEnt_kept ?_; assumption; clear_value y2
  refine Kept.cond (fun _ => ?_) fun _ => ?_; refine updGov_kept ?_; assumption; refine requestPoint_kept ?_
  assumption

theorem execAlertChatter_kept (h : Kept b s0 s) : KeptN b s0 (execAlertChatter x1 s) := by
  unfold execAlertChatter
  refine KeptN.next ?_; refine Kept.cond (fun _ => ?_) fun _ => ?_; assumption; refine clipNow_kept ?_
  refine updGov_kept ?_; refine raise_kept ?_; assumption

theorem writeOpSelect_kept (h : Kept b s0 s) : Kept b s0 (writeOpSelect s x1).2 := by
  show KeptAt Prod.snd _ _ _
  unfold writeOpSelect
  show Kept _ _ _; dsimp -zeta only; refine requestPoint_kept ?_; refine setEnt_kept ?_; assumption

theorem pointChanged_kept (h : Kept b s0 s) : Kept b s0 (pointChanged s x1) := by
  unfold pointChanged
  split; assumption; refine cardPump_kept ?_; refine actions45_kept ?_; refine updGov_kept ?_; assumption

theorem execOpTimeout_kept (h : Kept b s0 s) : KeptN b s0 (execOpTimeout s) := by
  unfold execOpTimeout
  refine KeptN.next ?_; refine Kept.cond (fun _ => ?_) fun _ => ?_; assumption; refine raise_kept ?_
  refine updGov_kept ?_; assumption

end Sys2Proof.Machine
end

