-- ==== Sys2Proof/Laws/KeptReset.lean ====
section
/-!
SUPPORT. What each operation of Machine/Reset.lean keeps (`Kept`).
-/

namespace Sys2Proof.Machine

open Sys2Proof

variable {b : Bool} {s0 s t : State}

theorem requestReset_kept (h : Kept b s0 s) : Kept b s0 (requestReset s x1) := by
  unfold requestReset
  refine raise_kept ?_; refine lowerReq_kept ?_; assumption

theorem freeCode_kept (h : Kept b s0 s) : Kept b s0 (freeCode s).2 := by
  show KeptAt Prod.snd _ _ _
  unfold freeCode
  show Kept _ _ _; dsimp -zeta only; refine Kept.lit ?_ rfl rfl rfl rfl rfl; assumption

theorem setRstStatus_kept (h : Kept b s0 s) : Kept b s0 (setRstStatus s x1) := by
  unfold setRstStatus
  refine setCnt_kept ?_; assumption

theorem faultSplits_kept (h : Kept b s0 s) : Kept b s0 (faultSplits s x1) := by
  unfold faultSplits
  extract_lets +onlyGivenNames y1 y2; refine Kept.fold (fun _ _ _ => ?_) ?_; refine lessonFault_kept ?_; assumption
  assumption

theorem endReset_kept (h : Kept b s0 s) : Kept b s0 (endReset s x1 x2 x3) := by
  unfold endReset
  refine faultCtx_kept ?_; refine completeCmd_kept ?_; assumption

theorem faultWork_kept (h : Kept b s0 s) : Kept b s0 (faultWork s x1) := by
  unfold faultWork
  extract_lets +onlyGivenNames y1; refine Kept.cut (p := Kept b s0 y1) ?_ fun _ => ?_; unfold y1
  refine faultSplits_kept ?_; assumption; clear_value y1; extract_lets +onlyGivenNames y2
  refine Kept.cut (p := Kept b s0 y2) ?_ fun _ => ?_; unfold y2; refine Kept.fold (fun _ _ _ => ?_) ?_
  refine lessonFault_kept ?_; assumption; assumption; clear_value y2; refine Kept.fold (fun _ _ _ => ?_) ?_
  extract_lets +onlyGivenNames y3; refine Kept.cut (p := Kept b s0 y3) ?_ fun _ => ?_; unfold y3
  refine Kept.fold (fun _ _ _ => ?_) ?_; refine endReset_kept ?_; assumption; assumption; clear_value y3; split
  refine endReset_kept ?_; assumption; assumption; assumption

theorem dropSeqCmds_kept (h : Kept b s0 s) : Kept b s0 (dropSeqCmds s x1) := by
  unfold dropSeqCmds
  extract_lets +onlyGivenNames y1 y2; refine Kept.cut (p := Kept b s0 y2) ?_ fun _ => ?_; unfold y2
  refine Kept.fold (fun _ _ _ => ?_) ?_; refine seqReport_kept ?_; assumption; assumption; clear_value y2
  refine Kept.lit ?_ rfl rfl rfl rfl rfl; assumption

theorem dropRequests_kept (h : Kept b s0 s) : Kept b s0 (dropRequests s x1) := by
  unfold dropRequests
  extract_lets +onlyGivenNames y1 y2; refine Kept.cut (p := Kept b s0 y2) ?_ fun _ => ?_; unfold y2
  refine Kept.fold (fun _ _ _ => ?_) ?_; refine answer_kept ?_; refine passDone_kept ?_; assumption; assumption
  clear_value y2; extract_lets +onlyGivenNames y3 y4 y5; refine Kept.cut (p := Kept b s0 y5) ?_ fun _ => ?_; unfold y5
  refine Kept.lit ?_ rfl rfl rfl rfl rfl; assumption; clear_value y5; extract_lets +onlyGivenNames y6
  refine Kept.cut (p := Kept b s0 y6) ?_ fun _ => ?_; unfold y6; refine Kept.fold (fun _ _ _ => ?_) ?_
  refine answer_kept ?_; refine passDone_kept ?_; assumption; assumption; clear_value y6; refine closePassesOf_kept ?_
  refine Kept.lit ?_ rfl rfl rfl rfl rfl; assumption

theorem volatileReset_kept (h : Kept b s0 s) : Kept b s0 (volatileReset s x1 x2) := by
  unfold volatileReset
  extract_lets +onlyGivenNames y1 y2 y3 y4; refine formEffective_kept ?_; refine Kept.lit ?_ rfl rfl rfl rfl rfl
  assumption

theorem clearCore_kept (h : Kept b s0 s) : Kept b s0 (clearCore s x1) := by
  unfold clearCore
  extract_lets +onlyGivenNames y1 y2 y3 y4; refine Kept.cut (p := Kept b s0 y4) ?_ fun _ => ?_; unfold y4
  refine Kept.lit ?_ rfl rfl rfl rfl rfl; assumption; clear_value y4; refine clearRange_kept ?_
  refine volatileReset_kept ?_; assumption

theorem resetCore_kept (h : Kept b s0 s) : Kept b s0 (resetCore s x1 x2) := by
  unfold resetCore
  extract_lets +onlyGivenNames y1; refine Kept.cut (p := Kept b s0 y1) ?_ fun _ => ?_; unfold y1
  refine updCore_kept ?_; assumption; clear_value y1; extract_lets +onlyGivenNames y2
  refine Kept.cut (p := Kept b s0 y2) ?_ fun _ => ?_; unfold y2; refine Kept.cond (fun _ => ?_) fun _ => ?_
  refine dropSeqCmds_kept ?_; refine dropRequests_kept ?_; refine faultWork_kept ?_; assumption; assumption
  clear_value y2; refine clearCore_kept ?_; assumption

theorem clearCommons_kept (h : Kept b s0 s) : Kept b s0 (clearCommons s x1) := by
  unfold clearCommons
  extract_lets +onlyGivenNames y1; refine Kept.cut (p := Kept b s0 y1) ?_ fun _ => ?_; unfold y1
  refine updCluster_kept ?_; assumption; clear_value y1; refine clearRange_kept ?_; refine volatileReset_kept ?_
  assumption

theorem beginReset_kept (h : Kept b s0 s) : Kept b s0 (beginReset s x1) := by
  unfold beginReset
  extract_lets +onlyGivenNames y1 y2; refine Kept.cut (p := Kept b s0 y2) ?_ fun _ => ?_; unfold y2
  refine Kept.cond (fun _ => ?_) fun _ => ?_; refine updCluster_kept ?_; assumption; assumption; clear_value y2
  extract_lets +onlyGivenNames y3; refine Kept.cut (p := Kept b s0 y3) ?_ fun _ => ?_; unfold y3
  refine Kept.fold (fun _ _ _ => ?_) ?_; refine resetCore_kept ?_; assumption; assumption; clear_value y3
  extract_lets +onlyGivenNames y4; refine Kept.cut (p := Kept b s0 y4) ?_ fun _ => ?_; unfold y4
  refine ringEmpty_kept ?_; assumption; clear_value y4; extract_lets +onlyGivenNames y5
  refine Kept.cut (p := Kept b s0 y5) ?_ fun _ => ?_; unfold y5; refine Kept.cond (fun _ => ?_) fun _ => ?_
  refine clearCommons_kept ?_; assumption; assumption; clear_value y5; extract_lets +onlyGivenNames y6
  refine Kept.cut (p := Kept b s0 y6) ?_ fun _ => ?_; unfold y6; refine Kept.cond (fun _ => ?_) fun _ => ?_
  assumption; refine Kept.cond (fun _ => ?_) fun _ => ?_; refine updCluster_kept ?_; assumption
  refine updCore_kept ?_; assumption; clear_value y6; extract_lets +onlyGivenNames y7
  refine Kept.lit ?_ rfl rfl rfl rfl rfl; assumption

theorem phase_kept {v m} (hv : v ≠ 1) (hm : m.nonce = s.mgmt.nonce) (h : Kept b s0 s) :
    Kept b s0 { s with sys := { s.sys with phase := v }, mgmt := m } :=
  h.trans ⟨id, rfl, hm, rfl, id, List.prefix_rfl, fun _ => hv, fun _ _ h => h, fun _ q => absurd q hv, fun _ => rfl⟩

theorem resetCc_kept (h : Kept b s0 s) : Kept b s0 (resetCc s) := by
  unfold resetCc
  extract_lets +onlyGivenNames t
  have g : Kept b s0 t := ccRun_kept (updCc_kept h)
  clear_value t
  exact phase_kept (by decide) rfl g

theorem fwCommand_kept (h : Kept b s0 s) : Kept b s0 (fwCommand s x1 x2).2 := by
  show KeptAt Prod.snd _ _ _
  unfold fwCommand
  extract_lets +onlyGivenNames y1; refine KeptAt.cond (fun _ => ?_) fun _ => ?_; show Kept _ _ _; dsimp -zeta only
  assumption; refine KeptAt.cond (fun _ => ?_) fun _ => ?_; show Kept _ _ _; dsimp -zeta only; refine updCc_kept ?_
  assumption; refine KeptAt.cond (fun _ => ?_) fun _ => ?_; show Kept _ _ _; dsimp -zeta only; assumption
  show Kept _ _ _; dsimp -zeta only; refine resetCc_kept ?_; refine updCc_kept ?_; assumption

theorem execFwStageComplete_kept (h : Kept b s0 s) : KeptN b s0 (execFwStageComplete x1 s) := by
  unfold execFwStageComplete
  refine KeptN.next ?_; split; assumption; extract_lets +onlyGivenNames y1; split; extract_lets +onlyGivenNames y2 y3
  split; extract_lets +onlyGivenNames y4 y5 y6; refine Kept.cut (p := Kept b s0 y6) ?_ fun _ => ?_; unfold y6
  refine l2Written_kept ?_; refine updCc_kept ?_; refine Kept.fst (by assumption) ?_; refine fetchGlobal_kept ?_
  refine Kept.fst (by assumption) ?_; refine fetchGlobal_kept ?_; assumption; clear_value y6; refine setCnt_kept ?_
  assumption

theorem ungate_kept (h : Kept b s0 s) : Kept b s0 (ungate s x1 x2) := by
  unfold ungate
  refine Kept.cond (fun _ => ?_) fun _ => ?_; refine Kept.cond (fun _ => ?_) fun _ => ?_; refine updCore_kept ?_
  assumption; refine updCluster_kept ?_; assumption; extract_lets +onlyGivenNames y1
  refine Kept.cut (p := Kept b s0 y1) ?_ fun _ => ?_; unfold y1; refine Kept.cond (fun _ => ?_) fun _ => ?_
  refine updCore_kept ?_; assumption; refine Kept.fold (fun _ _ _ => ?_) ?_; refine updCore_kept ?_; assumption
  refine updCluster_kept ?_; assumption; clear_value y1; refine setRstStatus_kept ?_; assumption

theorem rstCommand_kept (h : Kept b s0 s) : Kept b s0 (rstCommand s x1).2 := by
  show KeptAt Prod.snd _ _ _
  unfold rstCommand
  extract_lets +onlyGivenNames y1 y2 y3; split; refine KeptAt.cond (fun _ => ?_) fun _ => ?_; split; show Kept _ _ _
  dsimp -zeta only; refine requestReset_kept ?_; refine Kept.snd (by assumption) ?_; refine freeCode_kept ?_
  assumption; refine KeptAt.cond (fun _ => ?_) fun _ => ?_; show Kept _ _ _; dsimp -zeta only
  refine setRstStatus_kept ?_; refine resetCc_kept ?_; assumption; refine KeptAt.cond (fun _ => ?_) fun _ => ?_
  show Kept _ _ _; dsimp -zeta only; refine ungate_kept ?_; assumption; extract_lets +onlyGivenNames y4 y5 y6 y7
  refine Kept.cut (p := Kept b s0 y7) ?_ fun _ => ?_; unfold y7; refine Kept.lit ?_ rfl rfl rfl rfl rfl; assumption
  clear_value y7; refine KeptAt.cond (fun _ => ?_) fun _ => ?_; show Kept _ _ _; dsimp -zeta only
  refine beginReset_kept ?_; assumption; show Kept _ _ _; dsimp -zeta only; refine Kept.lit ?_ rfl rfl rfl rfl rfl
  assumption; show Kept _ _ _; dsimp -zeta only; assumption

theorem execUnitQuiet_kept (h : Kept b s0 s) : KeptN b s0 (execUnitQuiet x1 x2 s) := by
  unfold execUnitQuiet
  refine KeptN.next ?_; split; assumption; refine Kept.cond (fun _ => ?_) fun _ => ?_; assumption
  refine beginReset_kept ?_; assumption

theorem execQuiesceTimeout_kept (h : Kept b s0 s) : KeptN b s0 (execQuiesceTimeout x1 x2 s) := by
  unfold execQuiesceTimeout
  refine KeptN.next ?_; split; assumption; extract_lets +onlyGivenNames y1 y2
  refine Kept.cut (p := Kept b s0 y2) ?_ fun _ => ?_; unfold y2; refine Kept.lit ?_ rfl rfl rfl rfl rfl; assumption
  clear_value y2; refine raise_kept ?_; refine setRstStatus_kept ?_; assumption

theorem execCoreRelease_kept (h : Kept b s0 s) : KeptN b s0 (execCoreRelease x1 s) := by
  unfold execCoreRelease
  extract_lets +onlyGivenNames y1; refine KeptN.next ?_; refine Kept.cond (fun _ => ?_) fun _ => ?_; assumption
  extract_lets +onlyGivenNames y2; refine Kept.cut (p := Kept b s0 y2) ?_ fun _ => ?_; unfold y2
  refine updCore_kept ?_; assumption; clear_value y2; extract_lets +onlyGivenNames y3; split; assumption
  refine Kept.cond (fun _ => ?_) fun _ => ?_; assumption; extract_lets +onlyGivenNames y4
  refine Kept.cut (p := Kept b s0 y4) ?_ fun _ => ?_; unfold y4; refine Kept.cond (fun _ => ?_) fun _ => ?_
  refine updCluster_kept ?_; assumption; assumption; clear_value y4; refine setRstStatus_kept ?_
  refine Kept.lit ?_ rfl rfl rfl rfl rfl; assumption

theorem releaseDomains_mcc {n f} (hp : s0.sys.phase = 1) (h : Kept b s0 s ∧ s.sys.phase = 2) :
    Kept b s0 (s.updMcc n f) ∧ (s.updMcc n f).sys.phase = 2 :=
  ⟨⟨h.1.mem, h.1.fuses, h.1.nonce, h.1.pending, h.1.req, h.1.outbox, h.1.phase, fun g => absurd hp g,
    fun _ q => absurd (h.2 ▸ q : (2 : Nat) = 1) (by decide), h.1.step⟩, h.2⟩

theorem releaseDomains_kept (h : Kept b s0 s) : Kept b s0 (releaseDomains s) := by
  refine h.trans ?_
  unfold releaseDomains
  refine Kept.cond (fun _ => Kept.refl b s) fun hp => ?_
  have hp : s.sys.phase = 1 := by simpa using hp
  extract_lets +onlyGivenNames y s1 s2
  have g1 : Kept b s s1 ∧ s1.sys.phase = 2 := ⟨phase_kept (v := 2) (m := s.mgmt) (by decide) rfl (Kept.refl b s), rfl⟩
  clear_value s1
  have g2 : Kept b s s2 := by
    have g : ∀ l : List Nat, ∀ s1, Kept b s s1 ∧ s1.sys.phase = 2 → Kept b s (l.foldl (fun s n =>
        ((s.updMcc n (fun m => { m with state := .initialising })).emit (.initReq n)).updPort n
          (fun q => { q with enable := roleOf s n != 0 })) s1) := by
      intro l
      induction l with
      | nil => exact fun _ g => g.1
      | cons a r ih =>
        intro s1 g1
        rw [List.foldl_cons]
        exact ih _ ⟨updPort_kept (emit_kept (releaseDomains_mcc hp g1).1), (releaseDomains_mcc (n := a) hp g1).2⟩
    exact g _ _ g1
  clear_value s2
  exact updGov_kept g2

theorem execScratchpadClearDone_kept (h : Kept b s0 s) : KeptN b s0 (execScratchpadClearDone s) := by
  unfold execScratchpadClearDone
  extract_lets +onlyGivenNames y1; refine Kept.cut (p := Kept b s0 y1) ?_ fun _ => ?_; unfold y1
  refine releaseDomains_kept ?_; assumption; clear_value y1; refine KeptN.next ?_
  refine Kept.fold (fun _ _ _ => ?_) ?_; refine Kept.cond (fun _ => ?_) fun _ => ?_; refine updCore_kept ?_
  refine clearRange_kept ?_; assumption; assumption; assumption

end Sys2Proof.Machine
end

