-- ==== Sys2Proof/Laws/KeptDebug.lean ====
section
/-!
SUPPORT. What each operation of Machine/Debug.lean keeps (`Kept`).
-/

namespace Sys2Proof.Machine

open Sys2Proof

variable {b : Bool} {s0 s t : State}

theorem traceControl_kept (h : Kept b s0 s) : Kept b s0 (traceControl s x1).2 := by
  show KeptAt Prod.snd _ _ _
  unfold traceControl
  refine KeptAt.cond (fun _ => ?_) fun _ => ?_; refine KeptAt.cond (fun _ => ?_) fun _ => ?_; show Kept _ _ _
  dsimp -zeta only; assumption; show Kept _ _ _; dsimp -zeta only; refine Kept.lit ?_ rfl rfl rfl rfl rfl; assumption
  show Kept _ _ _; dsimp -zeta only; refine Kept.lit ?_ rfl rfl rfl rfl rfl; assumption

theorem aggBlock_kept (h : Kept b s0 s) : Kept b s0 (aggBlock s x1) := by
  unfold aggBlock
  extract_lets +onlyGivenNames y1 y2; refine Kept.cut (p := Kept b s0 y2) ?_ fun _ => ?_; unfold y2
  refine Kept.fold (fun _ _ _ => ?_) ?_; split; refine bump_kept ?_; assumption; assumption; assumption
  clear_value y2; refine Kept.lit ?_ rfl rfl rfl rfl rfl; assumption

theorem aggForm_kept (h : Kept b s0 s) : Kept b s0 (aggForm s x1) := by
  unfold aggForm
  extract_lets +onlyGivenNames y1 y2; refine Kept.cut (p := Kept b s0 y2) ?_ fun _ => ?_; unfold y2
  refine Kept.fold (fun _ _ _ => ?_) ?_; extract_lets +onlyGivenNames y3
  refine Kept.cut (p := Kept b s0 y3) ?_ fun _ => ?_; unfold y3; refine bump_kept ?_; refine bump_kept ?_; assumption
  clear_value y3; refine Kept.fold (fun _ _ _ => ?_) ?_; refine bump_kept ?_; assumption; assumption; assumption
  clear_value y2; refine setCnt_kept ?_; assumption

theorem execAggRun_kept (h : Kept b s0 s) : KeptN b s0 (execAggRun x1 s) := by
  unfold execAggRun
  refine KeptN.next ?_; split; refine forwardAssists_kept ?_; refine raiseAssist_kept ?_; assumption
  refine Kept.cond (fun _ => ?_) fun _ => ?_; assumption; extract_lets +onlyGivenNames y1
  refine Kept.cut (p := Kept b s0 y1) ?_ fun _ => ?_; unfold y1; refine setCnt_kept ?_; refine aggBlock_kept ?_
  assumption; clear_value y1; extract_lets +onlyGivenNames y2; refine Kept.cut (p := Kept b s0 y2) ?_ fun _ => ?_
  unfold y2; refine Kept.cond (fun _ => ?_) fun _ => ?_; assumption; refine Kept.fold (fun _ _ _ => ?_) ?_
  refine emit_kept ?_; assumption; refine aggForm_kept ?_; assumption; clear_value y2; refine bump_kept ?_; assumption

theorem wfgRequest_kept (h : Kept b s0 s) : Kept b s0 (wfgRequest s x1) := by
  unfold wfgRequest
  extract_lets +onlyGivenNames y1; refine Kept.cut (p := Kept b s0 y1) ?_ fun _ => ?_; unfold y1
  refine requestCard_kept ?_; assumption; clear_value y1; refine Kept.cond (fun _ => ?_) fun _ => ?_
  refine Kept.fold (fun _ _ _ => ?_) ?_; refine emit_kept ?_; assumption; assumption; assumption

theorem wfgCommand_kept (h : Kept b s0 s) : Kept b s0 (wfgCommand s x1).2 := by
  show KeptAt Prod.snd _ _ _
  unfold wfgCommand
  refine KeptAt.cond (fun _ => ?_) fun _ => ?_; show Kept _ _ _; dsimp -zeta only; assumption
  extract_lets +onlyGivenNames y1; split; refine KeptAt.cond (fun _ => ?_) fun _ => ?_; show Kept _ _ _
  dsimp -zeta only; assumption; extract_lets +onlyGivenNames y2 y3; refine Kept.cut (p := Kept b s0 y3) ?_ fun _ => ?_
  unfold y3; refine Kept.lit ?_ rfl rfl rfl rfl rfl; refine Kept.snd (by assumption) ?_; show KeptAt Prod.snd _ _ _
  refine KeptAt.cond (fun _ => ?_) fun _ => ?_; show Kept _ _ _; dsimp -zeta only; assumption; show Kept _ _ _
  refine raiseAssist_kept ?_; assumption; clear_value y3; refine KeptAt.cond (fun _ => ?_) fun _ => ?_
  show Kept _ _ _; dsimp -zeta only; refine forwardAssists_kept ?_; assumption; show Kept _ _ _
  dsimp -zeta only; refine wfgRequest_kept ?_; assumption

theorem wfgEnd_kept (h : Kept b s0 s) : Kept b s0 (wfgEnd s x1 x2) := by
  unfold wfgEnd
  extract_lets +onlyGivenNames y1; refine Kept.cut (p := Kept b s0 y1) ?_ fun _ => ?_; unfold y1
  refine setCnt_kept ?_; assumption; clear_value y1; extract_lets +onlyGivenNames y2 y3
  refine Kept.cut (p := Kept b s0 y3) ?_ fun _ => ?_; unfold y3; refine Kept.lit ?_ rfl rfl rfl rfl rfl; assumption
  clear_value y3; extract_lets +onlyGivenNames y4 y5; refine Kept.cut (p := Kept b s0 y5) ?_ fun _ => ?_; unfold y5
  refine Kept.lit ?_ rfl rfl rfl rfl rfl; assumption; clear_value y5; refine Kept.cond (fun _ => ?_) fun _ => ?_
  refine bump_kept ?_; assumption; assumption

theorem execWfgDone_kept (h : Kept b s0 s) : KeptN b s0 (execWfgDone x1 s) := by
  unfold execWfgDone
  refine KeptN.next ?_; split; assumption; refine Kept.cond (fun _ => ?_) fun _ => ?_; assumption
  extract_lets +onlyGivenNames y1; refine Kept.cond (fun _ => ?_) fun _ => ?_; refine wfgRequest_kept ?_
  refine Kept.lit ?_ rfl rfl rfl rfl rfl; assumption; split; split; refine Kept.cond (fun _ => ?_) fun _ => ?_
  refine wfgEnd_kept ?_; refine Kept.fst (by assumption) ?_; refine landAt_kept ?_; assumption; refine wfgEnd_kept ?_
  refine Kept.fst (by assumption) ?_; refine landAt_kept ?_; assumption

end Sys2Proof.Machine
end

