-- ==== Sys2Proof/Laws/KeptAssists.lean ====
section
/-!
SUPPORT. What each operation of Machine/Assists.lean keeps (`Kept`).
-/

namespace Sys2Proof.Machine

open Sys2Proof

variable {b : Bool} {s0 s t : State}

theorem answeredLeaf_kept (h : Kept b s0 s) : Kept b s0 (answeredLeaf s x1 x2).2 := by
  show KeptAt Prod.snd _ _ _
  unfold answeredLeaf
  split; refine KeptAt.cond (fun _ => ?_) fun _ => ?_; show Kept _ _ _; dsimp -zeta only; assumption; show Kept _ _ _
  apply andThen_kept; intro _; intro _; show KeptAt Prod.snd _ _ _; refine KeptAt.cond (fun _ => ?_) fun _ => ?_
  split; show Kept _ _ _; dsimp -zeta only; assumption; split; show Kept _ _ _; dsimp -zeta only; assumption
  show Kept _ _ _; refine setLeaf_kept ?_; refine claimFrame_kept ?_
  refine KeptO.fst (allocFrame_kept ?_) (by assumption); assumption; split; show Kept _ _ _; refine takeLeaf_kept ?_
  assumption; show Kept _ _ _; dsimp -zeta only; assumption; refine growFor_kept ?_; assumption

theorem shareSource_kept (h : Kept b s0 s) : Kept b s0 (shareSource s x1 x2).2 := by
  show KeptAt Prod.snd _ _ _
  unfold shareSource
  split; refine KeptAt.cond (fun _ => ?_) fun _ => ?_; show Kept _ _ _; dsimp -zeta only; assumption
  refine KeptAt.cond (fun _ => ?_) fun _ => ?_; show Kept _ _ _; dsimp -zeta only; assumption; split; show Kept _ _ _
  dsimp -zeta only; assumption; extract_lets +onlyGivenNames y1; refine Kept.cut (p := Kept b s0 y1) ?_ fun _ => ?_
  unfold y1; refine updPend_kept ?_; refine claimBit_kept ?_; assumption; clear_value y1; show Kept _ _ _
  refine setLeaf_kept ?_; assumption

theorem editAround_kept (h : Kept b s0 s) : Kept b s0 (editAround s x1 x2 x3).2 := by
  show KeptAt Prod.snd _ _ _
  unfold editAround
  extract_lets +onlyGivenNames y1; split; refine KeptAt.cond (fun _ => ?_) fun _ => ?_; show Kept _ _ _
  dsimp -zeta only; assumption; refine KeptAt.cond (fun _ => ?_) fun _ => ?_; show Kept _ _ _; dsimp -zeta only
  assumption; split; show Kept _ _ _; dsimp -zeta only; assumption; extract_lets +onlyGivenNames y2; show Kept _ _ _
  apply andThen_kept; intro _; intro _; dsimp -zeta only; refine updPend_kept ?_; assumption; apply steps_kept
  intro _; intro _; intro _; refine shareSource_kept ?_; assumption; assumption; split; show Kept _ _ _
  dsimp -zeta only; assumption; show Kept _ _ _; dsimp -zeta only; refine updDesc_kept ?_; assumption; split
  show Kept _ _ _; dsimp -zeta only; assumption; extract_lets +onlyGivenNames y3; split
  extract_lets +onlyGivenNames y4; refine Kept.cut (p := Kept b s0 y4) ?_ fun _ => ?_; unfold y4
  refine updPend_kept ?_; assumption; clear_value y4; extract_lets +onlyGivenNames y5
  refine Kept.cut (p := Kept b s0 y5) ?_ fun _ => ?_; unfold y5; refine updDesc_kept ?_; assumption; clear_value y5
  show Kept _ _ _; dsimp -zeta only; split; refine Kept.cond (fun _ => ?_) fun _ => ?_; refine jobEnd_kept ?_
  assumption; assumption; assumption; show Kept _ _ _; dsimp -zeta only; refine breakJob_kept ?_; assumption
  show Kept _ _ _; dsimp -zeta only; assumption

theorem hostEdit_kept (h : Kept b s0 s) : Kept b s0 (hostEdit s x1 x2).2 := by
  show KeptAt Prod.snd _ _ _
  unfold hostEdit
  extract_lets +onlyGivenNames y1; refine KeptAt.cond (fun _ => ?_) fun _ => ?_; show Kept _ _ _
  refine applyOp_kept ?_; assumption; show Kept _ _ _; apply andThen_kept; intro _; intro _; apply steps_kept; intro _
  intro _; intro _; refine answeredLeaf_kept ?_; assumption; assumption; refine editAround_kept ?_; assumption

theorem answerEdit_kept (h : Kept b s0 s) : Kept b s0 (answerEdit s x1 x2 x3 x4) := by
  unfold answerEdit
  split; assumption; refine Kept.cond (fun _ => ?_) fun _ => ?_; assumption
  refine Kept.cond (fun _ => ?_) fun _ => ?_; refine dropEdit_kept ?_; refine editReport_kept ?_; assumption
  refine Kept.cond (fun _ => ?_) fun _ => ?_; refine jobPump_kept ?_; apply finishEdit_kept; assumption
  refine hostEdit_kept ?_; assumption; refine runEdit_kept ?_; assumption

theorem answerBatch_kept (h : Kept b s0 s) : Kept b s0 (answerBatch s x1 x2 x3) := by
  unfold answerBatch
  refine Kept.cond (fun _ => ?_) fun _ => ?_; assumption; extract_lets +onlyGivenNames y1
  refine Kept.cond (fun _ => ?_) fun _ => ?_; refine cardPump_kept ?_; refine beginStep_kept ?_
  refine Kept.fold (fun _ _ _ => ?_) ?_; refine place_kept ?_; assumption; assumption; extract_lets +onlyGivenNames y2
  refine Kept.cut (p := Kept b s0 y2) ?_ fun _ => ?_; unfold y2; refine cardPump_kept ?_; refine beginStep_kept ?_
  refine raise_kept ?_; assumption; clear_value y2; refine Kept.cond (fun _ => ?_) fun _ => ?_
  refine actions45_kept ?_; assumption; assumption

theorem answerWalk_kept (h : Kept b s0 s) : Kept b s0 (answerWalk s x1 x2 x3 x4 x5 x6 x7) := by
  unfold answerWalk
  extract_lets +onlyGivenNames y1; refine Kept.cond (fun _ => ?_) fun _ => ?_; unfold y1
  refine lessonFaultSeq_kept ?_; assumption; refine Kept.cond (fun _ => ?_) fun _ => ?_; unfold y1
  refine lessonFaultSeq_kept ?_; assumption; refine Kept.cond (fun _ => ?_) fun _ => ?_; unfold y1
  refine lessonFaultSeq_kept ?_; assumption; extract_lets +onlyGivenNames y2; split
  refine Kept.cond (fun _ => ?_) fun _ => ?_; refine tcInsert_kept ?_; assumption; unfold y1
  refine lessonFaultSeq_kept ?_; assumption; unfold y1; refine lessonFaultSeq_kept ?_; assumption

theorem answerSelect_kept (h : Kept b s0 s) : Kept b s0 (answerSelect s x1 x2 x3 x4 x5) := by
  unfold answerSelect
  extract_lets +onlyGivenNames y1; split; assumption; split; assumption; refine Kept.cond (fun _ => ?_) fun _ => ?_
  refine lessonFault_kept ?_; assumption; extract_lets +onlyGivenNames y2 y3
  refine Kept.cond (fun _ => ?_) fun _ => ?_; refine lessonFault_kept ?_; assumption; refine attSelected_kept ?_
  assumption

theorem answerAdmission_kept (h : Kept b s0 s) : Kept b s0 (answerAdmission s x1 x2 x3) := by
  unfold answerAdmission
  refine Kept.cond (fun _ => ?_) fun _ => ?_; refine raise_kept ?_; assumption; refine Kept.lit ?_ rfl rfl rfl rfl rfl
  assumption

theorem answerEscalate_kept (h : Kept b s0 s) : Kept b s0 (answerEscalate s x1 x2 x3 x4) := by
  unfold answerEscalate
  refine Kept.cond (fun _ => ?_) fun _ => ?_; refine raise_kept ?_; assumption; split; refine raise_kept ?_
  assumption; refine Kept.cond (fun _ => ?_) fun _ => ?_; refine Kept.lit ?_ rfl rfl rfl rfl rfl; assumption
  refine Kept.cond (fun _ => ?_) fun _ => ?_; assumption; refine raise_kept ?_; assumption

theorem applyAnswer_kept (h : Kept b s0 s) : Kept b s0 (applyAnswer s x1 x2 x3 x4) := by
  unfold applyAnswer
  split; refine answerAdmission_kept ?_; assumption; refine answerBatch_kept ?_; assumption
  extract_lets +onlyGivenNames y1; refine Kept.cut (p := Kept b s0 y1) ?_ fun _ => ?_; unfold y1
  refine Kept.cond (fun _ => ?_) fun _ => ?_; refine raise_kept ?_; assumption; assumption; clear_value y1
  refine jobPump_kept ?_; refine jobEnd_kept ?_; assumption; refine answerWalk_kept ?_; assumption
  refine answerEdit_kept ?_; assumption; refine answerSelect_kept ?_; assumption; refine answerEscalate_kept ?_
  assumption; refine wfgEnd_kept ?_; assumption; refine Kept.cond (fun _ => ?_) fun _ => ?_
  refine Kept.cond (fun _ => ?_) fun _ => ?_; refine rotateKey_kept ?_; assumption; assumption; refine raise_kept ?_
  assumption; refine Kept.cond (fun _ => ?_) fun _ => ?_; assumption; refine raise_kept ?_; assumption

theorem endAssist_kept (h : Kept b s0 s) : Kept b s0 (endAssist s x1 x2 x3 x4) := by
  unfold endAssist
  split; assumption; extract_lets +onlyGivenNames y1 y2; refine Kept.cut (p := Kept b s0 y2) ?_ fun _ => ?_; unfold y2
  refine unstall_kept ?_; refine Kept.lit ?_ rfl rfl rfl rfl rfl; assumption; clear_value y2
  refine forwardAssists_kept ?_; refine applyAnswer_kept ?_; assumption

theorem execAssistAnswer_kept (h : Kept b s0 s) : KeptN b s0 (execAssistAnswer x1 x2 x3 x4 s) := by
  unfold execAssistAnswer
  refine KeptN.next ?_; split; assumption; refine Kept.cond (fun _ => ?_) fun _ => ?_; assumption
  refine endAssist_kept ?_; assumption

theorem execAssistTimeout_kept (h : Kept b s0 s) : KeptN b s0 (execAssistTimeout x1 x2 s) := by
  unfold execAssistTimeout
  refine KeptN.next ?_; split; assumption; refine Kept.cond (fun _ => ?_) fun _ => ?_; assumption
  refine endAssist_kept ?_; assumption

theorem hostAssistAnswer_kept (h : Kept b s0 s) : Kept b s0 (hostAssistAnswer s x1 x2).2 := by
  show KeptAt Prod.snd _ _ _
  unfold hostAssistAnswer
  extract_lets +onlyGivenNames y1 y2; split; split; show Kept _ _ _; dsimp -zeta only; assumption
  refine KeptAt.cond (fun _ => ?_) fun _ => ?_; show Kept _ _ _; dsimp -zeta only; assumption
  extract_lets +onlyGivenNames y3; refine KeptAt.cond (fun _ => ?_) fun _ => ?_; show Kept _ _ _; dsimp -zeta only
  refine endAssist_kept ?_; assumption; split; extract_lets +onlyGivenNames y4; show Kept _ _ _; dsimp -zeta only
  refine endAssist_kept ?_; refine Kept.fst (by assumption) ?_; refine read_kept ?_; assumption; show Kept _ _ _
  dsimp -zeta only; assumption

theorem dropHostAssists_kept (h : Kept b s0 s) : Kept b s0 (dropHostAssists s) := by
  unfold dropHostAssists
  extract_lets +onlyGivenNames y1 y2 y3; refine Kept.cut (p := Kept b s0 y3) ?_ fun _ => ?_; unfold y3
  refine Kept.lit ?_ rfl rfl rfl rfl rfl; assumption; clear_value y3; extract_lets +onlyGivenNames y4
  refine Kept.cut (p := Kept b s0 y4) ?_ fun _ => ?_; unfold y4; refine Kept.fold (fun _ _ _ => ?_) ?_
  refine endAssist_kept ?_; assumption; assumption; clear_value y4; refine Kept.fold (fun _ _ _ => ?_) ?_
  refine applyAnswer_kept ?_; assumption; assumption

theorem execKeyRotation_kept (h : Kept b s0 s) : KeptN b s0 (execKeyRotation x1 s) := by
  unfold execKeyRotation
  refine KeptN.next ?_; refine Kept.cond (fun _ => ?_) fun _ => ?_; assumption; extract_lets +onlyGivenNames y1
  refine Kept.cond (fun _ => ?_) fun _ => ?_; refine rotateKey_kept ?_; assumption
  refine Kept.cond (fun _ => ?_) fun _ => ?_; assumption; split; refine forwardAssists_kept ?_
  refine Kept.snd (by assumption) ?_; refine raiseAssist_kept ?_; assumption; refine raise_kept ?_
  refine Kept.snd (by assumption) ?_; refine raiseAssist_kept ?_; assumption

end Sys2Proof.Machine
end

