-- ==== Sys2Proof/Laws/KeptCommands.lean ====
section
/-!
SUPPORT. What each operation of Machine/Commands.lean keeps (`Kept`).
-/

namespace Sys2Proof.Machine

open Sys2Proof

variable {b : Bool} {s0 s t : State}

theorem ropRequest_kept (h : Kept b s0 s) : Kept b s0 (ropRequest s x1 x2 x3 x4).1 := by
  show KeptAt Prod.fst _ _ _
  unfold ropRequest
  extract_lets +onlyGivenNames y1 y2; split; show Kept _ _ _; dsimp -zeta only; refine Kept.fst (by assumption) ?_
  show KeptAt Prod.fst _ _ _; refine KeptAt.cond (fun _ => ?_) fun _ => ?_; show Kept _ _ _; dsimp -zeta only
  assumption; show Kept _ _ _; refine read_kept ?_; assumption

theorem issueRop_kept (h : Kept b s0 s) : Kept b s0 (issueRop s x1 x2 x3 x4 x5) := by
  unfold issueRop
  split; refine Kept.cond (fun _ => ?_) fun _ => ?_; refine parkCmd_kept ?_; assumption; split
  extract_lets +onlyGivenNames y1; refine Kept.cut (p := Kept b s0 y1) ?_ fun _ => ?_; unfold y1
  refine issued_kept ?_; refine sbTake_kept ?_; refine Kept.fst (by assumption) ?_; refine ropRequest_kept ?_
  assumption; clear_value y1; refine issueInside_kept ?_; assumption; assumption; refine refuseCmd_kept ?_; assumption

theorem execRemoteOperationCommand_kept (h : Kept b s0 s) : KeptN b s0 (execRemoteOperationCommand x1 x2 x3 x4 s) := by
  unfold execRemoteOperationCommand
  refine KeptN.next ?_; refine Kept.cond (fun _ => ?_) fun _ => ?_; refine issueRop_kept ?_; assumption; assumption

theorem takeSeqCmd_kept (h : Kept b s0 s) : Kept b s0 (takeSeqCmd s x1 x2 x3 x4 x5 x6) := by
  unfold takeSeqCmd
  extract_lets +onlyGivenNames y1 y2 y3 y4; refine Kept.lit ?_ rfl rfl rfl rfl rfl; assumption

theorem takeEdit_kept (h : Kept b s0 s) : Kept b s0 (takeEdit s x1 x2 x3 x4 x5 x6) := by
  unfold takeEdit
  extract_lets +onlyGivenNames y1 y2 y3 y4 y5 y6; refine Kept.cond (fun _ => ?_) fun _ => ?_
  refine editReport_kept ?_; assumption; split; refine submitOrReserved_kept ?_; assumption
  refine submitOrReserved_kept ?_; assumption; refine submitOrReserved_kept ?_; assumption
  refine submitOrReserved_kept ?_; assumption; refine submitOrReserved_kept ?_; assumption; refine submitRemap_kept ?_
  assumption; refine submitOrReserved_kept ?_; assumption; refine submitEdit_kept ?_; assumption
  refine submitOrReserved_kept ?_; assumption; refine submitEdit_kept ?_; assumption; refine submitOrReserved_kept ?_
  assumption; refine submitEdit_kept ?_; assumption; refine editReport_kept ?_; assumption

theorem runTaken_kept (h : Kept b s0 s) : Kept b s0 (runTaken s x1 x2 x3 x4 x5 x6 x7) := by
  unfold runTaken
  split; refine issueLesson_kept ?_; assumption; refine takeSeqCmd_kept ?_; assumption; refine takeEdit_kept ?_
  assumption; refine issueMsu_kept ?_; assumption; refine issueRop_kept ?_; assumption; refine faultCtx_kept ?_
  assumption

theorem execCmdTake_kept (h : Kept b s0 s) : KeptN b s0 (execCmdTake x1 x2 x3 s) := by
  unfold execCmdTake
  refine KeptN.next ?_; refine Kept.cond (fun _ => ?_) fun _ => ?_; assumption; extract_lets +onlyGivenNames y1; split
  refine runTaken_kept ?_; refine updCtx_kept ?_; assumption; refine Kept.cond (fun _ => ?_) fun _ => ?_; assumption
  split; extract_lets +onlyGivenNames y2 y3; refine Kept.cut (p := Kept b s0 y3) ?_ fun _ => ?_; unfold y3
  refine updCtx_kept ?_; refine Kept.fst (by assumption) ?_; refine read_kept ?_; assumption; clear_value y3
  refine Kept.cond (fun _ => ?_) fun _ => ?_; refine faultCtx_kept ?_; assumption; refine ctxSettle_kept ?_
  refine runTaken_kept ?_; assumption

theorem takeReply_kept (h : Kept b s0 s) : Kept b s0 (takeReply s x1 x2) := by
  unfold takeReply
  split; refine answer_kept ?_; assumption; refine streamReply_kept ?_; assumption; split; refine answer_kept ?_
  assumption; assumption; refine answer_kept ?_; assumption; refine hostAnswer_kept ?_; assumption

theorem endRequest_kept (h : Kept b s0 s) : Kept b s0 (endRequest s x1 x2) := by
  unfold endRequest
  split; assumption; extract_lets +onlyGivenNames y1 y2; refine Kept.cut (p := Kept b s0 y2) ?_ fun _ => ?_; unfold y2
  refine Kept.lit ?_ rfl rfl rfl rfl rfl; assumption; clear_value y2; refine Kept.cond (fun _ => ?_) fun _ => ?_
  refine takeReply_kept ?_; assumption; refine discard_kept ?_; assumption

theorem execReply_kept (h : Kept b s0 s) : KeptN b s0 (execReply x1 x2 x3 x4 s) := by
  unfold execReply
  refine KeptN.next ?_; refine Kept.cond (fun _ => ?_) fun _ => ?_; refine endRequest_kept ?_; assumption; assumption

theorem execRequestTimeout_kept (h : Kept b s0 s) : KeptN b s0 (execRequestTimeout x1 s) := by
  unfold execRequestTimeout
  refine KeptN.next ?_; refine endRequest_kept ?_; assumption

end Sys2Proof.Machine
end

