-- ==== Sys2Proof/Laws/KeptDictionary.lean ====
section
/-!
SUPPORT. What each operation of Machine/Dictionary.lean keeps (`Kept`).
-/

namespace Sys2Proof.Machine

open Sys2Proof

variable {b : Bool} {s0 s t : State}

theorem waitWrite_kept (h : Kept b s0 s) : Kept b s0 (waitWrite s x1 x2 x3 x4) := by
  unfold waitWrite
  refine Kept.lit ?_ rfl rfl rfl rfl rfl; assumption

theorem writePlain_kept (h : Kept b s0 s) : Kept b s0 (writePlain s x1 x2 x3 x4).2 := by
  show KeptAt Prod.snd _ _ _
  unfold writePlain
  extract_lets +onlyGivenNames y1 y2 y3; refine KeptAt.cond (fun _ => ?_) fun _ => ?_; show Kept _ _ _
  dsimp -zeta only; assumption; refine KeptAt.cond (fun _ => ?_) fun _ => ?_; show Kept _ _ _; dsimp -zeta only
  assumption; refine KeptAt.cond (fun _ => ?_) fun _ => ?_; show Kept _ _ _; dsimp -zeta only; assumption; split
  show Kept _ _ _; dsimp -zeta only; refine waitWrite_kept ?_; assumption; show Kept _ _ _; dsimp -zeta only
  refine takeWrite_kept ?_; assumption

theorem writeCommand_kept (h : Kept b s0 s) : KeptO Prod.snd b s0 (writeCommand s x1 x2 x3 x4 x5 x6 x7) := by
  unfold writeCommand
  split; refine KeptO.here ?_; refine hostAssistAnswer_kept ?_; assumption; refine KeptO.here ?_
  refine ccArrive_kept ?_; assumption; refine KeptO.here ?_; refine rstCommand_kept ?_; assumption
  refine KeptO.here ?_; refine fwCommand_kept ?_; assumption; refine KeptO.here ?_; dsimp -zeta only
  refine commonsBumpEpoch_kept ?_; assumption; refine KeptO.here ?_; refine sfuCommand_kept ?_; assumption
  refine KeptO.here ?_; refine writeCtxTenant_kept ?_; assumption; refine KeptO.here ?_; refine writeCtxCtl_kept ?_
  assumption; refine KeptO.here ?_; show KeptAt Prod.snd _ _ _; refine KeptAt.cond (fun _ => ?_) fun _ => ?_
  refine KeptAt.cond (fun _ => ?_) fun _ => ?_; show Kept _ _ _; dsimp -zeta only; assumption; show Kept _ _ _
  refine enumStart_kept ?_; assumption; show Kept _ _ _; refine enumRelease_kept ?_; assumption; refine KeptO.here ?_
  refine writeRoute_kept ?_; assumption; refine KeptO.here ?_; refine writeWrapped_kept ?_; assumption
  refine KeptO.here ?_; refine writeWrapped_kept ?_; assumption; refine KeptO.here ?_; refine writeKeyPerm_kept ?_
  assumption; refine KeptO.here ?_; refine writeRotateAt_kept ?_; assumption; refine KeptO.here ?_
  refine zeroiseKey_kept ?_; assumption; refine KeptO.here ?_; refine writePass_kept ?_; assumption
  refine KeptO.here ?_; refine writePass_kept ?_; assumption; refine KeptO.here ?_; refine writePass_kept ?_
  assumption; refine KeptO.here ?_; refine writePass_kept ?_; assumption; refine KeptO.here ?_
  show KeptAt Prod.snd _ _ _; refine KeptAt.cond (fun _ => ?_) fun _ => ?_; show Kept _ _ _; refine openPass_kept ?_
  assumption; show Kept _ _ _; refine closePass_kept ?_; assumption; refine KeptO.here ?_; dsimp -zeta only
  refine writeRwt_kept ?_; assumption; refine KeptO.here ?_; dsimp -zeta only; refine writeRwt_kept ?_; assumption
  refine KeptO.here ?_; dsimp -zeta only; refine writeRwt_kept ?_; assumption; refine KeptO.here ?_; dsimp -zeta only
  refine writeRwt_kept ?_; assumption; refine KeptO.here ?_; refine reportCommand_kept ?_; assumption
  refine KeptO.here ?_; refine syncSet_kept ?_; assumption; refine KeptO.here ?_; refine wfgCommand_kept ?_
  assumption; refine KeptO.here ?_; refine traceControl_kept ?_; assumption; refine KeptO.here ?_
  refine overlayCommand_kept ?_; assumption; refine KeptO.here ?_; refine baseCommand_kept ?_; assumption
  refine KeptO.here ?_; refine writeOpSelect_kept ?_; assumption; exact KeptO.absent

theorem writeEntry_kept (h : Kept b s0 s) : Kept b s0 (writeEntry s x1 x2 x3 x4 x5 x6).2 := by
  show KeptAt Prod.snd _ _ _
  unfold writeEntry
  extract_lets +onlyGivenNames y1 y2 y3; refine KeptAt.cond (fun _ => ?_) fun _ => ?_; show Kept _ _ _
  dsimp -zeta only; assumption; split; show Kept _ _ _; refine (KeptO.use (writeCommand_kept ?_) (by assumption) : _)
  assumption; show Kept _ _ _; refine writePlain_kept ?_; assumption

theorem enterTick_kept (h : Kept b s0 s) : Kept b s0 (enterTick s x1) := by
  unfold enterTick
  refine Kept.cond (fun _ => ?_) fun _ => ?_; assumption; refine Kept.lit ?_ rfl rfl rfl rfl rfl; assumption

theorem noteWrite_kept (h : Kept b s0 s) : Kept b s0 (noteWrite s x1 x2) := by
  unfold noteWrite
  refine Kept.lit ?_ rfl rfl rfl rfl rfl; assumption

theorem tickedWrite_kept (h : Kept b s0 s) : Kept b s0 (tickedWrite s x1 x2 x3 x4 x5 x6 x7).2 := by
  show KeptAt Prod.snd _ _ _
  unfold tickedWrite
  extract_lets +onlyGivenNames y1; refine Kept.cut (p := Kept b s0 y1) ?_ fun _ => ?_; unfold y1
  refine enterTick_kept ?_; assumption; clear_value y1; split; refine KeptAt.cond (fun _ => ?_) fun _ => ?_
  show Kept _ _ _; dsimp -zeta only; assumption; refine KeptAt.cond (fun _ => ?_) fun _ => ?_; show Kept _ _ _
  dsimp -zeta only; refine Kept.snd (by assumption) ?_; refine writeEntry_kept ?_; assumption; show Kept _ _ _
  dsimp -zeta only; refine noteWrite_kept ?_; refine Kept.snd (by assumption) ?_; refine writeEntry_kept ?_
  assumption

theorem servePoll_kept (h : Kept b s0 s) : Kept b s0 (servePoll s x1 x2).2 := by
  show KeptAt Prod.snd _ _ _
  unfold servePoll
  extract_lets +onlyGivenNames y1 y2 y3 y4 y5; refine Kept.cut (p := Kept b s0 y5) ?_ fun _ => ?_; unfold y5
  refine Kept.lit ?_ rfl rfl rfl rfl rfl; assumption; clear_value y5; refine KeptAt.cond (fun _ => ?_) fun _ => ?_
  extract_lets +onlyGivenNames y6 y7 y8; refine Kept.cut (p := Kept b s0 y8) ?_ fun _ => ?_; unfold y8
  refine Kept.lit ?_ rfl rfl rfl rfl rfl; assumption; clear_value y8; show Kept _ _ _; dsimp -zeta only
  refine eventIbi_kept ?_; assumption; show Kept _ _ _; dsimp -zeta only; assumption

theorem authFrame_kept (h : Kept b s0 s) : Kept b s0 (authFrame s x1 x2).2.1 := by
  show KeptAt (fun r : _ × State × _ => r.2.1) _ _ _
  unfold authFrame
  refine KeptAt.cond (fun _ => ?_) fun _ => ?_; show Kept _ _ _; dsimp -zeta only; assumption; split; show Kept _ _ _
  dsimp -zeta only; assumption; split; show Kept _ _ _; dsimp -zeta only; refine Kept.snd (by assumption) ?_
  refine verify_kept ?_; assumption

theorem serveEntry_kept (h : Kept b s0 s) : Kept b s0 (serveEntry s x1 x2).2.2 := by
  show KeptAt (fun r : _ × _ × State => r.2.2) _ _ _
  unfold serveEntry
  extract_lets +onlyGivenNames y1 y2 y3; split; extract_lets +onlyGivenNames y4
  refine KeptAt.cond (fun _ => ?_) fun _ => ?_; show Kept _ _ _; dsimp -zeta only; refine Kept.mid (by assumption) ?_
  refine authFrame_kept ?_; assumption; refine KeptAt.cond (fun _ => ?_) fun _ => ?_; show Kept _ _ _
  dsimp -zeta only; refine Kept.mid (by assumption) ?_; refine authFrame_kept ?_; assumption; split
  refine KeptAt.cond (fun _ => ?_) fun _ => ?_; show Kept _ _ _; dsimp -zeta only; refine Kept.mid (by assumption) ?_
  refine authFrame_kept ?_; assumption; show Kept _ _ _; dsimp -zeta only; refine Kept.mid (by assumption) ?_
  refine authFrame_kept ?_; assumption; refine KeptAt.cond (fun _ => ?_) fun _ => ?_
  refine KeptAt.cond (fun _ => ?_) fun _ => ?_; show Kept _ _ _; dsimp -zeta only; refine Kept.mid (by assumption) ?_
  refine authFrame_kept ?_; assumption; split; show Kept _ _ _; dsimp -zeta only; refine Kept.snd (by assumption) ?_
  refine tickedWrite_kept ?_; refine Kept.mid (by assumption) ?_; refine authFrame_kept ?_; assumption
  refine KeptAt.cond (fun _ => ?_) fun _ => ?_; show Kept _ _ _; dsimp -zeta only; refine Kept.mid (by assumption) ?_
  refine authFrame_kept ?_; assumption; show Kept _ _ _; dsimp -zeta only; refine Kept.mid (by assumption) ?_
  refine authFrame_kept ?_; assumption

theorem serveEvents_kept (h : Kept b s0 s) : Kept b s0 (serveEvents s x1).2.2 := by
  show KeptAt (fun r : _ × _ × State => r.2.2) _ _ _
  unfold serveEvents
  split; refine KeptAt.cond (fun _ => ?_) fun _ => ?_; show Kept _ _ _; dsimp -zeta only
  refine Kept.mid (by assumption) ?_; refine authFrame_kept ?_; assumption
  refine KeptAt.cond (fun _ => ?_) fun _ => ?_; show Kept _ _ _; dsimp -zeta only; refine Kept.mid (by assumption) ?_
  refine authFrame_kept ?_; assumption; refine KeptAt.cond (fun _ => ?_) fun _ => ?_; show Kept _ _ _
  dsimp -zeta only; refine Kept.mid (by assumption) ?_; refine authFrame_kept ?_; assumption; split; show Kept _ _ _
  dsimp -zeta only; refine Kept.snd (by assumption) ?_; refine servePoll_kept ?_; refine Kept.mid (by assumption) ?_
  refine authFrame_kept ?_; assumption

theorem serveLocal_kept (h : Kept b s0 s) : Kept b s0 (serveLocal s x1).2.2 := by
  show KeptAt (fun r : _ × _ × State => r.2.2) _ _ _
  unfold serveLocal
  refine KeptAt.cond (fun _ => ?_) fun _ => ?_; show Kept _ _ _; dsimp -zeta only; refine serveEvents_kept ?_
  assumption; refine KeptAt.cond (fun _ => ?_) fun _ => ?_; show Kept _ _ _; dsimp -zeta only; assumption; split
  show Kept _ _ _; dsimp -zeta only; refine serveEntry_kept ?_; assumption; show Kept _ _ _; dsimp -zeta only
  assumption

theorem deliverFrame_kept (h : Kept b s0 s) : Kept b s0 (deliverFrame s x1 x2) := by
  unfold deliverFrame
  split; extract_lets +onlyGivenNames y1 y2 y3; refine Kept.cut (p := Kept b s0 y3) ?_ fun _ => ?_; unfold y3
  refine Kept.lit ?_ rfl rfl rfl rfl rfl; assumption; clear_value y3; refine Kept.cond (fun _ => ?_) fun _ => ?_
  refine emit_kept ?_; assumption; assumption; refine Kept.cond (fun _ => ?_) fun _ => ?_; refine irq_kept ?_
  refine emit_kept ?_; assumption; assumption; refine emit_kept ?_; assumption

theorem serveFrame_kept (h : Kept b s0 s) : Kept b s0 (serveFrame s x1) := by
  unfold serveFrame
  extract_lets +onlyGivenNames y1; refine Kept.cond (fun _ => ?_) fun _ => ?_; split; refine deliverFrame_kept ?_
  refine Kept.last (by assumption) ?_; refine serveLocal_kept ?_; assumption
  refine Kept.cond (fun _ => ?_) fun _ => ?_; refine deliverFrame_kept ?_; assumption
  extract_lets +onlyGivenNames y2 y3; refine emit_kept ?_; refine Kept.lit ?_ rfl rfl rfl rfl rfl; assumption

theorem loseResponse_kept (h : Kept b s0 s) : Kept b s0 (loseResponse s) := by
  unfold loseResponse
  refine Kept.cond (fun _ => ?_) fun _ => ?_; assumption; extract_lets +onlyGivenNames y1; refine bump_kept ?_
  refine Kept.lit ?_ rfl rfl rfl rfl rfl; assumption

theorem frameIn_kept (h : Kept b s0 s) : Kept b s0 (frameIn s x1) := by
  unfold frameIn
  extract_lets +onlyGivenNames y1; refine Kept.cut (p := Kept b s0 y1) ?_ fun _ => ?_; unfold y1
  refine Kept.cond (fun _ => ?_) fun _ => ?_; assumption; refine bump_kept ?_; assumption; clear_value y1
  refine Kept.cond (fun _ => ?_) fun _ => ?_; refine loseResponse_kept ?_; assumption; assumption

theorem takeFrame_kept (h : Kept b s0 s) : Kept b s0 (takeFrame s x1) := by
  unfold takeFrame
  extract_lets +onlyGivenNames y1; refine Kept.cond (fun _ => ?_) fun _ => ?_; assumption
  refine Kept.cond (fun _ => ?_) fun _ => ?_; refine bump_kept ?_; assumption; extract_lets +onlyGivenNames y2
  refine Kept.cut (p := Kept b s0 y2) ?_ fun _ => ?_; unfold y2; refine frameIn_kept ?_; assumption; clear_value y2
  refine Kept.cond (fun _ => ?_) fun _ => ?_; refine serveFrame_kept ?_; assumption
  refine Kept.cond (fun _ => ?_) fun _ => ?_; assumption; refine Kept.cond (fun _ => ?_) fun _ => ?_
  refine deliverFrame_kept ?_; assumption; refine Kept.lit ?_ rfl rfl rfl rfl rfl; assumption

theorem pumpFrames_kept (h : Kept b s0 s) : Kept b s0 (pumpFrames s) := by
  unfold pumpFrames
  refine Kept.fold (fun _ _ _ => ?_) ?_; refine Kept.cond (fun _ => ?_) fun _ => ?_
  refine Kept.lit ?_ rfl rfl rfl rfl rfl; assumption; refine serveFrame_kept ?_; assumption
  refine Kept.lit ?_ rfl rfl rfl rfl rfl; assumption

theorem execDictWrite_kept (h : Kept b s0 s) : KeptN b s0 (execDictWrite x1 x2 x3 x4 s) := by
  unfold execDictWrite
  refine KeptN.next ?_; refine takeFrame_kept ?_; assumption

theorem execQmfnRead_kept (h : Kept b s0 s) : KeptN b s0 (execQmfnRead x1 x2 x3 x4 s) := by
  unfold execQmfnRead
  refine KeptN.next ?_; refine takeFrame_kept ?_; assumption

theorem execEventPoll_kept (h : Kept b s0 s) : KeptN b s0 (execEventPoll x1 x2 s) := by
  unfold execEventPoll
  refine KeptN.next ?_; refine takeFrame_kept ?_; assumption

theorem execQmfnResponse_kept (h : Kept b s0 s) : KeptN b s0 (execQmfnResponse x1 x2 s) := by
  unfold execQmfnResponse
  refine KeptN.next ?_; split; assumption; extract_lets +onlyGivenNames y1 y2
  refine Kept.cut (p := Kept b s0 y2) ?_ fun _ => ?_; unfold y2; refine Kept.lit ?_ rfl rfl rfl rfl rfl; assumption
  clear_value y2; refine pumpFrames_kept ?_; refine deliverFrame_kept ?_; assumption

theorem execQmfnFwdTimeout_kept (h : Kept b s0 s) : KeptN b s0 (execQmfnFwdTimeout x1 s) := by
  unfold execQmfnFwdTimeout
  refine KeptN.next ?_; split; assumption; extract_lets +onlyGivenNames y1 y2
  refine Kept.cut (p := Kept b s0 y2) ?_ fun _ => ?_; unfold y2; refine Kept.lit ?_ rfl rfl rfl rfl rfl; assumption
  clear_value y2; refine pumpFrames_kept ?_; refine deliverFrame_kept ?_; assumption

end Sys2Proof.Machine
end

