-- ==== Sys2Proof/Laws/KeptManagement.lean ====
section
/-!
SUPPORT. What each operation of Machine/Management.lean keeps (`Kept`).
-/

namespace Sys2Proof.Machine

open Sys2Proof

variable {b : Bool} {s0 s t : State}

theorem updI3c_kept (h : Kept b s0 s) : Kept b s0 (State.updI3c s x1) := by
  unfold State.updI3c
  refine Kept.lit ?_ rfl rfl rfl rfl rfl; assumption

theorem ackI3c_kept (h : Kept b s0 s) : Kept b s0 (ackI3c s x1 x2) := by
  unfold ackI3c
  refine Kept.cond (fun _ => ?_) fun _ => ?_; refine emit_kept ?_; assumption; assumption

theorem execI3cPrivateWrite_kept (h : Kept b s0 s) : KeptN b s0 (execI3cPrivateWrite x1 x2 x3 s) := by
  unfold execI3cPrivateWrite
  refine KeptN.next ?_; refine Kept.cond (fun _ => ?_) fun _ => ?_; assumption; split; refine bump_kept ?_; assumption
  refine takeFrame_kept ?_; assumption

theorem execI3cPrivateRead_kept (h : Kept b s0 s) : KeptN b s0 (execI3cPrivateRead x1 s) := by
  unfold execI3cPrivateRead
  refine KeptN.next ?_; refine Kept.cond (fun _ => ?_) fun _ => ?_; assumption; split; refine emit_kept ?_; assumption
  refine emit_kept ?_; refine updI3c_kept ?_; assumption

theorem execEntdaa_kept (h : Kept b s0 s) : KeptN b s0 (execEntdaa x1 s) := by
  unfold execEntdaa
  refine KeptN.next ?_; refine Kept.cond (fun _ => ?_) fun _ => ?_; assumption; refine emit_kept ?_
  refine updI3c_kept ?_; assumption

theorem execSetdasa_kept (h : Kept b s0 s) : KeptN b s0 (execSetdasa x1 x2 s) := by
  unfold execSetdasa
  refine KeptN.next ?_; refine Kept.cond (fun _ => ?_) fun _ => ?_; assumption
  refine Kept.cond (fun _ => ?_) fun _ => ?_; refine emit_kept ?_; assumption; refine emit_kept ?_
  refine updI3c_kept ?_; assumption

theorem execSetnewda_kept (h : Kept b s0 s) : KeptN b s0 (execSetnewda x1 x2 s) := by
  unfold execSetnewda
  refine KeptN.next ?_; refine Kept.cond (fun _ => ?_) fun _ => ?_; assumption; refine emit_kept ?_
  refine updI3c_kept ?_; assumption

theorem execRstdaa_kept (h : Kept b s0 s) : KeptN b s0 (execRstdaa s) := by
  unfold execRstdaa
  refine KeptN.next ?_; refine updI3c_kept ?_; assumption

theorem readI3c_kept (h : Kept b s0 s) : Kept b s0 (readI3c s x1 x2) := by
  unfold readI3c
  refine Kept.cond (fun _ => ?_) fun _ => ?_; refine emit_kept ?_; assumption; assumption

theorem execGetpid_kept (h : Kept b s0 s) : KeptN b s0 (execGetpid x1 s) := by
  unfold execGetpid
  refine KeptN.next ?_; refine readI3c_kept ?_; assumption

theorem execGetbcr_kept (h : Kept b s0 s) : KeptN b s0 (execGetbcr x1 s) := by
  unfold execGetbcr
  refine KeptN.next ?_; refine readI3c_kept ?_; assumption

theorem execGetdcr_kept (h : Kept b s0 s) : KeptN b s0 (execGetdcr x1 s) := by
  unfold execGetdcr
  refine KeptN.next ?_; refine readI3c_kept ?_; assumption

theorem execGetstatus_kept (h : Kept b s0 s) : KeptN b s0 (execGetstatus x1 s) := by
  unfold execGetstatus
  refine KeptN.next ?_; refine readI3c_kept ?_; assumption

theorem execGetmwl_kept (h : Kept b s0 s) : KeptN b s0 (execGetmwl x1 s) := by
  unfold execGetmwl
  refine KeptN.next ?_; refine readI3c_kept ?_; assumption

theorem execGetmrl_kept (h : Kept b s0 s) : KeptN b s0 (execGetmrl x1 s) := by
  unfold execGetmrl
  refine KeptN.next ?_; refine readI3c_kept ?_; assumption

theorem execSetmwl_kept (h : Kept b s0 s) : KeptN b s0 (execSetmwl x1 x2 s) := by
  unfold execSetmwl
  refine KeptN.next ?_; refine Kept.cond (fun _ => ?_) fun _ => ?_; assumption
  refine Kept.cond (fun _ => ?_) fun _ => ?_; refine ackI3c_kept ?_; assumption; refine ackI3c_kept ?_
  refine updI3c_kept ?_; assumption

theorem execSetmrl_kept (h : Kept b s0 s) : KeptN b s0 (execSetmrl x1 x2 s) := by
  unfold execSetmrl
  refine KeptN.next ?_; refine Kept.cond (fun _ => ?_) fun _ => ?_; assumption
  refine Kept.cond (fun _ => ?_) fun _ => ?_; refine ackI3c_kept ?_; assumption; refine ackI3c_kept ?_
  refine updI3c_kept ?_; assumption

theorem execEnec_kept (h : Kept b s0 s) : KeptN b s0 (execEnec x1 x2 s) := by
  unfold execEnec
  refine KeptN.next ?_; refine Kept.cond (fun _ => ?_) fun _ => ?_; assumption; extract_lets +onlyGivenNames y1
  refine Kept.cut (p := Kept b s0 y1) ?_ fun _ => ?_; unfold y1; refine ackI3c_kept ?_; assumption; clear_value y1
  refine Kept.cond (fun _ => ?_) fun _ => ?_; assumption; extract_lets +onlyGivenNames y2 y3
  refine Kept.cut (p := Kept b s0 y3) ?_ fun _ => ?_; unfold y3; refine updI3c_kept ?_; assumption; clear_value y3
  refine eventIbi_kept ?_; refine Kept.cond (fun _ => ?_) fun _ => ?_; refine emit_kept ?_; assumption; assumption

theorem execDisec_kept (h : Kept b s0 s) : KeptN b s0 (execDisec x1 x2 s) := by
  unfold execDisec
  refine KeptN.next ?_; refine Kept.cond (fun _ => ?_) fun _ => ?_; assumption; extract_lets +onlyGivenNames y1
  refine Kept.cut (p := Kept b s0 y1) ?_ fun _ => ?_; unfold y1; refine ackI3c_kept ?_; assumption; clear_value y1
  refine Kept.cond (fun _ => ?_) fun _ => ?_; refine updI3c_kept ?_; assumption; assumption

theorem execHpOpen_kept (h : Kept b s0 s) : KeptN b s0 (execHpOpen x1 s) := by
  unfold execHpOpen
  refine KeptN.next ?_; refine takeFrame_kept ?_; assumption

theorem execHpClose_kept (h : Kept b s0 s) : KeptN b s0 (execHpClose x1 s) := by
  unfold execHpClose
  refine KeptN.next ?_; refine takeFrame_kept ?_; assumption

theorem execRcCcArrive_kept (h : Kept b s0 s) : KeptN b s0 (execRcCcArrive x1 x2 x3 s) := by
  unfold execRcCcArrive
  refine KeptN.next ?_; refine takeFrame_kept ?_; assumption

theorem execReportCmd_kept (h : Kept b s0 s) : KeptN b s0 (execReportCmd x1 s) := by
  unfold execReportCmd
  refine KeptN.next ?_; refine takeFrame_kept ?_; assumption

theorem execSyncSetCounter_kept (h : Kept b s0 s) : KeptN b s0 (execSyncSetCounter x1 x2 x3 x4 s) := by
  unfold execSyncSetCounter
  refine KeptN.next ?_; refine takeFrame_kept ?_; assumption

theorem execSyncSetFlag_kept (h : Kept b s0 s) : KeptN b s0 (execSyncSetFlag x1 x2 x3 x4 s) := by
  unfold execSyncSetFlag
  refine KeptN.next ?_; refine takeFrame_kept ?_; assumption

theorem execSyncSetWire_kept (h : Kept b s0 s) : KeptN b s0 (execSyncSetWire x1 x2 x3 x4 s) := by
  unfold execSyncSetWire
  refine KeptN.next ?_; refine takeFrame_kept ?_; assumption

theorem execCommonsInvalidate_kept (h : Kept b s0 s) : KeptN b s0 (execCommonsInvalidate x1 x2 s) := by
  unfold execCommonsInvalidate
  refine KeptN.next ?_; refine takeFrame_kept ?_; assumption

theorem execSfuLoadImage_kept (h : Kept b s0 s) : KeptN b s0 (execSfuLoadImage x1 x2 x3 s) := by
  unfold execSfuLoadImage
  refine KeptN.next ?_; refine takeFrame_kept ?_; assumption

theorem execSfuLoadFactory_kept (h : Kept b s0 s) : KeptN b s0 (execSfuLoadFactory x1 x2 x3 s) := by
  unfold execSfuLoadFactory
  refine KeptN.next ?_; refine takeFrame_kept ?_; assumption

theorem execFnAssistAnswer_kept (h : Kept b s0 s) : KeptN b s0 (execFnAssistAnswer x1 x2 x3 x4 s) := by
  unfold execFnAssistAnswer
  refine KeptN.next ?_; refine takeFrame_kept ?_; assumption

theorem execEnumStart_kept (h : Kept b s0 s) : KeptN b s0 (execEnumStart x1 s) := by
  unfold execEnumStart
  refine KeptN.next ?_; refine takeFrame_kept ?_; assumption

theorem execEnumRelease_kept (h : Kept b s0 s) : KeptN b s0 (execEnumRelease x1 s) := by
  unfold execEnumRelease
  refine KeptN.next ?_; refine takeFrame_kept ?_; assumption

theorem execKeyWrapped_kept (h : Kept b s0 s) : KeptN b s0 (execKeyWrapped x1 x2 s) := by
  unfold execKeyWrapped
  refine KeptN.next ?_; refine takeFrame_kept ?_; assumption

theorem execKeyNextWrapped_kept (h : Kept b s0 s) : KeptN b s0 (execKeyNextWrapped x1 x2 s) := by
  unfold execKeyNextWrapped
  refine KeptN.next ?_; refine takeFrame_kept ?_; assumption

theorem execKeyZeroise_kept (h : Kept b s0 s) : KeptN b s0 (execKeyZeroise x1 s) := by
  unfold execKeyZeroise
  refine KeptN.next ?_; refine takeFrame_kept ?_; assumption

theorem execOvlLoad_kept (h : Kept b s0 s) : KeptN b s0 (execOvlLoad x1 x2 s) := by
  unfold execOvlLoad
  refine KeptN.next ?_; refine takeFrame_kept ?_; assumption

theorem execOvlUnload_kept (h : Kept b s0 s) : KeptN b s0 (execOvlUnload x1 x2 s) := by
  unfold execOvlUnload
  refine KeptN.next ?_; refine takeFrame_kept ?_; assumption

theorem execSetMode_kept (h : Kept b s0 s) : KeptN b s0 (execSetMode x1 x2 s) := by
  unfold execSetMode
  refine KeptN.next ?_; refine takeFrame_kept ?_; assumption

theorem execOvlActivate_kept (h : Kept b s0 s) : KeptN b s0 (execOvlActivate x1 x2 s) := by
  unfold execOvlActivate
  refine KeptN.next ?_; refine takeFrame_kept ?_; assumption

theorem execOvlDeactivate_kept (h : Kept b s0 s) : KeptN b s0 (execOvlDeactivate x1 x2 s) := by
  unfold execOvlDeactivate
  refine KeptN.next ?_; refine takeFrame_kept ?_; assumption

theorem execBaseApply_kept (h : Kept b s0 s) : KeptN b s0 (execBaseApply x1 s) := by
  unfold execBaseApply
  refine KeptN.next ?_; refine takeFrame_kept ?_; assumption

theorem execBaseSave_kept (h : Kept b s0 s) : KeptN b s0 (execBaseSave x1 s) := by
  unfold execBaseSave
  refine KeptN.next ?_; refine takeFrame_kept ?_; assumption

theorem execPgOpSelect_kept (h : Kept b s0 s) : KeptN b s0 (execPgOpSelect x1 x2 s) := by
  unfold execPgOpSelect
  refine KeptN.next ?_; refine takeFrame_kept ?_; assumption

theorem execQuiesceReset_kept (h : Kept b s0 s) : KeptN b s0 (execQuiesceReset x1 x2 x3 s) := by
  unfold execQuiesceReset
  refine KeptN.next ?_; refine takeFrame_kept ?_; assumption

theorem execForceReset_kept (h : Kept b s0 s) : KeptN b s0 (execForceReset x1 x2 x3 s) := by
  unfold execForceReset
  refine KeptN.next ?_; refine takeFrame_kept ?_; assumption

theorem execGate_kept (h : Kept b s0 s) : KeptN b s0 (execGate x1 x2 x3 s) := by
  unfold execGate
  refine KeptN.next ?_; refine takeFrame_kept ?_; assumption

theorem execUngate_kept (h : Kept b s0 s) : KeptN b s0 (execUngate x1 x2 x3 s) := by
  unfold execUngate
  refine KeptN.next ?_; refine takeFrame_kept ?_; assumption

theorem execCtxResume_kept (h : Kept b s0 s) : KeptN b s0 (execCtxResume x1 x2 x3 s) := by
  unfold execCtxResume
  refine KeptN.next ?_; refine takeFrame_kept ?_; assumption

theorem execCtxSkip_kept (h : Kept b s0 s) : KeptN b s0 (execCtxSkip x1 x2 x3 s) := by
  unfold execCtxSkip
  refine KeptN.next ?_; refine takeFrame_kept ?_; assumption

theorem execFwStage_kept (h : Kept b s0 s) : KeptN b s0 (execFwStage x1 s) := by
  unfold execFwStage
  refine KeptN.next ?_; refine takeFrame_kept ?_; assumption

theorem execFwActivate_kept (h : Kept b s0 s) : KeptN b s0 (execFwActivate x1 s) := by
  unfold execFwActivate
  refine KeptN.next ?_; refine takeFrame_kept ?_; assumption

theorem execWfgBlock_kept (h : Kept b s0 s) : KeptN b s0 (execWfgBlock x1 s) := by
  unfold execWfgBlock
  refine KeptN.next ?_; refine takeFrame_kept ?_; assumption

theorem execWfgForm_kept (h : Kept b s0 s) : KeptN b s0 (execWfgForm x1 s) := by
  unfold execWfgForm
  refine KeptN.next ?_; refine takeFrame_kept ?_; assumption

theorem execTraceCtl_kept (h : Kept b s0 s) : KeptN b s0 (execTraceCtl x1 x2 s) := by
  unfold execTraceCtl
  refine KeptN.next ?_; refine takeFrame_kept ?_; assumption

end Sys2Proof.Machine
end

