-- ==== Sys2Proof/Laws/KeptBoot.lean ====
section
/-!
SUPPORT. What each operation of Machine/Boot.lean keeps (`Kept`).
-/

namespace Sys2Proof.Machine

open Sys2Proof

variable {b : Bool} {s0 s t : State}

theorem hostDown_kept (h : Kept b s0 s) : Kept b s0 (hostDown s) := by
  unfold hostDown
  refine dropHostAssists_kept ?_; refine Kept.lit ?_ rfl rfl rfl rfl rfl; assumption

theorem execHpLinkUp_kept (h : Kept b s0 s) : KeptN b s0 (execHpLinkUp s) := by
  unfold execHpLinkUp
  refine KeptN.next ?_; refine Kept.cond (fun _ => ?_) fun _ => ?_; assumption; refine forwardAssists_kept ?_
  refine Kept.lit ?_ rfl rfl rfl rfl rfl; assumption

theorem execHpLinkDown_kept (h : Kept b s0 s) : KeptN b s0 (execHpLinkDown s) := by
  unfold execHpLinkDown
  refine KeptN.next ?_; refine hostDown_kept ?_; assumption

theorem clockAction_kept (h : Kept b s0 s) : Kept b s0 (clockAction s x1) := by
  unfold clockAction
  refine Kept.cond (fun _ => lowerReq_kept (Kept.lit h rfl rfl rfl rfl rfl)) fun _ => ?_
  refine Kept.cond (fun _ => hostDown_kept h) fun _ => ?_
  refine Kept.cond (fun _ => lowerReq_kept (updGov_kept h)) fun _ => ?_
  refine Kept.cond (fun _ => ?_) fun _ => portDown_kept h
  exact Kept.cond (fun e => mccDown_kept (by intro g; rw [g] at e; simp at e) h) fun _ => h

theorem execClockLoss_kept (h : Kept b s0 s) : KeptN b s0 (execClockLoss x1 s) := by
  unfold execClockLoss
  refine KeptN.next ?_; refine Kept.cond (fun _ => ?_) fun _ => ?_; assumption; extract_lets +onlyGivenNames y1 y2
  refine Kept.cut (p := Kept b s0 y2) ?_ fun _ => ?_; unfold y2; refine Kept.lit ?_ rfl rfl rfl rfl rfl; assumption
  clear_value y2; refine clockAction_kept ?_; refine raise_kept ?_; refine bump_kept ?_; assumption

theorem execClockReturn_kept (h : Kept b s0 s) : KeptN b s0 (execClockReturn x1 s) := by
  unfold execClockReturn
  refine KeptN.next ?_; refine Kept.lit ?_ rfl rfl rfl rfl rfl; assumption

theorem execCkHoldAck_kept (h : Kept b s0 s) : KeptN b s0 (execCkHoldAck x1 s) := by
  unfold execCkHoldAck
  refine KeptN.next ?_; refine pumpFrames_kept ?_; refine pointChanged_kept ?_; assumption





theorem execBootRomReady_kept (h : Kept b s0 s) : KeptN b s0 (execBootRomReady s) := by
  unfold execBootRomReady
  refine KeptN.next ?_; refine Kept.cond (fun _ => ?_) fun _ => ?_; extract_lets +onlyGivenNames y1
  refine Kept.cut (p := Kept b s0 y1) ?_ fun _ => ?_; unfold y1; refine updCc_kept ?_; assumption; clear_value y1
  refine cardPump_kept ?_; refine pumpFrames_kept ?_; refine ccRun_kept ?_; refine phase_kept (by decide) rfl ?_
  assumption; assumption

theorem execFwReady_kept (h : Kept b s0 s) : KeptN b s0 (execFwReady s) := by
  unfold execFwReady
  refine KeptN.next ?_; refine Kept.cond (fun _ => ?_) fun _ => ?_; assumption; extract_lets +onlyGivenNames y1 y2
  refine Kept.cut (p := Kept b s0 y2) ?_ fun _ => ?_; unfold y2; refine l2Read_kept ?_; assumption; clear_value y2
  extract_lets +onlyGivenNames y3; refine Kept.cut (p := Kept b s0 y3) ?_ fun _ => ?_; unfold y3; refine updCc_kept ?_
  assumption; clear_value y3; refine cardPump_kept ?_; refine forwardAssists_kept ?_; refine pumpFrames_kept ?_
  refine ccRun_kept ?_; refine phase_kept (by decide) rfl ?_; assumption

theorem execCcRestartTimeout_kept (h : Kept b s0 s) : KeptN b s0 (execCcRestartTimeout s) := by
  unfold execCcRestartTimeout
  refine KeptN.next ?_; refine Kept.cond (fun _ => ?_) fun _ => ?_; assumption
  refine Kept.cond (fun _ => ?_) fun _ => ?_; extract_lets +onlyGivenNames y1
  refine Kept.cut (p := Kept b s0 y1) ?_ fun _ => ?_; unfold y1; refine updCc_kept ?_; assumption; clear_value y1
  refine resetCc_kept ?_; refine raise_kept ?_; refine setCnt_kept ?_; assumption; refine requestReset_kept ?_
  assumption

theorem execCcWatchdog_kept (h : Kept b s0 s) : KeptN b s0 (execCcWatchdog s) := by
  unfold execCcWatchdog
  refine KeptN.next ?_; refine Kept.cond (fun _ => ?_) fun _ => ?_; assumption; extract_lets +onlyGivenNames y1 y2
  refine Kept.cut (p := Kept b s0 y2) ?_ fun _ => ?_; unfold y2; refine bump_kept ?_; refine raise_kept ?_; assumption
  clear_value y2; extract_lets +onlyGivenNames y3; refine Kept.cut (p := Kept b s0 y3) ?_ fun _ => ?_; unfold y3
  refine Kept.cond (fun _ => ?_) fun _ => ?_; refine lowerReq_kept ?_; assumption; assumption; clear_value y3
  refine resetCc_kept ?_; refine updCc_kept ?_; assumption

theorem idle_kept (h : Kept b s0 s) : Kept b s0 (idle s) := by
  unfold idle
  extract_lets +onlyGivenNames y1; refine Kept.cut (p := Kept b s0 y1) ?_ fun _ => ?_; unfold y1
  refine releaseDomains_kept ?_; assumption; clear_value y1; extract_lets +onlyGivenNames y2 y3 y4
  refine Kept.cut (p := Kept b s0 y4) ?_ fun _ => ?_; unfold y4; refine Kept.cond (fun _ => ?_) fun _ => ?_
  assumption; refine Kept.fold (fun _ _ _ => ?_) ?_; extract_lets +onlyGivenNames y5
  refine Kept.cut (p := Kept b s0 y5) ?_ fun _ => ?_; unfold y5; refine bump_kept ?_; refine updCore_kept ?_
  assumption; clear_value y5; refine Kept.cond (fun _ => ?_) fun _ => ?_; refine bump_kept ?_; assumption; assumption
  refine Kept.lit ?_ rfl rfl rfl rfl rfl; assumption; clear_value y4; extract_lets +onlyGivenNames y6 y7
  refine Kept.cut (p := Kept b s0 y7) ?_ fun _ => ?_; unfold y7; refine Kept.cond (fun _ => ?_) fun _ => ?_
  assumption; refine Kept.lit ?_ rfl rfl rfl rfl rfl; assumption; clear_value y7; refine linkPump_kept ?_; assumption

end Sys2Proof.Machine
end

