-- ==== Sys2Proof/Laws/KeptExec.lean ====
section
/-!
SUPPORT. What every command keeps: one lemma for all commands but BLOCK_RESET, and one for those that reach no step
boundary.
-/

namespace Sys2Proof.Machine

open Sys2Proof

variable {b : Bool} {s0 s : State}

/-- What every command but BLOCK_RESET keeps. -/
theorem exec_kept (c : Instr) (hc : ∀ n, c ≠ .blockReset n) (h : Kept false s0 s) : KeptN false s0 (exec c s) := by
  cases c with
  | extend => exact execExtend_kept h
  | attach => exact execAttach_kept h
  | cow => exact execCow_kept h
  | grow => exact execGrow_kept h
  | setEntry => exact execSetEntry_kept h
  | remap => exact execRemap_kept h
  | truncate => exact execTruncate_kept h
  | release => exact execRelease_kept h
  | draftCommit => exact execDraftCommit_kept h
  | draftRollback => exact execDraftRollback_kept h
  | evict => exact execEvict_kept h
  | forceRelease => exact execForceRelease_kept h
  | forceReleaseFree => exact execForceReleaseFree_kept h
  | heldCommit => exact execHeldCommit_kept h
  | evictJobDone => exact execEvictJobDone_kept h
  | sharedFrameInvalidated => exact execSharedFrameInvalidated_kept h
  | admitSeq => exact execAdmit_kept h
  | append => exact execAppend_kept h
  | suspend => exact execSuspend_kept h
  | resume => exact execResume_kept h
  | retire => exact execRetire_kept h
  | repLoad => exact execRepLoad_kept h
  | escClear => exact execEscClear_kept h
  | stepBoundary => exact execStepBoundary_kept h
  | stepRetry => exact execStepRetry_kept h
  | fill => exact execFill_kept h
  | copy => exact execCopy_kept h
  | msCmpcnt => exact execMsCmpcnt_kept h
  | put => exact execPut_kept h
  | get => exact execGet_kept h
  | cput => exact execCput_kept h
  | add => exact execAdd_kept h
  | max => exact execMax_kept h
  | cmpcnt => exact execCmpcnt_kept h
  | suQueueApply => exact execSuQueueApply_kept h
  | countedIncrement => exact execCountedIncrement_kept h
  | remoteOperationCommand => exact execRemoteOperationCommand_kept h
  | reply => exact execReply_kept h
  | requestTimeout => exact execRequestTimeout_kept h
  | seqGapTimeout => exact execSeqGapTimeout_kept h
  | commandCounted => exact execCommandCounted_kept h
  | cmdTake => exact execCmdTake_kept h
  | lesson => exact execLesson_kept h
  | attend => exact execAttend_kept h
  | ringLoad => exact execRingLoad_kept h
  | actGrad => exact execActGrad_kept h
  | gateGrad => exact execGateGrad_kept h
  | normGrad => exact execNormGrad_kept h
  | attGrad => exact execAttGrad_kept h
  | update => exact execUpdate_kept h
  | tileRelease => exact execTileRelease_kept h
  | secondSweep => exact execSecondSweep_kept h
  | splitCombine => exact execSplitCombine_kept h
  | attendCombine => exact execAttendCombine_kept h
  | lessonRetire => exact execLessonRetire_kept h
  | contextSwitch => exact execContextSwitch_kept h
  | recessEntry => exact execRecessEntry_kept h
  | streamArm => exact execStreamArm_kept h
  | endProgram => exact execEnd_kept h
  | loop => exact execLoop_kept h
  | endl => exact execEndl_kept h
  | hloop => exact execHloop_kept h
  | seta => exact execSeta_kept h
  | adda => exact execAdda_kept h
  | setd => exact execSetd_kept h
  | walk => exact execWalk_kept h
  | emit => exact execEmit_kept h
  | mark => exact execMark_kept h
  | wait => exact execWait_kept h
  | streamEnd => exact execStreamEnd_kept h
  | multicastRequest => exact execMulticastRequest_kept h
  | multicastLanded => exact execMulticastLanded_kept h
  | ringPass => exact execRingPass_kept h
  | ringPassComplete => exact execRingPassComplete_kept h
  | weightRefetch => exact execWeightRefetch_kept h
  | scrubVisit => exact execScrubVisit_kept h
  | commonsInvalidate => exact execCommonsInvalidate_kept h
  | sfuLoadImage => exact execSfuLoadImage_kept h
  | sfuLoadFactory => exact execSfuLoadFactory_kept h
  | sfuLoadComplete => exact execSfuLoadComplete_kept h
  | assistAnswer => exact execAssistAnswer_kept h
  | fnAssistAnswer => exact execFnAssistAnswer_kept h
  | assistTimeout => exact execAssistTimeout_kept h
  | hpOpen => exact execHpOpen_kept h
  | hpClose => exact execHpClose_kept h
  | hpDrained => exact execHpDrained_kept h
  | rcArm => exact execRcArm_kept h
  | rcCcArrive => exact execRcCcArrive_kept h
  | rcExternalArrive => exact execRcExternalArrive_kept h
  | rcComplete => exact execRcComplete_kept h
  | rcTimeout => exact execRcTimeout_kept h
  | syncArrive => exact execSyncArrive_kept h
  | syncRelease => exact execSyncRelease_kept h
  | stepDone => exact execStepDone_kept h
  | stepGo => exact execStepGo_kept h
  | wake => exact execWake_kept h
  | heartbeat => exact execHeartbeat_kept h
  | heartbeatTimer => exact execHeartbeatTimer_kept h
  | memberLost => exact execMemberLost_kept h
  | memberLostMessage => exact execMemberLostMessage_kept h
  | headLost => exact execHeadLost_kept h
  | reportCmd => exact execReportCmd_kept h
  | reportCardLanded => exact execReportCardLanded_kept h
  | syncSetCounter => exact execSyncSetCounter_kept h
  | syncSetFlag => exact execSyncSetFlag_kept h
  | syncSetWire => exact execSyncSetWire_kept h
  | hello => exact execHello_kept h
  | enumStart => exact execEnumStart_kept h
  | enumRelease => exact execEnumRelease_kept h
  | enumAssign => exact execEnumAssign_kept h
  | enumCommit => exact execEnumCommit_kept h
  | flitReceive => exact execFlitReceive_kept h
  | linkAckTimer => exact execLinkAckTimer_kept h
  | linkDown => exact execLinkDown_kept h
  | linkUp => exact execLinkUp_kept h
  | qmfnRead => exact execQmfnRead_kept h
  | dictWrite => exact execDictWrite_kept h
  | eventPoll => exact execEventPoll_kept h
  | qmfnFwdTimeout => exact execQmfnFwdTimeout_kept h
  | i3cPrivateWrite => exact execI3cPrivateWrite_kept h
  | i3cPrivateRead => exact execI3cPrivateRead_kept h
  | entdaa => exact execEntdaa_kept h
  | setdasa => exact execSetdasa_kept h
  | setnewda => exact execSetnewda_kept h
  | rstdaa => exact execRstdaa_kept h
  | getpid => exact execGetpid_kept h
  | getbcr => exact execGetbcr_kept h
  | getdcr => exact execGetdcr_kept h
  | getstatus => exact execGetstatus_kept h
  | getmwl => exact execGetmwl_kept h
  | getmrl => exact execGetmrl_kept h
  | setmwl => exact execSetmwl_kept h
  | setmrl => exact execSetmrl_kept h
  | enec => exact execEnec_kept h
  | disec => exact execDisec_kept h
  | keyWrapped => exact execKeyWrapped_kept h
  | keyNextWrapped => exact execKeyNextWrapped_kept h
  | keyZeroise => exact execKeyZeroise_kept h
  | keyRotation => exact execKeyRotation_kept h
  | ovlLoad => exact execOvlLoad_kept h
  | ovlUnload => exact execOvlUnload_kept h
  | setMode => exact execSetMode_kept h
  | ovlActivate => exact execOvlActivate_kept h
  | ovlDeactivate => exact execOvlDeactivate_kept h
  | baseApply => exact execBaseApply_kept h
  | baseSave => exact execBaseSave_kept h
  | hostMwr => exact execHostMwr_kept h
  | hostMrd => exact execHostMrd_kept h
  | hostFadd => exact execHostFadd_kept h
  | hostAtomicOther => exact execHostAtomicOther_kept h
  | hpLinkDown => exact execHpLinkDown_kept h
  | mccUp => exact execMccUp_kept h
  | mccDown => exact execMccDown_kept h
  | mcTempRead => exact execMcTempRead_kept h
  | clockLoss => exact execClockLoss_kept h
  | clockReturn => exact execClockReturn_kept h
  | periodBoundary => exact execPeriodBoundary_kept h
  | telemetrySample => exact execTelemetrySample_kept h
  | telemetryInvalid => exact execTelemetryInvalid_kept h
  | alertAssert => exact execAlertAssert_kept h
  | alertDeassert => exact execAlertDeassert_kept h
  | alertStuck => exact execAlertStuck_kept h
  | alertChatter => exact execAlertChatter_kept h
  | pgOpSelect => exact execPgOpSelect_kept h
  | ckHoldAck => exact execCkHoldAck_kept h
  | opTimeout => exact execOpTimeout_kept h
  | blockReset n => exact absurd rfl (hc n)
  | scratchpadClearDone => exact execScratchpadClearDone_kept h
  | bootRomReady => exact execBootRomReady_kept h
  | quiesceReset => exact execQuiesceReset_kept h
  | forceReset => exact execForceReset_kept h
  | gate => exact execGate_kept h
  | ungate => exact execUngate_kept h
  | unitQuiet => exact execUnitQuiet_kept h
  | quiesceTimeout => exact execQuiesceTimeout_kept h
  | coreRelease => exact execCoreRelease_kept h
  | ctxResume => exact execCtxResume_kept h
  | ctxSkip => exact execCtxSkip_kept h
  | fwStage => exact execFwStage_kept h
  | fwActivate => exact execFwActivate_kept h
  | fwReady => exact execFwReady_kept h
  | ccRestartTimeout => exact execCcRestartTimeout_kept h
  | ccWatchdog => exact execCcWatchdog_kept h
  | wfgBlock => exact execWfgBlock_kept h
  | wfgForm => exact execWfgForm_kept h
  | wfgDone => exact execWfgDone_kept h
  | traceCtl => exact execTraceCtl_kept h
  | aggRun => exact execAggRun_kept h
  | hpLinkUp => exact execHpLinkUp_kept h
  | qmfnResponse => exact execQmfnResponse_kept h
  | fwStageComplete => exact execFwStageComplete_kept h
  | msuCommandEnd => exact execMsuCommandEnd_kept h

/-- What a command keeps that reaches no step boundary. -/
theorem exec_kept_step (c : Instr) (hc : mayEndStep c = false) (h : Kept true s0 s) : KeptN true s0 (exec c s) := by
  cases c with
  | extend => exact execExtend_kept h
  | attach => exact execAttach_kept h
  | cow => exact execCow_kept h
  | grow => exact execGrow_kept h
  | setEntry => exact execSetEntry_kept h
  | remap => exact execRemap_kept h
  | truncate => exact execTruncate_kept h
  | release => exact execRelease_kept h
  | draftCommit => exact execDraftCommit_kept h
  | draftRollback => exact execDraftRollback_kept h
  | evict => exact execEvict_kept h
  | forceRelease => exact execForceRelease_kept h
  | forceReleaseFree => exact execForceReleaseFree_kept h
  | heldCommit => exact execHeldCommit_kept h
  | evictJobDone => exact execEvictJobDone_kept h
  | sharedFrameInvalidated => exact execSharedFrameInvalidated_kept h
  | admitSeq => exact execAdmit_kept h
  | append => exact execAppend_kept h
  | suspend => exact execSuspend_kept h
  | resume => exact execResume_kept h
  | retire => exact execRetire_kept h
  | repLoad => exact execRepLoad_kept h
  | escClear => exact execEscClear_kept h
  | stepBoundary => exact absurd hc (by simp [mayEndStep])
  | stepRetry => exact execStepRetry_kept h
  | fill => exact execFill_kept h
  | copy => exact execCopy_kept h
  | msCmpcnt => exact execMsCmpcnt_kept h
  | put => exact execPut_kept h
  | get => exact execGet_kept h
  | cput => exact execCput_kept h
  | add => exact execAdd_kept h
  | max => exact execMax_kept h
  | cmpcnt => exact execCmpcnt_kept h
  | suQueueApply => exact execSuQueueApply_kept h
  | countedIncrement => exact execCountedIncrement_kept h
  | remoteOperationCommand => exact execRemoteOperationCommand_kept h
  | reply => exact execReply_kept h
  | requestTimeout => exact execRequestTimeout_kept h
  | seqGapTimeout => exact execSeqGapTimeout_kept h
  | commandCounted => exact execCommandCounted_kept h
  | cmdTake => exact execCmdTake_kept h
  | lesson => exact execLesson_kept h
  | attend => exact execAttend_kept h
  | ringLoad => exact execRingLoad_kept h
  | actGrad => exact execActGrad_kept h
  | gateGrad => exact execGateGrad_kept h
  | normGrad => exact execNormGrad_kept h
  | attGrad => exact execAttGrad_kept h
  | update => exact execUpdate_kept h
  | tileRelease => exact execTileRelease_kept h
  | secondSweep => exact execSecondSweep_kept h
  | splitCombine => exact execSplitCombine_kept h
  | attendCombine => exact execAttendCombine_kept h
  | lessonRetire => exact execLessonRetire_kept h
  | contextSwitch => exact execContextSwitch_kept h
  | recessEntry => exact execRecessEntry_kept h
  | streamArm => exact execStreamArm_kept h
  | endProgram => exact execEnd_kept h
  | loop => exact execLoop_kept h
  | endl => exact execEndl_kept h
  | hloop => exact execHloop_kept h
  | seta => exact execSeta_kept h
  | adda => exact execAdda_kept h
  | setd => exact execSetd_kept h
  | walk => exact execWalk_kept h
  | emit => exact execEmit_kept h
  | mark => exact execMark_kept h
  | wait => exact execWait_kept h
  | streamEnd => exact execStreamEnd_kept h
  | multicastRequest => exact execMulticastRequest_kept h
  | multicastLanded => exact execMulticastLanded_kept h
  | ringPass => exact execRingPass_kept h
  | ringPassComplete => exact execRingPassComplete_kept h
  | weightRefetch => exact execWeightRefetch_kept h
  | scrubVisit => exact execScrubVisit_kept h
  | commonsInvalidate => exact execCommonsInvalidate_kept h
  | sfuLoadImage => exact execSfuLoadImage_kept h
  | sfuLoadFactory => exact execSfuLoadFactory_kept h
  | sfuLoadComplete => exact execSfuLoadComplete_kept h
  | assistAnswer => exact execAssistAnswer_kept h
  | fnAssistAnswer => exact execFnAssistAnswer_kept h
  | assistTimeout => exact execAssistTimeout_kept h
  | hpOpen => exact execHpOpen_kept h
  | hpClose => exact execHpClose_kept h
  | hpDrained => exact execHpDrained_kept h
  | rcArm => exact execRcArm_kept h
  | rcCcArrive => exact execRcCcArrive_kept h
  | rcExternalArrive => exact execRcExternalArrive_kept h
  | rcComplete => exact execRcComplete_kept h
  | rcTimeout => exact execRcTimeout_kept h
  | syncArrive => exact execSyncArrive_kept h
  | syncRelease => exact execSyncRelease_kept h
  | stepDone => exact absurd hc (by simp [mayEndStep])
  | stepGo => exact absurd hc (by simp [mayEndStep])
  | wake => exact execWake_kept h
  | heartbeat => exact execHeartbeat_kept h
  | heartbeatTimer => exact execHeartbeatTimer_kept h
  | memberLost => exact absurd hc (by simp [mayEndStep])
  | memberLostMessage => exact absurd hc (by simp [mayEndStep])
  | headLost => exact execHeadLost_kept h
  | reportCmd => exact execReportCmd_kept h
  | reportCardLanded => exact execReportCardLanded_kept h
  | syncSetCounter => exact execSyncSetCounter_kept h
  | syncSetFlag => exact execSyncSetFlag_kept h
  | syncSetWire => exact execSyncSetWire_kept h
  | hello => exact execHello_kept h
  | enumStart => exact execEnumStart_kept h
  | enumRelease => exact execEnumRelease_kept h
  | enumAssign => exact execEnumAssign_kept h
  | enumCommit => exact execEnumCommit_kept h
  | flitReceive => exact execFlitReceive_kept h
  | linkAckTimer => exact execLinkAckTimer_kept h
  | linkDown => exact execLinkDown_kept h
  | linkUp => exact execLinkUp_kept h
  | qmfnRead => exact execQmfnRead_kept h
  | dictWrite => exact execDictWrite_kept h
  | eventPoll => exact execEventPoll_kept h
  | qmfnFwdTimeout => exact execQmfnFwdTimeout_kept h
  | i3cPrivateWrite => exact execI3cPrivateWrite_kept h
  | i3cPrivateRead => exact execI3cPrivateRead_kept h
  | entdaa => exact execEntdaa_kept h
  | setdasa => exact execSetdasa_kept h
  | setnewda => exact execSetnewda_kept h
  | rstdaa => exact execRstdaa_kept h
  | getpid => exact execGetpid_kept h
  | getbcr => exact execGetbcr_kept h
  | getdcr => exact execGetdcr_kept h
  | getstatus => exact execGetstatus_kept h
  | getmwl => exact execGetmwl_kept h
  | getmrl => exact execGetmrl_kept h
  | setmwl => exact execSetmwl_kept h
  | setmrl => exact execSetmrl_kept h
  | enec => exact execEnec_kept h
  | disec => exact execDisec_kept h
  | keyWrapped => exact execKeyWrapped_kept h
  | keyNextWrapped => exact execKeyNextWrapped_kept h
  | keyZeroise => exact execKeyZeroise_kept h
  | keyRotation => exact execKeyRotation_kept h
  | ovlLoad => exact execOvlLoad_kept h
  | ovlUnload => exact execOvlUnload_kept h
  | setMode => exact execSetMode_kept h
  | ovlActivate => exact execOvlActivate_kept h
  | ovlDeactivate => exact execOvlDeactivate_kept h
  | baseApply => exact execBaseApply_kept h
  | baseSave => exact execBaseSave_kept h
  | hostMwr => exact execHostMwr_kept h
  | hostMrd => exact execHostMrd_kept h
  | hostFadd => exact execHostFadd_kept h
  | hostAtomicOther => exact execHostAtomicOther_kept h
  | hpLinkDown => exact execHpLinkDown_kept h
  | mccUp => exact execMccUp_kept h
  | mccDown => exact execMccDown_kept h
  | mcTempRead => exact execMcTempRead_kept h
  | clockLoss => exact execClockLoss_kept h
  | clockReturn => exact execClockReturn_kept h
  | periodBoundary => exact execPeriodBoundary_kept h
  | telemetrySample => exact execTelemetrySample_kept h
  | telemetryInvalid => exact execTelemetryInvalid_kept h
  | alertAssert => exact execAlertAssert_kept h
  | alertDeassert => exact execAlertDeassert_kept h
  | alertStuck => exact execAlertStuck_kept h
  | alertChatter => exact execAlertChatter_kept h
  | pgOpSelect => exact execPgOpSelect_kept h
  | ckHoldAck => exact execCkHoldAck_kept h
  | opTimeout => exact execOpTimeout_kept h
  | blockReset => exact absurd hc (by simp [mayEndStep])
  | scratchpadClearDone => exact execScratchpadClearDone_kept h
  | bootRomReady => exact execBootRomReady_kept h
  | quiesceReset => exact execQuiesceReset_kept h
  | forceReset => exact execForceReset_kept h
  | gate => exact execGate_kept h
  | ungate => exact execUngate_kept h
  | unitQuiet => exact execUnitQuiet_kept h
  | quiesceTimeout => exact execQuiesceTimeout_kept h
  | coreRelease => exact execCoreRelease_kept h
  | ctxResume => exact execCtxResume_kept h
  | ctxSkip => exact execCtxSkip_kept h
  | fwStage => exact execFwStage_kept h
  | fwActivate => exact execFwActivate_kept h
  | fwReady => exact execFwReady_kept h
  | ccRestartTimeout => exact execCcRestartTimeout_kept h
  | ccWatchdog => exact execCcWatchdog_kept h
  | wfgBlock => exact execWfgBlock_kept h
  | wfgForm => exact execWfgForm_kept h
  | wfgDone => exact execWfgDone_kept h
  | traceCtl => exact execTraceCtl_kept h
  | aggRun => exact execAggRun_kept h
  | hpLinkUp => exact execHpLinkUp_kept h
  | qmfnResponse => exact execQmfnResponse_kept h
  | fwStageComplete => exact execFwStageComplete_kept h
  | msuCommandEnd => exact execMsuCommandEnd_kept h

end Sys2Proof.Machine
end

