-- ==== Sys2Proof/Machine/Tap.lean ====
section
/-!
DEFINITION. The test access port with `tst_mode` = 0 (R413): the controller of IEEE 1149.1 with IDCODE and BYPASS. No row of
the table clocks it, and nothing of the block depends on it.
-/

namespace Sys2Proof.Machine

open Sys2Proof

/-- The next controller state after an edge of `tst_tck` with `tst_tms` (IEEE 1149.1).
PRESUMED (notes/assumptions/93.md). -/
def TapState.next (t : TapState) (tms : Bool) : TapState :=
  match t with
  | .testLogicReset => if tms then .testLogicReset else .runTestIdle
  | .runTestIdle => if tms then .selectDr else .runTestIdle
  | .selectDr => if tms then .selectIr else .captureDr
  | .captureDr => if tms then .exit1Dr else .shiftDr
  | .shiftDr => if tms then .exit1Dr else .shiftDr
  | .exit1Dr => if tms then .updateDr else .pauseDr
  | .pauseDr => if tms then .exit2Dr else .pauseDr
  | .exit2Dr => if tms then .updateDr else .shiftDr
  | .updateDr => if tms then .selectDr else .runTestIdle
  | .selectIr => if tms then .testLogicReset else .captureIr
  | .captureIr => if tms then .exit1Ir else .shiftIr
  | .shiftIr => if tms then .exit1Ir else .shiftIr
  | .exit1Ir => if tms then .updateIr else .pauseIr
  | .pauseIr => if tms then .exit2Ir else .pauseIr
  | .exit2Ir => if tms then .updateIr else .shiftIr
  | .updateIr => if tms then .selectDr else .runTestIdle

/-- IDCODE: ID_STEPPING bits [3:0] in [31:28], the part number 0x2A02 in [27:12], the manufacturer in [11:1], 1 in bit 0
(R413). -/
def tapIdcode (s : State) : Nat :=
  s.fuses.stepping.toNat % 16 * 2 ^ 28 + 0x2A02 * 2 ^ 12 + Config.jtagMaker.toNat * 2 + 1

/-- Bits of the instruction register. -/
def tapLength : Nat := Config.tapLength.val + 2

/-- n bits of a number, the lowest first. -/
def tapBits (n v : Nat) : List Bool := (List.range n).map (fun i => bit v i)

/-- A bit enters a shift path at the end away from `tst_tdo`. -/
def tapShift (r : List Bool) (tdi : Bool) : List Bool := r.drop 1 ++ [tdi]

/-- An edge of `tst_tck` in a controller state: what is captured, shifted or put in force (R413). Any instruction but IDCODE
acts as BYPASS.
PRESUMED (notes/assumptions/93.md). -/
def tapAct (s : State) (t : Tap) (tdi : Bool) : Tap :=
  match t.state with
  | .testLogicReset => { t with idcode := true }
  | .captureIr => { t with ir := tapBits tapLength 1 }
  | .shiftIr => { t with ir := tapShift t.ir tdi }
  | .updateIr => { t with idcode := t.ir == tapBits tapLength Config.tapIdcode.toNat }
  | .captureDr => { t with dr := if t.idcode then tapBits 32 (tapIdcode s) else [false] }
  | .shiftDr => { t with dr := tapShift t.dr tdi }
  | _ => t

/-- A rising edge of `tst_tck` with `tst_tms` and `tst_tdi` (R413). -/
def tapClock (s : State) (tms tdi : Bool) : State :=
  let t := tapAct s s.sys.tap tdi
  { s with sys := { s.sys with tap := { t with state := t.state.next tms } } }

/-- `tst_tdo`: the bit of the path being shifted that is next to leave; none while nothing is shifted. -/
def tapTdo (s : State) : Option Bool :=
  match s.sys.tap.state with
  | .shiftIr => s.sys.tap.ir.head?
  | .shiftDr => s.sys.tap.dr.head?
  | _ => none

/-- `tst_trst_n` low resets the port's controller (Table 16-12). -/
def tapReset (s : State) : State := { s with sys := { s.sys with tap := { } } }

end Sys2Proof.Machine
end

