-- ==== Sys2Proof/Tests/Rig.lean ====
section
/-!
SUPPORT. Small states on which the tests run: a block in phase 4 with its memory controllers up, and the same block with a
loaded model, a partition and two sequences.
-/

namespace Sys2Proof.Tests

open Sys2Proof Sys2Proof.Machine

set_option Elab.async false

/-- Fused values of the test block: every core enabled. -/
def fuses : Fuses := { coreMask := 0xFFFFFFFF, identity := 0x1122334455667788, stepping := 1, deviceKey := 7 }

/-- A block whose firmware runs, with its memory controllers up, its host link up and every clock present. -/
def rig : State :=
  { State.fresh fuses 5 with
    cores := []
    sys := { phase := 4, hpUp := true, ckPresent := clockBits
             mccs := (List.range 24).map (fun n => (n, ({ state := .up } : Mcc))) } }

/-- A model overlay image: H = 1, format BF16, D = 16, one plane a page, every partition allowed. -/
def modelImage : List Byte :=
  [1, 0, 1, 0] ++ zeros 28 ++ [1, 3, 16, 0, 1, 0, 0xFF, 0xFF, 0, 0, 0, 0]

/-- The block with Repertoire entry 0 (one layer, one group, model overlay 5), a partition of 64 KiB frames, a pool of chart
nodes, and sequences 3 and 4, which are IDLE with empty charts. -/
def chartRig : State :=
  let s := (rig.setEnt .repBase 0x10000 0 0).setEnt .repCount 4 0 0
  { s with
    mem := [(0x10000, 1), (0x10002, 1), (0x10003, 1), (0x10004, 5)]
    charts := { s.charts with
      parts := [(1, { base := 0x100000000, size := 0x1000000, log2 := 16 })]
      nodeBase := 0x20000000, nodeSize := 0x10000, descBase := 0x30000000
      nodesAlloc := [0x20000000, 0x20001000], nodesLive := [0x20000000, 0x20001000]
      seqs := [(3, { state := .idle, partition := 1, shadowDepth := 1, chartDepth := 1, shadowRoot := 0x20000000
                     chartRoot := 0x20000000, epoch := 1 }),
               (4, { state := .idle, partition := 1, shadowDepth := 1, chartDepth := 1, shadowRoot := 0x20001000
                     chartRoot := 0x20001000, epoch := 1 })] }
    mgmt := { s.mgmt with ovl := { s.mgmt.ovl with store := [(5, modelImage)] } } }

/-- The same with slot pages 0 and 1 of sequence 3 mapped to frames 1 and 2, and 512 tokens committed; the
roots of both sequences are nodes of this shadow. -/
def mapped : State :=
  let s := chartRig.updDesc 3 (fun d => { d with committedLen := 512, nextPos := 512 })
  { s with
    mem := s.mem ++ [(0x20000000, 1), (0x20000001, 0x40), (0x20000003, 0x40), (0x20000008, 1), (0x20000009, 0x80), (0x2000000B, 0x40)]
    charts := { s.charts with
      parts := [(1, { base := 0x100000000, size := 0x1000000, log2 := 16, alloc := [1, 2] })]
      pend := [(3, { nodes := [0x20000000] }), (4, { nodes := [0x20001000] })] } }

/-- The same with sequence 3 without a chart. -/
def bare : State := mapped.updDesc 3 (fun d => { d with shadowDepth := 0, chartDepth := 0 })

/-- An edit of sequence 3 by the Control Complex. -/
def eh : EditHdr := { src := .cc 0, seq := 3 }

/-- A sequence command of sequence 3. -/
def sh : SeqHdr := { ctx := 0, seq := 3 }

/-- A request of the Control Complex to this block. -/
def ch : Hdr := { src := .cc }

/-- A request of the host to this block. -/
def hh : Hdr := { src := .host }

end Sys2Proof.Tests
end

