-- ==== Sys2Proof/Tests/LessonRig.lean ====
section
/-!
SUPPORT. Lessons on which the tests run: their descriptors, and what the scratchpad of core 0 holds of them.
-/

namespace Sys2Proof.Tests

open Sys2Proof Sys2Proof.Machine

set_option Elab.async false

/-- The cells of an n-byte little-endian number at an address. -/
def cellsAt (a v n : Nat) : List Host.Cell :=
  (List.range n).filterMap (fun i => if v / 256 ^ i % 256 = 0 then none else some (a + i, BitVec.ofNat 8 (v / 256 ^ i)))

/-- The state with numbers at rising offsets of the scratchpad of core 0, above every address it lists. -/
def withWords (s : State) (ws : List (Nat × Nat × Nat)) : State :=
  { s with mem := s.mem ++ ws.flatMap (fun w => cellsAt (scratchAddr 0 w.1) w.2.1 w.2.2) }

/-- A number from its fields (low bit, value). -/
def fields (fs : List (Nat × Nat)) : Nat := fs.foldl (fun v f => v + f.2 * 2 ^ f.1) 0

/-- An arm record that loads a program of one END at offset 1024: its format, stream, whether it is a store, ROW_ELEMS. -/
def armWord (fmt stream store elems : Nat) : Nat :=
  fields [(32, stream), (37, store), (39, 1), (43, fmt), (64, 1024), (384, elems)]

/-- A Lesson: its stage records, further fields of its descriptor, and what rows 0 and 1 hold besides the parameter block. -/
structure TestLesson where
  kind : Nat := 0
  bop : Option Nat := none
  sched : Bool := false
  stages : List Nat
  words : List (Nat × Nat) := []
  data : List (Nat × Nat × Nat)

/-- Its descriptor: UNSCHED unless scheduled, LAYER_EN, its chain, and rows 0 and 1 as a read range. -/
def TestLesson.desc (l : TestLesson) : BitVec 1024 :=
  asLesson l.kind l.bop (BitVec.ofNat 1024 (fields ([(18, 1), (22, if l.sched then 0 else 1), (40, l.stages.length), (336, 2)] ++
    l.stages.zipIdx.map (fun p => (64 + 4 * p.2, p.1 % 16)) ++ l.words)))

/-- The block with the Lesson's records in core 0; every slot is open, and model overlay 5 has D = 32 in BF16. -/
def TestLesson.rig (l : TestLesson) : State :=
  let s := mapped.setEnt .ttSlotMap 0xFFFFFFFF 0 0
  withWords { s with
    mem := (0x10000, 5) :: s.mem.drop 1
    mgmt := { s.mgmt with ovl := { s.mgmt.ovl with
      store := [(5, [1, 0, 1, 0] ++ zeros 28 ++ [1, 2, 32, 0, 1, 0, 0xFF, 0xFF, 0, 0, 0, 0])] } } }
    (l.stages.zipIdx.map (fun p => (32 * p.2, p.1, 32)) ++ l.data)

/-- On a state, every check accepts it on core 0, context 0, and nothing but a row in conflict holds its issue. -/
def TestLesson.freeOn (l : TestLesson) (s : State) : Bool :=
  let d := l.desc
  let t := settleControl s 0 d
  let st := readStages t 0 d
  let seqs := mapSeqs t 0 d
  let r : LessonRun := { ctx := 0, num := 0, desc := d, compl := complOf s 0 0 d, stages := st
                         fusedDeriv := takesFused t 0 0 d, seqs := seqs }
  canIssue s 0 0 && lessonCode t 0 0 d st st == .ok && !sbFull t 0 && !issueHeld t 0 &&
    !groupFaulted t seqs && !(streamAt t 0 14).bound && !(streamAt t 0 15).bound && seqs.all (fun n => !(t.desc n).held) &&
    (flagNeeds t 0 r).length ≤ (freeFlags t 0).length

/-- The row of it that is in conflict on a state. -/
def TestLesson.clashOn (l : TestLesson) (s : State) : Option Nat :=
  let t := settleControl s 0 l.desc
  let nh := (heavies (readStages t 0 l.desc)).length
  sbConflict t 0 (lreads l.desc nh) (lwrites l.desc nh)

/-- It issues. -/
def TestLesson.issues (l : TestLesson) : Bool := l.freeOn l.rig && (l.clashOn l.rig).isNone

/-- A load of the chain value in FP32 and a store. -/
def copyLesson : TestLesson :=
  { stages := [fields [(0, 1), (4, 512)], fields [(0, 0xF), (4, 576)]]
    data := [(512, armWord 0 0 0 256, 64), (576, armWord 0 1 1 256, 64)] }

/-- ATTEND of one token of sequence 3, with page buffers in rows 100 to 171. -/
def attendLesson : TestLesson :=
  { kind := 1
    stages := [fields [(0, 1), (28, 1), (4, 512)], fields [(0, 1), (28, 2), (128, 100)], fields [(0, 4), (4, 1), (20, 1)],
      fields [(0, 6), (4, 1)], fields [(0, 7), (4, 5), (64, 0x3E3504F3)], fields [(0, 1), (28, 2), (128, 140)],
      fields [(0, 5), (4, 1), (20, 1)], fields [(0, 0xF), (4, 576)]]
    words := [(192, 768), (192 + 24, 1), (352, 100), (352 + 16, 80), (448, 100), (448 + 16, 80),
      (512 + 32, 32), (512 + 14, 255), (576 + 21, 1), (640 + 32, 256), (640 + 14, 31), (640 + 6, 1), (704 + 21, 1)]
    data := [(512, armWord 2 0 0 32, 64), (576, armWord 0 1 1 32, 64), (768, 0x10001, 32), (800, fields [(0, 1), (32, 3)], 32)] }

/-- A ring load. -/
def ringLesson : TestLesson :=
  { kind := 2, stages := [fields [(0, 1), (28, 4), (4, 512)]], data := [(512, armWord 2 0 0 256 + 2 ^ 41, 64)] }

/-- ACT_GRAD: a load, the derivative of SiLU, a store; the backward record at offset 896. -/
def actGradLesson : TestLesson :=
  { bop := some 1
    stages := [fields [(0, 1), (4, 512)], fields [(0, 9), (4, 6), (8, 1)], fields [(0, 0xF), (4, 576)]]
    words := [(768, 896)]
    data := [(512, armWord 0 0 0 256, 64), (576, armWord 0 1 1 256, 64)] }

/-- GATE_GRAD: the same with GATE and the gate-multiply stage. -/
def gateGradLesson : TestLesson :=
  { bop := some 2
    stages := [fields [(0, 1), (4, 512)], fields [(0, 9), (4, 6), (8, 1), (9, 1)], 0xA, fields [(0, 0xF), (4, 576)]]
    words := [(768, 896)]
    data := [(512, armWord 0 0 0 256, 64), (576, armWord 0 1 1 512, 64)] }

/-- NORM_GRAD: a 32 by 32 tile in BF16, its row statistics, a deferred normalise that holds in rows 8 to 11, a store. -/
def normGradLesson : TestLesson :=
  { bop := some 3
    stages := [fields [(0, 1), (28, 1), (4, 512)], fields [(0, 1), (28, 2), (4, 576)], fields [(0, 4), (4, 1), (20, 1)],
      0xD, fields [(0, 0xC), (4, 1), (5, 1), (10, 8), (128, 0xFFFFFFFFFFFF), (192, 32), (224, 1)],
      fields [(0, 0xF), (4, 640)]]
    words := [(768, 896), (352, 8), (352 + 16, 4), (448, 8), (448 + 16, 4), (512 + 32, 32), (512 + 23, 31), (512 + 14, 31),
      (576 + 21, 1)]
    data := [(512, armWord 2 0 0 32, 64), (576, armWord 2 1 0 32, 64), (640, armWord 0 2 1 32, 64)] }

/-- ATT_GRAD of one token of sequence 3. -/
def attGradLesson : TestLesson :=
  { kind := 1, bop := some 4
    stages := [fields [(0, 1), (28, 1), (4, 512)], fields [(0, 1), (28, 2), (128, 100)], fields [(0, 4), (4, 1), (20, 1)],
      fields [(0, 0xE), (4, 0xD), (9, 1), (11, 1)], fields [(0, 1), (28, 2), (128, 140)], fields [(0, 5), (4, 1), (20, 1)],
      fields [(0, 0xF), (4, 576)]]
    words := [(768, 896), (192, 768), (192 + 24, 1), (352, 100), (352 + 16, 80), (448, 100), (448 + 16, 80),
      (512 + 32, 64), (512 + 23, 1), (512 + 14, 255), (576 + 21, 1), (640 + 32, 256), (640 + 14, 31), (640 + 6, 1),
      (704 + 21, 1)]
    data := [(512, armWord 2 0 0 32, 64), (576, armWord 0 1 1 32, 64), (768, 0x10001, 32), (800, fields [(0, 1), (32, 3)], 32),
      (896, fields [(0, 0x3E3504F3), (192, 100), (192 + 17, 5)], 32)] }

/-- UPDATE of a 32 by 32 adapter in BF16, whose copies go to row 100. -/
def updateLesson : TestLesson :=
  { bop := some 5
    stages := [fields [(0, 1), (4, 512)], fields [(0, 0xF), (4, 576)]]
    words := [(768, 896), (448, 100), (448 + 16, 4)]
    data := [(512, armWord 0 0 0 256, 64), (576, armWord 0 1 1 256, 64),
      (896, fields [(320, 0x3F800000), (384, 32), (400, 32), (384 + 32, 2), (384 + 37, 100)], 64)] }

/-- A product of a 1 by 1 tile in BF16 on the S-array, and its store; with extra fields of its heavy stage. -/
def matLesson (h : List (Nat × Nat)) : TestLesson :=
  { stages := [fields [(0, 1), (28, 1), (4, 512)], fields [(0, 1), (28, 2), (4, 576)], fields [(0, 4), (4, 1), (20, 1)],
      fields [(0, 0xF), (4, 640)]]
    words := [(512 + 32, 1), (576 + 21, 1)] ++ h
    data := [(512, armWord 2 0 0 1, 64), (576, armWord 2 1 0 1, 64), (640, armWord 0 2 1 1, 64)] }

end Sys2Proof.Tests
end

