-- ==== Sys2Proof/Tests/Reach.lean ====
section
/-!
SUPPORT. Writes of command entries that reach their entry: what CommandReaches asks, computed.
-/

namespace Sys2Proof.Tests

open Sys2Proof Sys2Proof.Machine

set_option Elab.async false

/-- What holds of a value that is there. -/
def whenSome {α : Type} (o : Option α) (p : α → Bool) : Bool :=
  match o with
  | none => false
  | some x => p x

/-- A frame that is served at once. -/
def servedNow (s : State) (f : Frame) : Bool :=
  (f.hdr.src != .host || s.sys.hpUp) && !f.hdr.damaged && !framesWait (frameIn s f.hdr.src) f.hdr.src &&
    forMe (frameIn s f.hdr.src) f.hdr.dest.toNat && decide (f.payload.length ≤ 256)

theorem servedNow_sound {s : State} {f : Frame} (h : servedNow s f = true) : ServedAtOnce s f := by
  simp only [servedNow, Bool.and_eq_true, Bool.or_eq_true, bne_iff_ne, ne_eq, Bool.not_eq_true',
    decide_eq_true_eq] at h
  obtain ⟨⟨⟨⟨a, b⟩, c⟩, d⟩, l⟩ := h
  exact ⟨fun e => a.resolve_left (fun n => n e), b, c, d, l⟩

/-- What the write of a command entry reaches: unit, array position, value, key slot, and the state in which it acts. -/
structure Reached where
  u : Nat
  k : Nat
  v : Nat
  slot : Option Nat
  t : State

/-- Authentication of a write of an entry. -/
def authOf (s : State) (f : Frame) (e : Entry) : FC × State × Option Nat × Bool :=
  authFrame (frameIn s f.hdr.src) f (if e.acc = .aw then some e.cls else none)

/-- The state in which a write acts. -/
def actsIn (s : State) (f : Frame) (e : Entry) : State := enterTick (authOf s f e).2.1 f.hdr.tick

/-- Whether a write passes every check before its own effect. -/
def passes (s : State) (f : Frame) (n : Name) (e : Entry) (u k : Nat) : Bool :=
  servedNow s f && f.op == opWrite && e.name == n && (authOf s f e).1 == .ok &&
    writeAccess f.hdr.src (.entry e u k) f.hdr.trailer.isNone == .ok && f.payload.length == e.typ.size &&
    (ownCode (actsIn s f e) e k (leNat f.payload) == .ok || (match e.typ with
      | .bytes _ => true
      | _ => false)) && !preempted (actsIn s f e) (ekey f.index f.sub) (srcRank f.hdr.src)

/-- The conditions of CommandReaches, computed. -/
def reach (s : State) (f : Frame) (n : Name) : Option Reached :=
  match findTarget (frameIn s f.hdr.src) f.index f.sub with
  | (.ok, some (.entry e u k)) =>
    if passes s f n e u k then
      some { u := u, k := k, v := leNat f.payload, slot := (authOf s f e).2.2.1, t := actsIn s f e }
    else none
  | _ => none

theorem reach_sound {s : State} {f : Frame} {n : Name} {r : Reached} (h : reach s f n = some r) :
    CommandReaches s f n r.u r.k r.v r.slot r.t := by
  unfold reach at h
  split at h
  · rename_i e u k ht
    split at h
    · rename_i hc
      simp only [passes, Bool.and_eq_true, Bool.or_eq_true, beq_iff_eq, Bool.not_eq_true'] at hc
      obtain ⟨⟨⟨⟨⟨⟨⟨h1, h2⟩, h3⟩, h4⟩, h5⟩, h6⟩, h7⟩, h8⟩ := hc
      cases h
      refine ⟨servedNow_sound h1, h2, e, (authOf s f e).2.1, (authOf s f e).2.2.2, ht, h3, ?_, h5, h6, rfl, rfl, ?_, h8⟩
      · exact Prod.ext h4 rfl
      · rcases h7 with h7 | h7
        · exact .inr h7
        · left
          split at h7
          · exact ⟨_, by assumption⟩
          · cases h7
    · cases h
  · cases h

end Sys2Proof.Tests
end

