-- ==== Sys2Proof/WellFormed.lean ====
section
/-!
DEFINITION. Well-formed commands: operands that the layouts of the spec can spell. What a layout can spell and a rule
refuses is well formed; its refusal is the command's effect.
-/

namespace Sys2Proof

/-- Marks of data: at most one for each 16-byte word (R183). -/
def marksWf (data : List Byte) (poison : List Bool) : Bool := poison.length ≤ ceilDiv data.length 16

/-- Bytes read of other nodes carry marks of their own words. -/
def fetchedWf (fs : List Fetched) : Bool := fs.all (fun f => marksWf f.data f.poison)

/-- A request that carries data carries LEN bytes of it (Table 12-1). -/
def dataReqWf (r : Req) : Bool := r.data.length = r.len && marksWf r.data r.poison

/-- A QMFN payload holds at most 256 bytes (Table 15-7). -/
def payloadWf (p : List Byte) : Bool := p.length ≤ 256

/-- A transaction of the host holds 1 to 4,096 bytes (Table 16-7). -/
def hostLenWf (n : Nat) : Bool := 1 ≤ n && n ≤ 4096

/-- Whether the operands of a command are ones that its layout can spell. -/
def Instr.wf (i : Instr) : Bool :=
  match i with
  | .put r => dataReqWf r
  | .cput r => dataReqWf r
  | .hostMwr _ data poison => hostLenWf data.length && marksWf data poison
  | .hostMrd _ _ _ len => hostLenWf len
  | .hostFadd _ _ _ _ len _ poison => hostLenWf len && poison.length ≤ 1
  | .flitReceive _ f => f.payload.length = 256
  | .qmfnRead _ _ _ p => payloadWf p
  | .dictWrite _ _ _ p => payloadWf p
  | .eventPoll _ p => payloadWf p
  | .keyWrapped _ p => payloadWf p
  | .keyNextWrapped _ p => payloadWf p
  | .reply _ _ data poison => marksWf data poison
  | .periodBoundary events => events.length = 11
  | .aggRun ms => ms.all (fun m => m.stalls.length == 7)
  | .lesson _ _ _ _ fs => fetchedWf fs
  | .attend _ _ _ _ fs => fetchedWf fs
  | .ringLoad _ _ _ _ fs => fetchedWf fs
  | .actGrad _ _ _ _ fs => fetchedWf fs
  | .gateGrad _ _ _ _ fs => fetchedWf fs
  | .normGrad _ _ _ _ fs => fetchedWf fs
  | .attGrad _ _ _ _ fs => fetchedWf fs
  | .update _ _ _ _ fs => fetchedWf fs
  | .cmdTake _ _ fs => fetchedWf fs
  | .stepBoundary fs => fetchedWf fs
  | .stepRetry fs => fetchedWf fs
  | .stepDone _ _ _ fs => fetchedWf fs
  | .stepGo _ _ fs => fetchedWf fs
  | .wake fs => fetchedWf fs
  | .memberLost _ fs => fetchedWf fs
  | .memberLostMessage _ _ fs => fetchedWf fs
  | .assistAnswer _ _ _ fs => fetchedWf fs
  | .assistTimeout _ fs => fetchedWf fs
  | .ckHoldAck fs => fetchedWf fs
  | .fwStageComplete fs => fetchedWf fs
  | .extend _ _ => true
  | .attach _ _ _ => true
  | .cow _ _ => true
  | .grow _ _ => true
  | .setEntry _ _ _ => true
  | .remap _ _ _ _ => true
  | .truncate _ _ => true
  | .release _ => true
  | .draftCommit _ _ => true
  | .draftRollback _ => true
  | .evict _ _ => true
  | .forceRelease _ => true
  | .forceReleaseFree _ => true
  | .heldCommit _ => true
  | .evictJobDone _ => true
  | .sharedFrameInvalidated _ _ => true
  | .admitSeq _ _ _ _ _ => true
  | .append _ _ _ _ => true
  | .suspend _ => true
  | .resume _ => true
  | .retire _ => true
  | .repLoad _ _ _ => true
  | .escClear _ _ _ => true
  | .fill _ _ _ _ => true
  | .copy _ _ _ _ => true
  | .msCmpcnt _ _ _ _ => true
  | .get _ => true
  | .add _ => true
  | .max _ => true
  | .cmpcnt _ => true
  | .suQueueApply _ _ => true
  | .countedIncrement _ => true
  | .remoteOperationCommand _ _ _ _ => true
  | .requestTimeout _ => true
  | .seqGapTimeout _ _ => true
  | .commandCounted _ _ => true
  | .tileRelease _ _ _ => true
  | .secondSweep _ _ _ => true
  | .splitCombine _ _ => true
  | .attendCombine _ _ => true
  | .lessonRetire _ _ => true
  | .contextSwitch _ _ _ _ _ => true
  | .recessEntry _ => true
  | .streamArm _ _ _ => true
  | .endProgram _ _ => true
  | .loop _ _ => true
  | .endl _ _ => true
  | .hloop _ _ => true
  | .seta _ _ => true
  | .adda _ _ => true
  | .setd _ _ => true
  | .walk _ _ => true
  | .emit _ _ => true
  | .mark _ _ => true
  | .wait _ _ => true
  | .streamEnd _ _ => true
  | .multicastRequest _ _ _ _ _ _ _ _ _ _ => true
  | .multicastLanded _ => true
  | .ringPass _ _ => true
  | .ringPassComplete _ _ _ => true
  | .weightRefetch _ _ => true
  | .scrubVisit _ => true
  | .commonsInvalidate _ _ => true
  | .sfuLoadImage _ _ _ => true
  | .sfuLoadFactory _ _ _ => true
  | .sfuLoadComplete _ _ => true
  | .fnAssistAnswer _ _ _ _ => true
  | .hpOpen _ => true
  | .hpClose _ => true
  | .hpDrained _ => true
  | .rcArm _ _ _ _ _ => true
  | .rcCcArrive _ _ _ => true
  | .rcExternalArrive _ _ => true
  | .rcComplete _ => true
  | .rcTimeout _ => true
  | .syncArrive _ _ _ => true
  | .syncRelease _ _ => true
  | .heartbeat _ => true
  | .heartbeatTimer => true
  | .headLost => true
  | .reportCmd _ => true
  | .reportCardLanded => true
  | .syncSetCounter _ _ _ _ => true
  | .syncSetFlag _ _ _ _ => true
  | .syncSetWire _ _ _ _ => true
  | .hello _ _ _ _ _ _ _ _ => true
  | .enumStart _ => true
  | .enumRelease _ => true
  | .enumAssign _ _ => true
  | .enumCommit => true
  | .linkAckTimer _ => true
  | .linkDown _ _ => true
  | .linkUp _ => true
  | .qmfnFwdTimeout _ => true
  | .i3cPrivateWrite _ _ _ => true
  | .i3cPrivateRead _ => true
  | .entdaa _ => true
  | .setdasa _ _ => true
  | .setnewda _ _ => true
  | .rstdaa => true
  | .getpid _ => true
  | .getbcr _ => true
  | .getdcr _ => true
  | .getstatus _ => true
  | .getmwl _ => true
  | .getmrl _ => true
  | .setmwl _ _ => true
  | .setmrl _ _ => true
  | .enec _ _ => true
  | .disec _ _ => true
  | .keyZeroise _ => true
  | .keyRotation _ => true
  | .ovlLoad _ _ => true
  | .ovlUnload _ _ => true
  | .setMode _ _ => true
  | .ovlActivate _ _ => true
  | .ovlDeactivate _ _ => true
  | .baseApply _ => true
  | .baseSave _ => true
  | .hostAtomicOther _ _ => true
  | .hpLinkDown => true
  | .mccUp _ => true
  | .mccDown _ _ => true
  | .mcTempRead _ _ => true
  | .clockLoss _ => true
  | .clockReturn _ => true
  | .telemetrySample _ _ _ _ => true
  | .telemetryInvalid _ => true
  | .alertAssert _ => true
  | .alertDeassert _ => true
  | .alertStuck => true
  | .alertChatter _ => true
  | .pgOpSelect _ _ => true
  | .opTimeout => true
  | .blockReset _ => true
  | .scratchpadClearDone => true
  | .bootRomReady => true
  | .quiesceReset _ _ _ => true
  | .forceReset _ _ _ => true
  | .gate _ _ _ => true
  | .ungate _ _ _ => true
  | .unitQuiet _ _ => true
  | .quiesceTimeout _ _ => true
  | .coreRelease _ => true
  | .ctxResume _ _ _ => true
  | .ctxSkip _ _ _ => true
  | .fwStage _ => true
  | .fwActivate _ => true
  | .fwReady => true
  | .ccRestartTimeout => true
  | .ccWatchdog => true
  | .wfgBlock _ => true
  | .wfgForm _ => true
  | .wfgDone _ => true
  | .traceCtl _ _ => true
  | .hpLinkUp => true
  | .qmfnResponse _ _ => true
  | .msuCommandEnd _ => true

end Sys2Proof
end

