-- ==== Sys2Proof/Tests/Slice0.lean ====
section
/-!
SUPPORT. Smoke tests: an ill-formed command for each check of WellFormed, standard check values of the codes, and figures
that the spec states.
-/

namespace Sys2Proof.Tests

open Sys2Proof Sys2Proof.Machine

set_option Elab.async false

/-! ## WellFormed refuses -/

/-- Data shorter than LEN. -/
theorem test_wf_put_length : Instr.wf (.put { origin := .inside .writer, target := 0, len := 2, data := [1] }) = false := by
  decide

/-- Two marks for one 16-byte word. -/
theorem test_wf_marks :
    Instr.wf (.cput { origin := .inside .writer, target := 0, len := 1, data := [1], poison := [false, true] }) = false := by
  decide

/-- A host write of nothing. -/
theorem test_wf_host_write : Instr.wf (.hostMwr 0 [] []) = false := by decide

/-- A host read of more than 4,096 bytes. -/
theorem test_wf_host_read : Instr.wf (.hostMrd 0 0 0 4097) = false := by decide

/-- A fetch-add with two operand words. -/
theorem test_wf_host_fadd : Instr.wf (.hostFadd 0 0 0 false 4 0 [false, false]) = false := by decide

/-- A flit with 1 payload byte. -/
theorem test_wf_flit : Instr.wf (.flitReceive 0 { header := 0, payload := [0], crc := 0 }) = false := by decide

/-- A QMFN payload of 257 bytes. -/
theorem test_wf_payload : Instr.wf (.dictWrite ch 0x2000 0 (zeros 257)) = false := by decide +kernel

/-- Activity counts of ten events. -/
theorem test_wf_events : Instr.wf (.periodBoundary [0, 0, 0, 0, 0, 0, 0, 0, 0, 0]) = false := by decide

/-- A member's increases with six stall causes. -/
theorem test_wf_stalls :
    Instr.wf (.aggRun [{ node := 1, lessons := 0, tokens := 0, stalls := [0, 0, 0, 0, 0, 0] }]) = false := by decide

/-- Fetched bytes with a mark beyond their words. -/
theorem test_wf_fetched : Instr.wf (.wake [{ addr := 0, data := [], poison := [true] }]) = false := by decide

/-- Well-formed commands. -/
theorem test_wf_good : Instr.wf (.hostMwr 0 [1] []) = true ∧ Instr.wf (.hostMrd 0 0 0 4096) = true ∧
    Instr.wf (.put { origin := .inside .writer, target := 0, len := 1, data := [1], poison := [true] }) = true := by decide

/-! ## The table gives no bits, so no word spells a command -/

theorem test_decode_none : decodeTableWord 8 5 = none ∧ (rig.withFetchWord 8 5).pending = [] := ⟨rfl, rfl⟩

/-! ## Queue and reset -/

/-- Two commands are taken in order: RSTDAA, then a microsecond passes. -/
theorem test_step_order : (match step { rig with pending := [.rstdaa, .heartbeatTimer] } with
    | .next t => t.pending == [.heartbeatTimer]
    | _ => false) = true := by decide +kernel

/-- Power-on: phase 1, and a microsecond later the clear has not ended by itself. -/
theorem test_reset_phase : State.reset.sys.phase = 1 ∧ State.reset.sys.rstReqN = true := ⟨rfl, rfl⟩

/-! ## Codes: the check values of CRC-32 and CRC-32C over the digits 1 to 9 -/

theorem test_crc32 : crc32 [0x31, 0x32, 0x33, 0x34, 0x35, 0x36, 0x37, 0x38, 0x39] = 0xCBF43926 := by decide +kernel

theorem test_crc32c : crc32c [0x31, 0x32, 0x33, 0x34, 0x35, 0x36, 0x37, 0x38, 0x39] = 0xE3069283 := by decide +kernel

/-! ## The test access port (R413) -/

/-- IDCODE has the part number 0x2A02 in bits [27:12] and 1 in bit 0. -/
theorem test_idcode (s : State) : tapIdcode s / 2 ^ 12 % 2 ^ 16 = 0x2A02 ∧ tapIdcode s % 2 = 1 := by
  have := Config.jtagMaker.isLt
  unfold tapIdcode
  omega

/-- After its reset the port is in Test-Logic-Reset, and four edges select and capture the data register. -/
theorem test_tap : ([true, false, true, false].foldl (fun s m => tapClock s m false) (tapReset rig)).sys.tap.state = .captureDr := by
  decide +kernel

/-! ## Figures of spec/20_worked_examples.md -/

/-- Table 20-1: the overlay of Model S, H 4, QF4, D 64, P 24, SUMMARY. -/
def modelS : Layout :=
  layoutOf 0x213 ([1, 0, 1, 0] ++ zeros 28 ++ [4, 0, 64, 0, 24, 2, 4, 0, 0, 0, 0, 0]) 24 1

/-- Table 20-2: the plane stride is 74,752 bytes and a page uses 1,798,400. -/
theorem test_model_s_page : modelS.stride = 74752 ∧ modelS.pageBytes = 1798400 := by decide +kernel

/-- Table 20-4, boundary s + 1/s + 2: a verdict of two drafts over an appended token commits 3,003 slots. -/
theorem test_verdict_commit :
    let s := chartRig.updDesc 3 (fun d => { d with
      committedLen := 3001, nextPos := 3001, draftLen := 3, verdict := true, draftAccept := 2, state := .verdictWait })
    ((commitChart s 3).desc 3).committedLen = 3003 ∧ ((commitChart s 3).desc 3).nextPos = 3003 := by decide +kernel

/-- Table 20-4, boundary s/s + 1: the appended token commits, the drafts stay pending. -/
theorem test_append_commit :
    let s := chartRig.updDesc 3 (fun d => { d with
      committedLen := 3000, nextPos := 3000, appendLen := 1, draftLen := 3, state := .verdictWait })
    ((commitChart s 3).desc 3).committedLen = 3001 ∧ ((commitChart s 3).desc 3).draftLen = 3 ∧
      ((commitChart s 3).desc 3).state = .verdictWait := by decide +kernel

/-! ## Counters and clamps -/

/-- A counter of 32 bits stops at its all-ones value (R461). -/
theorem test_counter_stops : ((rig.setCnt .rcSpurious 0xFFFFFFFF 2).bump .rcSpurious 2).cnt .rcSpurious 2 = 0xFFFFFFFF := by
  decide +kernel

/-- 16 cycles of `rc_arrive` with no armed generation count as spurious (R341), 15 as filtered (R398). -/
theorem test_external_arrive :
    (match exec (.rcExternalArrive 2 16) rig with
     | .next t => t.cnt .rcSpurious 2 == 1 && t.cnt .rcFiltered == 0
     | _ => false) = true ∧
    (match exec (.rcExternalArrive 2 15) rig with
     | .next t => t.cnt .rcSpurious 2 == 0 && t.cnt .rcFiltered == 1
     | _ => false) = true := by decide +kernel

end Sys2Proof.Tests
end

