-- ==== Sys2Proof/Tests/WitnessDictionary.lean ====
section
/-!
SUPPORT. States and operands that meet the hypotheses of the statements about frames and commands of the object dictionary,
clause by clause. `reach_sound` makes of each computed reach a CommandReaches.
-/

namespace Sys2Proof.Tests

open Sys2Proof Sys2Proof.Machine

set_option Elab.async false

/-! ## Frames -/

/-- FramesServed: a READ of an entry that may be read; a WRITE of an entry without behaviour of its own. -/
theorem witness_read :
    (let f : Frame := { hdr := ch, op := opRead, index := Name.key .baseAddr / 256, sub := Name.key .baseAddr % 256, payload := [] }
     servedNow rig f && (match findTarget rig f.index f.sub with
       | (.ok, some (.entry e u k)) => readAccess rig (.entry e u k) true none == .ok
       | _ => false)) = true ∧ (authFrame rig { hdr := ch, op := opRead, index := 0, sub := 0, payload := [] } none).1 = .ok := by
  decide +kernel

/-- A plain entry that takes its value at once, and one that waits for the next boundary. -/
theorem witness_write :
    ([(Name.baseAddr, 64), (Name.schedTokenBudget, 4096)].all (fun p =>
      let f := writeNum ch p.1 p.2
      whenSome (reach rig f p.1) (fun r => (writeCommand r.t ch r.slot p.1 r.u r.k r.v f.payload).isNone &&
        !inSets p.1 && (match findTarget rig f.index f.sub with
          | (.ok, some (.entry e u k)) => boundCode (futureAt r.t) e u k r.v == .ok && e.at_.isSome == (p.1 == .schedTokenBudget)
          | _ => false)))) = true := by decide +kernel

/-- EVENT_POLL with a start number, and a forwarded frame. -/
theorem witness_poll :
    servedNow rig (pollFrame ch [0, 0, 0, 0]) = true ∧ (authFrame rig (pollFrame ch [0, 0, 0, 0]) none).2.2.2 = true ∧
    (let w : Fwd := { id := 3, src := .host, frame := pollFrame hh [] }
     ([w].find? (fun v => v.id == 3)) = some w) := by decide +kernel

/-- FramesRefused: the host link down; a damaged frame and one of 257 bytes; a held one with room and without; no entry at 2000.01; a READ with
a payload. -/
theorem witness_refused_frames :
    ({ rig with sys := { rig.sys with hpUp := false } } : State).sys.hpUp = false ∧ hh.src = .host ∧
    ({ ch with damaged := true } : Hdr).damaged = true ∧ 256 < (zeros 257).length ∧
    (let s : State := { rig with sys := { rig.sys with phase := 2 } }
     framesWait (frameIn s .host) .host = true ∧ hh.src ≠ .cc ∧ s.sys.hpUp = true ∧ (frameIn s .host).mgmt.frames.length < 64 ∧
     64 ≤ (((List.replicate 64 (pollFrame hh [])).filter (fun g => g.hdr.src == .host)).length)) ∧
    servedNow rig (writeFrame ch 0x2000 1 []) = true ∧ findEntry 0x2000 1 = none := by decide +kernel

/-! ## Hall Passes, cores and clusters -/

/-- The rig with pass 0 of node 9 over a page of HBM, in a state. -/
def passRig (x : PassState) : State :=
  { rig with remote := { rig.remote with passes := [(0, { base := 0x40000000, size := 0x1000, source := 0, rights := 1, state := x })] } }

/-- HP_CMD: an OPEN that is accepted, one that is refused (no size), a CLOSE of an open pass, a draining pass. -/
theorem witness_hall_passes :
    whenSome (reach (passRig .closed) (writeNum ch .hpCmd 1) .hpCmd) (fun r => r.v == 1 && openCode r.t (hpSel r.t) == .ok) =
      true ∧
    whenSome (reach rig (writeNum ch .hpCmd 1) .hpCmd) (fun r => r.v == 1 && openCode r.t (hpSel r.t) != .ok) = true ∧
    whenSome (reach (passRig .opened) (writeNum ch .hpCmd 2) .hpCmd) (fun r =>
      r.v == 2 && (r.t.pass (hpSel r.t)).state == .opened) = true ∧
    ((passRig .draining).pass 0).state = .draining ∧ ((passRig .draining).pass 0).inflight = 0 := by decide +kernel

/-- CoreAndClusterCommands. -/
theorem witness_core_commands :
    (reach rig (writeNum ch .commonsInvalidate 1 0) .commonsInvalidate).isSome = true ∧
    ([1, 2, 3, 4].all (fun v => whenSome (reach rig (writeNum ch .sfuLoadCmd v 0) .sfuLoadCmd) (fun r =>
      r.v == v && !Map.has (r.t.core r.u).sfuLoads ((v - 1) % 2) &&
        r.t.ent .sfuLoadRow r.u + ceilDiv (tableSize ((v - 1) % 2)) 1024 ≤ 12288))) = true ∧
    ([1, 2].all (fun v => whenSome (reach (rig.updCtx 0 0 (fun q => { q with state := .faulted })) (writeNum ch .ctxCtl v 0 0)
      .ctxCtl) (fun r => r.v == v && (r.t.ctx r.u r.k).state == .faulted))) = true := by decide +kernel

/-- ControlComplexArrivesAndReports: the current generation and another; a wire whose mask does not name the Control Complex;
a report with and without a base. -/
theorem witness_cc_arrive :
    ([(0x100000000, 0, true, true), (0x100000000, 1, true, false), (0, 0, false, true)].all (fun p =>
      whenSome (reach (rig.setEnt .rcMask p.1 0 0) (writeNum ch .rcCcArrive p.2.1 0) .rcCcArrive) (fun r =>
        (rcMask r.t r.u).getLsbD 32 == p.2.2.1 && (r.v == (r.t.wire r.u).gen.toNat) == p.2.2.2))) = true ∧
    ([0x40000000, 0].all (fun a => whenSome (reach (rig.setEnt .reportBase a 0 0) (writeNum ch .reportCmd 1) .reportCmd) (fun r =>
      r.t.ent .reportBase == a))) = true := by decide +kernel

/-- SyncSetCommands: a counter, a flag and a wire; an unused bit of VALUE; an absent core; a flag above 63, a wire above 15,
and a wire of another generation; a flag without and one with an owner, set and cleared. -/
theorem witness_sync_set :
    ([5 * 2 ^ 32 + 7, 2 ^ 32 + 2 ^ 29 + 63, 2 * 2 ^ 29, 2 * 2 ^ 32 + 2 ^ 29, 2 ^ 40 + 2 * 2 ^ 29, 2 ^ 29 + 64,
      2 * 2 ^ 29 + 16, 2 ^ 32 + 2 * 2 ^ 29].all (fun v => whenSome (reach rig (writeNum ch .syncSet v) .syncSet) (fun r =>
        r.v == v && r.t.corePresent 0 && r.t.wire 0 == { }))) = true ∧
    (let s : State := { rig with fuses := { fuses with coreMask := 0xFFFFFFFE } }
     ([5 * 2 ^ 32 + 7, 2 ^ 29].all (fun v => whenSome (reach s (writeNum ch .syncSet v) .syncSet) (fun r =>
       r.v == v && !r.t.corePresent 0))) = true) ∧
    (let o : FlagOwner := { ctx := 0, lesson := 0, producer := 4, consumer := 0, stage := 1 }
     let s := rig.updCore 0 (fun k => { k with flagOwner := [(3, o)] })
     ([(0, 3), (1, 3), (0, 5), (1, 5)].all (fun p =>
       whenSome (reach s (writeNum ch .syncSet (p.1 * 2 ^ 32 + 2 ^ 29 + p.2)) .syncSet) (fun r =>
         Map.get? ((leaveRecess r.t 0).core 0).flagOwner p.2 == if p.2 = 3 then some o else none))) = true) := by
  decide +kernel

/-! ## Keys -/

/-- The key-encryption key of RFC 3394, 4.1. -/
def kek : BitVec 128 := 0x000102030405060708090A0B0C0D0E0F

/-- The wrapped key of RFC 3394, 4.1. -/
def wrapped : List Byte :=
  [0x1F, 0xA6, 0x8B, 0x0A, 0x81, 0x12, 0xB4, 0x47, 0xAE, 0xF3, 0x4B, 0xD8, 0xFB, 0x5A, 0x7B, 0x82, 0x9D, 0x3E, 0x86, 0x23,
   0x71, 0xD2, 0xCF, 0xE5]

/-- The inverse S-box takes every substitute back. -/
theorem test_inverse_sbox : ((List.range 256).all (fun a => invSbox (sbox a) == a)) = true := by decide +kernel

/-- RFC 3394, 4.1: the wrapped key unwraps to the key data. -/
theorem test_unwrap : unwrapKey kek wrapped = some 0x00112233445566778899AABBCCDDEEFF := by decide +kernel

/-- The rig with that key in slot 1 with every permission and a key in slot 2; a slot is selected. -/
def keyRig (sel : Nat) : State :=
  let s := rig.setEnt .keySelect sel 0 0
  { s with mgmt := { s.mgmt with keys := [(1, { cur := some kek, perm := 0xFF }), (2, { cur := some 5, perm := 0xFF })] } }

/-- A write that slot 1 authenticates. -/
def signed (s : State) (index sub : Nat) (payload : List Byte) : Hdr :=
  let t : Trailer := { sender := 4, slot := 1, counter := 9, tag := 0 }
  { src := .host, trailer := some { t with tag := BitVec.ofNat 64 (cmac64 kek (authMessage s t opWrite index sub payload)) } }

/-- KeyCommands: a wrapped key and a wrapped next key, authenticated under slot 1, for slot 2. -/
theorem witness_wrapped : ([2, 5].all (fun sub =>
    whenSome (reach (keyRig 2) (writeFrame (signed (keyRig 2) 0x9000 sub wrapped) 0x9000 sub wrapped)
      (if sub = 2 then .keyWrapped else .keyNextWrapped)) (fun r => r.slot == some 1 && keySel r.t == 2 &&
        (keySlot r.t 1).cur == some kek && (keySlot r.t 2).state != 0))) = true := by decide +kernel

/-- KEY_ZEROISE of slot 2 under slot 1, and of slot 1 under itself (KeySlotsNeverWidenThemselves). -/
theorem witness_zeroise : ([2, 1].all (fun sel =>
    let f := writeNum ch .keyZeroise 1
    whenSome (reach (keyRig sel) (writeNum (signed (keyRig sel) f.index f.sub f.payload) .keyZeroise 1) .keyZeroise) (fun r =>
      r.slot == some 1 && keySel r.t == sel))) = true := by decide +kernel

/-- KeySlotsNeverWidenThemselves: writes of slot 1 that slot 1 authenticates. -/
theorem witness_own_slot : ([(2, Name.keyWrapped, wrapped), (5, .keyNextWrapped, wrapped)].all (fun p =>
    whenSome (reach (keyRig 1) (writeFrame (signed (keyRig 1) 0x9000 p.1 p.2.2) 0x9000 p.1 p.2.2) p.2.1)
      (fun r => r.slot == some 1 && keySel r.t == 1)) = true) ∧
    (let f := writeNum ch .keyPerm 1
     whenSome (reach (keyRig 1) (writeFrame (signed (keyRig 1) f.index f.sub f.payload) f.index f.sub f.payload) .keyPerm)
      (fun r => r.slot == some 1 && keySel r.t == 1) = true) := by decide +kernel

/-- A rotation that is due, in hardware and assisted. -/
theorem witness_rotation :
    (let s : State := { rig with mgmt := { rig.mgmt with keys := [(1, { cur := some 1, next := some 2, rotateAt := 1 })] }
                                 sys := { rig.sys with uptime := 5 } }
     rotationDue s 1 = true ∧ s.ent .fnModeKeyRotation = 0 ∧ (s.setEnt .fnModeKeyRotation 1 0 0).ent .fnModeKeyRotation ≠ 0 ∧
     (raiseAssist (s.setEnt .fnModeKeyRotation 1 0 0) .keyRotation 1 (.keySlot 1) 1 1 []).1 = .ok ∧ s.mgmt.assists = []) := by
  decide +kernel

end Sys2Proof.Tests
end

