-- ==== Sys2Proof/Tests/WitnessForms.lean ====
section
/-!
SUPPORT. States and operands that meet the hypotheses of the statements about steps of a Form, memory-side commands, remote
requests and synchronisation, clause by clause.
-/

namespace Sys2Proof.Tests

open Sys2Proof Sys2Proof.Machine

set_option Elab.async false

/-- A block that works alone, with a running step. -/
def running : State := { rig with sched := { rig.sched with running := true, begun := true, step := 5 } }

/-- The block is node n of a Form of nodes 1 to 2 whose head is node 1. -/
def formed (n : U16) (s : State) : State :=
  { s with form := { s.form with node := n, committed := true, levels := [(1, 2, 1)] }
           sched := { s.sched with begun := true, step := 5 } }

/-- The state with the member's report of an empty or a full step. -/
def reported (empty : Bool) (s : State) : State :=
  { s with sched := { s.sched with membersDone := [(2, empty)] } }

/-- StepAlignment, in the order of its clauses. -/
theorem witness_alignment :
    (stepEnded running = true ∧ boundaryFree running = true ∧ alone running = true ∧ running.sched.running = true) ∧
    (let s := formed 2 rig
     stepEnded s = true ∧ boundaryFree s = true ∧ alone s = false ∧ s.sched.goPending = false ∧ membersDone s = true ∧
     isTopHead s = false ∧ s.sched.doneSent = false) ∧
    (let s := formed 1 rig
     (myMembers s).contains (2 : U16).toNat = true ∧ s.sched.step < 2 ^ 64 ∧ stepEnded s = true ∧ boundaryFree s = true ∧
     alone s = false ∧ s.sched.goPending = false ∧ membersDone (reported false s) = true ∧ isTopHead s = true ∧
     allEmpty (reported false s) = false) ∧
    (let s : State := { formed 2 rig with sched := { (formed 2 rig).sched with doneSent := true } }
     alone s = false ∧ isTopHead s = false ∧ s.sched.doneSent = true ∧ s.sched.step < 2 ^ 64 ∧
     boundaryFree (passGo s true s.sched.step) = true) ∧
    (let s := rig.updCtx 0 0 (fun q => { q with count := 1 })
     s.sched.running = false ∧ boundaryFree s = true ∧ counterMoved s = true ∧ alone s = true) ∧
    (let s := reported true (formed 1 rig)
     alone s = false ∧ isTopHead s = true ∧ s.sched.running = false ∧ boundaryFree s = true ∧ membersDone s = true ∧
     allEmpty s = true) := by decide +kernel

/-- BoundaryOrder: a boundary with, and one without, a pending operating point. -/
theorem witness_boundary :
    (let s : State := { rig with sys := { rig.sys with gov := { rig.sys.gov with opPending := some 2 } } }
     (action3 (action2 (traceAction (action1 (boundaryBegins (endStep s (some 6)))) 2) [])).sys.gov.opPending = some 2) ∧
    (action3 (action2 (traceAction (action1 (boundaryBegins (endStep rig (some 6)))) 2) [])).sys.gov.opPending = none := by
  decide +kernel

/-- HeartbeatsAndLoss: a top head, a silent member, a range not yet lost, a silent head. -/
theorem witness_heartbeats :
    (alone (formed 1 rig) = false ∧ isTopHead (formed 1 rig) = true) ∧
    ((List.range (headOf (formed 1 rig))).find? (fun j => (membersOf (formed 1 rig) (j + 1)).contains (2 : U16).toNat) =
        some 0 ∧ isLost (formed 1 rig) 2 = false ∧ silent (formed 1 rig) 2 = true ∧ pathDown (formed 1 rig) 2 = true) ∧
    (formed 1 rig).form.lost.contains (2, 2) = false ∧
    (alone (formed 2 rig) = false ∧ isTopHead (formed 2 rig) = false ∧ (formed 2 rig).form.headLost = false ∧
      silent (formed 2 rig) (ownHead (formed 2 rig)) = true) := by decide +kernel

/-! ## The memory-side unit -/

/-- FILL of 16 bytes at offset 0; COPY to offset 32; CMPCNT of 16 bytes. -/
def fillCmd : BitVec 1024 := BitVec.ofNat 1024 (0x10 * 2 ^ 192 + 0x20 * 2 ^ 64)

/-- The rig with one open slot in the Timetable of core 0. -/
def slotted : State := rig.setEnt .ttSlotMap 0xFFFFFFFF 0 0

/-- MemorySideCommands: the checks pass; the unit is free or runs; a command runs with none behind it. -/
theorem witness_memory_side :
    ([1, 2].all (fun op =>
      let d := asOp 4 op fillCmd
      let m := msuOf 0 0 d (complOf slotted 0 0 fillCmd)
      msuCode d m == .ok && sbFree slotted 0 (msuReads m) (msuWrites m)) = true) ∧
    (let d := asOp 4 3 (BitVec.ofNat 1024 (0x10 * 2 ^ 192))
     msuCode d (msuOf 0 0 d (complOf slotted 0 0 d)) = .ok) ∧
    canIssue slotted 0 0 = true ∧ hasOpenSlot slotted 0 = true ∧ (slotted.core 0).msu = none ∧
    (let m := msuOf 0 0 (asOp 4 1 fillCmd) (complOf slotted 0 0 fillCmd)
     let s := slotted.updCore 0 (fun k => { k with msu := some { cmd := m, code := .ok, count := 0 } })
     (s.core 0).msu = some { cmd := m, code := .ok, count := 0 } ∧ m.trap = false ∧ m.op = 1 ∧
     ((unissue (sbRelease (completeCmd (s.updCore 0 (fun k => { k with msu := none })) 0 m.ctx m.compl .ok 0) 0 m.ctx m.num)
       0 m.ctx m.num).core 0).msuQ = []) := by decide +kernel

/-! ## Requests -/

/-- A request of a remote-operation stream to this block. -/
def inside (a : U64) (n : Nat) : Req := { origin := .inside (.remoteOp 0 0), target := a, len := n, data := zeros n }

/-- Byte 0x40000000 of HBM is plain. -/
theorem plain_40000000 : PlainAt rig 0x40000000 :=
  ⟨fun c x h => Region.noConfusion (Eq.trans (show Region.hbm = regionAt rig 0x40000000 by decide +kernel) h),
   fun c h => Region.noConfusion (Eq.trans (show Region.hbm = regionAt rig 0x40000000 by decide +kernel) h)⟩

/-- Request checks pass, and refuse, for the operations inside the block. -/
theorem witness_inside :
    (inside 0x40000000 16).origin = .inside (.remoteOp 0 0) ∧ isLocal rig (inside 0x40000000 16).node = true ∧
    (inside 0x40000000 16).addr = 0x40000000 ∧
    ([Kind.put, .get, .cput, .cmpcnt].all (fun k => insideCode rig k (inside 0x40000000 16) == .ok &&
      effectCode rig k (inside 0x40000000 16) == .ok) = true) ∧
    ([Kind.add, .max].all (fun k => insideCode rig k (inside 0x40000000 4) == .ok &&
      effectCode rig k (inside 0x40000000 4) == .ok) = true) ∧
    (rig.read 0x40000000 4).2.2.any id = false ∧ insideCode rig .put (inside 0x40000000 12) ≠ .ok := by decide +kernel

/-- A marked operand of an ADD. -/
theorem witness_marked : ((rig.write 0x40000000 (zeros 16) (List.replicate 1 true)).read 0x40000000 4).2.2.any id = true := by
  decide +kernel

/-- A CPUT into command window 0, and an ADD on counter 0 of core 0. -/
theorem witness_windows :
    (let r := inside 0xFF00C0000000 128
     regionAt rig r.addr = .window 0 0 ∧ insideCode rig .cput r = .ok ∧ effectCode rig .cput r = .ok) ∧
    (let r := inside 0xFF0080000000 4
     regionAt rig r.addr = .counters 0 ∧ insideCode rig .add r = .ok ∧ effectCode rig .add r = .ok) := by decide +kernel

/-- The rig with an open Hall Pass that grants node 9 everything over one page, and its stream 1 at number 7. -/
def passed : State :=
  { rig with remote := { rig.remote with
    passes := [(3, { base := 0x40000000, size := 0x1000, source := 0xFFFF00000000 + 0x9000000010000, rights := 0xBF
                     state := .opened })]
    pairs := [{ node := 9, stream := 1, nextSeq := 7 }] } }

/-- An arrival from node 9. -/
def arrival (a : U64) (sseq : U16) : Req :=
  { origin := .arrival 9 1 sseq 0 0, target := a, len := 16, data := zeros 16 }

/-- ArrivalsThroughHallPasses: the stream's number, granted and refused addresses, an early and a late number. -/
theorem witness_arrivals :
    isLocal passed (arrival 0x40000000 7).node = true ∧ (9 : U16) ≠ 0xFFFF ∧
    (passed.remote.pairs.find? (fun p => p.node == 9 && p.stream == 1) = some { node := 9, stream := 1, nextSeq := 7 }) ∧
    arrivalCode passed .get (arrival 0x40000000 7) 9 0 = (.ok, 3) ∧ mapCheck passed 0x40000000 16 = .ok ∧
    effectCode (passed.updPass 3 (fun h => { h with arrivals := h.arrivals + 1 })) .get (arrival 0x40000000 7) = .ok ∧
    (arrivalCode passed .get (arrival 0x50000000 7) 9 0).1 ≠ .ok ∧
    (((8 : U16) - 7).toNat ≠ 0 ∧ ((8 : U16) - 7).toNat < 0x8000) ∧ 0x8000 ≤ ((6 : U16) - 7).toNat := by decide +kernel

/-- CountedPutsAndQueues, in the order of its clauses. -/
theorem witness_counted :
    (let i : PendIncr := { core := 0, ctr := 4, pass := none, origin := .inside (.remoteOp 0 0), tag := 0, cycle := 0
                           tenant := 0 }
     let s : State := { rig with remote := { rig.remote with incrs := [i] } }
     s.remote.incrs[0]? = some i ∧ (s.core 0).inReset = false ∧
     ((s.updCore 0 (fun k => { k with inReset := true })).core 0).inReset = true ∧
     (suRequest rig 0 { ctr := 4, dec := false, operand := 1, fetch := false, origin := i.origin, kind := 3 }).2.isSome = true) ∧
    (let op : SuOp := { ctr := 4, dec := false, operand := 1, fetch := true, origin := .inside (.remoteOp 0 0), tenant := 0
                        pass := none, tag := 0, cycle := 0 }
     ((rig.updCore 0 (fun k => { k with suQ := [op] })).core 0).suQ = [op] ∧ (rig.core 0).suCount < 4) ∧
    ((rig.updCtx 0 0 (fun q => { q with accept := 1, landed := [(0, none)] })).ctx 0 0).landed.find?
        (fun p => p.1 == 0) = some (0, none) ∧
    (let p : Pair := { node := 9, stream := 1, nextSeq := 7, held := [{ sseq := 9, opCode := 1, req := arrival 0x40000000 9 }] }
     ([p].find? (fun p => p.node == 9 && p.stream == 1) = some p)) ∧
    ((show State from { rig with mcasts := [{ id := 0, core := 0, ctr := 1 }] }).mcasts[0]?).isSome = true := by decide +kernel

/-- A remote operation command: PUT of 16 bytes from offset 0 to 0x40000000. -/
def ropCmd : BitVec 1024 := BitVec.ofNat 1024 (0x105 + 0x40000000 * 2 ^ 64 + 16 * 2 ^ 192)

/-- RemoteOperationCommands: a command that passes, one that is refused, an outstanding request, and a filled slot. -/
theorem witness_remote_commands :
    canIssue rig 0 0 = true ∧ ropCode ropCmd = .ok ∧ Kind.ofCode? (ropOp ropCmd) = some .put ∧
    sbFree rig 0 (ropReads ropCmd) (ropWrites ropCmd) = true ∧ ropCode (ropCmd ||| 0x10000000000) ≠ .ok ∧
    (let o : OutReq := { num := 4, opCode := 2, req := inside 0x40000000 16, unit := 0, uepoch := 0, node := 9, who := .firmware }
     ([o].find? (fun o => o.num == 4) = some o) ∧ replyCurrent rig o = true) ∧
    (let s := rig.updCtx 0 0 (fun q => { q with accept := 1, count := 1 })
     canTake s 0 0 = true ∧ (s.ctx 0 0).waiting = none ∧ (s.ctx 0 0).untaken = 1 ∧
     (s.read (slotAddr 0 0 0) 128).2.2.any id = false) := by decide +kernel

end Sys2Proof.Tests
end

