-- ==== Sys2Proof/Tests/WitnessBlock.lean ====
section
/-!
SUPPORT. States and operands that meet the hypotheses of the statements about overlays, block commands, resets, Roll Call,
links, ports, power and the Control Complex, clause by clause.
-/

namespace Sys2Proof.Tests

open Sys2Proof Sys2Proof.Machine

set_option Elab.async false

/-! ## Overlays and base values -/

/-- Cells of bytes at an address. -/
def cellsOf (a : Nat) (bs : List Byte) : List Host.Cell :=
  bs.zipIdx.filterMap (fun p => if p.1 = 0 then none else some (a + p.2, p.1))

/-- An image with its CRC. -/
def crced (bs : List Byte) : List Byte := bs ++ natLe 4 (crc32c bs)

/-- Model overlay 7: H = 2, D = 32, in BF16. -/
def model7 : List Byte := crced ([7, 0, 1, 0] ++ natLe 4 48 ++ zeros 24 ++ [2, 2, 32, 0, 1, 0, 0xFF, 0xFF, 0, 0, 0, 0])

/-- A base image of one record: PG_ALERT_CHATTER = 4. -/
def baseOne : List Byte :=
  crced ([0xFF, 0xFF, 2, 0] ++ natLe 4 52 ++ natLe 2 1 ++ zeros 22 ++ natLe 2 (Name.key .pgAlertChatter / 256) ++
    natLe 1 (Name.key .pgAlertChatter % 256) ++ zeros 5 ++ natLe 8 4)

/-- OVL_LOAD of an image that validates; OVL_UNLOAD of a loaded one; SET_MODE, ACTIVATE and DEACTIVATE with room. -/
theorem witness_overlays :
    (let s : State := { rig.setEnt .ovlLoadAddr 0x40000000 0 0 with mem := cellsOf 0x40000000 model7 }
     whenSome (reach s (ovlFrame ch 1 7) .ovlCmd) (fun r => let q := fetchImage r.t [] (r.t.ent .ovlLoadAddr) 4096
       r.v == 7 * 256 + 1 && q.2.1 == .ok && overlayCode q.1 q.2.2 7 == .ok && !overlayInUse q.1 7 &&
         q.1.mgmt.ovl.store.length < 1024)) = true ∧
    (let s : State := { rig with mgmt := { rig.mgmt with ovl := { rig.mgmt.ovl with store := [(7, model7)] } } }
     whenSome (reach s (ovlFrame ch 2 7) .ovlCmd) (fun r =>
       r.v == 7 * 256 + 2 && Map.has r.t.mgmt.ovl.store 7 && !overlayInUse r.t 7)) = true ∧
    ([3, 4, 5].all (fun op => whenSome (reach rig (ovlFrame ch op 7) .ovlCmd) (fun r =>
      r.v == 7 * 256 + op && r.t.mgmt.ovl.pending.length < 64))) = true := by decide +kernel

/-- The rig with that base image at BASE_ADDR. -/
def baseRig : State := { rig.setEnt .baseAddr 0x40000000 0 0 with mem := cellsOf 0x40000000 baseOne }

/-- BASE_APPLY: the image is read and its records validate. -/
theorem witness_base_image :
    whenSome (reach baseRig (writeNum ch .baseCmd 1) .baseCmd) (fun r =>
      let q := fetchImage r.t [] (r.t.ent .baseAddr) 65536
      r.v == 1 && q.2.1 == .ok && headerCode q.2.2 0xFFFF [2] == .ok && recordsCode q.1 true [] (imgBody q.2.2) == .ok) = true := by
  decide +kernel

/-- BASE_APPLY: the result meets the bounds and applies before the first step; BASE_SAVE. -/
theorem witness_base :
    whenSome (reach baseRig (writeNum ch .baseCmd 1) .baseCmd) (fun r =>
      let q := fetchImage r.t [] (r.t.ent .baseAddr) 65536
      q.1.sched.step == 0 && !q.1.sched.begun && baseCode q.1 (imgBody q.2.2) == .ok && (applyBase q.1 q.2.2).1 == .ok) = true ∧
    running.sched.begun = true ∧ whenSome (reach rig (writeNum ch .baseCmd 2) .baseCmd) (fun r => r.v == 2) = true := by
  refine ⟨by decide +kernel, rfl, by decide +kernel⟩

/-! ## Block commands -/

/-- ENUM_CMD of a numbered and of a new block: a plan that fails (a peer with this block's identity) and one that does not;
a release. -/
theorem witness_enumeration :
    whenSome (reach { rig with form := { rig.form with node := 3 } } (writeNum ch .enumCmd 1) .enumCmd) (fun r =>
      r.v == 1 && r.t.sys.phase != 3 && alone r.t && r.t.form.node != 0) = true ∧
    whenSome (reach rig (writeNum ch .enumCmd 1) .enumCmd) (fun r => r.t.form.node == 0 && (makePlan r.t []).1 == .ok &&
      (makePlan r.t [{ identity := rig.fuses.identity, ports := [] }]).1 != .ok) = true ∧
    whenSome (reach rig (writeNum ch .enumCmd 2) .enumCmd) (fun r => r.v == 2) = true := by decide +kernel

/-- PG_OP_SELECT, TRACE_CTL that starts and stops, WFG_CMD of a block and of a head. -/
theorem witness_block :
    (reach rig (writeNum ch .pgOpSelect 2) .pgOpSelect).isSome = true ∧
    ([1, 0].all (fun v => whenSome (reach ((rig.setEnt .traceBase 0x40000000 0 0).setEnt .traceSize 0x10000 0 0)
      (writeNum ch .traceCtl v) .traceCtl) (fun r => r.v == v && traceRingOk r.t))) = true ∧
    ([1, 2].all (fun v => whenSome (reach ((formed 1 rig).setEnt .fnModeWaitGraph 0 0 0) (writeNum ch .wfgCmd v) .wfgCmd) (fun r =>
      r.v == v && r.t.sys.wfg.isNone && headOf r.t != 0 && r.t.ent .fnModeWaitGraph == 0))) = true := by decide +kernel

/-- FN_ASSIST_ANSWER of 16 bytes for a forwarded chart walk: from memory that is there, that is marked, and whose
controller is down. -/
theorem witness_answer :
    (let a : Assist := { num := 6, fn := .chartWalk, who := .keySlot 1, toHost := true, place := some 0 }
     let s : State := { (rig.setEnt .fnAnswerBase 0x40000000 0 0).setEnt .fnAnswerSize 64 0 0 with
       mgmt := { rig.mgmt with assists := [a] } }
     [(s, false, false), (s.write 0x40000000 (zeros 16) [true], false, true),
       ({ s with sys := { s.sys with mccs := (List.range 24).map (fun n => (n, { state := .down })) } }, true, false)].all (fun p =>
         whenSome (reach p.1 (writeNum hh .fnAssistAnswer (6 * 2 ^ 32 + 2 ^ 16)) .fnAssistAnswer) (fun r =>
           r.v == 6 * 2 ^ 32 + 2 ^ 16 && r.t.mgmt.assists.find? (fun a => a.num == 6) == some a && 16 ≤ answerMax r.t a.fn &&
             FC.ofValue? 0 == some .ok && mcDown r.t (r.t.ent .fnAnswerBase) 16 == p.2.1 &&
             (p.2.1 || (r.t.read (r.t.ent .fnAnswerBase) 16).2.2.any id == p.2.2)))) = true := by decide +kernel

/-! ## Resets and the Control Complex -/

/-- RST_CMD of a core by every operation, with and without a boundary action open; of the Control Complex; of the block. -/
theorem witness_resets :
    ([1, 2, 3].all (fun op => whenSome (reach rig (rstFrame ch op .core 0) .rstCmd) (fun r =>
      rstCode r.t op 0 0 == .ok && !actionOpen r.t))) = true ∧
    whenSome (reach { rig with sched := { rig.sched with batchWait := true } } (rstFrame ch 2 .cluster 0) .rstCmd) (fun r =>
      rstCode r.t 2 1 0 == .ok && actionOpen r.t) = true ∧
    whenSome (reach (rig.updCore 0 (fun c => { c with gated := true })) (rstFrame ch 4 .core 0) .rstCmd) (fun r =>
      rstCode r.t 4 0 0 == .ok) = true ∧
    ([RstUnit.cc, .block].all (fun u => whenSome (reach rig (rstFrame ch 2 u 0) .rstCmd) (fun r =>
      rstCode r.t 2 (rstUnitCode u) 0 == .ok))) = true := by decide +kernel

/-- FW_CMD with nothing in progress, and with a staged image. -/
theorem witness_firmware :
    whenSome (reach rig (writeNum ch .fwCmd 1) .fwCmd) (fun r => r.v == 1 && r.t.sys.cc.staging.isNone &&
      !r.t.sys.cc.activating && !r.t.sys.cc.restarting) = true ∧
    whenSome (reach (rig.updCc (fun c => { c with staged := [1] })) (writeNum ch .fwCmd 2) .fwCmd) (fun r =>
      r.v == 2 && r.t.sys.cc.staged != [] && r.t.cnt .fwStatus == 0) = true := by decide +kernel

/-- An image of 64 bytes that key slot 1 signs. -/
def fwImage : List Byte :=
  let body := natLe 4 64 ++ zeros 52
  body ++ (natLe 8 (cmac64 kek body)).reverse

/-- FW_STAGE_COMPLETE of an image that is good, and of one that is not; the ends of a restart. -/
theorem witness_stage :
    (let s : State := { (keyRig 1).setEnt .fwImageAddr 0x40000000 0 0 with mem := cellsOf 0x40000000 fwImage }
     let q := fetchGlobal s [] 0x40000000 64
     q.2.1 = .ok ∧ q.2.2.2.any (fun b => b) = false ∧ fieldAt q.2.2.1 0 4 = 64 ∧ fwCode q.1 1 q.2.2.1 = .ok ∧
     fwCode q.1 3 q.2.2.1 ≠ .ok) ∧
    (({ rig with sys := { rig.sys with phase := 2 } } : State).sys.phase = 2 ∧ memorySettled rig = true) ∧
    ({ rig with sys := { rig.sys with phase := 5 } } : State).sys.cc.active = [] ∧
    (4 ≤ rig.sys.phase ∧ (rig.updCc (fun c => { c with harts := [.firmware] })).sys.cc.harts.any
      (fun h => h == .starting || h == .firmware) = true) ∧
    (rig.updCc (fun c => { c with restarting := true, activating := true })).sys.cc.restarting = true ∧
    (rig.updCc (fun c => { c with wdtWindow := true })).sys.uptime ≤ rig.sys.cc.restartEnd + 1000000 ∧
    rig.sys.cc.restartEnd + 1000000 < ({ rig with sys := { rig.sys with uptime := 1000001 } } : State).sys.uptime := by
  decide +kernel

/-- BlockAndUnitResets: a reset job of a quiet core; a core in reset. -/
theorem witness_unit_resets :
    (let j : RstJob := { op := 1, unit := 0, index := 0, value := 1 }
     let s : State := { rig with sys := { rig.sys with rstJobs := [j] } }
     waitingJob s false 0 = some j ∧ actionOpen s = false ∧ (unitCores s j).all (coreQuiet s) = true) ∧
    State.reset.sys.phase = 1 ∧ ((rig.updCore 0 (fun c => { c with inReset := true })).core 0).inReset = true :=
  ⟨by decide +kernel, rfl, by decide +kernel⟩

/-! ## Roll Call, reports and assists -/

/-- RollCallArrivals: an arm record that the checks accept, a complete AND, an armed generation with a timeout, members of the
current and of another generation. -/
theorem witness_arrives :
    (let s := rig.setEnt .rcMask 1 0 0
     let r : Req := { origin := .inside (.stream 0 0 0), target := 0xFF0080003000, len := 16, data := natLe 16 0x10000 }
     insideCode s .put r = .ok ∧ effectCode s .put r = .ok ∧ (rcMask s 0).getLsbD 33 = false) ∧
    rcReady ((rig.setEnt .rcMask 1 0 0).updWire 0 (fun x => { x with arrived := 1 })) 0 = true ∧
    (let s := (rig.setEnt .rcTimeout 5 0 0).updWire 0 (fun x => { x with armed := true })
     (s.wire 0).armed = true ∧ (s.wire 0).timedOut = false ∧ s.ent .rcTimeout 0 ≠ 0) ∧
    (rig.wire 0).gen = 0 ∧ (1 : BitVec 8) ≠ (rig.wire 0).gen ∧ rig.form.committed = false ∧ (formed 1 rig).form.committed = true ∧
    (((rig.setEnt .rcMask 0x200000000 0 0).updWire 0 (fun x => { x with armed := true })).wire 0).armed = true ∧
    (rcMask (rig.setEnt .rcMask 0x200000000 0 0) 0).getLsbD 33 = true := by decide +kernel

/-- ReportsAndAssists: a landing card, a block without a Form and a head, an assembly with an even and a skewed set of cards,
a request of each kind. -/
theorem witness_reports :
    (let j : CardJob := { trigger := .ok, base := 0x40000000, bytes := [], seqs := [] }
     ({ rig with sys := { rig.sys with cards := [j] } } : State).sys.cards = [j]) ∧
    rig.ent .fnModeCounterAgg = 0 ∧ headOf rig = 0 ∧ headOf (formed 1 rig) ≠ 0 ∧
    ({ rig with sys := { rig.sys with wfg := some 2 } } : State).sys.wfg = some 2 ∧ rig.mgmt.assists = [] ∧
    rig.sys.cards = [] ∧ rig.sys.cardWait = [] ∧ rig.sys.phase = 4 ∧ Fn.chartWalk ≠ .waitGraph ∧
    rig.sys.wfgSets = 0 ∧ rig.ent .reportBase = 0 ∧ fieldAt (zeros 16) 8 8 ≠ fieldAt (List.replicate 16 1) 8 8 ∧
    ([true, false].all (fun host =>
      let a : Assist := { num := 6, fn := .keyRotation, who := .keySlot 1, toHost := host, place := if host then some 0 else none }
      ([a].find? (fun a => a.num == 6)) == some a && (!host || a.place.isSome))) = true := by decide +kernel

/-! ## Links -/

/-- The rig with port 0 in a state, in its role. -/
def portRig (x : LinkState) (f : Port → Port) : State := (rig.setEnt .linkRole 1 0 0).updPort 0 (fun p => f { p with state := x })

/-- EnumerationAndHello: an assignment that waits; a port that may come up, with and without a role; a training port of a
new, of the recorded and of another peer. -/
theorem witness_hello :
    ({ rig with form := { rig.form with staged := some { node := 2, levels := [], routes := [] } } } : State).form.staged.isSome =
      true ∧
    ((portRig .down id).port 0).state ≠ .up ∧ rig.sys.ckPresent.getLsbD 32 = true ∧ roleOf (portRig .down id) 0 = 1 ∧
    roleOf (portRig .down (fun p => { p with role := some 0 })) 0 = 0 ∧
    ((portRig .training id).port 0).known = false ∧ (portRig .training id).form.committed = false ∧
    (formed 1 (portRig .training id)).form.committed = true ∧
    ((formed 1 (portRig .training (fun p => { p with known := true }))).port 0).known = true ∧
    (let q := (portRig .training (fun p => { p with known := true, peerId := 9, peerPort := 2, peerRole := 1 })).port 0
     q.known = true ∧ q.peerId = 9 ∧ q.peerPort = (2 : BitVec 8).toNat ∧ q.peerRole = (1 : BitVec 8).toNat ∧ ¬ q.peerId = 8) := by
  decide +kernel

/-- A data flit of number n in class 0. -/
def dataFlit (n : Nat) : Flit := sealed { header := BitVec.ofNat 96 (n * 2 ^ 79), payload := List.replicate 256 0, crc := 0 }

/-- A CRC is a 32-bit number. -/
theorem crcOf_lt (p : Nat) (hp : p < 2 ^ 32) (bs : List Byte) : crcOf p bs < 2 ^ 32 := by
  have bit_lt : ∀ x, x < 2 ^ 32 → crcBit p x < 2 ^ 32 := by
    intro x hx
    unfold crcBit
    split
    · exact Nat.xor_lt_two_pow (by omega) hp
    · omega
  have fold_lt : ∀ (l : List Byte) (x : Nat), x < 2 ^ 32 → l.foldl (crcByte p) x < 2 ^ 32 := by
    intro l
    induction l with
    | nil => intro x hx; exact hx
    | cons b l ih =>
      intro x hx
      refine ih _ ?_
      unfold crcByte
      iterate 8 refine bit_lt _ ?_
      exact Nat.xor_lt_two_pow hx (by have := b.isLt; omega)
  exact Nat.xor_lt_two_pow (fold_lt bs _ (by decide)) (by decide)

/-- A sealed flit of 256 payload bytes is good. -/
theorem sealed_good (f : Flit) (e : f.phyErr = false) (l : f.payload.length = 256) : Flit.good (sealed f) = true := by
  have h : (BitVec.ofNat 32 (Machine.Flit.crcOf f)).toNat = Machine.Flit.crcOf f := by
    rw [BitVec.toNat_ofNat]
    exact Nat.mod_eq_of_lt (crcOf_lt _ (by decide) _)
  have c : Machine.Flit.crcOf (sealed f) = Machine.Flit.crcOf f := rfl
  have p : (sealed f).phyErr = false := e
  have q : (sealed f).payload.length = 256 := l
  have r : (sealed f).crc = BitVec.ofNat 32 (Machine.Flit.crcOf f) := rfl
  unfold Flit.good
  rw [p, q, r, c, h]
  simp only [beq_self_eq_true, Bool.and_true, Bool.not_false]

/-- A flit that is good. -/
theorem witness_good : Flit.good (dataFlit 0) = true := sealed_good _ rfl List.length_replicate

/-- FlitsAndLinkLoss and ReplayBufferNumbers: flits of the expected and of another number, a damaged one, an
unacknowledged one, ports that are down and up, numbers in and outside the replay buffer. -/
theorem witness_flits :
    (let s := portRig .up id
     let t := takeControl s 0 (dataFlit 0)
     (s.port 0).state = .up ∧ (t.port 0).state = .up ∧ Flit.get (dataFlit 0) 93 3 ≤ 3 ∧
     Flit.get (dataFlit 0) 79 12 = (t.port 0).rxNext.toNat ∧ Flit.get (dataFlit 1) 79 12 ≠ (t.port 0).rxNext.toNat ∧
     Flit.good { dataFlit 0 with phyErr := true } = false) ∧
    (let t := linkPump (portRig .up (fun p => { p with unacked := 1 }))
     (t.port 0).state = .up ∧ (t.port 0).unacked ≠ 0) ∧
    (let t := linkPump (portRig .down id)
     (t.port 0).unacked = 0 ∧ dueClass (t.port 0) = none ∧ (t.port 0).state = .down) ∧
    (let q : Port := { replay := [{ header := 0, payload := [], crc := 0 }], txSeq := 1 }
     q.replay.length ≤ 1024 ∧ (0 : BitVec 12) = q.txSeq - BitVec.ofNat 12 q.replay.length + BitVec.ofNat 12 0 ∧
     ∀ i, i ≤ 1 → (5 : BitVec 12) ≠ q.txSeq - 1 + BitVec.ofNat 12 i) := by decide +kernel

/-- ManagementBusCodes: no address yet; an address that reaches the device; a frame that parses and one that does not; a
waiting response. -/
theorem witness_bus :
    (rig.mgmt.i3c.dyn = 0 ∧ ∃ x : BitVec 7, x.toNat = rig.ent .i3cStaticAddr) ∧
    (let s := rig.updI3c (fun i => { i with dyn := 9, resp := some [1] })
     addressed s 9 = true ∧ reaches s none = true ∧ s.mgmt.i3c.resp = some [1]) ∧
    parseFrame { src := .mgmt } [] = none ∧ bit (1 : Byte).toNat 0 = true ∧ bit (0 : Byte).toNat 0 = false ∧
    308 ≤ (308 : U16).toNat := by
  refine ⟨⟨by decide +kernel, BitVec.ofNat 7 (rig.ent .i3cStaticAddr), by decide +kernel⟩, by decide +kernel, by decide +kernel,
    by decide, by decide, by decide⟩

/-- HostTransactions: an aperture onto this block; a fetch-add of a wrong length; a link that is down. -/
theorem witness_host :
    (let e : Rwt := { base := 0x40000000, size := 0x1000, hostOff := 0, attr := 0x30000 }
     let s : State := { rig with remote := { rig.remote with rwt := [(0, e)] } }
     apertureAt s 16 = some e ∧ hostReady s = true ∧
     hostReady { s with sys := { s.sys with hpUp := false } } = false ∧
     isLocal s ((BitVec.ofNat 64 (e.base + (16 - e.hostOff))).toNat / 2 ^ 48) = true) ∧
    (8 ≠ (if false then 8 else 4 : Nat)) ∧ [true].any (fun b => b) = true := by decide +kernel

/-! ## Ports, clocks and power -/

/-- MemoryPortsClocksAndHostLink: a controller that initialises, is up; every clock kind present; a clock that is lost. -/
theorem witness_clocks :
    ((rig.updMcc 0 (fun m => { m with state := .initialising })).mcc 0).state = .initialising ∧ (rig.mcc 0).state = .up ∧
    ([0, 3, 4, 8, 32].all (fun k => clockUp rig k)) = true ∧
    clockUp { rig with sys := { rig.sys with ckPresent := 0 } } 3 = false ∧ clockBits.getLsbD 3 = true := by decide +kernel

/-- PowerEvents and CalibrationFollowsMeasurement: telemetry valid and not; an alert; a waiting point; a rail with samples,
a limit and enough activity. -/
theorem witness_power :
    (rig.rail 0).tlmValid = true ∧
    (let s := rig.updRail 0 (fun q => { q with tlmValid := false, good := 3 })
     (s.rail 0).tlmValid = false ∧ (s.rail 0).good = 3 ∧ measuredOf (s.rail 0) = none) ∧
    (let s := rig.updGov (fun g => { g with alertPin := true, opWaiting := some 2 })
     s.sys.gov.alertPin = true ∧ s.sys.gov.stuck = false ∧ s.sys.gov.opWaiting = some 2 ∧ s.sys.gov.opTimedOut = false) ∧
    (let s := rig.updGov (fun g => { g with alertPin := true })
     s.sys.gov.alertPin = true ∧ s.sys.gov.stuck = false ∧ s.sys.gov.opWaiting = none) ∧
    rig.sys.gov.opWaiting = none ∧ rig.sys.gov.chatter = false ∧ rig.ent .pgAlertChatter < 2 ^ 32 ∧
    (let s := ((rig.setEnt .pgIlim 1000 0 0).updRail 0 (fun q => { q with samples := [(80, 1400)] })).setEnt .pgCoef 0x49742400 0 0
     0 < s.ent .pgIlim 0 0 ∧ measuredOf (s.rail 0) = some 10 ∧
     mkRat (5 * s.ent .pgIlim 0 0) 100 ≤ dynamicOf s [1000000, 0, 0, 0, 0, 0, 0, 0, 0, 0, 0] 0 ∧
     dynamicOf s [0, 0, 0, 0, 0, 0, 0, 0, 0, 0, 0] 0 < mkRat (5 * s.ent .pgIlim 0 0) 100) := by decide +kernel

/-- PutsLandByteByByte: 16 bytes of a Control Complex core. -/
theorem witness_put :
    (let r : Req := { origin := .inside (.ccCore 0), target := 0x40000000, len := 16, data := zeros 16 }
     isLocal rig r.node = true ∧ insideCode rig .put r = .ok ∧ effectCode rig .put r = .ok ∧ r.data.length = r.len ∧
     r.poison = [] ∧ r.addr + r.len ≤ hbmEnd ∧ inDescTable rig r.addr r.len = false ∧
     inPartTables rig r.addr r.len = false ∧ rig.sys.fab.flips = [] ∧ rig.sys.mcFlips = [] ∧ rig.sev = [] ∧
     r.addr = 0x40000000) := by decide +kernel

end Sys2Proof.Tests
end

