-- ==== Sys2Proof/Tests/WitnessCharts.lean ====
section
/-!
SUPPORT. States and operands that meet the hypotheses of the statements about steps in general, edits and sequences, clause
by clause.
-/

namespace Sys2Proof.Tests

open Sys2Proof Sys2Proof.Machine

set_option Elab.async false

/-! ## Steps in general -/

/-- A canonical state with a command in front, whose step goes on (MemoryStaysCanonical, FusedValuesAndOutputsStay). -/
theorem witness_steps : Memory.wf mapped.mem = true ∧ (step { mapped with pending := [.rstdaa] } = .next
    (mapped.updI3c (fun i => { i with dyn := 0 }))) ∧ ({ mapped with pending := [.rstdaa] } : State).pending.head? = some .rstdaa :=
  ⟨by decide +kernel, rfl, rfl⟩

/-- ResetRequestStays, StepNumberChangesAtBoundary: rst_req_n low, no reset in front, a command that ends no step. -/
theorem witness_request : ({ rig with sys := { rig.sys with rstReqN := false } } : State).sys.rstReqN = false ∧
    rig.pending.head? = none ∧ mayEndStep .rstdaa = false := by decide +kernel

/-- MccsBeginAndStayDown: no MCC has begun in phase 1; in a later phase one may be down. -/
theorem witness_mcc : (∀ n, (State.reset.mcc n).state = .off) ∧ State.reset.sys.phase = 1 ∧
    (rig.updMcc 0 (fun m => { m with state := .down })).sys.phase = 4 ∧
    ((rig.updMcc 0 (fun m => { m with state := .down })).mcc 0).state = .down :=
  ⟨fun _ => rfl, rfl, rfl, by decide +kernel⟩

/-! ## Edits -/

/-- An edit of sequence 3 by the Control Complex is taken and applied by hardware. -/
theorem witness_edit_taken : EditTaken mapped eh ∧ EditsByHardware mapped eh ∧ EditTaken bare eh ∧ EditsByHardware bare eh ∧
    EditTaken mapped { eh with seq := 4 } ∧ fromCc eh = true :=
  ⟨⟨by decide +kernel, by decide +kernel⟩, .inl (by decide +kernel), ⟨by decide +kernel, by decide +kernel⟩,
    .inl (by decide +kernel), ⟨by decide +kernel, by decide +kernel⟩, rfl⟩

/-- EXTEND over the mapped pages, up to the last slot that they hold. -/
theorem witness_extend : (editExtend (withEdit mapped eh (.extend 512)) [] 3 512).1 = .ok := by decide +kernel

/-- ATTACH of one slot of sequence 3 by sequence 4. -/
theorem witness_attach : (editAttach (withEdit mapped { eh with seq := 4 } (.attach 3 1)) [] 4 3 1).1 = .ok := by
  decide +kernel

/-- COW of a slot page that is private already; the layout is known. -/
theorem witness_cow : (seqLayout (withEdit mapped eh (.cow 0)) 3).isSome = true ∧
    ((seqLayout (withEdit mapped eh (.cow 0)) 3).map (fun l => (cowPage (withEdit mapped eh (.cow 0)) [] l 3 0).1)) = some .ok := by
  decide +kernel

/-- GROW from depth 1 to 2, and the bound 7. -/
theorem witness_grow : (mapped.desc 3).shadowDepth = 1 ∧ (growLevels (withEdit mapped eh (.grow 2)) 3 (2 - 1)).1 = .ok := by
  decide +kernel

/-- SET_ENTRY that clears leaf 1, and one whose leaf lies outside the chart. -/
theorem witness_set_entry : (editSetEntry (withEdit mapped eh (.setEntry 1 0)) 3 1 0).1 = .ok ∧
    (editSetEntry (withEdit mapped eh (.setEntry 512 0)) 3 512 0).1 ≠ .ok := by decide +kernel

/-- TRUNCATE and REMAP of a sequence without leaves. -/
theorem witness_truncate : (editTruncate (withEdit bare eh (.truncate 5)) [] 3 5).1 = .ok ∧
    (let q := remapOp bare eh 0 0x100000000 0x40000
     q.2 = (.ok, .remap 0 1 0 [] 0x40000) ∧ q.1.charts = bare.charts ∧ Map.get? q.1.charts.jobs 3 = none ∧
     (editRemap (withEdit q.1 eh q.2.2) 3 0 1 0 []).1 = .ok) := by
  decide +kernel

/-- RELEASE and FORCE_RELEASE of a sequence without leaves. -/
theorem witness_release : (editRelease (withEdit bare eh .release) 3 0).1 = .ok ∧
    (forceRelease (withEdit bare eh .forceRelease) 3 0).1 = .ok := by decide +kernel

/-- Verdicts: no draft accepted of none, and all of three. -/
theorem witness_verdicts : 0 ≤ editDrafts mapped 3 ∧
    3 ≤ editDrafts (mapped.updDesc 3 (fun d => { d with draftLen := 3 })) 3 := by decide +kernel

/-- RefusedEditsReport: an operand above 48 bits, a full queue, a free sequence, and an edit that is not the Control
Complex's. -/
theorem witness_refusals : 2 ^ 48 ≤ (0x1000000000000 : U64).toNat ∧
    4096 ≤ (List.replicate 4096 ({ id := 0, hdr := eh, op := .release } : EditEntry)).length ∧
    (mapped.desc 9).state = .free ∧ mapped.charts.editQ.length < 4096 ∧ fromCc { eh with src := .host } = false :=
  ⟨by decide, Nat.le_of_eq List.length_replicate.symm, by decide +kernel, by decide +kernel, rfl⟩

/-! ## Chart events -/

/-- A forced release without walks, a held sequence with pending edits, a hardware job, and a shared frame that has
left. -/
theorem witness_chart_events :
    (let s : State := { mapped with charts := { mapped.charts with
       forced := [{ seq := 3, epoch := 1, nodes := [], frames := [], bits := [] }]
       sharedInv := [(1, 2)] } }
     s.charts.forced.find? (fun f => f.seq == 3) = some { seq := 3, epoch := 1, nodes := [], frames := [], bits := [] } ∧
     s.charts.walks.any (fun w => w.seq == 3 && w.epoch == 1) = false ∧ (Map.get? s.charts.parts 1).isSome = true ∧
     s.charts.sharedInv.contains (1, 2) = true ∧ shareMap s (1, 2) = 0) ∧
    (let s := mapped.updDesc 3 (fun d => { d with held := true, appendLen := 1 })
     (s.desc 3).held = true ∧ (s.desc 3).walkers = 0 ∧ hasPending s 3 = true) ∧
    (let j : EvictJob := { captured := 0, target := 1, epoch := 1 }
     let s : State := { mapped with charts := { mapped.charts with jobs := [(3, j)] } }
     Map.get? s.charts.jobs 3 = some j ∧ j.assisted = false) := by decide +kernel

/-- A commit with and without a length that an edit sets. -/
theorem witness_commit_lengths : (mapped.pendOf 3).setLen = none ∧
    ((mapped.updPend 3 (fun p => { p with setLen := some (5, 5) })).pendOf 3).setLen = some (5, 5) := by decide +kernel

/-! ## Sequence commands -/

/-- A sequence command that waits alone, counted before the sample. -/
theorem witness_seq_waits :
    (let w : WaitingSeqCmd := { hdr := sh, num := 0, op := .suspend }
     countedBefore { chartRig with sched := { chartRig.sched with cmds := [w], sampled := [(0, 1)] } } w) = true := by
  decide +kernel

/-- The block with sequence 3 in a state. -/
def inState (x : SeqState) : State := chartRig.updDesc 3 (fun d => { d with state := x })

/-- ADMIT of a free number; APPEND of one token to an IDLE sequence, with and without drafts; SUSPEND, RESUME, RETIRE. -/
theorem witness_sequences :
    (inState .idle |>.desc 3).state.takesAppend = true ∧ (inState .idle |>.desc 3).pendingTokens = 0 ∧
    seqOpOf 2 1 0 0 0 = .append 1 0 0 ∧ (inState .ready |>.desc 3).state ≠ .free ∧
    (inState .suspended |>.desc 3).state = .suspended ∧ (inState .faulted |>.desc 3).state = .faulted ∧
    (inState .free |>.desc 3).state = .free ∧ (seqRetire (inState .idle) 3).1 = .ok := by decide +kernel

/-- The tenant and operands of an ADMIT that is accepted. -/
theorem witness_admit : (match seqOpOf 1 1 0 0 0 with
    | .admitSeq r t p o b u => (seqAdmit ((inState .free).setEnt .chartPartCount 2 0 0) sh r t p o b u).1 == .ok
    | _ => false) = true := by decide +kernel

/-- REP_LOAD of a valid record into an entry that no sequence names, and ESC_CLEAR of a valid entry. -/
theorem witness_repertoire :
    (let q := fetchGlobal chartRig [] 0x10000 256
     q.2.1 = .ok ∧ q.2.2.2.any (fun b => b) = false ∧ repCode q.1 1 q.2.2.1 = .ok) ∧
    (1 : Nat) < chartRig.ent .repCount ∧ repValid chartRig 0 = true ∧ seqOpOf 7 0 0xFF 0 0 = .escClear 0 0xFF := by
  decide +kernel

end Sys2Proof.Tests
end

