-- ==== Sys2Proof/Tests/WitnessLessons.lean ====
section
/-!
SUPPORT. States and operands that meet the hypotheses of the statements about Lessons, streams, arrays, rings, weights and
special-function tables, clause by clause.
-/

namespace Sys2Proof.Tests

open Sys2Proof Sys2Proof.Machine

set_option Elab.async false

/-! ## Lessons issue -/

/-! LessonsIssue: one Lesson of each of the eight commands, which every check accepts. -/

/-- LESSON issues. -/
theorem witness_copy_lesson : copyLesson.issues = true ∧ isBackward copyLesson.desc = false := by decide +kernel

/-- ATTEND issues. -/
theorem witness_attend_lesson : attendLesson.issues = true := by decide +kernel

/-- RING_LOAD issues. -/
theorem witness_ring_lesson : ringLesson.issues = true := by decide +kernel

/-- ACT_GRAD issues. -/
theorem witness_act_grad_lesson : actGradLesson.issues = true := by decide +kernel

/-- GATE_GRAD issues. -/
theorem witness_gate_grad_lesson : gateGradLesson.issues = true := by decide +kernel

/-- NORM_GRAD issues. -/
theorem witness_norm_grad_lesson : normGradLesson.issues = true := by decide +kernel

/-- ATT_GRAD issues. -/
theorem witness_att_grad_lesson : attGradLesson.issues = true := by decide +kernel

/-- UPDATE issues. -/
theorem witness_update_lesson : updateLesson.issues = true := by decide +kernel

/-- A held scoreboard place of core 0 that writes row 0. -/
def clashing (s : State) : State := s.updCore 0 (fun k => { k with
  scoreboard := [{ ctx := 0, num := 9, reads := [], writes := [(0, 1)] }] })

/-- LessonsIssue: an unscheduled Lesson with a row in conflict; every place held. -/
theorem witness_clash :
    (copyLesson.freeOn (clashing copyLesson.rig) = true ∧ copyLesson.clashOn (clashing copyLesson.rig) = some 0 ∧
      lunsched copyLesson.desc = true) ∧
    (let s := copyLesson.rig.updCore 0 (fun k => { k with
       scoreboard := List.replicate 16 { ctx := 0, num := 9, reads := [], writes := [] } })
     sbFull (settleControl s 0 copyLesson.desc) 0 = true) := by decide +kernel

/-- The copy Lesson as a scheduled one is free to issue with a row in conflict, in a hazard mode. -/
def clashesIn (m : Nat) : Bool :=
  let l : TestLesson := { copyLesson with sched := true }
  let s := clashing (l.rig.setEnt .ttHazardMode m 0 0)
  !lunsched l.desc && l.freeOn s && l.clashOn s == some 0 && (settleControl s 0 l.desc).ent .ttHazardMode 0 == m

/-- LessonsIssue: a scheduled Lesson with a row in conflict, in each mode. -/
theorem witness_clash_ignored : clashesIn 0 = true := by decide +kernel
theorem witness_clash_reported : clashesIn 1 = true := by decide +kernel
theorem witness_clash_held : clashesIn 2 = true := by decide +kernel

/-- One that the checks refuse, of each command: nothing in its chain. -/
theorem witness_refused_lessons : ([(0, none), (1, none), (2, none), (0, some 1), (0, some 2), (0, some 3), (1, some 4),
    (0, some 5)].all (fun (k, b) => lessonCode (settleControl rig 0 (asLesson k b 0)) 0 0 (asLesson k b 0) [] [] != .ok)) =
      true := by decide +kernel

/-! ## Streams -/

/-- Stream 0 of core 0 stands at an instruction. -/
def atIns (i : Nat) (t : Stream) (s : State) : State :=
  s.updCore 0 (fun k => { k with streams := [(0, { t with bound := true, prog := [BitVec.ofNat 128 i] })] })

/-- The rig with an open slot in the Timetable of core 0. -/
def slotted0 : State := rig.setEnt .ttSlotMap 0xFFFFFFFF 0 0

/-- Core 0 runs a Lesson as number 0. -/
def running0 (l : TestLesson) (f : LessonRun → LessonRun) : State :=
  l.rig.updCore 0 (fun k => { k with nextLesson := 1, lessons := [(0, f
    { ctx := 0, num := 0, desc := l.desc, compl := complOf l.rig 0 0 l.desc, stages := readStages l.rig 0 l.desc
      seqs := mapSeqs l.rig 0 l.desc
      bufs := (List.range 40).map (fun k => (k, List.replicate 64 (0, false))) })] })

/-- A loop level with its count, whether it is Hilbert's, and its index. -/
def level (count : Nat) (h : Bool) (idx : Nat) : Loop :=
  { body := 0, count := count, areg := 0, sx := 0, sy := 0, saved := 0, idx := idx, hilbert := h }

/-- StreamRegisterInstructions: a stream stands at each; the loop of ENDL goes on, as either kind, or has ended. -/
theorem witness_stream_registers :
    ([0, 1, 2, 3, 4, 5, 6].all (fun op => (streamAt (atIns (op * 2 ^ 123) { } rig) 0 0).at? op)) = true ∧
    (level 4 false 0).idx + 1 < 4 ∧ (level 4 true 0).hilbert = true ∧ 4 ≤ (level 4 false 3).idx + 1 := by decide +kernel

/-- StreamInstructionsFrame: each of the seven answers a next state. -/
theorem witness_stream_frame : ([Instr.endProgram 0 0, .loop 0 0, .hloop 0 0, .endl 0 0, .seta 0 0, .adda 0 0, .setd 0 0].all
    (fun c => match exec c rig with
      | .next _ => true
      | _ => false)) = true := by decide +kernel

/-- A stream that walks sequence 3, with its arm record and extent. -/
def walker (extent : Nat) : Stream := { arm := BitVec.ofNat 512 (3 * 2 ^ 96), extent := extent, loops := [level 4 false 0], epoch := 1 }

/-- An instruction: its fields (low bit, value) over its opcode. -/
def ins (op : Nat) (fs : List (Nat × Nat)) : Nat := op * 2 ^ 123 + fields fs

/-- The copy Lesson with a word at offset 1536 of the scratchpad. -/
def listLesson (w : Nat) : TestLesson := { copyLesson with data := copyLesson.data ++ [(1536, w, 4)] }

/-- What the word of a page list at an offset reads as, and whether the stream stands at WALK of level 7. -/
def listed (s : State) : Option (Bool × List Nat × Bool) :=
  let t := streamAt s 0 0
  (lessonAt s 0 t.lesson).bind (fun l => (rdSp s 0 l (t.areg 3 % 2 ^ 24) 4).2.map (fun b =>
    (t.at? 7 && insF t.ins 118 3 = 7, b.map (fun x => x.1.toNat), b.any Prod.snd)))

/-- A walker of sequence 3 at a WALK by its page list, at an offset. -/
def lister (a3 : Nat) (s : State) : State :=
  atIns (ins 7 [(118, 7)]) { walker 512 with a := [0, 0, 0, a3] } s

/-- How the walk of a walker's page 0 ends: with an entry, a fault or a wait. -/
def walked (s : State) : Option Nat :=
  let t := streamAt s 0 0
  (seqLayout s 3).map (fun lay => match (translate s 0 t.lesson 3 t.epoch (chartPage lay 0 0)).2 with
    | .entry _ => 0
    | .fault _ => 1
    | .wait => 2)

/-- WalkAndEmit: WALK inside and beyond the extent, of a page that the chart maps, that it does not, that is assisted, and
of a sequence without a layout. -/
theorem witness_walk :
    (let s := atIns (ins 7 []) (walker 512) (running0 copyLesson id)
     let t := streamAt s 0 0
     t.at? 7 = true ∧ insF t.ins 118 3 = 0 ∧ (lessonAt s 0 t.lesson).isSome = true ∧ 256 * 0 < t.extent ∧ walkSeq t = 3 ∧
     walked s = some 0 ∧ walked (s.updDesc 3 (fun d => { d with chartDepth := 0 })) = some 1 ∧
     walked (s.setEnt .fnModeChartWalk 1 0 0) = some 2 ∧
     seqLayout (s.updDesc 3 (fun d => { d with repertoire := 9 })) 3 = none) ∧
    ((streamAt (atIns (ins 7 []) (walker 0) (running0 copyLesson id)) 0 0).extent ≤ 256 * 0) := by decide +kernel

/-- WalkAndEmit: the word of a page list, its last word, a poisoned one, and one out of the read ranges. -/
theorem witness_list :
    listed (lister 1540 (running0 (listLesson 0) id)) = some (true, [0, 0, 0, 0], false) ∧
    listed (lister 1536 (running0 (listLesson 0xFFFFFFFF) id)) = some (true, [255, 255, 255, 255], false) ∧
    (listed (let s := lister 1536 (running0 (listLesson 0) id)
             { s with syn := Map.put s.syn (scratchAddr 0 1536 / 16) 0x1FF })).map (fun p => (p.1, p.2.2)) = some (true, true) ∧
    listed (lister 4096 (running0 (listLesson 0) id)) = none := by decide +kernel

/-- The copy Lesson runs, and stream 0 stands at an EMIT of 16 bytes. -/
def emitter (fs : List (Nat × Nat)) (t : Stream) : State := atIns (ins 8 fs) t (running0 copyLesson id)

/-- An arm word 0 with fields. -/
def armed (fs : List (Nat × Nat)) : BitVec 512 := BitVec.ofNat 512 (fields fs)

/-- WalkAndEmit: EMIT under a switched context, of a superseded walk, to a mask of an absent core, of local bytes that are
there and that are not, and of bytes of another node. -/
theorem witness_emit_load :
    ((streamAt (emitter [] { }) 0 0).at? 8 = true ∧ bit (streamAt (emitter [] { }) 0 0).arm.toNat 37 = false ∧
      ((emitter [] { }).ctx 0 0).state ≠ .switched) ∧
    (((emitter [] { }).updCtx 0 0 (fun q => { q with state := .switched })).ctx 0 0).state = .switched ∧
    (let s := emitter [] { walker 512 with epoch := 9, arm := armed [(14, 1), (96, 3)] }
     streamStale s (streamAt s 0 0) = true) ∧
    (let s : State := { emitter [(116, 7)] { arm := armed [(16, 2)] } with fuses := { fuses with coreMask := 1 } }
     mcastCode s 0 (bits (streamAt s 0 0).arm.toNat 16 8) ≠ .ok ∧ insF (streamAt s 0 0).ins 116 4 = 7) ∧
    ([(0xFF0000000000, true), (0xFE0000000000, false)].all (fun p =>
      let s := emitter [] { a := [p.1, 0, 0, 0] }
      let t := streamAt s 0 0
      isLocal s (t.areg 0 / 2 ^ 48) && whenSome (lessonAt s 0 t.lesson) (fun l =>
        (readLocal s 0 0 l (t.areg 0) 16).2.1 == .ok) == p.2)) = true ∧
    (let s := emitter [] { a := [5 * 2 ^ 48, 0, 0, 0] }
     isLocal s ((streamAt s 0 0).areg 0 / 2 ^ 48) = false) := by decide +kernel

/-- WalkAndEmit: EMIT of a store with its data not there, unreadable, and there; and of a page that is remote. -/
theorem witness_emit_store :
    ([(1, 0, 0), (0, 0xFF0000, 1), (0, 512, 2)].all (fun p =>
      let s := emitter [(116, p.1)] { arm := armed [(37, 1)], d := p.2.1 }
      let t := streamAt s 0 0
      t.at? 8 && bit t.arm.toNat 37 && whenSome (lessonAt s 0 t.lesson) (fun l =>
        match storeData s 0 0 l 16 with
        | (_, .ok, none) => p.2.2 = 0
        | (_, .ok, some data) => p.2.2 = 2 && !(streamTraps t l && data.any Prod.snd)
        | _ => p.2.2 = 1))) = true ∧
    ([(false, 1), (true, 0)].all (fun p =>
      let e := fields [(1, if p.1 then 1 else 0), (10, 0x100010)]
      let s := emitter [] { walker 512 with arm := armed [(14, 1), (37, 1), (96, 3)], pages := [(e, 0)],
                                            a := [frameGlobal (running0 copyLesson id) e, 0, 0, 0] }
      let t := streamAt s 0 0
      !streamStale s t && whenSome (seqLayout s 3) (fun y => whenSome (storePage s t y (t.areg 0)) (fun q =>
        (eShared q.1 || eRemote q.1) == (p.2 == 0))))) = true := by decide +kernel

/-- MarkWaitAndStreamEnd: MARK with and without an acknowledge outstanding; WAIT with its counter there and not. -/
theorem witness_mark_wait :
    ([0, 1].all (fun n =>
      let s := atIns (ins 9 []) { acks := n } (running0 copyLesson id)
      (lessonAt s 0 (streamAt s 0 0).lesson).isSome && (streamAt s 0 0).at? 9 && (streamAt s 0 0).acks == n)) = true ∧
    ([(0, true), (1, false)].all (fun p =>
      let s := atIns (ins 10 [(83, p.1)]) { } (running0 copyLesson id)
      let i := (streamAt s 0 0).ins
      (streamAt s 0 0).at? 10 && (decide (insF i 83 32 ≤ (s.counter 0 (insF i 115 8)).toNat) == p.2))) = true := by
  decide +kernel

/-- MarkWaitAndStreamEnd: the end of a stream with and without DONE_EN, of a superseded walk, of a ring load that is whole
and one that is not, and a stream that has not ended. -/
theorem witness_stream_end :
    ([0, 1].all (fun e =>
      let s := atIns 0 { ended := true, arm := armed [(15, e)] } (running0 copyLesson id)
      let t := streamAt s 0 0
      t.bound && t.ended && t.parts == [] && t.acks == 0 && !streamStale s t && bit t.arm.toNat 15 == (e == 1) &&
        whenSome (lessonAt s 0 t.lesson) (fun l => l.ringStart == none))) = true ∧
    (let s := atIns 0 { ended := true, epoch := 9, arm := armed [(14, 1), (96, 3)] } (running0 copyLesson id)
     streamStale s (streamAt s 0 0) = true) ∧
    ([(256, true), (100, false)].all (fun p =>
      let r := (running0 ringLesson (fun l => { l with ringStart := some 0 })).setEnt .ringSliceRows 1 0 0
      let s := atIns 0 { ended := true, d := p.1 } r
      let t := streamAt s 0 0
      !streamStale s t && whenSome (lessonAt s 0 t.lesson) (fun l => l.ringStart == some 0) &&
        (decide (t.d - 0 ≠ 0 ∧ (t.d - 0) % 256 = 0 ∧ t.d - 0 ≤ ringBytes s 0) == p.2))) = true ∧
    (streamAt (atIns 0 { } (running0 copyLesson id)) 0 0).ended = false := by decide +kernel

/-- What StreamsArm says first of a Lesson's stage 0: its record waits, its stream is free. -/
def armsFirst (s : State) : Bool :=
  whenSome (lessonAt s 0 0) (fun l =>
    let g := stageAt l.stages 0
    l.arms.contains 0 && !(streamAt s 0 g.stream).bound && !armBehind s 0 0 0 g.stream)

/-- Such a Lesson: its stage 0 has an arm record with further fields; its program's first word is given. -/
def armRun (l : TestLesson) (fs : List (Nat × Nat)) (prog : Nat) : State :=
  running0 { l with data := l.data ++ [(1024, prog, 16)] } (fun q => { q with
    arms := [0, 1], stages := q.stages.zipIdx.map (fun p =>
      if p.2 = 0 then { p.1 with arm := p.1.arm ||| armed fs } else p.1) })

/-- StreamsArm with LOAD = 1: a program that is accepted, refused (an opcode above 0x0A), poisoned; a load whose engine
queue another stream feeds; a held sequence; a weight load with a place in the ring and without. -/
theorem witness_arm :
    (let s := armRun copyLesson [] 0
     armsFirst s = true ∧ whenSome (lessonAt s 0 0) (fun l => let g := stageAt l.stages 0
       bit g.arm.toNat 39 && bits (g.aw 1) 0 24 == 1024 && lkind l.desc != 2) = true ∧
     spMarked (s.settle (scratchAddr 0 1024) 512) 0 1024 512 = false ∧ progCode false false (progAt s 0 1024) = .ok ∧
     destBusy s 0 (progDests (progAt s 0 1024)) = false) ∧
    (let s := armRun copyLesson [] (ins 0xB [])
     armsFirst s = true ∧ progCode false false (progAt s 0 1024) ≠ .ok) ∧
    (let s := armRun copyLesson [] 0
     let u : State := { s with syn := Map.put s.syn (scratchAddr 0 1024 / 16) 0x1FF }
     armsFirst u = true ∧ spMarked (u.settle (scratchAddr 0 1024) 512) 0 1024 512 = true) ∧
    (let s := (armRun copyLesson [] (ins 8 [(116, 1)])).updCore 0 (fun k => { k with
       streams := [(9, { bound := true, prog := [BitVec.ofNat 128 (ins 8 [(116, 1)])] })] })
     armsFirst s = true ∧ destBusy s 0 (progDests (progAt s 0 1024)) = true ∧
       progCode false false (progAt s 0 1024) = .ok) ∧
    (let s := (armRun copyLesson [(14, 1), (96, 3)] 0).updDesc 3 (fun d => { d with held := true })
     armsFirst s = true ∧ progCode false true (progAt s 0 1024) = .ok ∧ (s.desc 3).held = true) ∧
    ([1, 0].all (fun r =>
      let s := ((armRun ringLesson [] 0).setEnt .ringLayers 1 0 0).setEnt .ringSliceRows r 0 0
      armsFirst s && whenSome (lessonAt s 0 0) (fun l => lkind l.desc == 2 &&
        ((ringPlace s 0 (lrep l.desc) (llayer l.desc)).isSome == (r == 1))))) = true := by decide +kernel

/-- StreamsArm with LOAD = 0: the parked program of the record's tag, and of another. -/
theorem witness_rearm :
    ([7, 8].all (fun tag =>
      let s := (running0 copyLesson (fun q => { q with arms := [0, 1], stages := q.stages.zipIdx.map (fun p =>
        if p.2 = 0 then { p.1 with arm := armed [(48, 7)] } else p.1) })).updCore 0 (fun k => { k with
          streams := [(0, { parked := some (BitVec.ofNat 16 tag, [0]) })] })
      armsFirst s && whenSome (lessonAt s 0 0) (fun l => !bit (stageAt l.stages 0).arm.toNat 39 &&
        (((streamAt s 0 0).parked.map (fun p => p.1.toNat) == some (bits (stageAt l.stages 0).arm.toNat 48 16)) == (tag == 7))))) =
      true ∧ progCode false false [0] = .ok := by decide +kernel

/-! ## Arrays -/

/-- TilesAndCombines: a tile whose operands have come; an Attend with a step of each kind before it, and without one on the
V-array. -/
theorem witness_tiles :
    (let s := running0 (matLesson []) id
     arrayTurn s 0 0 = some 0 ∧ whenSome (lessonAt s 0 0) (fun l => decide (heavyDone s 0 l 0 = false ∧ heavyOn l 0 = some 2 ∧ l.att = none ∧ tileReady s 0 0 l 2 = true)) = true) ∧
    ([true, false].all (fun sel =>
      let st : AttStep := { entry := 0, head := 0, pages := [], select := sel }
      let r : AttRun := { entries := [], steps := [st] }
      let s := running0 attendLesson (fun l => { l with att := some r })
      arrayTurn s 0 0 == some 0 && arrayTurn s 0 1 == some 0 && whenSome (lessonAt s 0 0) (fun l =>
        l.att == some r && !heavyDone s 0 l 0 && heavyOn l 0 == some 2 && r.steps == [st] && st.select == sel))) = true ∧
    (let r : AttRun := { entries := [], steps := [] }
     let s := running0 attendLesson (fun l => { l with att := some r })
     arrayTurn s 0 1 = some 0 ∧ whenSome (lessonAt s 0 0) (fun l => decide (l.att = some r ∧ heavyDone s 0 l 1 = false ∧ heavyOn l 1 = some 6)) = true) := by decide +kernel

/-- TilesAndCombines: a complete block of a deferred normalise; a held tile of unit 0 of two, with its counter there; a split
Attend with a drained head. -/
theorem witness_combines :
    (whenSome (lessonAt (running0 normGradLesson (fun l => { l with t0 := 1 })) 0 0) (fun l => decide ((heavies l.stages).getLast? = some 2 ∧ deferredIn l 2 = some 4 ∧ blockDone l 2 0 = true ∧
         l.swept.contains 0 = false ∧ l.tiles = [] ∧ sweepTiles l 2 0 = [0] ∧
         residualsReady l 4 l.stages.length (shapeAt l.desc l.stages 4).rows (sweepTiles l 2 0).length
           (fun j => (shapeAt l.desc l.stages j).width) = true)) = true) ∧
    (let tile : CTile := [[(0, false)]]
     let s := (running0 (matLesson [(576 + 59, 1), (576 + 27, 8), (352, 8), (352 + 16, 4)]) (fun l => { l with
       tiles := [(2, 0, tile)] })).updCore 0 (fun k => { k with counters := [(0, 1)] })
     whenSome (lessonAt s 0 0) (fun l => decide (l.tiles = [(2, 0, tile)] ∧ (hrec l.desc 0).um1 = 1 ∧ 0 + 1 ≤ (s.counter 0 0).toNat ∧
         residualsReady l 3 ((deferredIn l 2).getD (segmentEnd l.stages 3)) 1 1
           (fun j => (shapeAt l.desc l.stages j).width) = true ∧
         (unitTiles s 0 l (hrec l.desc 0) 0 1).2.isSome = true)) = true) ∧
    (let s := rig.updCore 0 (fun k => { k with counters := [(0, 1)] })
     let q : AttCfg := { grad := false, alpha := 0, pfmt := .bf16, plane := 0, head0 := 0, hcount := 1, win := 1
                         mask := maskOf { kind := 6, word := 0 }, imp := false, select := false, recent := 0, selPages := 0
                         splitMode := 1, idx := 0, um1 := 1, cctr := 0, caddr := 0, d := 32, ms := 1, mg := 1, nt := 256
                         qpk := 1 }
     attCanCombine s 0 q { entries := [], steps := [], drained := 1 } = true) := by decide +kernel

/-- LessonsEndAndContextsSwitch: a Lesson whose streams and tiles are done, with and without DONE_EN; an open tile of context 0,
with and without a context save area, and context 1 ready; a core that may enter Recess. -/
theorem witness_ends :
    ([0, 1].all (fun e =>
      let s := running0 (matLesson []) (fun l => { l with t0 := 1, desc := l.desc ||| BitVec.ofNat 1024 (fields [(23, e)]) })
      whenSome (lessonAt s 0 0) (fun l => lessonFinished s 0 0 l && !isBackward l.desc &&
        bit (cmdWord l.desc 0) 23 == (e == 1)))) = true ∧
    ([200, 0xFFFF].all (fun row =>
      let t := running0 (matLesson []) id
      let u := t.updCore 0 (fun k => { k with lessons := k.lessons ++ k.lessons.map (fun p => (1, { p.2 with ctx := 1 })) })
      let s := (u.updCtx 0 0 (fun q => { q with state := .blocked })).setEnt .ctxSaveRow row 0 0
      whenSome (openOn s 0 0 0) (fun q => let lx := q.2; decide ((s.ctx 0 0).state = .blocked ∧ lx.att = none ∧
        lresident lx.desc = false ∧ (hrec lx.desc (heavyIdx lx.stages ((heavyOn lx 0).getD 0))).tlive = 1 ∧
        s.ent .ctxSaveRow 0 0 = row ∧ (s.core 0).heldTiles = [] ∧ (readyOn s 0 0 1).isSome = true)))) = true ∧
    ((rig.core 0).recess = false ∧ rig.corePresent 0 = true ∧ (rig.core 0).inReset = false ∧
      ∀ x, x < 8 → (rig.ctx 0 x).state ≠ .running) := by
  refine ⟨by decide +kernel, by decide +kernel, by decide +kernel, by decide +kernel, by decide +kernel, fun x _ => ?_⟩
  have h : (rig.ctx 0 x).state = .idle := rfl
  rw [h]
  decide

/-! ## Rings, weights and tables -/

/-- MulticastRingsAndWeights, in the order of its clauses. -/
theorem witness_rings :
    (let r : Req := { origin := .inside (.stream 0 0 0), target := 0x40000000, len := 16 }
     isLocal rig r.node = true ∧ sizeCode .get r = .ok) ∧
    (let e : RingEnt := { rep := 0, layer := 0, buf := 0, slice := 0, len := 16, fmt := 2, side := false }
     let l : TestLesson := { stages := [fields [(0, 1), (28, 1), (4, 512)], fields [(0, 1), (28, 3)], fields [(0, 4), (4, 1), (20, 1)]]
                             data := [] }
     let s := (running0 l id).updCore 0 (fun k => { k with ring := [e] })
     let d := ringNext s 0
     let p0 : RingPass := { rep := 0, layer := 0, lesson := 0, begun := true, stage := 2 }
     let t := setPass s 0 p0
     let v := setPass (sendSlice t 0 (ringOff t 0 0) d (ringOff t d 0) 16) d { p0 with begun := false, arrived := some e }
     whenSome (lessonAt s 0 0) (fun l => (heavies l.stages).find? (fun h =>
       (operandSrc l.stages h false).isRing && !ringStageDone s 0 0 h) == some 2) = true ∧
     ringEntry s 0 0 0 = some e ∧ ringPass s 0 0 0 = none ∧ (t.core d).gated = false ∧ (t.core d).inReset = false ∧
     (t.core d).ringPasses = [] ∧ (ringPass v 0 0 0).isSome = true ∧
     (let p : RingPass := { rep := 0, layer := 0, lesson := 4, stage := 2, begun := true, sent := true, arrived := some e }
      let u := s.updCore 0 (fun k => { k with ringPasses := [p] })
      ringPass u 0 0 0 = some p ∧ p.arrived = some e ∧ p.begun = true ∧ p.sent = true ∧
        ringStageDone u 0 p.lesson p.stage = true)) ∧
    (let a := scratchAddr 0 0 / 256
     let s : State := { slotted0 with wtags := [(a, { crc := 0, home := 0 }), (a + 1, { crc := 0, home := 0 })] }
     hasOpenSlot s 0 = true ∧ (weightLines s 0).filter (fun o => (s.core 0).scrubAt ≤ o) = [0, 256]) ∧
    ([true, false].all (fun f =>
      let l : SfuLoad := { factory := f, row := 0 }
      let s := rig.updCore 0 (fun k => { k with sfuLoads := [(0, l)] })
      Map.get? (s.core 0).sfuLoads 0 == some l && shadowFree s 0 0 && !(s.core 0).inReset)) = true ∧
    tableCode 0 (zeros 8) true ≠ .ok := by decide +kernel

end Sys2Proof.Tests
end

section
/-!
The statements about synchronisation (spec/13_synchronisation.md): what a counter reads after an increment, what
RC_EXTERNAL_ARRIVE does with a pulse, and the obligation that follows.
-/

namespace Sys2Proof.Machine

open Sys2Proof

/-! ## A counter after a counter was set or incremented (R461) -/

/-- The read with a default, through the optional read. -/
theorem Map.get_eq_getD_get? {α : Type} (m : FMap α) (k : Nat) (d : α) : Map.get m k d = (Map.get? m k).getD d := by
  induction m with
  | nil => rfl
  | cons q r ih =>
    simp only [Map.get, Map.get?, ih]
    split <;> rfl

/-- A counter is the counters' map read at its key, so the laws of `Map.get` hold of it. -/
theorem State.cnt_eq_get (s : State) (n : Name) (u k : Nat) :
    s.cnt n u k = Map.get s.dict.cnt (n.key u k) (keyDefault (n.key u k)) := by
  rw [Map.get_eq_getD_get?, State.cnt]
  cases Map.get? s.dict.cnt (n.key u k) <;> rfl

@[simp] theorem State.setCnt_dict_cnt (s : State) (n : Name) (v u k : Nat) :
    (s.setCnt n v u k).dict.cnt = Map.put s.dict.cnt (n.key u k) v := rfl

@[simp] theorem State.cnt_setCnt_same (s : State) (n : Name) (v u k : Nat) : (s.setCnt n v u k).cnt n u k = v := by
  rw [State.cnt_eq_get, State.setCnt_dict_cnt, Map.get_put_same]

theorem State.cnt_setCnt_other (s : State) {n m : Name} (w : Nat) {u k v j : Nat} (h : m.key v j ≠ n.key u k) :
    (s.setCnt n w u k).cnt m v j = s.cnt m v j := by
  rw [State.cnt_eq_get, State.setCnt_dict_cnt, Map.get_put_other _ _ _ h, ← State.cnt_eq_get]

@[simp] theorem State.cnt_bump_same (s : State) (n : Name) (u k b : Nat) :
    (s.bump n u k b).cnt n u k = min (s.cnt n u k + b) (keyOnes (n.key u k)) :=
  State.cnt_setCnt_same ..

theorem State.cnt_bump_other (s : State) {n m : Name} {u k v j : Nat} (b : Nat) (h : m.key v j ≠ n.key u k) :
    (s.bump n u k b).cnt m v j = s.cnt m v j :=
  State.cnt_setCnt_other s _ h

theorem State.bump_changes_only_cnt (s : State) (n : Name) (u k b : Nat) :
    s.bump n u k b = { s with dict := { s.dict with cnt := (s.bump n u k b).dict.cnt } } := rfl

/-! ## RC_EXTERNAL_ARRIVE (R338, R341, R398) -/

theorem exec_rcExternalArrive (w : Fin 16) (cycles : Nat) (s : State) :
    exec (.rcExternalArrive w cycles) s = execRcExternalArrive w cycles s := rfl

variable {w : Fin 16} {cycles : Nat} {s : State}

theorem execRcExternalArrive_of_short (h : cycles < 16) :
    execRcExternalArrive w cycles s = .next (s.bump .rcFiltered) := by
  rw [execRcExternalArrive, if_pos (show cycles < rcArriveMin from h)]

/-- A pulse of the minimum width is served by the wire's state alone. -/
theorem execRcExternalArrive_of_long (h : 16 ≤ cycles) :
    execRcExternalArrive w cycles s = .next (if (s.wire w).armed && (rcMask s w).getLsbD 33 then rcArrive s w 33
      else s.bump .rcSpurious w) := by
  rw [execRcExternalArrive, if_neg (show ¬ cycles < rcArriveMin from Nat.not_lt.mpr h)]

theorem execRcExternalArrive_of_spurious (h : 16 ≤ cycles)
    (hs : (s.wire w).armed = false ∨ (rcMask s w).getLsbD 33 = false) :
    execRcExternalArrive w cycles s = .next (s.bump .rcSpurious w) := by
  have hunexpected : ((s.wire w).armed && (rcMask s w).getLsbD 33) = false := by
    rcases hs with hs | hs
    · rw [hs, Bool.false_and]
    · rw [hs, Bool.and_false]
  rw [execRcExternalArrive_of_long h, hunexpected, if_neg Bool.false_ne_true]

theorem execRcExternalArrive_of_expected (h : 16 ≤ cycles) (ha : (s.wire w).armed = true)
    (hm : (rcMask s w).getLsbD 33 = true) : execRcExternalArrive w cycles s = .next (rcArrive s w 33) := by
  rw [execRcExternalArrive_of_long h, ha, hm, Bool.and_self, if_pos rfl]

/-- Settles O47: the pulse's width, then the wire's armed generation and mask, select the outcome, and an increment
writes one key of the counters' map. -/
theorem spuriousArrivalsOnlyCount : Obligations.SpuriousArrivalsOnlyCount := by
  unfold Obligations.SpuriousArrivalsOnlyCount
  refine ⟨fun w cycles s => ?_, fun n u k s => ⟨?_, ?_, ?_⟩⟩
  · rw [exec_rcExternalArrive]
    exact ⟨execRcExternalArrive_of_spurious, execRcExternalArrive_of_short, execRcExternalArrive_of_expected⟩
  · exact State.cnt_bump_same s n u k 1
  · exact fun _ _ _ h => State.cnt_bump_other s 1 h
  · exact State.bump_changes_only_cnt s n u k 1

end Sys2Proof.Machine
end

section
/-!
The statements about the object dictionary's key slots (spec/15_object_dictionary.md): what the commands of a key slot answer
when the selected slot itself authenticated the write, and the obligation that follows.
-/

namespace Sys2Proof.Machine

open Sys2Proof

/-! ## A command of the selected key slot under that slot's own authentication (R383) -/

theorem writeWrapped_own (t : State) (next : Bool) (payload : List Byte) :
    writeWrapped t (some (keySel t)) next payload = (.authKey, t) := if_pos rfl

theorem writeKeyPerm_own (t : State) (v : Nat) : writeKeyPerm t (some (keySel t)) v = (.authKey, t) := if_pos rfl

theorem zeroiseKey_own (t : State) : zeroiseKey t (some (keySel t)) = (.authKey, t) := if_pos rfl

/-- The entries whose writes R383 names. -/
def guardedByOtherSlot (n : Name) : Prop := n = .keyWrapped ∨ n = .keyPerm ∨ n = .keyNextWrapped ∨ n = .keyZeroise

theorem writeCommand_own {n : Name} (hn : guardedByOtherSlot n) (t : State) (h : Hdr) (u k v : Nat) (payload : List Byte) :
    writeCommand t h (some (keySel t)) n u k v payload = some (.authKey, t) := by
  rcases hn with rfl | rfl | rfl | rfl
  · exact congrArg some (writeWrapped_own t false payload)
  · exact congrArg some (writeKeyPerm_own t v)
  · exact congrArg some (writeWrapped_own t true payload)
  · exact congrArg some (zeroiseKey_own t)

/-- A frame that reaches such an entry under the selected slot is answered with FC_AUTH_KEY. -/
theorem takeFrame_own {s t : State} {f : Frame} {n : Name} {u k v : Nat} (hn : guardedByOtherSlot n)
    (h : CommandReaches s f n u k v (some (keySel t)) t) : takeFrame s f = answeredWith t f .authKey :=
  takeFrame_answered h (writeCommand_own hn t f.hdr u k v f.payload) (by decide)

/-! ## The rows that carry such a write -/

theorem exec_keyWrapped (h : Hdr) (payload : List Byte) (s : State) :
    exec (.keyWrapped h payload) s = .next (takeFrame s (writeFrame h 0x9000 2 payload)) := rfl

theorem exec_keyNextWrapped (h : Hdr) (payload : List Byte) (s : State) :
    exec (.keyNextWrapped h payload) s = .next (takeFrame s (writeFrame h 0x9000 5 payload)) := rfl

theorem exec_keyZeroise (h : Hdr) (s : State) :
    exec (.keyZeroise h) s = .next (takeFrame s (writeNum h .keyZeroise 1)) := rfl

theorem exec_dictWrite (h : Hdr) (index : U16) (sub : BitVec 8) (payload : List Byte) (s : State) :
    exec (.dictWrite h index sub payload) s = .next (takeFrame s (writeFrame h index.toNat sub.toNat payload)) := rfl

/-- DICT_WRITE of an INDEX and a SUB given as numbers. -/
theorem exec_dictWrite_ofNat (h : Hdr) {index sub : Nat} (hindex : index < 2 ^ 16) (hsub : sub < 2 ^ 8)
    (payload : List Byte) (s : State) : exec (.dictWrite h (BitVec.ofNat 16 index) (BitVec.ofNat 8 sub) payload) s =
      .next (takeFrame s (writeFrame h index sub payload)) := by
  rw [exec_dictWrite, BitVec.toNat_ofNat, BitVec.toNat_ofNat, Nat.mod_eq_of_lt hindex, Nat.mod_eq_of_lt hsub]

/-! ## A response leaves the key slots as they are -/

@[simp] theorem State.irq_mgmt (s : State) (vec : Nat) : (s.irq vec).mgmt = s.mgmt := by
  unfold State.irq
  split <;> rfl

/-- Only the Management Port's record can change in the management state, as it takes its response. -/
theorem deliverFrame_keys (s : State) (src : DictSrc) (bs : List Byte) :
    (deliverFrame s src bs).mgmt.keys = s.mgmt.keys := by
  unfold deliverFrame
  cases src with
  | mgmt => dsimp only; split <;> rfl
  | host => dsimp only; split <;> simp only [State.irq_mgmt, State.emit_mgmt]
  | link p => rfl
  | cc => rfl

theorem answeredWith_keys (t : State) (f : Frame) (c : FC) : (answeredWith t f c).mgmt.keys = t.mgmt.keys :=
  deliverFrame_keys ..

/-! ## An accepted command was not authenticated under the selected slot (R382, R383) -/

/-- A wrapped key needs a slot that authenticates the write: its key is the wrapping key. -/
theorem exists_other_slot_of_writeWrapped_ok {t t' : State} {by_ : Option Nat} {next : Bool} {payload : List Byte}
    (h : writeWrapped t by_ next payload = (.ok, t')) : ∃ a, by_ = some a ∧ a ≠ keySel t := by
  cases by_ with
  | none => cases h
  | some a =>
    refine ⟨a, rfl, ?_⟩
    rintro rfl
    rw [writeWrapped_own] at h
    cases h

theorem slot_ne_of_writeKeyPerm_ok {t t' : State} {by_ : Option Nat} {v : Nat}
    (h : writeKeyPerm t by_ v = (.ok, t')) : by_ ≠ some (keySel t) := by
  rintro rfl
  rw [writeKeyPerm_own] at h
  cases h

theorem slot_ne_of_zeroiseKey_ok {t t' : State} {by_ : Option Nat} (h : zeroiseKey t by_ = (.ok, t')) :
    by_ ≠ some (keySel t) := by
  rintro rfl
  rw [zeroiseKey_own] at h
  cases h

/-- Settles O42: under the selected slot's own authentication each of the four commands answers FC_AUTH_KEY and leaves the
state as it is, so an accepted one had another authentication. -/
theorem keySlotsNeverWidenThemselves : Obligations.KeySlotsNeverWidenThemselves := by
  unfold Obligations.KeySlotsNeverWidenThemselves
  refine ⟨fun h payload s t u k v => ⟨?wrapped, ?nextWrapped, ?perm, ?zeroise⟩, answeredWith_keys,
    fun t t' by_ next payload v =>
      ⟨exists_other_slot_of_writeWrapped_ok, slot_ne_of_writeKeyPerm_ok, slot_ne_of_zeroiseKey_ok⟩⟩
  case wrapped =>
    intro f hreach
    rw [exec_keyWrapped, takeFrame_own (.inl rfl) hreach]
  case nextWrapped =>
    intro f hreach
    rw [exec_keyNextWrapped, takeFrame_own (.inr (.inr (.inl rfl))) hreach]
  case perm =>
    intro index sub hindex hsub f hreach
    rw [exec_dictWrite_ofNat h hindex hsub, takeFrame_own (.inr (.inl rfl)) hreach]
  case zeroise =>
    intro f hreach
    rw [exec_keyZeroise, takeFrame_own (.inr (.inr (.inr rfl))) hreach]

end Sys2Proof.Machine
end

section
/-!
The statement about the calibration of a rail (spec/17_power.md, R418 to R422): what the end of a period makes of a rail's κ
and of the measurement it shows, that nothing later in PERIOD_BOUNDARY changes either, and the obligation that follows.
-/

namespace Sys2Proof.Machine

open Sys2Proof

/-! ## A write that takes effect leaves the Power Governor as it is (R385) -/

theorem foldl_sys {α : Type} {f : State → α → State} (hf : ∀ s a, (f s a).sys = s.sys) (l : List α) (s : State) :
    (l.foldl f s).sys = s.sys := by
  induction l generalizing s with
  | nil => rfl
  | cons a l ih => exact (ih _).trans (hf s a)

@[simp] theorem clampChunk_sys (s : State) : (clampChunk s).sys = s.sys := by
  unfold clampChunk
  split <;> rfl

@[simp] theorem applyPinWays_sys (s : State) (k p : Nat) : (applyPinWays s k p).sys = s.sys := rfl

@[simp] theorem ringEmpty_sys (s : State) (k : Nat) : (ringEmpty s k false).sys = s.sys := by
  unfold ringEmpty
  exact foldl_sys (f := fun s i => s.updCore (8 * k + i) fun q => { q with ring := [], ringPasses := [], ringSpare := 0 })
    (fun _ _ => rfl) _ s

@[simp] theorem applySets_sys (s : State) : (applySets s).sys = s.sys := by
  unfold applySets
  dsimp only
  split <;> rfl

@[simp] theorem rcPropagate_sys (s : State) (w : Nat) : (rcPropagate s w).sys = s.sys := by
  unfold rcPropagate
  dsimp only
  split <;> rfl

@[simp] theorem takeEff_sys (s : State) (key v : Nat) : (takeEff s key v).sys = s.sys := by
  unfold takeEff
  cases findEntry (key / 256) (key % 256) with
  | none => rfl
  | some e =>
    dsimp only
    split
    · exact clampChunk_sys _
    · split
      · rfl
      · split
        · exact applyPinWays_sys ..
        · split
          · exact ringEmpty_sys ..
          · split
            · exact applySets_sys _
            · split
              · exact rcPropagate_sys ..
              · rfl

@[simp] theorem takeWrite_sys (s : State) (key v : Nat) : (takeWrite s key v).sys = s.sys := by
  unfold takeWrite
  rw [takeEff_sys]
  split <;> rfl

theorem takePend_sys {f : State → DictPend → State} (hf : ∀ s p, (f s p).sys = s.sys) (s : State)
    (now : DictPend → Bool) : (takePend s now f).sys = s.sys := by
  unfold takePend
  exact foldl_sys hf _ _

/-! ## The end of a period for one rail (R418 to R422) -/

theorem State.ent_congr {s t : State} (h : t.dict.eff = s.dict.eff) (n : Name) (u k : Nat) : t.ent n u k = s.ent n u k := by
  rw [State.ent, State.ent, h]

theorem State.entRat_congr {s t : State} (h : t.dict.eff = s.dict.eff) (n : Name) (k : Nat) :
    t.entRat n k = s.entRat n k := by
  rw [State.entRat, State.entRat, State.ent_congr h]

theorem dynamicOf_congr {s t : State} (h : t.dict.eff = s.dict.eff) (events : List Nat) (k : Nat) :
    dynamicOf t events k = dynamicOf s events k := by
  simp only [dynamicOf, State.entRat_congr h]

/-- A verdict changes nothing, or the rail's state and counts and what an event stores. -/
theorem judge_cases (s : State) (k : Nat) (v : Option Bool) : judge s k v = s ∨
    ∃ q : Rail → Rail, QuietKept (s.updRail k q) (judge s k v) ∧ ∀ r, (q r).kappa = r.kappa ∧ (q r).iMeas = r.iMeas := by
  unfold judge
  dsimp only
  split
  · split
    · exact .inr ⟨_, .refl _, fun _ => ⟨rfl, rfl⟩⟩
    · exact .inr ⟨_, ((QuietKept.refl _).bump ..).raise .., fun _ => ⟨rfl, rfl⟩⟩
  · exact .inr ⟨_, .refl _, fun _ => ⟨rfl, rfl⟩⟩
  · exact .inr ⟨_, .refl _, fun _ => ⟨rfl, rfl⟩⟩
  · split
    · exact .inr ⟨_, .refl _, fun _ => ⟨rfl, rfl⟩⟩
    · exact .inr ⟨_, (QuietKept.refl _).bump .., fun _ => ⟨rfl, rfl⟩⟩
  · exact .inl rfl

theorem QuietKept.rail {s t : State} (h : QuietKept s t) (k : Nat) : t.rail k = s.rail k := by
  rw [State.rail, State.rail, h.gov]

/-- The entries in force and rail k are as before: all that the end of a period for rail k reads. -/
structure SameRail (k : Nat) (s t : State) : Prop where
  eff : t.dict.eff = s.dict.eff
  rail : t.rail k = s.rail k

theorem SameRail.refl (k : Nat) (s : State) : SameRail k s s := ⟨rfl, rfl⟩

theorem SameRail.trans {k : Nat} {s t u : State} (a : SameRail k s t) (b : SameRail k t u) : SameRail k s u :=
  ⟨b.eff.trans a.eff, b.rail.trans a.rail⟩

theorem SameRail.updRail_other {j k : Nat} (h : j ≠ k) (s : State) (f : Rail → Rail) : SameRail j s (s.updRail k f) :=
  ⟨rfl, by rw [State.rail_updRail, if_neg h]⟩

theorem SameRail.judge_other {j k : Nat} (h : j ≠ k) (s : State) (v : Option Bool) : SameRail j s (judge s k v) := by
  rcases judge_cases s k v with e | ⟨q, g, -⟩
  · rw [e]
    exact .refl j s
  · exact (SameRail.updRail_other h s q).trans ⟨g.eff, g.rail j⟩

theorem SameRail.endRail_other {j k : Nat} (h : j ≠ k) (s : State) (events : List Nat) :
    SameRail j s (endRail s events k) := by
  unfold endRail
  dsimp only
  split
  · exact .updRail_other h s _
  · exact (SameRail.updRail_other h s _).trans (.judge_other h _ _)

/-- Each rail keeps its κ and the measurement it shows. -/
structure CalibrationKept (s t : State) : Prop where
  kappa : ∀ k, (t.rail k).kappa = (s.rail k).kappa
  iMeas : ∀ k, (t.rail k).iMeas = (s.rail k).iMeas

namespace CalibrationKept

variable {s t u : State}

theorem refl (s : State) : CalibrationKept s s := ⟨fun _ => rfl, fun _ => rfl⟩

theorem trans (a : CalibrationKept s t) (b : CalibrationKept t u) : CalibrationKept s u :=
  ⟨fun k => (b.kappa k).trans (a.kappa k), fun k => (b.iMeas k).trans (a.iMeas k)⟩

theorem of_rail (h : ∀ k, t.rail k = s.rail k) : CalibrationKept s t :=
  ⟨fun k => congrArg Rail.kappa (h k), fun k => congrArg Rail.iMeas (h k)⟩

theorem of_sys (h : t.sys = s.sys) : CalibrationKept s t := .of_rail fun k => by rw [State.rail, State.rail, h]

theorem bump (s : State) (n : Name) (u k b : Nat) : CalibrationKept s (s.bump n u k b) := .of_sys rfl

/-- A change of a rail beside its κ and the measurement it shows. -/
theorem updRail (s : State) (k : Nat) {q : Rail → Rail}
    (hq : ∀ r, (q r).kappa = r.kappa ∧ (q r).iMeas = r.iMeas := by exact fun _ => ⟨rfl, rfl⟩) :
    CalibrationKept s (s.updRail k q) := by
  have same : ∀ j, ((s.updRail k q).rail j).kappa = (s.rail j).kappa ∧
      ((s.updRail k q).rail j).iMeas = (s.rail j).iMeas := by
    intro j
    rw [State.rail_updRail]
    split
    · subst j
      exact hq _
    · exact ⟨rfl, rfl⟩
  exact ⟨fun j => (same j).1, fun j => (same j).2⟩

theorem judge (s : State) (k : Nat) (v : Option Bool) : CalibrationKept s (judge s k v) := by
  rcases judge_cases s k v with e | ⟨q, g, hq⟩
  · rw [e]
    exact .refl s
  · exact (CalibrationKept.updRail s k hq).trans (.of_rail g.rail)

theorem cond {c : Prop} [Decidable c] {x y : State} (hx : CalibrationKept s x) (hy : CalibrationKept s y) :
    CalibrationKept s (if c then x else y) := by
  split
  · exact hx
  · exact hy

theorem foldl {α : Type} {f : State → α → State} (hf : ∀ s a, CalibrationKept s (f s a)) (l : List α) (s : State) :
    CalibrationKept s (l.foldl f s) := by
  induction l generalizing s with
  | nil => exact .refl s
  | cons a l ih => exact (hf s a).trans (ih _)

end CalibrationKept

/-- κ of rail k after a period with the measurement M: moved where D is at least 5 % of the limit (R420). -/
def kappaAfter (s : State) (events : List Nat) (k : Nat) (m : Rat) : Rat :=
  let r := s.rail k
  let d := dynamicOf s events k
  let e := s.entRat .pgStatic k + r.kappa * d
  if mkRat (5 * s.ent .pgIlim 0 k) 100 ≤ d && 0 < d then clampRat (1 / 2) 2 (r.kappa + (m - e) / (16 * d)) else r.kappa

theorem SameRail.kappaAfter {k : Nat} {s t : State} (h : SameRail k s t) (events : List Nat) (m : Rat) :
    kappaAfter t events k m = kappaAfter s events k m := by
  simp only [Machine.kappaAfter, h.rail, dynamicOf_congr h.eff, State.entRat_congr h.eff, State.ent_congr h.eff]

theorem rat_max_eq_ite (a b : Rat) : max a b = if a ≤ b then b else a := rfl

theorem rat_min_eq_ite (a b : Rat) : min a b = if a ≤ b then a else b := rfl

theorem clampRat_eq_max_min {lo hi : Rat} (h : lo ≤ hi) (x : Rat) : clampRat lo hi x = max lo (min hi x) := by
  rw [clampRat, rat_max_eq_ite, rat_min_eq_ite]
  by_cases hlo : x < lo
  · rw [if_pos hlo]
    grind
  · rw [if_neg hlo]
    grind

/-- 5 % of a limit above 0 is above 0. -/
theorem mkRat_five_percent_pos {limit : Nat} (h : 0 < limit) : 0 < mkRat (5 * limit) 100 := by
  have hnum : (0 : Rat) < ((5 * limit : Int) : Rat) := Rat.intCast_pos.mpr (by omega)
  have hden : (0 : Rat) < ((100 : Nat) : Rat) := Rat.natCast_pos.mpr (by decide)
  rw [Rat.mkRat_eq_div, Rat.div_def]
  exact Rat.mul_pos hnum (Rat.inv_pos.mpr hden)

theorem kappaAfter_of_active {s : State} {events : List Nat} {k : Nat} (hlimit : 0 < s.ent .pgIlim 0 k)
    (h : mkRat (5 * s.ent .pgIlim 0 k) 100 ≤ dynamicOf s events k) (m : Rat) : kappaAfter s events k m =
      max (1 / 2) (min 2 ((s.rail k).kappa + (m - (s.entRat .pgStatic k + (s.rail k).kappa * dynamicOf s events k)) /
        (16 * dynamicOf s events k))) := by
  have hpos : 0 < dynamicOf s events k := Std.lt_of_lt_of_le (mkRat_five_percent_pos hlimit) h
  rw [kappaAfter, decide_eq_true h, decide_eq_true hpos, Bool.and_self, if_pos rfl]
  exact clampRat_eq_max_min (by grind) _

theorem kappaAfter_of_inactive {s : State} {events : List Nat} {k : Nat}
    (h : dynamicOf s events k < mkRat (5 * s.ent .pgIlim 0 k) 100) (m : Rat) :
    kappaAfter s events k m = (s.rail k).kappa := by
  rw [kappaAfter, decide_eq_false (Rat.not_le.mpr h), Bool.false_and, if_neg Bool.false_ne_true]

/-- Without a measurement κ stays (R420). -/
theorem endRail_kappa_of_none {s : State} {k : Nat} (h : measuredOf (s.rail k) = none) (events : List Nat) :
    ((endRail s events k).rail k).kappa = (s.rail k).kappa := by
  simp only [endRail, h, State.rail_updRail_same]

/-- With a measurement M, the rail shows M and calibrates toward it (R420). -/
theorem endRail_of_some {s : State} {k : Nat} {m : Rat} (h : measuredOf (s.rail k) = some m) (events : List Nat) :
    ((endRail s events k).rail k).iMeas = m ∧ ((endRail s events k).rail k).kappa = kappaAfter s events k m := by
  simp only [endRail, h]
  constructor
  · rw [(CalibrationKept.judge ..).iMeas, State.rail_updRail_same]
    rfl
  · rw [(CalibrationKept.judge ..).kappa, State.rail_updRail_same]
    rfl

/-! ## The end of a period for every rail -/

/-- The ended period measured on every rail, with the entries in force during it. -/
def endRails (events : List Nat) (s : State) : State := (List.range 4).foldl (fun s k => endRail s events k) s

theorem SameRail.foldl_endRail (events : List Nat) {k : Nat} {l : List Nat} (hk : k ∉ l) (s : State) :
    SameRail k s (l.foldl (fun s k => endRail s events k) s) := by
  induction l generalizing s with
  | nil => exact .refl k s
  | cons j l ih =>
    obtain ⟨hne, hk⟩ := List.ne_and_not_mem_of_not_mem_cons hk
    exact (SameRail.endRail_other hne s events).trans (ih hk _)

/-- A rail ends its period once, as if the others did not. -/
theorem exists_foldl_endRail_rail (events : List Nat) {k : Nat} {l : List Nat} (hl : l.Nodup) (hk : k ∈ l) (s : State) :
    ∃ u, SameRail k s u ∧ (l.foldl (fun s k => endRail s events k) s).rail k = (endRail u events k).rail k := by
  induction l generalizing s with
  | nil => cases hk
  | cons j l ih =>
    obtain ⟨hj, hl⟩ := List.nodup_cons.mp hl
    by_cases e : k = j
    · subst e
      exact ⟨s, .refl k s, (SameRail.foldl_endRail events hj _).rail⟩
    · obtain ⟨u, hu, he⟩ := ih hl (List.mem_of_ne_of_mem e hk) (endRail s events j)
      exact ⟨u, (SameRail.endRail_other e s events).trans hu, he⟩

theorem exists_endRails_rail (events : List Nat) (s : State) {k : Nat} (hk : k < 4) :
    ∃ u, SameRail k s u ∧ (endRails events s).rail k = (endRail u events k).rail k :=
  exists_foldl_endRail_rail events List.nodup_range (List.mem_range.mpr hk) s

theorem endRails_kappa_of_none {s : State} {k : Nat} (hk : k < 4) (h : measuredOf (s.rail k) = none)
    (events : List Nat) : ((endRails events s).rail k).kappa = (s.rail k).kappa := by
  obtain ⟨u, hu, he⟩ := exists_endRails_rail events s hk
  rw [← hu.rail] at h ⊢
  rw [he, endRail_kappa_of_none h]

theorem endRails_of_some {s : State} {k : Nat} {m : Rat} (hk : k < 4) (h : measuredOf (s.rail k) = some m)
    (events : List Nat) :
    ((endRails events s).rail k).iMeas = m ∧ ((endRails events s).rail k).kappa = kappaAfter s events k m := by
  obtain ⟨u, hu, he⟩ := exists_endRails_rail events s hk
  rw [← hu.rail] at h
  rw [he, ← hu.kappaAfter]
  exact endRail_of_some h events

/-! ## What follows in PERIOD_BOUNDARY keeps κ and the measurements shown (R423 to R430) -/

theorem CalibrationKept.updGov (s : State) {f : Gov → Gov} (hf : ∀ g, (f g).rails = g.rails := by exact fun _ => rfl) :
    CalibrationKept s (s.updGov f) := .of_rail fun k => congrArg (Map.get · k ({ } : Rail)) (hf s.sys.gov)

theorem CalibrationKept.targetRail (s : State) (k : Nat) : CalibrationKept s (targetRail s k) := by
  unfold Machine.targetRail
  exact .updRail s k

theorem CalibrationKept.allotPeriod (s : State) (newWindow : Bool) : CalibrationKept s (allotPeriod s newWindow) := by
  unfold Machine.allotPeriod
  extract_lets n windowed
  have hwindow : CalibrationKept s windowed := .cond (.updGov s) (.refl s)
  split
  extract_lets lending shown
  have hlend : CalibrationKept windowed lending := .trans (.updGov windowed) (.bump ..)
  have hshow : CalibrationKept lending shown := .updGov lending
  exact ((hwindow.trans hlend).trans hshow).trans (.foldl (fun s k => .cond (.refl s) (.bump ..)) _ shown)

/-- PERIOD_BOUNDARY leaves each rail with the κ and the measurement of the rail's end of period. -/
theorem calibrationKept_of_execPeriodBoundary {events : List Nat} {s t : State}
    (h : execPeriodBoundary events s = .next t) : CalibrationKept (endRails events s) t := by
  unfold execPeriodBoundary at h
  extract_lets ended noted alerted written sustained last targeted budgeted holds held counted allotted at h
  cases h
  have hnoted : CalibrationKept ended noted := .updGov ended
  have halerted : CalibrationKept noted alerted := .cond (.bump ..) (.refl noted)
  have hwritten : CalibrationKept alerted written := .of_sys (takePend_sys (fun _ _ => takeWrite_sys ..) alerted _)
  have hsustained : CalibrationKept written sustained := .updGov written
  have htargeted : CalibrationKept sustained targeted := .foldl CalibrationKept.targetRail _ sustained
  have hbudgeted : CalibrationKept targeted budgeted := .updGov targeted
  have hheld : CalibrationKept budgeted held := .updGov budgeted
  have hcounted : CalibrationKept held counted := .cond (.bump ..) (.refl held)
  have hallotted : CalibrationKept counted allotted := .allotPeriod counted last
  exact hnoted.trans <| halerted.trans <| hwritten.trans <| hsustained.trans <| htargeted.trans <| hbudgeted.trans <|
    hheld.trans <| hcounted.trans <| hallotted.trans <| .foldl (fun s k => .updRail s k) _ allotted

/-! ## The obligation -/

theorem measuredOf_of_invalid {r : Rail} (h : r.tlmValid = false) : measuredOf r = none := by
  rw [measuredOf, h]
  rfl

theorem exec_periodBoundary (events : List Nat) (s : State) :
    exec (.periodBoundary events) s = execPeriodBoundary events s := rfl

theorem exec_blockReset_of_long {cycles : Nat} (h : 100 ≤ cycles) (s : State) :
    exec (.blockReset cycles) s = .next (blockReset s) :=
  congrArg Host.Outcome.next (if_neg (Nat.not_lt.mpr h))

/-- Settles O56: the rail's own end of period sets κ and shows the measurement, each rail's end reads what the others
leave alone, and the rest of PERIOD_BOUNDARY keeps both. -/
theorem calibrationFollowsMeasurement : Obligations.CalibrationFollowsMeasurement := by
  unfold Obligations.CalibrationFollowsMeasurement
  refine ⟨fun events s t k hk hlimit hexec => ?boundary, fun _ _ => rfl, fun cycles s t k hlong hexec => ?reset⟩
  case boundary =>
    rw [exec_periodBoundary] at hexec
    have hkept := calibrationKept_of_execPeriodBoundary hexec
    have hstays : measuredOf (s.rail k) = none → (t.rail k).kappa = (s.rail k).kappa := fun hnone => by
      rw [hkept.kappa, endRails_kappa_of_none hk hnone]
    refine ⟨fun m hm => ?_, hstays, fun hinvalid => hstays (measuredOf_of_invalid hinvalid)⟩
    obtain ⟨hmeas, hkappa⟩ := endRails_of_some hk hm events
    rw [hkept.iMeas, hkept.kappa, hkappa]
    exact ⟨hmeas, fun hactive => kappaAfter_of_active hlimit hactive m,
      fun hinactive => kappaAfter_of_inactive hinactive m⟩
  case reset =>
    rw [exec_blockReset_of_long hlong] at hexec
    cases hexec
    rfl

end Sys2Proof.Machine
end

section
/-!
The statement about the watchdog of the Control Complex (spec/18_reset_and_reliability.md, R454, R455): what a raised event
leaves of the management state, what a reset of the Control Complex changes and leaves alone, what an expiry comes to, and
the obligation that follows.
-/

namespace Sys2Proof.Machine

open Sys2Proof

/-! ## An event takes one sequence number (R378) -/

@[simp] theorem State.storeByte_mgmt (s : State) (a : Nat) (b : Byte) : (s.storeByte a b).mgmt = s.mgmt := by
  unfold State.storeByte
  split <;> rfl

@[simp] theorem State.store_mgmt (s : State) (a : Nat) (bs : List Byte) : (s.store a bs).mgmt = s.mgmt := by
  unfold State.store
  split
  · exact List.foldlRecOn (motive := fun t : State => t.mgmt = s.mgmt) _ _ rfl fun _ h _ _ => h
  · split
    · exact List.foldlRecOn (motive := fun t : State => t.mgmt = s.mgmt) _ _ rfl
        fun t h _ _ => (t.storeByte_mgmt ..).trans h
    · rfl

@[simp] theorem State.trace_mgmt (s : State) (type : Nat) (a : TraceArgs) : (s.trace type a).mgmt = s.mgmt := by
  unfold State.trace
  split
  · rfl
  · extract_lets
    split
    · rfl
    · rw [State.bump_mgmt, State.store_mgmt]

@[simp] theorem State.eventIbi_nextEvent (s : State) : s.eventIbi.mgmt.nextEvent = s.mgmt.nextEvent := by
  unfold State.eventIbi
  dsimp only
  split
  · rfl
  · split <;> rfl

@[simp] theorem State.raise_nextEvent (s : State) (code : FC) (kind index arg : Nat) :
    (s.raise code kind index arg).mgmt.nextEvent = s.mgmt.nextEvent + 1 := by
  unfold State.raise
  extract_lets n e lost mgmt recorded counted signalled unit traced
  have hcounted : counted.mgmt = recorded.mgmt := by
    unfold counted
    split <;> rfl
  have htraced : traced.mgmt.nextEvent = n + 1 := by
    rw [State.trace_mgmt, State.eventIbi_nextEvent, State.irq_mgmt, hcounted]
  split <;> exact htraced

/-! ## What a reset of the Control Complex changes and leaves alone (R454) -/

@[simp] theorem resetCc_phase (s : State) : (resetCc s).sys.phase = 5 := rfl
@[simp] theorem resetCc_restarting (s : State) : (resetCc s).sys.cc.restarting = true := rfl
@[simp] theorem resetCc_epoch (s : State) : (resetCc s).sys.cc.epoch = s.sys.cc.epoch + 1 := rfl
@[simp] theorem resetCc_rstReqN (s : State) : (resetCc s).sys.rstReqN = s.sys.rstReqN := rfl
@[simp] theorem resetCc_rstCause (s : State) : (resetCc s).sys.rstCause = s.sys.rstCause := rfl
@[simp] theorem resetCc_dict (s : State) : (resetCc s).dict = s.dict := rfl
@[simp] theorem resetCc_events (s : State) : (resetCc s).mgmt.events = s.mgmt.events := rfl
@[simp] theorem resetCc_nextEvent (s : State) : (resetCc s).mgmt.nextEvent = s.mgmt.nextEvent := rfl
@[simp] theorem resetCc_mem (s : State) : (resetCc s).mem = s.mem := rfl
@[simp] theorem resetCc_cores (s : State) : (resetCc s).cores = s.cores := rfl
@[simp] theorem resetCc_charts (s : State) : (resetCc s).charts = s.charts := rfl

/-- No request stays forwarded: each is back in its queue. -/
theorem resetCc_place {s : State} {a : Assist} (h : a ∈ (resetCc s).mgmt.assists) : a.place = none := by
  obtain ⟨_, _, rfl⟩ := List.mem_map.mp h
  rfl

/-! ## CC_WATCHDOG (R447, R455) -/

/-- An expiry while firmware runs, within the second that begins with the end of the restart that an earlier one caused. -/
def isSecondExpiry (s : State) : Bool :=
  s.sys.cc.wdtWindow && s.sys.phase == 4 && s.sys.uptime ≤ s.sys.cc.restartEnd + 1000000

theorem isSecondExpiry_iff (s : State) : isSecondExpiry s = true ↔
    s.sys.phase = 4 ∧ s.sys.cc.wdtWindow = true ∧ s.sys.uptime ≤ s.sys.cc.restartEnd + 1000000 := by
  rw [isSecondExpiry, Bool.and_eq_true, Bool.and_eq_true, beq_iff_eq, decide_eq_true_eq]
  exact and_assoc.trans and_left_comm

/-- The state with an expiry reported and counted. -/
def expiryCounted (s : State) : State := (s.raise .ccWatchdog).bump .ccWdtExpiries

theorem quietKept_expiryCounted (s : State) : QuietKept s (expiryCounted s) :=
  ((QuietKept.refl s).raise ..).bump ..

@[simp] theorem expiryCounted_nextEvent (s : State) : (expiryCounted s).mgmt.nextEvent = s.mgmt.nextEvent + 1 := by
  rw [expiryCounted, State.bump_mgmt, State.raise_nextEvent]

/-- The state that the Control Complex reset of an expiry starts from: beside the report and the count, a fatal expiry
changes the reset request, and the restart is marked as a watchdog's. -/
def expiryJudged (s : State) : State :=
  let t := expiryCounted s
  { t with sys := { t.sys with
      rstReqN := if isSecondExpiry s then false else t.sys.rstReqN
      rstCause := if isSecondExpiry s then .ccWatchdog else t.sys.rstCause
      cc := { t.sys.cc with wdtRestart := true, wdtWindow := false } } }

theorem exec_ccWatchdog_of_running {s : State} (hphase : 4 ≤ s.sys.phase)
    (hruns : s.sys.cc.harts.any (fun h => h == .starting || h == .firmware) = true) :
    exec .ccWatchdog s = .next (resetCc (expiryJudged s)) := by
  have hserved : ¬ (decide (s.sys.phase < 4) ||
      !s.sys.cc.harts.any (fun h => h == .starting || h == .firmware)) = true := by
    rw [hruns, Bool.not_true, Bool.or_false, decide_eq_true_eq]
    exact Nat.not_lt.mpr hphase
  refine congrArg Host.Outcome.next ((if_neg hserved).trans (congrArg resetCc ?_))
  change State.updCc (if isSecondExpiry s then lowerReq (expiryCounted s) .ccWatchdog else expiryCounted s) _ = _
  unfold expiryJudged
  split <;> rfl

theorem expiryJudged_of_second {s : State} (h : isSecondExpiry s = true) :
    (expiryJudged s).sys.rstReqN = false ∧ (expiryJudged s).sys.rstCause = .ccWatchdog :=
  ⟨if_pos h, if_pos h⟩

/-- The reset request waits for a second expiry: the event and the count leave it as it is. -/
theorem expiryJudged_of_not_second {s : State} (h : ¬ isSecondExpiry s = true) :
    (expiryJudged s).sys.rstReqN = s.sys.rstReqN ∧ (expiryJudged s).sys.rstCause = s.sys.rstCause :=
  ⟨(if_neg h).trans (quietKept_expiryCounted s).req, (if_neg h).trans (quietKept_expiryCounted s).cause⟩

theorem expiryJudged_epoch (s : State) : (expiryJudged s).sys.cc.epoch = s.sys.cc.epoch := by
  rw [← (quietKept_expiryCounted s).cc]
  rfl

/-- Settles O59: an expiry is a reset of the Control Complex from the state that has the expiry counted and judged, and each
part of that state is the counted one's but the reset request, which only a second expiry changes. -/
theorem watchdogExpiry : Obligations.WatchdogExpiry := by
  unfold Obligations.WatchdogExpiry
  intro s hphase hruns t
  refine ⟨resetCc (expiryJudged s), exec_ccWatchdog_of_running hphase hruns, resetCc_phase _, ?epoch,
    resetCc_restarting _, resetCc_dict _, resetCc_events _, ?nextEvent, fun _ => resetCc_place, resetCc_mem _,
    resetCc_cores _, resetCc_charts _, fun hfirmware hwindow htime => ?second, fun hnot => ?notSecond⟩
  case epoch => rw [resetCc_epoch, expiryJudged_epoch]
  case nextEvent => exact (resetCc_nextEvent _).trans (expiryCounted_nextEvent s)
  case second =>
    rw [resetCc_rstReqN, resetCc_rstCause]
    exact expiryJudged_of_second ((isSecondExpiry_iff s).mpr ⟨hfirmware, hwindow, htime⟩)
  case notSecond =>
    rw [resetCc_rstReqN, resetCc_rstCause]
    refine expiryJudged_of_not_second fun hsecond => ?_
    obtain ⟨hfirmware, hwindow, htime⟩ := (isSecondExpiry_iff s).mp hsecond
    rcases hnot with h | h | h
    · exact h hfirmware
    · exact Bool.false_ne_true (h.symm.trans hwindow)
    · exact Nat.not_lt.mpr htime h

end Sys2Proof.Machine
end

section
/-!
The statements about every step: what a command and the passing of a microsecond keep, the state after power-on and the
state that BLOCK_RESET makes (spec/01_block_organisation.md, spec/18_reset_and_reliability.md), and the obligations that
follow.
-/

namespace Sys2Proof.Machine

open Sys2Proof

/-! ## A step, by what stands at the front of the queue -/

theorem step_cons (c : Instr) (rest : List Instr) (s : State) :
    step { s with pending := c :: rest } = exec c { s with pending := rest } := rfl

theorem step_of_pending_nil {s : State} (h : s.pending = []) : step s = .next (idle s) := by
  rw [step, h]

theorem step_of_pending_cons {s : State} {c : Instr} {rest : List Instr} (h : s.pending = c :: rest) :
    step s = exec c { s with pending := rest } := by
  rw [step, h]

/-- Settles O1: the definition of a step, at each form of the queue. -/
theorem stepRunsFrontCommand : Obligations.StepRunsFrontCommand :=
  ⟨step_cons, fun _ => step_of_pending_nil⟩

/-! ## No command faults or is refused -/

theorem exists_next_ite {p : Prop} [Decidable p] {x y : Host.Outcome State Fault Refusal} (hx : ∃ t, x = .next t)
    (hy : ∃ t, y = .next t) : ∃ t, (if p then x else y) = .next t := by
  split
  · exact hx
  · exact hy

theorem completes_forceReleaseFree (seq : BitVec 18) (s : State) : Completes (.forceReleaseFree seq) s := by
  unfold Completes
  dsimp only [exec, execForceReleaseFree]
  split
  · exact ⟨_, rfl⟩
  · exact exists_next_ite ⟨_, rfl⟩ ⟨_, rfl⟩

theorem completes_evictJobDone (seq : BitVec 18) (s : State) : Completes (.evictJobDone seq) s := by
  unfold Completes
  dsimp only [exec, execEvictJobDone]
  split <;> exact ⟨_, rfl⟩

theorem completes_sharedFrameInvalidated (part : Fin 16) (frame : Nat) (s : State) :
    Completes (.sharedFrameInvalidated part frame) s := by
  unfold Completes
  exact exists_next_ite ⟨_, rfl⟩ ⟨_, rfl⟩

theorem completes_suQueueApply (core : Fin 32) (cycle : Nat) (s : State) : Completes (.suQueueApply core cycle) s := by
  unfold Completes
  dsimp only [exec, execSuQueueApply]
  split
  · exact ⟨_, rfl⟩
  · exact exists_next_ite ⟨_, rfl⟩ ⟨_, rfl⟩

theorem completes_countedIncrement (n : Nat) (s : State) : Completes (.countedIncrement n) s := by
  unfold Completes
  dsimp only [exec, execCountedIncrement]
  split
  · exact ⟨_, rfl⟩
  · exact exists_next_ite ⟨_, rfl⟩ ⟨_, rfl⟩

theorem completes_seqGapTimeout (node stream : U16) (s : State) : Completes (.seqGapTimeout node stream) s := by
  unfold Completes
  dsimp only [exec, execSeqGapTimeout]
  split
  · exact ⟨_, rfl⟩
  · split <;> exact ⟨_, rfl⟩

theorem completes_commandCounted (core : Fin 32) (ctx : Fin 8) (s : State) : Completes (.commandCounted core ctx) s := by
  unfold Completes
  dsimp only [exec, execCommandCounted]
  split <;> exact ⟨_, rfl⟩

theorem completes_multicastRequest (core : Fin 32) (ctx : Fin 8) (stream : Fin 16) (mask : BitVec 8) (addr : U64)
    (len : BitVec 13) (off : BitVec 24) (ctr : BitVec 8) (weight cache : Bool) (s : State) :
    Completes (.multicastRequest core ctx stream mask addr len off ctr weight cache) s := by
  unfold Completes
  exact exists_next_ite ⟨_, rfl⟩ ⟨_, rfl⟩

theorem completes_multicastLanded (n : Nat) (s : State) : Completes (.multicastLanded n) s := by
  unfold Completes
  dsimp only [exec, execMulticastLanded]
  split <;> exact ⟨_, rfl⟩

theorem completes_scrubVisit (core : Fin 32) (s : State) : Completes (.scrubVisit core) s := by
  unfold Completes
  refine exists_next_ite ⟨_, rfl⟩ ?_
  dsimp only
  split
  · exact exists_next_ite ⟨_, rfl⟩ ⟨_, rfl⟩
  · exact ⟨_, rfl⟩

theorem completes_sfuLoadComplete (core : Fin 32) (table : Fin 2) (s : State) : Completes (.sfuLoadComplete core table) s := by
  unfold Completes
  dsimp only [exec, execSfuLoadComplete]
  split
  · exact ⟨_, rfl⟩
  · exact exists_next_ite ⟨_, rfl⟩ (exists_next_ite ⟨_, rfl⟩ ⟨_, rfl⟩)

theorem completes_msuCommandEnd (core : Fin 32) (s : State) : Completes (.msuCommandEnd core) s := by
  unfold Completes
  dsimp only [exec, execMsuCommandEnd]
  split <;> exact ⟨_, rfl⟩

/-- Settles O2: twelve commands choose between next states, and every other command's meaning is one next state. -/
theorem everyCommandGoesOn : Obligations.EveryCommandGoesOn := by
  unfold Obligations.EveryCommandGoesOn
  intro c s
  cases c with
  | forceReleaseFree => exact completes_forceReleaseFree ..
  | evictJobDone => exact completes_evictJobDone ..
  | sharedFrameInvalidated => exact completes_sharedFrameInvalidated ..
  | suQueueApply => exact completes_suQueueApply ..
  | countedIncrement => exact completes_countedIncrement ..
  | seqGapTimeout => exact completes_seqGapTimeout ..
  | commandCounted => exact completes_commandCounted ..
  | multicastRequest => exact completes_multicastRequest ..
  | multicastLanded => exact completes_multicastLanded ..
  | scrubVisit => exact completes_scrubVisit ..
  | sfuLoadComplete => exact completes_sfuLoadComplete ..
  | msuCommandEnd => exact completes_msuCommandEnd ..
  | _ => exact ⟨_, rfl⟩

/-! ## What a step keeps: BLOCK_RESET apart, everything that `Kept` names -/

/-- The state that the front command acts on, or the microsecond of an empty queue. -/
def State.taken (s : State) : State := { s with pending := s.pending.tail }

theorem exec_blockReset_of_filtered {cycles : Nat} (h : cycles < 100) (s : State) : exec (.blockReset cycles) s =
    .next { s with sys := { s.sys with rstFiltered := min (s.sys.rstFiltered + 1) 0xFFFFFFFF } } :=
  congrArg Host.Outcome.next (if_pos h)

theorem exec_blockReset_kept {b : Bool} {s0 s : State} {cycles : Nat} (h : cycles < 100) (hk : Kept b s0 s) :
    KeptN b s0 (exec (.blockReset cycles) s) := by
  rw [exec_blockReset_of_filtered h]
  exact KeptN.next (Kept.lit hk rfl rfl rfl rfl rfl)

/-- A step is a block reset, or keeps what `Kept` names of the state with the queue's rest. -/
theorem step_cases {s t : State} (h : step s = .next t) :
    (s.resetsNow ∧ t = blockReset s.taken) ∨ (¬s.resetsNow ∧ Kept false s.taken t) := by
  cases hp : s.pending with
  | nil =>
    rw [step_of_pending_nil hp] at h
    cases h
    have htaken : s.taken = s := by rw [State.taken, hp, List.tail_nil, ← hp]
    rw [htaken]
    exact .inr ⟨fun ⟨n, _, hn⟩ => by simp [hp] at hn, idle_kept (Kept.refl false s)⟩
  | cons c rest =>
    have htaken : s.taken = { s with pending := rest } := by rw [State.taken, hp, List.tail_cons]
    have hstep : exec c s.taken = .next t := by rw [htaken, ← step_of_pending_cons hp, h]
    by_cases hr : s.resetsNow
    · obtain ⟨n, hn, hfront⟩ := hr
      rw [hp, List.head?_cons, Option.some.injEq] at hfront
      subst hfront
      rw [exec_blockReset_of_long hn] at hstep
      cases hstep
      exact .inl ⟨⟨n, hn, by rw [hp, List.head?_cons]⟩, rfl⟩
    · refine .inr ⟨hr, ?_⟩
      have hkept : KeptN false s.taken (exec c s.taken) := by
        by_cases hc : ∃ n, c = .blockReset n
        · obtain ⟨n, rfl⟩ := hc
          have hshort : n < 100 := Nat.lt_of_not_le fun hn => hr ⟨n, hn, by rw [hp, List.head?_cons]⟩
          exact exec_blockReset_kept hshort (Kept.refl false _)
        · exact exec_kept c (fun n e => hc ⟨n, e⟩) (Kept.refl false _)
      rw [hstep] at hkept
      exact hkept

/-- A step that is no block reset. -/
theorem kept_of_step {s t : State} (hr : ¬s.resetsNow) (h : step s = .next t) : Kept false s.taken t := by
  rcases step_cases h with ⟨hyes, _⟩ | ⟨_, hkept⟩
  · exact absurd hyes hr
  · exact hkept

/-- Settles O4: a block reset empties memory, and every other step keeps its canonical form. -/
theorem memoryStaysCanonical : Obligations.MemoryStaysCanonical := by
  unfold Obligations.MemoryStaysCanonical
  intro s t hs h
  rcases step_cases h with ⟨-, rfl⟩ | ⟨-, hkept⟩
  · exact Memory.wf_nil
  · exact hkept.mem hs

/-- Settles O5: a block reset takes over what is fused, the outputs and the queue, and every other step keeps them and the
boot nonce. -/
theorem fusedValuesAndOutputsStay : Obligations.FusedValuesAndOutputsStay := by
  unfold Obligations.FusedValuesAndOutputsStay
  intro s t h
  rcases step_cases h with ⟨hreset, rfl⟩ | ⟨-, hkept⟩
  · exact ⟨rfl, List.prefix_rfl, rfl, fun hr => absurd hreset hr⟩
  · exact ⟨hkept.fuses, hkept.outbox, hkept.pending, fun _ => hkept.nonce⟩

/-- Settles O6: every step that is no block reset keeps `rst_req_n` low. -/
theorem resetRequestStays : Obligations.ResetRequestStays := by
  unfold Obligations.ResetRequestStays
  intro s t hlow hr h
  exact (kept_of_step hr h).req hlow

/-- Settles O7: the passing of a microsecond keeps SCHED_STEP, and so does every command that can end no step. -/
theorem stepNumberChangesAtBoundary : Obligations.StepNumberChangesAtBoundary := by
  unfold Obligations.StepNumberChangesAtBoundary
  intro s t hc h
  cases hp : s.pending with
  | nil =>
    rw [step_of_pending_nil hp] at h
    cases h
    exact (idle_kept (Kept.refl true s)).step rfl
  | cons c rest =>
    rw [step_of_pending_cons hp] at h
    have hno : mayEndStep c = false := hc c (by rw [hp]; rfl)
    have hkept := exec_kept_step c hno (Kept.refl true { s with pending := rest })
    rw [h] at hkept
    exact hkept.step rfl

/-! ## Memory channel controllers (R408, Table 18-4) -/

theorem blockReset_mcc (s : State) (n : Nat) : ((blockReset s).mcc n).state = .off := rfl

/-- Settles O8: after a block reset no MCC has begun; every other step keeps an MCC off through phase 1 and down after it. -/
theorem mccsBeginAndStayDown : Obligations.MccsBeginAndStayDown := by
  unfold Obligations.MccsBeginAndStayDown
  refine ⟨fun s t hquiet h => ?quiet, fun s t n hquiet hdown hr h => ?down⟩
  case quiet =>
    rcases step_cases h with ⟨-, rfl⟩ | ⟨-, hkept⟩
    · exact fun _ => blockReset_mcc _
    · intro ht n
      have hs : s.sys.phase = 1 := Classical.byContradiction fun hs => hkept.phase hs ht
      exact hkept.off hs ht n (hquiet hs n)
  case down =>
    have hs : s.sys.phase ≠ 1 := fun hs => by
      rw [hquiet hs n] at hdown
      cases hdown
    exact (kept_of_step hr h).mcc hs n hdown

/-! ## The state after power-on (Table 18-4) -/

theorem Map.get_map_const {α : Type} (l : List Nat) (v d : α) (k : Nat) :
    Map.get (l.map (fun i => (i, v))) k d = if k ∈ l then v else d := by
  induction l with
  | nil => rfl
  | cons i l ih =>
    simp only [List.map_cons, Map.get, ih, List.mem_cons]
    by_cases h : k = i
    · simp [h]
    · simp [h, Ne.symm h]

theorem reset_core (c : Nat) : State.reset.core c = if c < 32 then { clearing := true } else { } := by
  have h := Map.get_map_const (List.range 32) ({ clearing := true } : Core) { } c
  simp only [List.mem_range] at h
  exact h

theorem reset_core_counters (c : Nat) : (State.reset.core c).counters = [] := by
  rw [reset_core]
  split <;> rfl

theorem reset_counter (c n : Nat) : State.reset.counter c n = 0 := by
  rw [State.counter, reset_core_counters]
  rfl

/-- A descriptor at its reset value reads as zeros. -/
theorem fresh_desc_bytes : ({ } : Desc).bytes = List.replicate 128 0 := by decide

theorem reset_byte (a : Nat) : State.reset.byte a = 0 := by
  unfold State.byte
  split
  · change ({ } : Desc).bytes.getD _ 0 = 0
    rw [fresh_desc_bytes, List.getD_eq_getElem?_getD, List.getElem?_replicate]
    split <;> rfl
  · rfl

/-- Settles O3: the fields of the reset state, with every map but the cores' empty. -/
theorem resetState : Obligations.ResetState := by
  unfold Obligations.ResetState
  refine ⟨rfl, rfl, rfl, rfl, rfl, rfl, fun c hc => ?cores, fun _ => rfl, fun _ => rfl, rfl, rfl, rfl, fun _ => rfl,
    reset_counter, fun _ => rfl, fun _ => rfl, reset_byte, rfl, Memory.wf_nil, fun _ _ => rfl⟩
  case cores =>
    rw [reset_core, if_pos hc]
    exact ⟨rfl, rfl⟩

end Sys2Proof.Machine
end

section
/-!
The statements about chart edits and commits (spec/02_seating_charts.md): what an edit that hardware applies comes to for
each kind of operation, what a commit leaves, and the obligations that follow.
-/

namespace Sys2Proof.Machine

open Sys2Proof

/-! ## An edit that hardware applies, by the kind of its operation (R56, R63) -/

theorem submitOrReserved_of_clear {resv : Bool} (h : resv = false) (s : State) (e : EditHdr) (op : EditOp) :
    submitOrReserved s e resv op = submitEdit s e op := by
  rw [submitOrReserved, h, if_neg Bool.false_ne_true]

/-- A verdict applied: it waits for the commit, and the shadow is not marked. -/
theorem runEdit_verdict {s t : State} {id : Nat} {h : EditHdr} {op : EditOp} (hv : op.verdict = true)
    (hi : op.immediate = false) (e : applyOp s id h op = (.ok, t)) : runEdit s id h op = jobPump (editWaits t id) := by
  unfold runEdit finishEdit
  rw [e, if_neg (by simp)]
  simp only [hv, hi, Bool.or_false, Bool.false_eq_true, if_true, if_false]
  rfl

/-- An operation that reports at once, applied: it leaves the queue. -/
theorem runEdit_immediate {s t : State} {id : Nat} {h : EditHdr} {op : EditOp} (hi : op.immediate = true)
    (e : applyOp s id h op = (.ok, t)) : runEdit s id h op = jobPump (dropEdit (editReport t h .ok) id) := by
  unfold runEdit finishEdit
  rw [e, if_neg (by simp)]
  simp only [hi, Bool.or_true, if_true]

theorem submitEdit_applied {s t : State} {h : EditHdr} {op : EditOp} (ht : EditTaken s h) (hm : EditsByHardware s h)
    (hv : op.verdict = false) (hi : op.immediate = false)
    (e : applyOp (withEdit s h op) s.charts.nextEdit h op = (.ok, t)) :
    submitEdit s h op = jobPump (editWaits (shadowDirty t h.seq.toNat) s.charts.nextEdit) := by
  rw [submitEdit_hardware ht hm (by rintro rfl; cases hi), runEdit_applied hv hi e]

theorem submitEdit_verdict {s t : State} {h : EditHdr} {op : EditOp} (ht : EditTaken s h) (hm : EditsByHardware s h)
    (hv : op.verdict = true) (hi : op.immediate = false)
    (e : applyOp (withEdit s h op) s.charts.nextEdit h op = (.ok, t)) :
    submitEdit s h op = jobPump (editWaits t s.charts.nextEdit) := by
  rw [submitEdit_hardware ht hm (by rintro rfl; cases hi), runEdit_verdict hv hi e]

theorem submitEdit_immediate {s t : State} {h : EditHdr} {op : EditOp} (ht : EditTaken s h) (hm : EditsByHardware s h)
    (hf : op = .forceRelease → fromCc h = true) (hi : op.immediate = true)
    (e : applyOp (withEdit s h op) s.charts.nextEdit h op = (.ok, t)) :
    submitEdit s h op = jobPump (dropEdit (editReport t h .ok) s.charts.nextEdit) := by
  rw [submitEdit_hardware ht hm hf, runEdit_immediate hi e]

/-! ## The operations that check something before they act (Table 2-9) -/

theorem applyOp_cow {s : State} {h : EditHdr} {sp : Nat} {l : Layout} (hl : seqLayout s h.seq.toNat = some l)
    (hsp : sp * l.pg + l.pg ≤ 2 ^ 63) (id : Nat) :
    applyOp s id h (.cow sp) = cowPage s h.fetched l h.seq.toNat sp := by
  simp only [applyOp, hl]
  exact if_neg (Nat.not_lt.2 hsp)

theorem applyOp_grow {s : State} {h : EditHdr} {d : Nat} (hlt : (s.desc h.seq.toNat).shadowDepth < d) (hle : d ≤ 7)
    (hne : (s.desc h.seq.toNat).shadowDepth ≠ 0) (id : Nat) :
    applyOp s id h (.grow d) = growLevels s h.seq.toNat (d - (s.desc h.seq.toNat).shadowDepth) := by
  have hok : ¬ (decide (d ≤ (s.desc h.seq.toNat).shadowDepth) || decide (d > 7) ||
      decide ((s.desc h.seq.toNat).shadowDepth = 0)) = true := by
    simp [Nat.not_le.2 hlt, Nat.not_lt.2 hle, hne]
  exact if_neg hok

theorem applyOp_remap {s : State} {h : EditHdr}
    (hj : ∀ j, Map.get? s.charts.jobs h.seq.toNat = some j → j.assisted = true → j.broken = false) (id p o w : Nat)
    (es : List Nat) (c : Nat) : applyOp s id h (.remap p o w es c) = editRemap s h.seq.toNat p o w es := by
  have hok : ¬ (Map.get? s.charts.jobs h.seq.toNat).any (fun j => j.assisted && j.broken) = true := by
    cases hg : Map.get? s.charts.jobs h.seq.toNat with
    | none => exact Bool.false_ne_true
    | some j =>
      rw [Option.any_some, Bool.and_eq_true]
      exact fun ⟨ha, hb⟩ => Bool.false_ne_true ((hj j hg ha).symm.trans hb)
  exact if_neg hok

theorem submitRemap_of_live {s s1 : State} {h : EditHdr} {a b c : U64} {op : EditOp}
    (hd : (s.desc h.seq.toNat).state ≠ .free) (e : remapOp s h a b c = (s1, .ok, op)) :
    submitRemap s h a b c = submitEdit s1 h op := by
  rw [submitRemap, if_neg hd, e]
  exact if_pos rfl

theorem editVerdict_of_le {s : State} {n k : Nat} (h : k ≤ editDrafts s n) :
    editVerdict s n k = (.ok, s.updDesc n (fun d => { d with verdict := true, draftAccept := k })) :=
  if_neg (Nat.not_lt.2 h)

/-- Settles O9: each operation is a change of the shadow that waits for the commit, once the row's own checks have passed. -/
theorem pendingEditsApply : Obligations.PendingEditsApply := by
  unfold Obligations.PendingEditsApply
  intro h s t ht hm n done
  refine ⟨fun a ha e => ?extend, fun src a ha e => ?attach, fun a l hl hle e => ?cow, fun a hlt hle hne e => ?grow,
    fun a b e => ?setEntry, fun a ha e => ?truncate, fun a b c s1 p o w es hop ht1 hm1 hj e => ?remap, fun e => ?release⟩
  case extend =>
    exact congrArg Host.Outcome.next ((submitOrReserved_of_clear (decide_eq_false (Nat.not_le.2 ha)) ..).trans
      (submitEdit_applied ht hm rfl rfl e))
  case attach =>
    exact congrArg Host.Outcome.next ((submitOrReserved_of_clear (decide_eq_false (Nat.not_le.2 ha)) ..).trans
      (submitEdit_applied ht hm rfl rfl e))
  case cow =>
    exact congrArg Host.Outcome.next ((submitOrReserved_of_clear rfl ..).trans
      (submitEdit_applied ht hm rfl rfl ((applyOp_cow hl hle _).trans e)))
  case grow =>
    exact congrArg Host.Outcome.next ((submitOrReserved_of_clear rfl ..).trans
      (submitEdit_applied ht hm rfl rfl ((applyOp_grow (s := withEdit s h _) hlt hle hne _).trans e)))
  case setEntry =>
    exact congrArg Host.Outcome.next ((submitOrReserved_of_clear rfl ..).trans (submitEdit_applied ht hm rfl rfl e))
  case truncate =>
    exact congrArg Host.Outcome.next ((submitOrReserved_of_clear (decide_eq_false (Nat.not_le.2 ha)) ..).trans
      (submitEdit_applied ht hm rfl rfl e))
  case remap =>
    exact congrArg Host.Outcome.next ((submitRemap_of_live ht.2 hop).trans
      (submitEdit_applied ht1 hm1 rfl rfl ((applyOp_remap (s := withEdit s1 h _) hj ..).trans e)))
  case release => exact congrArg Host.Outcome.next (submitEdit_applied ht hm rfl rfl e)

/-- Settles O10: a verdict within the drafts that the pending edits leave is recorded, and DRAFT_ROLLBACK accepts none. -/
theorem verdictsRecordAcceptance : Obligations.VerdictsRecordAcceptance := by
  unfold Obligations.VerdictsRecordAcceptance
  intro h s ht hm n done
  refine ⟨fun a ha hle => ?commit, ?rollback⟩
  case commit =>
    exact congrArg Host.Outcome.next ((submitOrReserved_of_clear (decide_eq_false (Nat.not_le.2 ha)) ..).trans
      (submitEdit_verdict ht hm rfl rfl (editVerdict_of_le hle)))
  case rollback =>
    exact congrArg Host.Outcome.next (submitEdit_verdict ht hm rfl rfl (editVerdict_of_le (Nat.zero_le _)))

/-- Settles O11: both operations report when they are applied. -/
theorem immediateEditsReport : Obligations.ImmediateEditsReport := by
  unfold Obligations.ImmediateEditsReport
  intro h s ht hm n id
  refine ⟨fun a => ?evict, fun t hcc e => ?forceRelease⟩
  case evict =>
    exact congrArg Host.Outcome.next ((submitOrReserved_of_clear rfl ..).trans
      (submitEdit_immediate ht hm (fun e => nomatch e) rfl rfl))
  case forceRelease =>
    exact congrArg Host.Outcome.next (submitEdit_immediate ht hm (fun _ => hcc) rfl e)

/-! ## Events of the charts (R50, R58, R59, R67) -/

/-- Settles O13: each row's condition holds, so its event takes effect. -/
theorem chartEvents : Obligations.ChartEvents := by
  unfold Obligations.ChartEvents
  refine ⟨fun seq s f hf hw => ?forced, fun seq s hheld hwalkers hpend => ?held, fun seq s j hj ha => ?job,
    fun part frame s p hp hinv hshare => ?shared⟩
  case forced =>
    simp only [exec, execForceReleaseFree, hf]
    exact if_neg (fun e => Bool.false_ne_true (hw.symm.trans e))
  case held => simp [exec, execHeldCommit, hheld, hwalkers, hpend]
  case job => simp [exec, execEvictJobDone, hj, ha]
  case shared => simp [exec, execSharedFrameInvalidated, hp, hshare, List.contains_iff_mem.mp hinv]

/-! ## What one commit does (R43, R45, R55, R58) -/

/-- The state of a commit before what it unlinked is freed and counted: the shadow is the chart, lengths and EPOCH follow. -/
def committed (s : State) (n : Nat) : State :=
  (swapRoot s n).1.updDesc n (fun d => { commitLens d (s.pendOf n).setLen with epoch := d.epoch + 1 })

theorem peakFrames_seqs (s : State) (t : Nat) : SeqsKept s (peakFrames s t) := by
  unfold peakFrames
  dsimp only
  split <;> exact ⟨rfl, rfl, rfl, rfl⟩

/-- Freeing and counting leave descriptors, scheduler, cores and memory alone. -/
theorem commitChart_seqs (s : State) (n : Nat) : SeqsKept (committed s n) (commitChart s n) :=
  .trans (.trans ⟨rfl, rfl, rfl, rfl⟩ (freeUnlinked_seqs ((committed s n |>.bumpTnt .tntTokens (s.desc n).tenant 0
    ((s.desc n).appendLen + (if (s.desc n).verdict then (s.desc n).draftAccept else 0))).bump .blkTokens 0 0
    ((s.desc n).appendLen + (if (s.desc n).verdict then (s.desc n).draftAccept else 0))) (swapRoot s n).2))
    (peakFrames_seqs ..)

theorem SeqsKept.desc {s t : State} (h : SeqsKept s t) (m : Nat) : t.desc m = s.desc m := by
  rw [State.desc, State.desc, h.1]

/-- The new root of a commit is a change of the sequence's own descriptor. -/
theorem swapRoot_desc (s : State) (n m : Nat) : (swapRoot s n).1.desc m = if m = n then { s.desc n with
      chartRoot := (s.desc n).shadowRoot, chartDepth := (s.desc n).shadowDepth
      privateFrames := (heldBy s (leavesOf s (s.desc n).shadowRoot (s.desc n).shadowDepth)).1.length } else s.desc m :=
  State.desc_updDesc ..

theorem committed_desc (s : State) (n m : Nat) : (committed s n).desc m =
    if m = n then { commitLens ((swapRoot s n).1.desc n) (s.pendOf n).setLen with
      epoch := ((swapRoot s n).1.desc n).epoch + 1 } else s.desc m := by
  rw [committed, State.desc_updDesc]
  split
  · rfl
  · rename_i hm
    rw [swapRoot_desc, if_neg hm]

/-- What `commitLens` leaves alone. -/
theorem commitLens_kept (d : Desc) (l : Option (Nat × Nat)) :
    (commitLens d l).chartRoot = d.chartRoot ∧ (commitLens d l).chartDepth = d.chartDepth ∧
      (commitLens d l).state = d.state ∧ (commitLens d l).partition = d.partition ∧
      (commitLens d l).repertoire = d.repertoire ∧ (commitLens d l).tenant = d.tenant := by
  cases l <;> exact ⟨rfl, rfl, rfl, rfl, rfl, rfl⟩

/-- What `commitLens` clears. -/
theorem commitLens_cleared (d : Desc) (l : Option (Nat × Nat)) :
    (commitLens d l).appendLen = 0 ∧ (commitLens d l).verdict = false ∧ (commitLens d l).held = false ∧
      (commitLens d l).remappedPages = 0 := by
  cases l <;> exact ⟨rfl, rfl, rfl, rfl⟩

/-- Settles O14: the descriptor after a commit is that of `swapRoot` with the lengths of `commitLens`, and what follows frees
and counts only. -/
theorem commitTakesShadow : Obligations.CommitTakesShadow := by
  unfold Obligations.CommitTakesShadow
  intro s n d t e
  have hkept : SeqsKept (committed s n) t := commitChart_seqs s n
  have hroot := swapRoot_desc s n n
  rw [if_pos rfl] at hroot
  have he : e = { commitLens ((swapRoot s n).1.desc n) (s.pendOf n).setLen with
      epoch := ((swapRoot s n).1.desc n).epoch + 1 } := by
    change t.desc n = _
    rw [hkept.desc, committed_desc, if_pos rfl]
  have hother : ∀ m, m ≠ n → t.desc m = s.desc m := fun m hm => by
    rw [hkept.desc, committed_desc, if_neg hm]
  obtain ⟨-, hsched, hcores, hmem⟩ := hkept
  obtain ⟨hr, hd, hstate, hpart, hrep, htenant⟩ := commitLens_kept ((swapRoot s n).1.desc n) (s.pendOf n).setLen
  obtain ⟨happend, hverdict, hheld, hremapped⟩ := commitLens_cleared ((swapRoot s n).1.desc n) (s.pendOf n).setLen
  rw [hroot] at he hr hd hstate hpart hrep htenant happend hverdict hheld hremapped
  rw [he]
  exact ⟨hr, hd, rfl, fun hl => by rw [hl]; exact ⟨rfl, rfl⟩, fun l p hl => by rw [hl]; exact ⟨rfl, rfl⟩, happend,
    hverdict, hheld, hremapped, hstate, hpart, hrep, htenant, hother, hsched, hcores, hmem⟩

end Sys2Proof.Machine
end

section
/-!
The statements about sequences, the repertoire and the step scheduler (spec/03_sequences_and_scheduling.md): what a sequence
command comes to when it applies, what a boundary does in which order, how a Form's blocks end a step together, and the
obligations that follow.
-/

namespace Sys2Proof.Machine

open Sys2Proof

/-! ## A sequence command applies once and is reported (R80, R81) -/

theorem runSeq_of_applySeq {s t : State} {h : SeqHdr} {op : SeqOp} {c : FC} (e : applySeq s h op = (c, t)) :
    runSeq s h op = seqReport t h c := by
  rw [runSeq, e]

theorem foldl_filter_singleton {α β : Type} {p : α → Bool} {f : β → α → β} (a : α) (b : β) :
    ([a].filter p).foldl f b = if p a then f b a else b := by
  cases h : p a <;> simp [h]

/-- Of all keys in order, only the one that a lone element has does anything. -/
theorem foldl_range_key {α β : Type} (key : α → Nat) (f : β → α → β) (a : α) (b : β) (n : Nat) :
    (List.range n).foldl (fun b k => ([a].filter (fun x => key x == k)).foldl f b) b = if key a < n then f b a else b := by
  induction n with
  | zero => rfl
  | succ n ih =>
    rw [List.range_succ, List.foldl_append, List.foldl_cons, List.foldl_nil, ih, foldl_filter_singleton]
    by_cases hn : key a = n
    · simp [hn]
    · have hle : key a < n + 1 ↔ key a < n := by omega
      simp [hn, hle]

/-- A command that waits alone and was counted before the sample applies, and none waits any more. -/
theorem applyCmds_of_singleton {s : State} {w : WaitingSeqCmd} (hw : s.sched.cmds = [w])
    (hc : countedBefore s w = true) :
    applyCmds s = runSeq { s with sched := { s.sched with cmds := [] } } w.hdr w.op := by
  unfold applyCmds
  have hdue : s.sched.cmds.filter (countedBefore s) = [w] := by
    rw [hw, List.filter_cons_of_pos hc, List.filter_nil]
  have hrest : s.sched.cmds.filter (fun w => !countedBefore s w) = [] := by
    rw [hw, List.filter_cons_of_neg (by rw [hc]; decide), List.filter_nil]
  simp only [hdue, hrest]
  rw [foldl_range_key (fun w : WaitingSeqCmd => w.hdr.ctx.toNat) (fun s w => runSeq s w.hdr w.op), if_pos w.hdr.ctx.isLt]

/-- What an ADMIT that is accepted found and made (Table 3-3, R77). -/
theorem seqAdmit_ok {s t : State} {h : SeqHdr} {rep tenant part out budget user : Nat}
    (e : seqAdmit s h rep tenant part out budget user = (.ok, t)) :
    (s.desc h.seq.toNat).state = .free ∧ (t.desc h.seq.toNat).state = .queued ∧
      (t.desc h.seq.toNat).epoch = (s.desc h.seq.toNat).epoch ∧ (t.desc h.seq.toNat).repertoire = rep ∧
      (t.desc h.seq.toNat).tenant = tenant ∧ (t.desc h.seq.toNat).partition = part ∧
      (t.desc h.seq.toNat).committedLen = 0 := by
  unfold seqAdmit at e
  extract_lets n old at e
  by_cases hfree : old.state = .free
  · rw [if_neg (by simp [hfree])] at e
    split at e
    · cases e
    split at e
    · cases e
    split at e
    · cases e
    split at e
    · cases e
    · cases e
      refine ⟨hfree, ?_⟩
      change ((State.updDesc _ n _).desc n).state = _ ∧ ((State.updDesc _ n _).desc n).epoch = _ ∧
        ((State.updDesc _ n _).desc n).repertoire = _ ∧ ((State.updDesc _ n _).desc n).tenant = _ ∧
        ((State.updDesc _ n _).desc n).partition = _ ∧ ((State.updDesc _ n _).desc n).committedLen = _
      rw [State.desc_updDesc_same]
      exact ⟨rfl, rfl, rfl, rfl, rfl, rfl⟩
  · rw [if_pos (by simpa using hfree)] at e
    cases e

theorem seqAdmit_of_busy {s : State} {h : SeqHdr} (hs : (s.desc h.seq.toNat).state ≠ .free)
    (rep tenant part out budget user : Nat) : seqAdmit s h rep tenant part out budget user = (.seqBusy, s) :=
  if_pos (by simpa using hs)

/-- What a RETIRE that is accepted makes (R78). -/
theorem seqRetire_ok {s t : State} {n : Nat} (e : seqRetire s n = (.ok, t)) : (t.desc n).state = .retiring := by
  unfold seqRetire at e
  split at e
  · cases e
  split at e
  · cases e
  extract_lets id h entry s1 at e
  split at e
  · cases e
    rw [State.desc_updDesc_same]
  · rename_i c s2 hne heq
    cases e
    exact (hne rfl).elim

/-- An operation that needs a live sequence, on a FREE one (R81). -/
def SeqOp.needsLive : SeqOp → Bool
  | .append .. => true
  | .suspend => true
  | .resume => true
  | .retire => true
  | _ => false

theorem applySeq_of_free {s : State} {h : SeqHdr} {op : SeqOp} (hop : op.needsLive = true)
    (hs : (s.desc h.seq.toNat).state = .free) : applySeq s h op = (.seqInvalid, s) := by
  cases op with
  | append | suspend | resume | retire => exact if_pos hs
  | _ => cases hop

theorem applySeq_append {s : State} {h : SeqHdr} {tokens drafts buf : Nat}
    (ht : (s.desc h.seq.toNat).state.takesAppend = true)
    (hnone : (s.desc h.seq.toNat).pendingTokens + (s.desc h.seq.toNat).pendingDrafts = 0) (htok : tokens ≠ 0)
    (hd : drafts = 0 ∨ (tokens = 1 ∧ drafts ≤ s.ent .schedMaxDrafts ∧
      bit (repWord s (s.desc h.seq.toNat).repertoire 0) 1 = true)) :
    applySeq s h (.append tokens drafts buf) = (.ok, s.updDesc h.seq.toNat (fun d => { d with
      pendingTokens := tokens, pendingDrafts := drafts, tokenBuf := buf
      state := if d.state = .idle then .ready else d.state })) := by
  have hlive : (s.desc h.seq.toNat).state ≠ .free := fun e => by rw [e] at ht; cases ht
  refine (if_neg hlive).trans ?_
  have hrange : ¬ (decide (tokens = 0) || (decide (drafts > 0) && tokens != 1) ||
      decide (s.ent .schedMaxDrafts < drafts) ||
      (decide (drafts > 0) && !bit (repWord s (s.desc h.seq.toNat).repertoire 0) 1)) = true := by
    rcases hd with rfl | ⟨rfl, hle, hbit⟩
    · simp [htok]
    · simp [hbit, Nat.not_lt.2 hle]
  unfold seqAppend
  rw [if_neg (by omega), if_neg hrange, if_neg (by rw [ht]; exact Bool.false_ne_true)]

theorem applySeq_suspend {s : State} {h : SeqHdr} (h0 : (s.desc h.seq.toNat).state ≠ .free)
    (h1 : (s.desc h.seq.toNat).state ≠ .queued) (h2 : (s.desc h.seq.toNat).state ≠ .faulted)
    (h3 : (s.desc h.seq.toNat).state ≠ .retiring) : applySeq s h .suspend =
      (.ok, s.updDesc h.seq.toNat (fun d => { d with state := .suspended })) :=
  (if_neg h0).trans (if_neg (by simp [h1, h2, h3]))

theorem applySeq_resume {s : State} {h : SeqHdr}
    (hs : (s.desc h.seq.toNat).state = .suspended ∨ (s.desc h.seq.toNat).state = .faulted) : applySeq s h .resume =
      (.ok, s.updDesc h.seq.toNat (fun d =>
        { d with state := if d.pendingTokens > 0 then .ready else .idle, lastFc := .ok })) := by
  refine (if_neg ?_).trans (if_pos (by simpa using hs))
  rcases hs with e | e <;> rw [e] <;> decide

/-- Settles O15: a sequence command waits at its row, applies once alone, and its operation's state change follows from the
descriptor's state. -/
theorem sequenceCommandsApply : Obligations.SequenceCommandsApply := by
  unfold Obligations.SequenceCommandsApply
  intro h
  refine ⟨fun s a b c e => ⟨rfl, rfl, rfl, rfl, rfl, rfl, rfl⟩, fun s num op => applyCmds_of_singleton,
    fun s => ⟨fun rep tenant part out budget user t e => ?admission, fun tokens drafts buf ht hnone htok hd => ?append,
      fun h0 h1 h2 h3 => ?suspend, fun hs => ?resume, fun t h0 e => ?retire⟩⟩
  case admission => exact ⟨runSeq_of_applySeq e, seqAdmit_ok e⟩
  case append => exact runSeq_of_applySeq (applySeq_append ht hnone htok hd)
  case suspend => exact runSeq_of_applySeq (applySeq_suspend h0 h1 h2 h3)
  case resume => exact runSeq_of_applySeq (applySeq_resume hs)
  case retire => exact ⟨runSeq_of_applySeq ((if_neg h0).trans e), seqRetire_ok e⟩

/-- Settles O16: the sequence's state is looked at before anything else. -/
theorem sequenceCommandsOnFree : Obligations.SequenceCommandsOnFree := by
  unfold Obligations.SequenceCommandsOnFree
  intro h s
  refine ⟨fun hs => ⟨fun tokens drafts buf => ?append, ?suspend, ?resume, ?retire⟩,
    fun hs rep tenant part out budget user => ?admission⟩
  case append => exact runSeq_of_applySeq (applySeq_of_free rfl hs)
  case suspend => exact runSeq_of_applySeq (applySeq_of_free rfl hs)
  case resume => exact runSeq_of_applySeq (applySeq_of_free rfl hs)
  case retire => exact runSeq_of_applySeq (applySeq_of_free rfl hs)
  case admission => exact runSeq_of_applySeq (seqAdmit_of_busy hs ..)

/-! ## The repertoire (R92) -/

theorem seqRepLoad_ok {s t : State} {fs : List Fetched} {r addr : Nat} {img : List Byte} {marks : List Bool}
    (hr : r < s.ent .repCount) (hf : fetchGlobal s fs addr 256 = (t, .ok, img, marks))
    (hm : marks.any (fun b => b) = false) (hc : repCode t r img = .ok) :
    seqRepLoad s fs r addr = (.ok, t.write (repAddr t r) img) := by
  unfold seqRepLoad
  rw [if_neg (Nat.not_le.2 hr), hf]
  simp only [bne_self_eq_false, Bool.false_eq_true, if_false, hm, hc]

theorem seqEscClear_ok {s : State} {r : Nat} (hr : repValid s r = true) (layer : Nat) : seqEscClear s r layer =
    (let esc := repWord s r 5 + repWord s r 6 * 2 ^ 64
     (.ok, s.write (repAddr s r + 40) (natLe 16
      (if layer = 0xFF then 0 else if layer < 128 && bit esc layer then esc - 2 ^ layer else esc)))) :=
  if_neg (by rw [hr]; exact Bool.false_ne_true)

/-- Settles O17: the checks of R92 passed, the record or the ESCALATED bits are written. -/
theorem repertoireCommands : Obligations.RepertoireCommands := by
  unfold Obligations.RepertoireCommands
  intro h s
  exact ⟨fun r addr t img marks hr hf hm hc => runSeq_of_applySeq (seqRepLoad_ok hr hf hm hc),
    fun r layer hr => runSeq_of_applySeq (seqEscClear_ok hr layer)⟩

/-! ## The order of a boundary (R22, R86, R434) -/

/-- A boundary up to the end of action 3. -/
def throughAction3 (s : State) (fs : List Fetched) (next : Option Nat) : State :=
  action3 (action2 (traceAction (action1 (boundaryBegins (endStep s next))) 2) fs)

/-- The requested operating point n waits, with `ck_hold` high. -/
def holdForPoint (t : State) (n : Nat) : State :=
  { t with sys := { t.sys with gov := { t.sys.gov with
      opPending := none, opWaiting := some n, opTimedOut := false, ckHold := true } } }

theorem boundary_of_pending {s : State} {fs : List Fetched} {next : Option Nat} {n : Nat}
    (h : (throughAction3 s fs next).sys.gov.opPending = some n) :
    boundary s fs next = holdForPoint (throughAction3 s fs next) n := by
  unfold boundary
  unfold throughAction3 at h ⊢
  dsimp only
  rw [h]
  rfl

theorem boundary_of_none {s : State} {fs : List Fetched} {next : Option Nat}
    (h : (throughAction3 s fs next).sys.gov.opPending = none) :
    boundary s fs next = actions45 (throughAction3 s fs next) fs := by
  unfold boundary
  unfold throughAction3 at h ⊢
  dsimp only
  rw [h]

theorem endStep_step (s : State) (v : Nat) : (endStep s (some v)).sched.step = v := rfl

/-- Settles O19: the step number is set first, and the pending operating point decides whether actions 4 and 5 follow. -/
theorem boundaryOrder : Obligations.BoundaryOrder := by
  unfold Obligations.BoundaryOrder
  intro s fs v t
  have ht : throughAction3 s fs (some v) = t := rfl
  clear_value t
  refine ⟨endStep_step s v, fun n hn => ?pending, fun hn => ?none⟩
  case pending =>
    rw [← ht] at hn
    rw [boundary_of_pending hn, ht]
    exact ⟨rfl, rfl, rfl, rfl, rfl⟩
  case none =>
    rw [← ht] at hn ⊢
    exact boundary_of_none hn

/-! ## Step alignment (R22, R91, R363) -/

theorem alignStep_of_ended {s : State} (he : stepEnded s = true) (hb : boundaryFree s = true) (fs : List Fetched) :
    alignStep s fs =
      if alone s then
        if s.sched.running then boundary s fs (some (s.sched.step + 1))
        else if s.sched.begun then s
        else boundary s fs none
      else if s.sched.goPending then
        boundary { s with sched := { s.sched with goPending := false } } fs (some (s.sched.step + 1))
      else if !membersDone s then s
      else if isTopHead s then
        if allEmpty s then s else boundary (passGo s false s.sched.step) fs (some (s.sched.step + 1))
      else if s.sched.doneSent then s
      else
        sendSync { s with sched := { s.sched with doneSent := true } } (ownHead s) 3 (headOf s + 1) (bnat (allEmpty s)) 0 0
          s.sched.step :=
  if_neg (by simp [he, hb])

theorem alignStep_alone {s : State} (he : stepEnded s = true) (hb : boundaryFree s = true) (ha : alone s = true)
    (hr : s.sched.running = true) (fs : List Fetched) : alignStep s fs = boundary s fs (some (s.sched.step + 1)) := by
  rw [alignStep_of_ended he hb, if_pos ha, if_pos hr]

theorem alignStep_member {s : State} (he : stepEnded s = true) (hb : boundaryFree s = true) (ha : alone s = false)
    (hg : s.sched.goPending = false) (hm : membersDone s = true) (ht : isTopHead s = false)
    (hd : s.sched.doneSent = false) (fs : List Fetched) : alignStep s fs =
      sendSync { s with sched := { s.sched with doneSent := true } } (ownHead s) 3 (headOf s + 1) (bnat (allEmpty s)) 0 0
        s.sched.step := by
  rw [alignStep_of_ended he hb]
  simp only [ha, hg, hm, ht, hd, Bool.false_eq_true, Bool.not_true, if_false]

theorem alignStep_topHead {s : State} (he : stepEnded s = true) (hb : boundaryFree s = true) (ha : alone s = false)
    (hg : s.sched.goPending = false) (hm : membersDone s = true) (ht : isTopHead s = true) (hne : allEmpty s = false)
    (fs : List Fetched) : alignStep s fs = boundary (passGo s false s.sched.step) fs (some (s.sched.step + 1)) := by
  rw [alignStep_of_ended he hb]
  simp only [ha, hg, hm, ht, hne, Bool.false_eq_true, Bool.not_true, if_false, if_true]

theorem toNat_ofNat_64 {n : Nat} (h : n < 2 ^ 64) : (BitVec.ofNat 64 n).toNat = n := by
  rw [BitVec.toNat_ofNat, Nat.mod_eq_of_lt h]

/-- A member's report of the end of the step is kept, with whether the step was empty there. -/
def withMemberDone (s : State) (node : Nat) (empty : Bool) : State :=
  { s with sched := { s.sched with
      membersDone := (s.sched.membersDone.filter (fun d => d.1 != node)) ++ [(node, empty)] } }

theorem exec_stepDone {s : State} {node : U16} (hmine : (myMembers s).contains node.toNat = true)
    (hlt : s.sched.step < 2 ^ 64) (empty : Bool) (fs : List Fetched) :
    exec (.stepDone node (BitVec.ofNat 64 s.sched.step) empty fs) s =
      .next (alignStep (withMemberDone s node.toNat empty) fs) :=
  congrArg Host.Outcome.next (if_neg (by rw [hmine, toNat_ofNat_64 hlt]; simp))

theorem alignStep_lastMember {s : State} {node : Nat} {empty : Bool} (he : stepEnded s = true)
    (hb : boundaryFree s = true) (ha : alone s = false) (hg : s.sched.goPending = false)
    (hm : membersDone (withMemberDone s node empty) = true) (ht : isTopHead s = true)
    (hne : allEmpty (withMemberDone s node empty) = false) (fs : List Fetched) :
    alignStep (withMemberDone s node empty) fs =
      boundary (passGo (withMemberDone s node empty) false s.sched.step) fs (some (s.sched.step + 1)) :=
  alignStep_topHead (s := withMemberDone s node empty) he hb ha hg hm ht hne fs

/-- STEP_GO of the step that a member reported passes its first checks. -/
theorem exec_stepGo {s : State} (ha : alone s = false) (ht : isTopHead s = false) (hd : s.sched.doneSent = true)
    (hlt : s.sched.step < 2 ^ 64) (empty : Bool) (fs : List Fetched) :
    exec (.stepGo (BitVec.ofNat 64 s.sched.step) empty fs) s =
      .next (if empty then
          (if boundaryFree (passGo s empty s.sched.step) then actions45 (passGo s empty s.sched.step) fs
           else passGo s empty s.sched.step)
        else alignStep { passGo s empty s.sched.step with
          sched := { (passGo s empty s.sched.step).sched with goPending := true } } fs) :=
  congrArg Host.Outcome.next (if_neg (by simp [ha, ht, hd, toNat_ofNat_64 hlt]))

/-- A lone block is the head of all its levels, which are none. -/
theorem isTopHead_of_alone {s : State} (h : alone s = true) : isTopHead s = true := by
  have h0 : formLevels s = 0 := by simpa [alone] using h
  simp [isTopHead, headOf, h0, headLevel]

/-- Settles O18: each message passes its own checks, and the end of a step is judged in one place. -/
theorem stepAlignment : Obligations.StepAlignment := by
  unfold Obligations.StepAlignment
  refine ⟨fun fs s he hb ha hr => ?alone, fun fs s he hb ha hg hm ht hd => ?member,
    fun fs node empty s hmine hlt he hb ha hg hm ht hne => ?done, fun fs s ha ht hd hlt hb => ?goEmpty,
    fun fs s ha ht hd hlt => ?go, fun fs s hr hb hc ha => ?retry, fun fs s ha ht hr hb hm he => ?wake,
    fun fs s ha ht => ?wakeOn⟩
  case alone => exact congrArg Host.Outcome.next (alignStep_alone he hb ha hr fs)
  case member => exact congrArg Host.Outcome.next (alignStep_member he hb ha hg hm ht hd fs)
  case done => rw [exec_stepDone hmine hlt, alignStep_lastMember he hb ha hg hm ht hne]; rfl
  case goEmpty => rw [exec_stepGo ha ht hd hlt, if_pos rfl, if_pos hb]
  case go => rw [exec_stepGo ha ht hd hlt, if_neg Bool.false_ne_true]
  case retry =>
    refine congrArg Host.Outcome.next ((if_neg (by simp [hr, hb, hc])).trans ?_)
    rw [if_pos (isTopHead_of_alone ha)]
    exact if_pos ha
  case wake =>
    refine congrArg Host.Outcome.next ?_
    rw [if_neg (by simp [ha]), if_neg (by simp [ht]), if_neg (by simp [hr, hb])]
    exact (if_neg (by simp [ha])).trans (if_pos (by simp [hm, he]))
  case wakeOn => exact congrArg Host.Outcome.next ((if_neg (by simp [ha])).trans (if_pos (by simp [ht])))

end Sys2Proof.Machine
end

section
/-!
The statements about requests and the bytes they write (spec/12_remote_memory_and_windows.md): what a local request comes to,
where the bytes of a PUT land, what an arrival does before and after its Hall Pass, and the obligations that follow.
-/

namespace Sys2Proof.Machine

open Sys2Proof

/-! ## A request from inside (R294, R472) -/

theorem serveInside_refused {s : State} {k : Kind} {r : Req} (h : insideCode s k r ≠ .ok) :
    serveInside s k r = (s, some { code := insideCode s k r }) := by
  unfold serveInside
  split
  · exact absurd ‹_› h
  · rfl

theorem serveInside_accepted {s : State} {k : Kind} {r : Req} (h : insideCode s k r = .ok) :
    serveInside s k r = performVia s k r (r.ctrCore.toNat, r.ctr.toNat) none := by
  unfold serveInside
  rw [h]

/-- An accepted request to plain memory that meets no bit error is the data's alone; a CPUT leaves its increment. -/
theorem serveInside_plain {s : State} {k : Kind} {r : Req} (hp : PlainAt s r.addr) (hf : s.sys.fab.flips = [])
    (hi : insideCode s k r = .ok) (he : effectCode s k r = .ok) : serveInside s k r =
      if k == .cput && (performData s k r).2.code == .ok then
        ({ (performData s k r).1 with remote := { (performData s k r).1.remote with
            incrs := (performData s k r).1.remote.incrs ++ [
              { core := r.ctrCore.toNat, ctr := r.ctr.toNat, pass := none, origin := r.origin, tag := r.tag,
                cycle := r.cycle, tenant := r.tenant.toNat }] } }, none)
      else ((performData s k r).1, some (performData s k r).2) := by
  rw [serveInside_accepted hi, performVia_plain hp he hf, performAt_plain hp he]
  rfl

/-- The data operation of an ADD or a MAX, on bytes as they are read (R296, R297). -/
theorem performData_atomic {s t : State} {r : Req} {old : List Byte} {marks : List Bool} (isMax : Bool)
    (h : s.read r.addr r.atype.size = (t, old, marks)) : performData s (if isMax then .max else .add) r =
      if marks.any id then (t, { code := .dataPoisoned })
      else (t.putBack r.addr (natLe r.atype.size (atomicValue isMax r.atype (leNat old) r.operand.toNat)) []
        r.origin.cluster?, { data := if r.fetch then old else [] }) := by
  cases isMax
  case false => simp only [performData, Kind.span, h, Bool.false_eq_true, if_false]; rfl
  case true => simp only [performData, Kind.span, h, if_true]; rfl

/-- An accepted CPUT into a command window fills the next slot and waits to be counted (R301, R319). -/
theorem performAt_window {s : State} {r : Req} {c x : Nat} (hr : regionAt s r.addr = .window c x)
    (he : effectCode s .cput r = .ok) (ctr : Nat × Nat) : performAt s .cput r ctr none =
      ((s.write r.addr (fit r.data 128) r.poison).updCtx c x (fun q => { q with
        accept := q.accept + 1, slotSrc := Map.put q.slotSrc
          (((s.ctx c x).accept).toNat % 32) r.origin.editSrc
        landed := q.landed ++ [((s.ctx c x).accept, none)] }), some { }) := by
  unfold performAt
  simp only [he, hr]
  rfl

/-- A request that carries no data meets no bit error on its way to its target. -/
theorem performVia_dataless {s : State} {k : Kind} {r : Req} {ctr : Nat × Nat} {p : Option Nat}
    (hk : (k == .put || k == .cput) = false) (h : (performAt s k r ctr p).1.sys.fab.flips = []) :
    performVia s k r ctr p = performAt s k r ctr p := by
  unfold performVia
  simp only [hk, Bool.false_eq_true, if_false]
  cases hq : (performAt s k r ctr p).2 with
  | none => simp only; rw [← hq]
  | some a =>
    simp only [crossFabric_quiet h]
    rw [← hq]

theorem counterBlockCode_of_insideCode {s : State} {k : Kind} {r : Req} {c : Nat} (hr : regionAt s r.addr = .counters c)
    (h : insideCode s k r = .ok) : counterBlockCode s c k r = .ok := by
  refine Classical.byContradiction fun hne => ?_
  unfold insideCode at h
  simp only [hr] at h
  split at h
  · simp_all
  split at h
  · simp_all
  split at h
  · simp_all
  split at h
  · simp_all
  rw [if_pos (by simpa using hne)] at h
  exact hne h

/-- An accepted ADD on a counter goes to the Sync Unit (R325, R326). -/
theorem performAt_counter {s : State} {r : Req} {c : Nat} (hr : regionAt s r.addr = .counters c)
    (hi : insideCode s .add r = .ok) (he : effectCode s .add r = .ok) (ctr : Nat × Nat) :
    performAt s .add r ctr none = suRequest s c
      { ctr := (r.addr % 0x10000 % 0x1000) / 4, dec := r.addr % 0x10000 ≥ 0x1000, operand := r.operand.toNat % 2 ^ 32
        fetch := r.fetch, origin := r.origin, tenant := r.tenant.toNat, pass := none, tag := r.tag, cycle := r.cycle } := by
  unfold performAt
  simp only [he, hr, counterBlockCode_of_insideCode hr hi, passHold, ite_self]

/-- Settles O22: the request is served where the block checks it, and the answer depends on the operation. -/
theorem requestsFromInside : Obligations.RequestsFromInside := by
  unfold Obligations.RequestsFromInside
  intro r i s ho hl
  refine ⟨fun k c hc hi => ?refused, fun hp hf => ⟨fun hi he => ?put, fun hi he => ?get, fun hi he => ?cput,
    fun isMax t old marks hi he hread => ?atomic, fun t data marks hi he hread => ?cmpcnt⟩,
    fun c x hr hf hi he => ?window, fun c hr hi he hf => ?counter⟩
  case refused => rw [exec_inside ho hl hc, serveInside_refused hi]; rfl
  case put =>
    rw [exec_inside ho hl (k := .put) (.inl ⟨rfl, rfl⟩), serveInside_plain hp hf hi he]
    rfl
  case get =>
    rw [exec_inside ho hl (k := .get) (.inr (.inl ⟨rfl, rfl⟩)), serveInside_plain hp hf hi he]
    rfl
  case cput =>
    rw [exec_inside ho hl (k := .cput) (.inr (.inr (.inl ⟨rfl, rfl⟩))), serveInside_plain hp hf hi he]
    rfl
  case atomic =>
    have hexec : exec (if isMax then .max r else .add r) s = .next (answer?
        (serveInside s (if isMax then .max else .add) r).1 r.origin r.tag
        (serveInside s (if isMax then .max else .add) r).2) := by
      cases isMax
      · exact exec_inside ho hl (.inr (.inr (.inr (.inl ⟨rfl, rfl⟩))))
      · exact exec_inside ho hl (.inr (.inr (.inr (.inr (.inl ⟨rfl, rfl⟩)))))
    have hk : ((if isMax then Kind.max else Kind.add) == .cput) = false := by cases isMax <;> rfl
    rw [hexec, serveInside_plain hp hf hi he, performData_atomic isMax hread, hk, Bool.false_and,
      if_neg Bool.false_ne_true]
    exact ⟨fun hm => by rw [if_pos hm]; rfl, fun hm => by rw [if_neg (by rw [hm]; exact Bool.false_ne_true)]; rfl⟩
  case cmpcnt =>
    have hdata : performData s .cmpcnt r = (t,
        { code := if marks.any id then .dataPoisoned else .ok
          data := natLe 4 (countWords r.elem.toNat r.pred r.value.toNat r.mask.toNat data marks) }) := by
      simp only [performData, Kind.span, hread]
    rw [exec_inside ho hl (k := .cmpcnt) (.inr (.inr (.inr (.inr (.inr ⟨rfl, rfl⟩))))), serveInside_plain hp hf hi he, hdata]
    rfl
  case window =>
    have hflips : (performAt s .cput r (r.ctrCore.toNat, r.ctr.toNat) none).1.sys.fab.flips = [] := by
      rw [performAt_window hr he, State.updCtx_sys]
      exact (congrArg Fab.flips (FabKept.write (s := s) rfl ..)).trans hf
    rw [exec_inside ho hl (k := .cput) (.inr (.inr (.inl ⟨rfl, rfl⟩))), serveInside_accepted hi, performVia_quiet hf hflips,
      performAt_window hr he]
    rfl
  case counter =>
    have hperform := performAt_counter hr hi he (r.ctrCore.toNat, r.ctr.toNat)
    rw [exec_inside ho hl (k := .add) (.inr (.inr (.inr (.inl ⟨rfl, rfl⟩)))), serveInside_accepted hi,
      performVia_dataless rfl (by rw [hperform]; exact hf), hperform]

/-! ## Where the bytes of a write land (R4, R76) -/

/-- Memory, the tables shown in it, and the flips that wait at the memory controllers are as before. -/
structure BytesKept (s t : State) : Prop where
  mem : t.mem = s.mem
  charts : t.charts = s.charts
  flips : t.sys.mcFlips = s.sys.mcFlips

theorem BytesKept.refl (s : State) : BytesKept s s := ⟨rfl, rfl, rfl⟩

theorem BytesKept.trans {s t u : State} (a : BytesKept s t) (b : BytesKept t u) : BytesKept s u :=
  ⟨b.mem.trans a.mem, b.charts.trans a.charts, b.flips.trans a.flips⟩

theorem BytesKept.foldl {α : Type} {f : State → α → State} (hf : ∀ s a, BytesKept s (f s a)) (l : List α) (s : State) :
    BytesKept s (l.foldl f s) := by
  induction l generalizing s with
  | nil => exact .refl s
  | cons a l ih => exact (hf s a).trans (ih _)

theorem BytesKept.byte {s t : State} (h : BytesKept s t) (a : Nat) : t.byte a = s.byte a := by
  simp only [State.byte, State.desc, partTable, h.mem, h.charts]

theorem hbmClear_bytes (s : State) (wa : Nat) : BytesKept s (hbmClear s wa) := by
  unfold hbmClear
  dsimp only
  split <;> exact ⟨rfl, rfl, rfl⟩

theorem setMark_clean_bytes (s : State) (wa : Nat) (whole : Bool) : BytesKept s (setMark s wa whole false) := by
  unfold setMark
  rw [if_neg Bool.false_ne_true, if_neg Bool.false_ne_true]
  split
  · split
    · exact hbmClear_bytes s wa
    · exact .refl s
  · split
    · exact ⟨rfl, rfl, rfl⟩
    · exact .refl s

/-- A write without marks changes marks, and no bytes. -/
theorem setMarks_clean_bytes (s : State) (a n : Nat) : BytesKept s (setMarks s a n []) := by
  unfold setMarks
  split
  · exact .refl s
  · exact .foldl (fun s i => setMark_clean_bytes ..) _ s

theorem mcPath_of_quiet {s : State} (h : s.sys.mcFlips = []) (a n : Nat) : mcPath s a n = s :=
  if_pos (by rw [h]; rfl)

theorem putBack_clean_bytes {s : State} {a : Nat} {bs : List Byte} (h : (s.store a bs).sys.mcFlips = [])
    (by_ : Option Nat) : BytesKept (s.store a bs) (s.putBack a bs [] by_) := by
  unfold State.putBack
  extract_lets marked checked tagged
  have hmarked : BytesKept (s.store a bs) marked := setMarks_clean_bytes ..
  have hchecked : checked = marked := by
    have hquiet := mcPath_of_quiet (hmarked.flips.trans h) a bs.length
    unfold checked
    split
    · exact hquiet
    · rfl
  have htagged : BytesKept (s.store a bs) tagged := by
    unfold tagged
    rw [hchecked]
    split
    · exact hmarked.trans ⟨rfl, rfl, rfl⟩
    · exact hmarked
  clear_value tagged
  split
  · split
    · exact htagged.trans ⟨rfl, rfl, rfl⟩
    · exact htagged
  · exact htagged

theorem sramPartial_of_empty (s : State) (a : Nat) : sramPartial s a 0 = s :=
  if_pos (by simp)

theorem hbmPartial_of_quiet {s : State} (h : s.sev = []) (a n : Nat) : hbmPartial s a n = s :=
  if_pos (by rw [h]; rfl)

/-- Bytes that lie in HBM outside the tables are stored in memory alone. -/
theorem store_of_plain {s : State} {a : Nat} {bs : List Byte} (hd : inDescTable s a bs.length = false)
    (hp : inPartTables s a bs.length = false) : s.store a bs = s.poke a bs := by
  rw [State.store, if_neg (by rw [hd]; exact Bool.false_ne_true), if_neg (by rw [hp]; exact Bool.false_ne_true)]

theorem write_clean_bytes {s : State} {a : Nat} {bs : List Byte} (hle : a + bs.length ≤ hbmEnd)
    (hd : inDescTable s a bs.length = false) (hp : inPartTables s a bs.length = false) (hs : s.sev = [])
    (hf : s.sys.mcFlips = []) (by_ : Option Nat) : BytesKept (s.poke a bs) (s.write a bs [] by_) := by
  unfold State.write
  have hpartial : (if a < hbmEnd then hbmPartial s a bs.length else sramPartial s a bs.length) = s := by
    split
    · exact hbmPartial_of_quiet hs ..
    · rw [show bs.length = 0 by omega, sramPartial_of_empty]
  rw [hpartial, ← store_of_plain hd hp]
  refine putBack_clean_bytes ?_ by_
  rw [store_of_plain hd hp]
  exact hf

/-- A byte outside the tables is read from memory. -/
theorem byte_of_plain {s : State} {x : Nat}
    (hd : ¬ (s.charts.descBase ≤ x ∧ x < s.charts.descBase + descTableSize)) (hp : partTable s x = none) :
    s.byte x = memByte s.mem x := by
  unfold State.byte
  rw [if_neg (by simpa using hd), hp]

theorem partTable_of_plain {s : State} {a n x : Nat} (hp : inPartTables s a n = false) (h1 : a ≤ x) (h2 : x < a + n) :
    partTable s x = none := by
  unfold partTable
  rw [List.find?_eq_none]
  intro q hq
  unfold inPartTables at hp
  have hno := List.any_eq_false.mp hp q hq
  simp only [Bool.and_eq_true, decide_eq_true_eq] at hno ⊢
  omega

theorem poke_byte_inside {s : State} {a : Nat} {bs : List Byte} (hd : inDescTable s a bs.length = false)
    (hp : inPartTables s a bs.length = false) {j : Nat} (hj : j < bs.length) :
    (s.poke a bs).byte (a + j) = bs.getD j 0 := by
  have hdesc : ¬ (s.charts.descBase ≤ a + j ∧ a + j < s.charts.descBase + descTableSize) := by
    unfold inDescTable at hd
    simp only [Bool.and_eq_false_iff, decide_eq_false_iff_not] at hd
    omega
  rw [byte_of_plain (s := s.poke a bs) hdesc (partTable_of_plain hp (by omega) (by omega))]
  change memByte (memSetAll s.mem a bs) (a + j) = _
  rw [memByte_memSetAll, if_pos (by omega), Nat.add_sub_cancel_left]

theorem poke_byte_outside (s : State) {a x : Nat} {bs : List Byte} (h : x < a ∨ a + bs.length ≤ x) :
    (s.poke a bs).byte x = s.byte x := by
  have hmem : memByte (s.poke a bs).mem x = memByte s.mem x := by
    change memByte (memSetAll s.mem a bs) x = _
    rw [memByte_memSetAll, if_neg (by omega)]
  rw [State.byte, State.byte, hmem]
  rfl

theorem fit_of_length {bs : List Byte} {n : Nat} (h : bs.length = n) : fit bs n = bs := by
  subst h
  simp [fit, slice, zeros]

/-- An answer to an agent other than a command processor, with a code that faults no context, changes no byte. -/
theorem answer_ok_bytes (s : State) {i : Issuer} (hi : ∀ c x, i ≠ .remoteOp c x) (tag : Nat) :
    BytesKept s (answer s (.inside i) tag { }) := by
  cases i with
  | remoteOp c x => exact absurd rfl (hi c x)
  | _ => exact ⟨rfl, rfl, rfl⟩

/-- Settles O60: of what a PUT does, only the store changes bytes, and it changes its own. -/
theorem putsLandByteByByte : Obligations.PutsLandByteByByte := by
  unfold Obligations.PutsLandByteByByte
  intro r i s t ho hi hl hp hcode heff hlen hpoison hle hd ht hflips hmc hsev hexec
  rw [exec_inside ho hl (k := .put) (.inl ⟨rfl, rfl⟩), serveInside_plain hp hflips hcode heff] at hexec
  cases hexec
  have hfit : fit r.data r.len = r.data := fit_of_length hlen
  rw [← hlen] at hle hd ht ⊢
  have hwrite : BytesKept (s.poke r.addr r.data) (s.write r.addr (fit r.data r.len) r.poison r.origin.cluster?) := by
    rw [hfit, hpoison]
    exact write_clean_bytes hle hd ht hsev hmc _
  have hkept := hwrite.trans (ho ▸ answer_ok_bytes _ hi r.tag :
    BytesKept _ (answer (s.write r.addr (fit r.data r.len) r.poison r.origin.cluster?) r.origin r.tag { }))
  exact ⟨fun j hj => (hkept.byte _).trans (poke_byte_inside hd ht hj),
    fun x hx => (hkept.byte _).trans (poke_byte_outside s hx)⟩

/-! ## Arrivals (R305, R350, R361) -/

theorem exec_arrival {r : Req} {node stream sseq : U16} {we : BitVec 8} {ue : U32} {k : Kind} {c : Instr}
    (hc : (k = .put ∧ c = .put r) ∨ (k = .get ∧ c = .get r) ∨ (k = .cput ∧ c = .cput r) ∨ (k = .add ∧ c = .add r) ∨
      (k = .max ∧ c = .max r) ∨ (k = .cmpcnt ∧ c = .cmpcnt r))
    (ho : r.origin = .arrival node stream sseq we ue) (s : State) :
    exec c s = .next (linkArrival s k r node stream sseq) := by
  rcases hc with ⟨rfl, rfl⟩ | ⟨rfl, rfl⟩ | ⟨rfl, rfl⟩ | ⟨rfl, rfl⟩ | ⟨rfl, rfl⟩ | ⟨rfl, rfl⟩ <;>
    simp only [exec, execPut, execGet, execCput, execAdd, execMax, execCmpcnt, request, ho]

theorem linkArrival_local {s : State} {r : Req} {node : U16} (hf : s.form.committed = true) (hl : isLocal s r.node = true)
    (hn : node ≠ 0xFFFF) (k : Kind) (stream sseq : U16) :
    linkArrival s k r node stream sseq = arrive s k { r with tag := headTag k r } node stream sseq := by
  unfold linkArrival
  rw [if_neg (by simp [hf]), if_pos hl, if_neg hn]

theorem answer_arrival (s : State) {node : U16} (hn : node ≠ 0xFFFF) (stream sseq : U16) (we : BitVec 8) (ue : U32)
    (tag : Nat) (a : Ans) : answer s (.arrival node stream sseq we ue) tag a =
      s.emit (replyOut (.arrival node stream sseq we ue) tag a) := if_neg hn

theorem admitNow_arrival {r : Req} {node stream sseq : U16} {we : BitVec 8} {ue : U32}
    (ho : r.origin = .arrival node stream sseq we ue) (s : State) (k : Kind) : admitNow s k r =
      answer? (serveArrival s k r node.toNat we).1 r.origin r.tag (serveArrival s k r node.toNat we).2 := by
  unfold admitNow
  rw [ho]

/-- A GET that its pass grants counts at the pass and reads plain memory. -/
theorem serveArrival_granted {s : State} {r : Req} {node pn : Nat} {we : BitVec 8}
    (hcode : arrivalCode s .get r node we = (.ok, pn)) (hmap : mapCheck s r.addr r.len = .ok)
    (heff : effectCode (s.updPass pn (fun h => { h with arrivals := h.arrivals + 1 })) .get r = .ok)
    (hp : PlainAt (s.updPass pn (fun h => { h with arrivals := h.arrivals + 1 })) r.addr) (hf : s.sys.fab.flips = []) :
    serveArrival s .get r node we =
      (let t := (s.updPass pn (fun h => { h with arrivals := h.arrivals + 1 })).settle r.addr r.len
       (t, some { data := t.bytes r.addr r.len, poison := t.marks r.addr r.len })) := by
  unfold serveArrival
  rw [hcode]
  refine (if_pos rfl).trans ((if_pos hmap).trans ?_)
  rw [performVia_plain hp heff hf, performAt_plain hp heff]
  rfl

/-- Settles O23: the stream's order decides whether an arrival is admitted, held or discarded, and an admitted one is refused
or performed. -/
theorem arrivalsThroughHallPasses : Obligations.ArrivalsThroughHallPasses := by
  unfold Obligations.ArrivalsThroughHallPasses
  intro r node stream sseq we ue s k c hc ho hl hn
  refine ⟨fun hf => ?dropped, fun hf p hpair hheld => ⟨fun hnext => ?next, fun h0 h1 => ?later, fun h1 => ?past⟩,
    fun code pn hcode hne => ?refused, fun pn hcode hmap heff hp hflips => ?granted⟩
  case dropped =>
    rw [exec_arrival hc ho, linkArrival, if_pos (by simp [hf])]
  case next =>
    rw [exec_arrival hc ho, linkArrival_local hf hl hn, arrive]
    simp only [hpair, Option.getD_some]
    rw [if_pos (by rw [hnext]; exact BitVec.sub_self _), hheld]
    rfl
  case later =>
    rw [exec_arrival hc ho, linkArrival_local hf hl hn, arrive]
    simp only [hpair, Option.getD_some]
    rw [if_neg (by intro e; rw [e] at h0; exact h0 rfl), if_pos h1, hheld]
    rfl
  case past =>
    rw [exec_arrival hc ho, linkArrival_local hf hl hn, arrive]
    simp only [hpair, Option.getD_some]
    rw [if_neg (by intro e; rw [e] at h1; exact absurd h1 (by decide)), if_neg (Nat.not_lt.2 h1)]
  case refused =>
    rw [admitNow_arrival ho, serveArrival, hcode]
    simp only [hne, if_false]
    rw [ho]
    exact congrArg _ rfl |>.trans (answer_arrival _ hn ..)
  case granted =>
    rw [admitNow_arrival ho, serveArrival_granted hcode hmap heff hp hflips, ho]
    exact answer_arrival _ hn ..

/-! ## The replay buffer (R358) -/

/-- The place in the replay buffer, counted from the oldest flit, that a number names. -/
def replayPlace (q : Port) (n : BitVec 12) : Nat := (n - (q.txSeq - BitVec.ofNat 12 q.replay.length)).toNat

theorem ackTo_port_same (s : State) (port : Nat) (n : BitVec 12) : (ackTo s port n).port port =
    if replayPlace (s.port port) n ≤ (s.port port).replay.length then
      { s.port port with replay := (s.port port).replay.drop (replayPlace (s.port port) n) }
    else s.port port := State.port_updPort_same ..

theorem replayPlace_of_number {q : Port} {n : BitVec 12} {i : Nat} (hl : q.replay.length ≤ 1024)
    (hi : i ≤ q.replay.length) (h : n = q.txSeq - BitVec.ofNat 12 q.replay.length + BitVec.ofNat 12 i) :
    replayPlace q n = i := by
  rw [replayPlace, h, BitVec.add_comm, BitVec.add_sub_cancel, BitVec.toNat_ofNat, Nat.mod_eq_of_lt (by omega)]

theorem number_of_replayPlace (q : Port) (n : BitVec 12) :
    n = q.txSeq - BitVec.ofNat 12 q.replay.length + BitVec.ofNat 12 (replayPlace q n) := by
  rw [replayPlace, BitVec.ofNat_toNat, BitVec.setWidth_eq, BitVec.add_comm, BitVec.sub_add_cancel]

theorem flitNumber_sub_add (a b c : BitVec 12) : a - (b + c) + c = a - b := by bv_omega

/-- Settles O51: an acknowledged number is the place of a flit in the buffer, counted from the oldest. -/
theorem replayBufferNumbers : Obligations.ReplayBufferNumbers := by
  unfold Obligations.ReplayBufferNumbers
  intro s port n hlen q r
  have hr : r = _ := ackTo_port_same s port n
  refine ⟨fun i hi hn => ?inside, fun hno => ?outside, fun p hp => ?others⟩
  case inside =>
    rw [hr, replayPlace_of_number hlen hi hn, if_pos hi]
    refine ⟨rfl, hn.trans ?_⟩
    have hdrop : (q.replay.drop i).length + i = q.replay.length := by rw [List.length_drop]; omega
    rw [← hdrop, BitVec.ofNat_add, flitNumber_sub_add]
  case outside =>
    rw [hr]
    exact if_neg fun hle => hno _ hle (number_of_replayPlace ..)
  case others => exact (State.port_updPort ..).trans (if_neg hp)

end Sys2Proof.Machine
end

section
/-!
The statements about the stream instructions that change registers only (spec/08_streams.md, R195, R199, R200), and the
obligations that follow.
-/

namespace Sys2Proof.Machine

open Sys2Proof

/-! ## A stream changed -/

theorem streamAt_updStream (s : State) (c n : Nat) (f : Stream → Stream) (d m : Nat) :
    streamAt (updStream s c n f) d m = if d = c ∧ m = n then f (streamAt s c n) else streamAt s d m := by
  unfold streamAt updStream
  rw [State.core_updCore]
  by_cases hd : d = c
  · subst hd
    simp only [if_true, true_and]
    exact Map.get_upd ..
  · simp [hd]

theorem updStream_core_other (s : State) {c k : Nat} (h : k ≠ c) (n : Nat) (f : Stream → Stream) :
    (updStream s c n f).core k = s.core k := by
  rw [updStream, State.core_updCore, if_neg h]

theorem updStream_core_same (s : State) (c n : Nat) (f : Stream → Stream) :
    (updStream s c n f).core c = { s.core c with streams := Map.upd (s.core c).streams n { } f } := by
  rw [updStream, State.core_updCore_same]

/-! ## An instruction of registers, at the stream's place and elsewhere -/

theorem streamStep_at {s : State} {core : Fin 32} {n : Fin 16} {op : Nat} (h : (streamAt s core n).at? op = true)
    (f : Stream → BitVec 128 → Stream) : streamStep s core n op f =
      .next (updStream s core n (fun _ => f (streamAt s core n) (streamAt s core n).ins)) := by
  rw [streamStep, if_pos h, updStream_const]

theorem streamStep_cases {s t : State} {core : Fin 32} {n : Fin 16} {op : Nat} {f : Stream → BitVec 128 → Stream}
    (h : streamStep s core n op f = .next t) : t = s ∨ ∃ g, t = updStream s core n g := by
  unfold streamStep at h
  dsimp only at h
  split at h
  · cases h
    exact .inr ⟨_, rfl⟩
  · cases h
    exact .inl rfl

/-- The seven instructions that change only the registers of their stream. -/
def IsRegisterInstr (core : Fin 32) (n : Fin 16) (c : Instr) : Prop :=
  c = .endProgram core n ∨ c = .loop core n ∨ c = .hloop core n ∨ c = .endl core n ∨ c = .seta core n ∨
    c = .adda core n ∨ c = .setd core n

variable (core : Fin 32) (n : Fin 16) (s : State)

theorem exec_endProgram : exec (.endProgram core n) s = execEnd core n s := rfl
theorem exec_loop : exec (.loop core n) s = execLoop core n s := rfl
theorem exec_hloop : exec (.hloop core n) s = execHloop core n s := rfl
theorem exec_endl : exec (.endl core n) s = execEndl core n s := rfl
theorem exec_seta : exec (.seta core n) s = execSeta core n s := rfl
theorem exec_adda : exec (.adda core n) s = execAdda core n s := rfl
theorem exec_setd : exec (.setd core n) s = execSetd core n s := rfl

variable {core n s}

theorem exec_registerInstr_cases {t : State} {c : Instr} (hc : IsRegisterInstr core n c)
    (h : exec c s = .next t) : t = s ∨ ∃ g, t = updStream s core n g := by
  rcases hc with rfl | rfl | rfl | rfl | rfl | rfl | rfl
  · rw [exec_endProgram] at h
    exact streamStep_cases h
  · rw [exec_loop] at h
    exact streamStep_cases h
  · rw [exec_hloop] at h
    exact streamStep_cases h
  · rw [exec_endl] at h
    exact streamStep_cases h
  · rw [exec_seta] at h
    exact streamStep_cases h
  · rw [exec_adda] at h
    exact streamStep_cases h
  · rw [exec_setd] at h
    exact streamStep_cases h

/-- What a change of one stream leaves. -/
structure StreamFrame (core : Fin 32) (n : Fin 16) (s t : State) : Prop where
  streams : ∀ m, m ≠ n.val → streamAt t core m = streamAt s core m
  cores : ∀ k, k ≠ core.val → t.core k = s.core k
  counters : (t.core core).counters = (s.core core).counters
  flags : (t.core core).flags = (s.core core).flags
  lessons : (t.core core).lessons = (s.core core).lessons
  ctxs : (t.core core).ctxs = (s.core core).ctxs
  mem : t.mem = s.mem
  dict : t.dict = s.dict
  charts : t.charts = s.charts
  outbox : t.outbox = s.outbox

theorem StreamFrame.refl (core : Fin 32) (n : Fin 16) (s : State) : StreamFrame core n s s :=
  ⟨fun _ _ => rfl, fun _ _ => rfl, rfl, rfl, rfl, rfl, rfl, rfl, rfl, rfl⟩

theorem StreamFrame.updStream (core : Fin 32) (n : Fin 16) (s : State) (f : Stream → Stream) :
    StreamFrame core n s (updStream s core n f) where
  streams m hm := by rw [streamAt_updStream, if_neg fun h => hm h.2]
  cores k hk := updStream_core_other s hk n f
  counters := by rw [updStream_core_same]
  flags := by rw [updStream_core_same]
  lessons := by rw [updStream_core_same]
  ctxs := by rw [updStream_core_same]
  mem := rfl
  dict := rfl
  charts := rfl
  outbox := rfl

/-- The moved part of an address stays below bit 48. -/
theorem addrAdd_offset_lt (a : Nat) (x : Int) : ((((a % 2 ^ 48 : Nat) : Int) + x) % (2 ^ 48 : Int)).toNat < 2 ^ 48 := by
  omega

theorem addrAdd_node (a : Nat) (x : Int) : addrAdd a x / 2 ^ 48 = a / 2 ^ 48 := by
  have h := addrAdd_offset_lt a x
  unfold addrAdd
  omega

theorem addrAdd_offset (a : Nat) (x : Int) : (addrAdd a x : Int) % 2 ^ 48 = ((a : Int) + x) % 2 ^ 48 := by
  unfold addrAdd
  omega

/-- Settles O28: each of the seven instructions leaves the state or changes one stream of it. -/
theorem streamInstructionsFrame : Obligations.StreamInstructionsFrame := by
  unfold Obligations.StreamInstructionsFrame
  refine ⟨fun core n s t c hc h => ?frame, fun a x => ⟨addrAdd_node a x, addrAdd_offset a x⟩⟩
  case frame =>
    have hframe : StreamFrame core n s t := by
      rcases exec_registerInstr_cases hc h with rfl | ⟨g, rfl⟩
      · exact .refl ..
      · exact .updStream ..
    obtain ⟨hstreams, hcores, hcounters, hflags, hlessons, hctxs, hmem, hdict, hcharts, hout⟩ := hframe
    exact ⟨hstreams, hcores, hcounters, hflags, hlessons, hctxs, hmem, hdict, hcharts, hout⟩

/-- ENDL on the innermost level (R200). -/
def endlStream (t : Stream) (l : Loop) (rest : List Loop) : Stream :=
  if l.idx + 1 < l.count then
    { t.setA l.areg (if l.hilbert then hilbertAddr { l with idx := l.idx + 1 } else addrAdd (t.areg l.areg) l.sx) with
      pc := l.body, loops := { l with idx := l.idx + 1 } :: rest }
  else { t.setA l.areg l.saved with pc := t.pc + 1, loops := rest }

theorem exec_endl_at (h : (streamAt s core n).at? 2 = true) {l : Loop}
    {rest : List Loop} (hl : (streamAt s core n).loops = l :: rest) : exec (.endl core n) s =
      .next (updStream s core n (fun _ => endlStream (streamAt s core n) l rest)) := by
  rw [exec_endl, execEndl, streamStep_at h]
  simp only [hl]
  rfl

/-- Settles O27: an instruction at the stream's place sets the stream to what its definition says of the stream's registers. -/
theorem streamRegisterInstructions : Obligations.StreamRegisterInstructions := by
  unfold Obligations.StreamRegisterInstructions
  intro core n s t i r sets
  refine ⟨fun h => ?endProgram, fun h => ?loop, fun h => ?hloop,
    fun h l rest hl => ⟨fun hlt hh => ?step, fun hlt hh => ?hilbert, fun hle => ?leave⟩, fun h => ?seta,
    fun h => ?adda, fun h => ?setd⟩
  case endProgram => rw [exec_endProgram, execEnd, streamStep_at h]
  case loop => rw [exec_loop, execLoop, streamStep_at h]
  case hloop => rw [exec_hloop, execHloop, streamStep_at h]
  case seta => rw [exec_seta, execSeta, streamStep_at h]
  case adda => rw [exec_adda, execAdda, streamStep_at h]
  case setd => rw [exec_setd, execSetd, streamStep_at h]
  case step => rw [exec_endl_at h hl, endlStream, if_pos hlt, hh, if_neg Bool.false_ne_true]
  case hilbert => rw [exec_endl_at h hl, endlStream, if_pos hlt, hh, if_pos rfl]
  case leave => rw [exec_endl_at h hl, endlStream, if_neg (Nat.not_lt.2 hle)]

end Sys2Proof.Machine
end

section
/-!
The statements about the stream instructions that reach beyond the stream, and about its arming and its end
(spec/08_streams.md, R196 to R206), and the obligations that follow.
-/

namespace Sys2Proof.Machine

open Sys2Proof

variable {core : Fin 32} {n : Fin 16} {s : State} {l : LessonRun}

/-! ## MARK, WAIT and STREAM_END (R199, R204, R210) -/

theorem exec_mark_at (h : (streamAt s core n).at? 9 = true) (hl : lessonAt s core (streamAt s core n).lesson = some l) :
    exec (.mark core n) s = .next (if (streamAt s core n).acks != 0 then s
      else streamCount (updStream s core n (fun t => { t with pc := t.pc + 1 })) core
        (insF (streamAt s core n).ins 115 8) l.ctx) := by
  change execMark core n s = _
  simp only [execMark, h, hl, Bool.not_true, Bool.false_or]

theorem exec_wait_at {ctr v : Nat} (h : (streamAt s core n).at? 10 = true)
    (hc : insF (streamAt s core n).ins 115 8 = ctr) (hv : insF (streamAt s core n).ins 83 32 = v) :
    exec (.wait core n) s = .next
      (if v ≤ (s.counter core ctr).toNat then
        settleAll ((updStream s core n (fun t => { t with pc := t.pc + 1 })).updCore core (fun k =>
          { k with waits := Map.erase k.waits n })) core
      else settleAll (s.updCore core (fun k => { k with waits := Map.put k.waits n (ctr, v) })) core) := by
  subst hc hv
  change execWait core n s = _
  simp only [execWait, h, Bool.not_true, Bool.false_eq_true, if_false]

/-- Whether a stream has reached END and nothing of it is outstanding. -/
def Stream.landed (t : Stream) : Bool := !(!t.bound || !t.ended || !t.parts.isEmpty || t.acks != 0)

theorem landed_iff (t : Stream) :
    t.landed = true ↔ t.bound = true ∧ t.ended = true ∧ t.parts = [] ∧ t.acks = 0 := by
  simp [Stream.landed, and_assoc]

theorem exec_streamEnd_of_not_landed (h : ¬ (streamAt s core n).landed = true) :
    exec (.streamEnd core n) s = .next s := by
  refine congrArg Host.Outcome.next (if_pos ?_)
  simpa only [Stream.landed, Bool.not_eq_true', Bool.not_eq_false] using h

theorem exec_streamEnd_of_landed (h : (streamAt s core n).landed = true)
    (hl : lessonAt s core (streamAt s core n).lesson = some l) : exec (.streamEnd core n) s = .next
      (if streamStale s (streamAt s core n) then staleFault s core (streamAt s core n)
       else pumpSource (ringLoaded (if bit (streamAt s core n).arm.toNat 15 then
            streamCount (streamRelease s core n) core (bits (streamAt s core n).arm.toNat 24 8) l.ctx
          else streamRelease s core n) core (streamAt s core n).lesson l (streamAt s core n)) core
          (streamAt s core n).lesson) := by
  have hok : (!(streamAt s core n).bound || !(streamAt s core n).ended || !(streamAt s core n).parts.isEmpty ||
      (streamAt s core n).acks != 0) = false := by
    simpa only [Stream.landed, Bool.not_eq_true'] using h
  change execStreamEnd core n s = _
  simp only [execStreamEnd, hok, hl, Bool.false_eq_true, if_false]

/-- A Lesson that loads no ring buffer leaves the ring table. -/
theorem ringLoaded_of_none (h : l.ringStart = none) (u : State) (c id : Nat) (t : Stream) : ringLoaded u c id l t = u := by
  rw [ringLoaded, h]

theorem ringLoaded_of_bad {st : Nat} (h : l.ringStart = some st) {u : State} {c : Nat} {t : Stream}
    (hbad : t.d - st = 0 ∨ (t.d - st) % 256 ≠ 0 ∨ ringBytes u c < t.d - st) (id : Nat) :
    ringLoaded u c id l t = lessonFault u c id .valueRange := by
  rw [ringLoaded, h]
  exact if_pos (by simpa [or_assoc] using hbad)

theorem ringLoaded_of_good {st : Nat} (h : l.ringStart = some st) {u : State} {c : Nat} {t : Stream}
    (h0 : t.d - st ≠ 0) (h256 : (t.d - st) % 256 = 0) (hle : t.d - st ≤ ringBytes u c) (id : Nat) :
    ringLoaded u c id l t = u.updCore c (fun k => { k with
      ring := k.ring.filter (fun r => !(r.rep == lrep l.desc && r.layer == llayer l.desc)) ++
        [{ rep := lrep l.desc, layer := llayer l.desc
           buf := (st / 1024 - u.ent .ringBaseRow (c / 8)) / max 1 (u.ent .ringSliceRows (c / 8))
           slice := ringPos u c, len := t.d - st, fmt := bits t.arm.toNat 43 5, side := bit t.arm.toNat 42
           stream := bits t.arm.toNat 32 4 }] }) := by
  rw [ringLoaded, h]
  exact if_neg (by simp [h0, h256, Nat.not_lt.2 hle])

/-- Settles O30: MARK and WAIT judge one count each; the end of a stream judges its epoch and, for a weight load, its length. -/
theorem markWaitAndStreamEnd : Obligations.MarkWaitAndStreamEnd := by
  unfold Obligations.MarkWaitAndStreamEnd
  intro core n s l t i ctr hl
  refine ⟨fun h => ⟨fun ha => ?mark, fun ha => ?markWaits⟩, fun h => ⟨fun hv => ?wait, fun hv => ?waits⟩,
    fun hb he hp ha => ?ended, fun h => ?notEnded⟩
  case mark => rw [exec_mark_at h hl, if_neg (by simpa using ha)]
  case markWaits => rw [exec_mark_at h hl, if_pos (by simpa using ha)]
  case wait => rw [exec_wait_at h rfl rfl, if_pos hv]
  case waits => rw [exec_wait_at h rfl rfl, if_neg (Nat.not_le.2 hv)]
  case notEnded =>
    refine exec_streamEnd_of_not_landed fun hlanded => ?_
    obtain ⟨hb, he, hp, ha⟩ := (landed_iff t).mp hlanded
    rcases h with h | h | h | h
    · exact Bool.false_ne_true (h.symm.trans hb)
    · exact Bool.false_ne_true (h.symm.trans he)
    · exact h hp
    · exact h ha
  case ended =>
    rw [exec_streamEnd_of_landed ((landed_iff t).mpr ⟨hb, he, hp, ha⟩) hl]
    refine ⟨fun hs => congrArg Host.Outcome.next (if_pos hs), fun hs => ?_⟩
    rw [if_neg (fun e => Bool.false_ne_true (hs.symm.trans e))]
    exact ⟨fun hr => by rw [ringLoaded_of_none hr], fun st hr => ⟨fun hbad => by rw [ringLoaded_of_bad hr hbad],
      fun h0 h256 hle => by rw [ringLoaded_of_good hr h0 h256 hle]⟩⟩

/-! ## WALK (R201) -/

/-- The slot page that a WALK names: by a loop index, or by the next word of a list. -/
def walkPage (s : State) (c n : Nat) (l : LessonRun) (t : Stream) : State × FC × Option Nat :=
  if insF t.ins 118 3 = 7 then
    match rdSp s c l (t.areg 3 % 2 ^ 24) 4 with
    | (s, none) => (s, .scratchRange, none)
    | (s, some w) =>
      if w.any Prod.snd then (s, .dataPoisoned, none)
      else (updStream s c n (fun t => t.setA 3 (addrAdd (t.areg 3) 4)), .ok,
        if leNat (mbytes w) = 0xFFFFFFFF then none else some (leNat (mbytes w)))
  else
    (s, .ok, some ((((t.loops.drop (t.loops.length - 1 - insF t.ins 118 3)).head?.map (fun q => q.idx)).getD 0 +
      insF t.ins 0 48) % 2 ^ 48))

/-- A WALK of slot page sp: the end of the extent, a refused translation, an address, or a wait. -/
def walkTo (w : State) (c n : Nat) (t : Stream) (sp : Nat) : State :=
  if 256 * sp ≥ t.extent then updStream w c n (fun v => endLoopAt v (insF t.ins 118 3))
  else
    match seqLayout w (walkSeq t) with
    | none => lessonFaultSeq w c t.lesson .chartMalformed (some (walkSeq t))
    | some lay =>
      match translate w c t.lesson (walkSeq t) t.epoch (chartPage lay sp (insF t.ins 104 12)) with
      | (u, .entry e) =>
        updStream u c n (fun v =>
          { v.setA (insF t.ins 121 2) (walkAddr lay (frameGlobal u e) (insF t.ins 116 2) (insF t.ins 104 12)) with
            pc := v.pc + 1, pages := (e, sp) :: v.pages.filter (· != (e, sp)) })
      | (u, .wait) => if insF t.ins 118 3 = 7 then updStream u c n (fun v => v.setA 3 (t.areg 3)) else u
      | (u, .fault code) => lessonFaultSeq u c t.lesson code (blamed code false (walkSeq t))

/-- A WALK once its slot page is known: a refusal, the end of a list, or a page. -/
def walkOn (c n : Nat) (t : Stream) (page : State × FC × Option Nat) : State :=
  match page with
  | (w, .ok, none) => updStream w c n (fun v => endLoopAt v (insF t.ins 118 3))
  | (w, .ok, some sp) => walkTo w c n t sp
  | (w, code, _) => lessonFault w c t.lesson code

theorem exec_walk_at (h : (streamAt s core n).at? 7 = true) (hl : lessonAt s core (streamAt s core n).lesson = some l) :
    exec (.walk core n) s =
      .next (walkOn core n (streamAt s core n) (walkPage s core n l (streamAt s core n))) := by
  change execWalk core n s = _
  unfold execWalk
  extract_lets c m t i r level z off seq
  have hat : ¬ (!t.at? 7) = true := by rw [show t.at? 7 = true from h]; exact Bool.false_ne_true
  have hlesson : lessonAt s c t.lesson = some l := hl
  rw [if_neg hat]
  simp -zeta only [hlesson]
  rfl

theorem walkOn_fault {w : State} {code : FC} (hc : code ≠ .ok) (c n : Nat) (t : Stream) (p : Option Nat) :
    walkOn c n t (w, code, p) = lessonFault w c t.lesson code := by
  unfold walkOn
  split
  · rename_i e
    cases e
    exact absurd rfl hc
  · rename_i e
    cases e
    exact absurd rfl hc
  · rename_i e
    cases e
    rfl

theorem walkTo_end {t : Stream} {sp : Nat} (h : t.extent ≤ 256 * sp) (w : State) (c n : Nat) :
    walkTo w c n t sp = updStream w c n (fun v => endLoopAt v (insF t.ins 118 3)) := if_pos h

theorem walkTo_malformed {w : State} {t : Stream} {sp : Nat} (h : 256 * sp < t.extent)
    (hs : seqLayout w (walkSeq t) = none) (c n : Nat) :
    walkTo w c n t sp = lessonFaultSeq w c t.lesson .chartMalformed (some (walkSeq t)) := by
  rw [walkTo, if_neg (Nat.not_le.2 h), hs]

section
variable {w u : State} {t : Stream} {sp : Nat} {lay : Layout} (h : 256 * sp < t.extent)
  (hs : seqLayout w (walkSeq t) = some lay)
include h hs

theorem walkTo_entry {c e : Nat}
    (ht : translate w c t.lesson (walkSeq t) t.epoch (chartPage lay sp (insF t.ins 104 12)) = (u, .entry e)) (n : Nat) :
    walkTo w c n t sp = updStream u c n (fun v =>
      { v.setA (insF t.ins 121 2) (walkAddr lay (frameGlobal u e) (insF t.ins 116 2) (insF t.ins 104 12)) with
        pc := v.pc + 1, pages := (e, sp) :: v.pages.filter (· != (e, sp)) }) := by
  rw [walkTo, if_neg (Nat.not_le.2 h), hs]
  simp only [ht]

theorem walkTo_fault {c : Nat} {code : FC}
    (ht : translate w c t.lesson (walkSeq t) t.epoch (chartPage lay sp (insF t.ins 104 12)) = (u, .fault code)) (n : Nat) :
    walkTo w c n t sp = lessonFaultSeq u c t.lesson code (blamed code false (walkSeq t)) := by
  rw [walkTo, if_neg (Nat.not_le.2 h), hs]
  simp only [ht]

theorem walkTo_wait {c : Nat}
    (ht : translate w c t.lesson (walkSeq t) t.epoch (chartPage lay sp (insF t.ins 104 12)) = (u, .wait)) (n : Nat) :
    walkTo w c n t sp = if insF t.ins 118 3 = 7 then updStream u c n (fun v => v.setA 3 (t.areg 3)) else u := by
  rw [walkTo, if_neg (Nat.not_le.2 h), hs]
  simp only [ht]

end

/-! ## The slot page of a WALK -/

theorem walkPage_of_loop {t : Stream} (h : insF t.ins 118 3 ≠ 7) (s : State) (c n : Nat) (l : LessonRun) :
    walkPage s c n l t = (s, .ok, some ((((t.loops.drop (t.loops.length - 1 - insF t.ins 118 3)).head?.map
      (fun q => q.idx)).getD 0 + insF t.ins 0 48) % 2 ^ 48)) := if_neg h

section
variable {t : Stream} {r : State} {b : List MByte} {c : Nat} (h : insF t.ins 118 3 = 7)
include h

theorem walkPage_of_unreadable (hr : rdSp s c l (t.areg 3 % 2 ^ 24) 4 = (r, none)) (n : Nat) :
    walkPage s c n l t = (r, .scratchRange, none) := by
  rw [walkPage, if_pos h, hr]

theorem walkPage_of_poisoned (hr : rdSp s c l (t.areg 3 % 2 ^ 24) 4 = (r, some b)) (hb : b.any Prod.snd = true)
    (n : Nat) : walkPage s c n l t = (r, .dataPoisoned, none) := by
  rw [walkPage, if_pos h, hr]
  exact if_pos hb

theorem walkPage_of_word (hr : rdSp s c l (t.areg 3 % 2 ^ 24) 4 = (r, some b)) (hb : b.any Prod.snd = false)
    (n : Nat) : walkPage s c n l t = (updStream r c n (fun t => t.setA 3 (addrAdd (t.areg 3) 4)), .ok,
      if leNat (mbytes b) = 0xFFFFFFFF then none else some (leNat (mbytes b))) := by
  rw [walkPage, if_pos h, hr]
  exact if_neg (by rw [hb]; exact Bool.false_ne_true)

end

/-! ## EMIT of a stream of another context or epoch (R59, R204) -/

section
variable (h : (streamAt s core n).at? 8 = true) (hl : lessonAt s core (streamAt s core n).lesson = some l)
include h hl

theorem exec_emit_at : exec (.emit core n) s = .next
    (if (s.ctx core l.ctx).state = .switched then s
     else if streamStale s (streamAt s core n) then staleFault s core (streamAt s core n)
     else if bit (streamAt s core n).arm.toNat 37 then emitStore s core n l else emitLoad s core n l) := by
  change execEmit core n s = _
  simp only [execEmit, h, hl, Bool.not_true, Bool.false_eq_true, if_false]

variable (hctx : (s.ctx core l.ctx).state ≠ .switched) (hstale : streamStale s (streamAt s core n) = false)
include hctx hstale

theorem exec_emit_load (hd : bit (streamAt s core n).arm.toNat 37 = false) :
    exec (.emit core n) s = .next (emitLoad s core n l) := by
  rw [exec_emit_at h hl, if_neg hctx, hstale, hd]
  rfl

theorem exec_emit_store (hd : bit (streamAt s core n).arm.toNat 37 = true) :
    exec (.emit core n) s = .next (emitStore s core n l) := by
  rw [exec_emit_at h hl, if_neg hctx, hstale, hd]
  rfl

end

/-! ## EMIT of a load stream (R203) -/

/-- The code of the mask of an EMIT: a multicast to other cores is checked. -/
def emitMask (s : State) (c : Nat) (t : Stream) : FC :=
  if insF t.ins 116 4 = 7 then mcastCode s (c / 8) (bits t.arm.toNat 16 8) else .ok

theorem emitLoad_refused {c m : Nat} (h : emitMask s c (streamAt s c m) ≠ .ok) :
    emitLoad s c m l = lessonFault s c (streamAt s c m).lesson (emitMask s c (streamAt s c m)) :=
  if_pos (bne_iff_ne.mpr h)

theorem emitLoad_local {c m g len : Nat} (hm : emitMask s c (streamAt s c m) = .ok)
    (hg : (streamAt s c m).areg (insF (streamAt s c m).ins 121 2) = g)
    (hn : 16 * (insF (streamAt s c m).ins 96 16 + 1) = len) (hl : isLocal s (g / 2 ^ 48) = true)
    {u : State} {code : FC} {data : List MByte} (hr : readLocal s c m l g len = (u, code, data)) :
    emitLoad s c m l = if code = .ok then deliver u c m l g data else lessonFault u c (streamAt s c m).lesson code := by
  subst hg hn
  refine (if_neg fun e => bne_iff_ne.mp e hm).trans ((if_pos hl).trans ?_)
  rw [hr]
  by_cases hc : code = .ok
  · subst hc
    rfl
  · rw [if_neg hc]
    split <;> (rename_i e; cases e)
    · exact absurd rfl hc
    · rfl

/-- The request of one line of an EMIT from another node. -/
def lineRequest (s : State) (core : Fin 32) (n : Fin 16) (l : LessonRun) (g : Nat) (p : Nat × Nat) : State × Option Ans :=
  sendOut s .get { origin := .inside (.stream core (Fin.ofNat 8 l.ctx) n)
                   tenant := BitVec.ofNat 12 (s.ctx core l.ctx).tenant
                   target := BitVec.ofNat 64 (g + p.1), len := p.2 } (.stream core (Fin.ofNat 8 l.ctx) n) (.stream core n)

/-- One line of an EMIT from another node is requested, unless an earlier one was refused. -/
def requestLine (core : Fin 32) (n : Fin 16) (l : LessonRun) (g : Nat) (q : State × FC) (p : Nat × Nat) : State × FC :=
  if q.2 ≠ .ok then q
  else match lineRequest q.1 core n l g p with
    | (w, some a) => (w, a.code)
    | (w, none) => (updStream w core n (fun t =>
        { t with parts := t.parts ++ [{ num := q.1.remote.nextReq, off := p.1, data := none }] }), .ok)

theorem emitLoad_remote {g len : Nat} (hm : emitMask s core (streamAt s core n) = .ok)
    (hg : (streamAt s core n).areg (insF (streamAt s core n).ins 121 2) = g)
    (hn : 16 * (insF (streamAt s core n).ins 96 16 + 1) = len) (hl : isLocal s (g / 2 ^ 48) = false)
    {u : State} {code : FC}
    (hr : (linePieces (len + 1) (g % 2 ^ 48) len).foldl (requestLine core n l g) (s, .ok) = (u, code)) :
    emitLoad s core n l = if code = .ok then u else lessonFaultSeq u core (streamAt s core n).lesson code
      (if bit (streamAt s core n).arm.toNat 14 then
        blamed code (walkedRemote u (streamAt s core n) g) (walkSeq (streamAt s core n)) else none) := by
  subst hg hn
  refine (if_neg fun e => bne_iff_ne.mp e hm).trans ((if_neg fun e => Bool.false_ne_true (hl.symm.trans e)).trans ?_)
  have hfold : ∀ f, f = requestLine core n l ((streamAt s core n).areg (insF (streamAt s core n).ins 121 2)) →
      (linePieces (16 * (insF (streamAt s core n).ins 96 16 + 1) + 1)
        ((streamAt s core n).areg (insF (streamAt s core n).ins 121 2) % 2 ^ 48)
        (16 * (insF (streamAt s core n).ins 96 16 + 1))).foldl f (s, FC.ok) = (u, code) := by
    rintro _ rfl
    exact hr
  extract_lets iss
  rw [hfold]
  funext q p
  obtain ⟨w, c⟩ := q
  have hiss : iss = .stream core (Fin.ofNat 8 l.ctx) n := by
    rw [show iss = .stream (Fin.ofNat 32 core) (Fin.ofNat 8 l.ctx) (Fin.ofNat 16 n) from rfl,
      Fin.ofNat_val_eq_self, Fin.ofNat_val_eq_self]
  clear_value iss
  subst hiss
  unfold requestLine lineRequest
  by_cases hc : c = .ok
  · exact (if_neg fun e => bne_iff_ne.mp e hc).trans (if_neg fun e => e hc).symm
  · exact (if_pos (bne_iff_ne.mpr hc)).trans (if_pos hc).symm

/-! ## EMIT of a store stream (R41, R203) -/

/-- The layout that a store EMIT writes through: that of the walked sequence, where its stream walks. -/
def storeLayout (s : State) (t : Stream) : Option Layout := if bit t.arm.toNat 14 then seqLayout s (walkSeq t) else none

theorem emitStore_remote {c m g e sp : Nat} (hg : (streamAt s c m).areg (insF (streamAt s c m).ins 121 2) = g)
    (hp : ((storeLayout s (streamAt s c m)).bind fun y => storePage s (streamAt s c m) y g) = some (e, sp))
    (hr : (eShared e || eRemote e) = true) : emitStore s c m l =
      lessonFaultSeq s c (streamAt s c m).lesson .chartRemoteWrite (some (walkSeq (streamAt s c m))) := by
  subst hg
  unfold emitStore
  extract_lets t id i len g seq lay page
  rw [show page = some (e, sp) from hp]
  exact if_pos hr

/-- The move of a store EMIT whose page, if any, is neither shared nor remote. -/
theorem emitStore_go {c m g : Nat} (hg : (streamAt s c m).areg (insF (streamAt s c m).ins 121 2) = g)
    (hr : ∀ e sp, ((storeLayout s (streamAt s c m)).bind fun y => storePage s (streamAt s c m) y g) = some (e, sp) →
      (eShared e || eRemote e) = false) : emitStore s c m l =
      emitStore.go c m l s (streamAt s c m) (streamAt s c m).lesson (streamAt s c m).ins
        (16 * (insF (streamAt s c m).ins 96 16 + 1)) g (walkSeq (streamAt s c m)) (storeLayout s (streamAt s c m))
        ((storeLayout s (streamAt s c m)).bind fun y => storePage s (streamAt s c m) y g) := by
  subst hg
  unfold emitStore
  extract_lets t id i len g seq lay page
  change _ = emitStore.go c m l s t id i len g seq lay page
  have hpage : ∀ e sp, page = some (e, sp) → (eShared e || eRemote e) = false := hr
  clear_value page
  cases page with
  | none => rfl
  | some p => exact if_neg fun e => Bool.false_ne_true ((hpage p.1 p.2 rfl).symm.trans e)

section
variable {c m len g seq : Nat} {t : Stream} {id : Nat} {i : BitVec 128} {lay : Option Layout} {page : Option (Nat × Nat)}
  {u : State}

theorem emitStore_go_waits (h : storeData s c m l len = (u, .ok, none)) :
    emitStore.go c m l s t id i len g seq lay page = u := by
  rw [emitStore.go, h]

theorem emitStore_go_refused {code : FC} {d : Option (List MByte)} (hc : code ≠ .ok)
    (h : storeData s c m l len = (u, code, d)) :
    emitStore.go c m l s t id i len g seq lay page = lessonFault u c id code := by
  rw [emitStore.go, h]
  split <;> (rename_i e; cases e)
  · exact absurd rfl hc
  · exact absurd rfl hc
  · rfl

theorem emitStore_go_moves {data : List MByte} (h : storeData s c m l len = (u, .ok, some data))
    (htrap : (streamTraps t l && data.any Prod.snd) = false) {w : State} {code : FC}
    (hw : writeLines ((u.bump .seLinesOut c 0 (linesOf (g % 2 ^ 48) data.length)).bump .sePoisonLines c 0
      (poisonLines (g % 2 ^ 48) data)) c m l g data = (w, code)) :
    emitStore.go c m l s t id i len g seq lay page =
      if code = .ok then emitDone (match lay, page with
        | some y, some (e, sp) => chartStored w c seq y (eFrame e) sp (g % 2 ^ 48) data.length
        | _, _ => w) c m
      else lessonFaultSeq w c id code (blamed code false seq) := by
  rw [emitStore.go, h]
  simp -zeta only [htrap]
  extract_lets trap bs u1 u2
  have hbs : bs = data := if_neg Bool.false_ne_true
  clear_value bs
  subst hbs
  rw [show writeLines u2 c m l g bs = (w, code) from hw]
  by_cases hc : code = .ok
  · subst hc
    rfl
  · rw [if_neg hc]
    split <;> (rename_i e; cases e)
    · exact absurd rfl hc
    · rfl

end

/-- Settles O29: a WALK judges the page it names, an EMIT its context, its epoch, its direction and where its lines lie. -/
theorem walkAndEmit : Obligations.WalkAndEmit := by
  unfold Obligations.WalkAndEmit
  intro core n s l t i seq hl
  refine ⟨fun h => ?walk, fun h => ⟨fun hs => ?switched, fun hs he => ?stale, fun hs he => ⟨fun hd hm => ?refused,
    fun hd hm hloc u code data hr => ?localLoad, fun hd hm hloc => ?remoteLoad, fun hd => ⟨fun e sp hp hr => ?remotePage,
    fun hp u => ?move⟩⟩⟩⟩
  case walk =>
    have hwalk := exec_walk_at h hl
    refine ⟨fun w sp hpage => ?page, fun hlevel r b hb => ⟨fun hgood hend => ?listEnds, fun hbad => ?poisoned⟩,
      fun hlevel r hr => ?unreadable⟩
    case unreadable =>
      rw [hwalk, walkPage_of_unreadable hlevel hr]
      exact congrArg _ (walkOn_fault (by decide) _ _ _ _)
    case poisoned =>
      rw [hwalk, walkPage_of_poisoned hlevel hb hbad]
      exact congrArg _ (walkOn_fault (by decide) _ _ _ _)
    case listEnds =>
      rw [hwalk, walkPage_of_word hlevel hb hgood, if_pos hend]
      rfl
    case page =>
      have hto : exec (.walk core n) s = .next (walkTo w core n t sp) := by
        rw [hwalk]
        rcases hpage with ⟨hlevel, rfl, rfl⟩ | ⟨hlevel, r, b, hb, hgood, rfl, hsp, rfl⟩
        · rw [walkPage_of_loop hlevel]
          rfl
        · rw [walkPage_of_word hlevel hb hgood, if_neg hsp]
          rfl
      rw [hto]
      exact ⟨fun hx => congrArg _ (walkTo_end hx ..), fun hx hlay => congrArg _ (walkTo_malformed hx hlay ..),
        fun hx lay u hlay => ⟨fun e he => congrArg _ (walkTo_entry hx hlay he _),
          fun code he => congrArg _ (walkTo_fault hx hlay he _), fun he => congrArg _ (walkTo_wait hx hlay he _)⟩⟩
  case switched => rw [exec_emit_at h hl, if_pos hs]
  case stale => rw [exec_emit_at h hl, if_neg hs, if_pos he]
  case refused => rw [exec_emit_load h hl hs he hd, emitLoad_refused hm]; rfl
  case localLoad => rw [exec_emit_load h hl hs he hd, emitLoad_local hm rfl rfl hloc hr]
  case remoteLoad =>
    intro iss ask line u code hr
    rw [exec_emit_load h hl hs he hd, emitLoad_remote hm rfl rfl hloc hr]
  case remotePage => rw [exec_emit_store h hl hs he hd, emitStore_remote rfl hp hr]
  case move =>
    rw [exec_emit_store h hl hs he hd, emitStore_go rfl hp]
    exact ⟨fun hw => congrArg _ (emitStore_go_waits hw), fun code d hc hr => congrArg _ (emitStore_go_refused hc hr),
      fun data hdata htrap w code hw => congrArg _ (emitStore_go_moves hdata htrap hw)⟩

/-! ## STREAM_ARM (R196 to R198, R202) -/

/-- The program that an arm record names, with the code of its checks: read from the scratchpad, or the parked one. -/
def armProg (u : State) (c : Nat) (g : Stage) (t : Stream) : FC × List (BitVec 128) :=
  if bit g.arm.toNat 39 then
    if spMarked u c (bits (g.aw 1) 0 24) 512 then (.dataPoisoned, [])
    else (progCode (bit g.arm.toNat 37) (bit g.arm.toNat 14) (progAt u c (bits (g.aw 1) 0 24)),
      progAt u c (bits (g.aw 1) 0 24))
  else match t.parked with
    | some (tag, p) =>
      if tag.toNat = bits g.arm.toNat 48 16 then (progCode (bit g.arm.toNat 37) (bit g.arm.toNat 14) p, p)
      else (.streamProgram, [])
    | none => (.streamProgram, [])

/-- The place in the ring table of a weight load; no other stream takes one. -/
def armPlace (u : State) (c : Nat) (l : LessonRun) : Option Nat :=
  if lkind l.desc = 2 then ringPlace u c (lrep l.desc) (llayer l.desc) else none

/-- The scratchpad offset D that a stream starts with. -/
def armOffset (u : State) (c : Nat) (l : LessonRun) (g : Stage) : Nat :=
  match armPlace u c l with
  | some b => ringOff u c b
  | none => bits (g.aw 6) 32 24

/-- The binding of a stream by the arm record of stage of a Lesson. -/
def bindStream (u : State) (c lesson stage : Nat) (l : LessonRun) (p : List (BitVec 128)) : State :=
  let g := stageAt l.stages stage
  let a := g.arm.toNat
  let seq := bits (g.aw 1) 32 18
  let d := armOffset u c l g
  noteBound ((updLesson (updStream (if bit a 14 then walkBegin u seq (.lesson c lesson) else u) c g.stream (fun t =>
    { bound := true, lesson := lesson, stage := stage, arm := g.arm, prog := p, a := t.a
      b := (List.range 4).map (fun i => g.aw (2 + i)), d := d
      extent := if bit a 14 then extentOf u seq (bit a 13 && l.att.isSome && l.seqs.contains seq) else 0
      epoch := (u.desc seq).epoch })) c lesson
    (fun q => { q with arms := q.arms.filter (· != stage), ringStart := if lkind l.desc = 2 then some d else none })).bump
      (if bit a 39 then .seProgramLoads else .seRearms) c) c

/-- What an arm record comes to once its program is judged. -/
def armed (u : State) (c lesson stage : Nat) (l : LessonRun) (prog : FC × List (BitVec 128)) : State :=
  match prog with
  | (.ok, p) =>
    if (!bit (stageAt l.stages stage).arm.toNat 37 && destBusy u c (progDests p)) ||
        (bit (stageAt l.stages stage).arm.toNat 14 && (u.desc (bits ((stageAt l.stages stage).aw 1) 32 18)).held) then u
    else if decide (lkind l.desc = 2) && (armPlace u c l).isNone then lessonFault u c lesson .valueRange
    else bindStream u c lesson stage l p
  | (code, _) => lessonFault u c lesson code

section
variable {u : State} {lesson stage : Nat} {p : List (BitVec 128)} {code : FC}

theorem armed_of_code (h : code ≠ .ok) (c : Nat) : armed u c lesson stage l (code, p) = lessonFault u c lesson code := by
  unfold armed
  split <;> (rename_i e; cases e)
  · exact absurd rfl h
  · rfl

theorem exec_streamArm_at (hl : lessonAt s core lesson = some l) (harm : l.arms.contains stage = true)
    (hb : (streamAt s core (stageAt l.stages stage).stream).bound = false)
    (hn : armBehind s core lesson stage (stageAt l.stages stage).stream = false) :
    exec (.streamArm core lesson stage) s = .next
      (armed (if bit (stageAt l.stages stage).arm.toNat 39 then
          s.settle (scratchAddr core (bits ((stageAt l.stages stage).aw 1) 0 24)) 512 else s) core lesson stage l
        (armProg (if bit (stageAt l.stages stage).arm.toNat 39 then
          s.settle (scratchAddr core (bits ((stageAt l.stages stage).aw 1) 0 24)) 512 else s) core
          (stageAt l.stages stage) (streamAt s core (stageAt l.stages stage).stream))) := by
  change execStreamArm core lesson stage s = _
  simp only [execStreamArm, hl, harm, hb, hn, Bool.not_true, Bool.or_self, Bool.false_eq_true, if_false]
  rfl

/-- What the statement says of the program of an arm record: read and checked, poisoned, parked under the tag, or missing. -/
def ProgJudged (u : State) (c : Nat) (g : Stage) (t : Stream) (p : List (BitVec 128)) (code : FC) : Prop :=
  (bit g.arm.toNat 39 = true ∧
    ((spMarked u c (bits (g.aw 1) 0 24) 512 = true ∧ code = .dataPoisoned) ∨
     (spMarked u c (bits (g.aw 1) 0 24) 512 = false ∧ p = progAt u c (bits (g.aw 1) 0 24) ∧
       code = progCode (bit g.arm.toNat 37) (bit g.arm.toNat 14) p))) ∨
  (bit g.arm.toNat 39 = false ∧
    ((∃ tag, t.parked = some (tag, p) ∧ tag.toNat = bits g.arm.toNat 48 16 ∧
        code = progCode (bit g.arm.toNat 37) (bit g.arm.toNat 14) p) ∨
     ((∀ tag q, t.parked = some (tag, q) → tag.toNat ≠ bits g.arm.toNat 48 16) ∧ code = .streamProgram)))

theorem armProg_of_judged {c : Nat} {g : Stage} {t : Stream} (h : ProgJudged u c g t p code) :
    (armProg u c g t).1 = code ∧ (code = .ok → (armProg u c g t).2 = p) := by
  rcases h with ⟨hload, ⟨hbad, rfl⟩ | ⟨hgood, rfl, rfl⟩⟩ | ⟨hload, ⟨tag, hpark, htag, rfl⟩ | ⟨hnone, rfl⟩⟩
  · rw [armProg, if_pos hload, if_pos hbad]
    exact ⟨rfl, fun e => nomatch e⟩
  · rw [armProg, if_pos hload, if_neg (by rw [hgood]; exact Bool.false_ne_true)]
    exact ⟨rfl, fun _ => rfl⟩
  · rw [armProg, if_neg (by rw [hload]; exact Bool.false_ne_true), hpark]
    dsimp only
    rw [if_pos htag]
    exact ⟨rfl, fun _ => rfl⟩
  · rw [armProg, if_neg (by rw [hload]; exact Bool.false_ne_true)]
    cases hp : t.parked with
    | none => exact ⟨rfl, fun e => nomatch e⟩
    | some q =>
      obtain ⟨tag, q⟩ := q
      dsimp only
      rw [if_neg (hnone tag q hp)]
      exact ⟨rfl, fun e => nomatch e⟩

/-- What a stream waits for before it is bound: a destination queue of its program, or the sequence that it would walk. -/
def ArmWaits (u : State) (c : Nat) (g : Stage) (p : List (BitVec 128)) : Prop :=
  (bit g.arm.toNat 37 = false ∧ destBusy u c (progDests p) = true) ∨
    (bit g.arm.toNat 14 = true ∧ (u.desc (bits (g.aw 1) 32 18)).held = true)

theorem armWaits_iff (c : Nat) (g : Stage) : ((!bit g.arm.toNat 37 && destBusy u c (progDests p)) ||
    (bit g.arm.toNat 14 && (u.desc (bits (g.aw 1) 32 18)).held)) = true ↔ ArmWaits u c g p := by
  simp [ArmWaits]

theorem armed_waits {c : Nat} (h : ArmWaits u c (stageAt l.stages stage) p) :
    armed u c lesson stage l (.ok, p) = u := if_pos ((armWaits_iff c _).mpr h)

theorem armed_unplaced {c : Nat} (h : ¬ ArmWaits u c (stageAt l.stages stage) p) (hk : lkind l.desc = 2)
    (hp : armPlace u c l = none) : armed u c lesson stage l (.ok, p) = lessonFault u c lesson .valueRange :=
  (if_neg fun e => h ((armWaits_iff c _).mp e)).trans (if_pos (by rw [hp, decide_eq_true hk]; rfl))

theorem armed_binds {c : Nat} (h : ¬ ArmWaits u c (stageAt l.stages stage) p)
    (hp : lkind l.desc = 2 → armPlace u c l ≠ none) :
    armed u c lesson stage l (.ok, p) = bindStream u c lesson stage l p := by
  refine (if_neg fun e => h ((armWaits_iff c _).mp e)).trans (if_neg fun e => ?_)
  obtain ⟨hk, hnone⟩ := Bool.and_eq_true_iff.mp e
  exact hp (of_decide_eq_true hk) (Option.isNone_iff_eq_none.mp hnone)

end

/-- Settles O31: the program is judged first, then what the stream waits for, then its place in the ring table. -/
theorem streamsArm : Obligations.StreamsArm := by
  unfold Obligations.StreamsArm
  intro core lesson stage s l hl g n t a off harm hb hn u p code hprog
  have hu : u = (if bit a 39 then s.settle (scratchAddr core off) 512 else s) := by
    rcases hprog with ⟨hload, rfl, -⟩ | ⟨hload, rfl, -⟩
    · rw [if_pos hload]
    · rw [if_neg (by rw [hload]; exact Bool.false_ne_true)]
  have hjudged : ProgJudged u core g t p code := by
    rcases hprog with ⟨hload, -, h⟩ | ⟨hload, -, h⟩
    · exact .inl ⟨hload, h⟩
    · exact .inr ⟨hload, h⟩
  have hexec : exec (.streamArm core lesson stage) s = .next (armed u core lesson stage l (armProg u core g t)) :=
    (exec_streamArm_at hl harm hb hn).trans (by rw [hu])
  obtain ⟨hcode, hp⟩ := armProg_of_judged hjudged
  have hok : code = .ok → exec (.streamArm core lesson stage) s = .next (armed u core lesson stage l (.ok, p)) := by
    rintro rfl
    rw [hexec, ← hp rfl, ← hcode]
  intro seq waits place d own w
  refine ⟨fun hc => ?refused, fun hc hw => ?waits, fun hc hw hk hplace => ?unplaced, fun hc hw hplace => ?bound⟩
  case refused =>
    rw [hexec, show armProg u core g t = (code, (armProg u core g t).2) from Prod.ext hcode rfl, armed_of_code hc]
  case waits => rw [hok hc, armed_waits hw]
  case unplaced => rw [hok hc, armed_unplaced hw hk hplace]
  case bound =>
    rw [hok hc, armed_binds hw hplace]
    rfl

end Sys2Proof.Machine
end

section
/-!
The statements about counts and queues (spec/12_remote_memory_and_windows.md, spec/13_synchronisation.md), the host's and
the management bus's transactions (spec/12_remote_memory_and_windows.md, spec/15_object_dictionary.md), the memory
controllers and clocks (spec/16_ports_and_clocks.md), and the obligations that follow.
-/

namespace Sys2Proof.Machine

open Sys2Proof

/-! ## Outstanding increments, Sync Unit queues and lost numbers (R300, R317, R326, R361) -/

section
variable {n : Nat} {s t : State} {i : PendIncr} (hi : s.remote.incrs[n]? = some i)
  (ht : { s with remote := { s.remote with incrs := s.remote.incrs.eraseIdx n } } = t)
include hi ht

theorem exec_countedIncrement_inReset (h : (s.core i.core).inReset = true) : exec (.countedIncrement n) s =
    .next (answer (passDone t i.pass) i.origin i.tag { code := .targetReset }) := by
  change execCountedIncrement n s = _
  rw [execCountedIncrement, hi]
  subst ht
  exact if_pos h

theorem exec_countedIncrement_answered (h : (s.core i.core).inReset = false) {u : State} {a : Ans}
    (hu : suRequest t i.core { ctr := i.ctr, dec := false, operand := 1, fetch := false, origin := i.origin
                               tenant := i.tenant, pass := i.pass, tag := i.tag, cycle := i.cycle, kind := 3 } = (u, some a)) :
    exec (.countedIncrement n) s = .next (answer (passDone u i.pass) i.origin i.tag a) := by
  change execCountedIncrement n s = _
  rw [execCountedIncrement, hi]
  subst ht
  refine (if_neg fun e => Bool.false_ne_true (h.symm.trans e)).trans ?_
  extract_lets op
  rw [hu]

end

theorem exec_suQueueApply_oldest {core : Fin 32} {cycle : Nat} {s : State} {op : SuOp} {rest : List SuOp}
    (hq : (s.core core).suQ = op :: rest)
    (hu : (if (s.core core).suCycle = cycle then (s.core core).suCount else 0) < 4) {t : State} {old : U32} {code : FC}
    (hc : counterApply ((s.updCore core (fun k => { k with
        suQ := suAdmit rest cycle, suCycle := cycle
        suCount := (if (s.core core).suCycle = cycle then (s.core core).suCount else 0) + 1 })).bump
        .suQueueCycles core 0 (cycle - op.cycle)) core op.ctr op.dec op.operand = (t, old, code)) :
    exec (.suQueueApply core cycle) s = .next (answer (passDone t op.pass) op.origin op.tag
      { code := code, data := if op.fetch then natLe 4 old.toNat else [] }) := by
  change execSuQueueApply core cycle s = _
  rw [execSuQueueApply, hq]
  refine (if_neg (Nat.not_le.2 hu)).trans ?_
  extract_lets s1 s2
  rw [show counterApply s2 core op.ctr op.dec op.operand = (t, old, code) from hc]

theorem exec_seqGapTimeout_single {node stream : U16} {s t : State} {p : Pair} {h : HeldReq}
    (hp : s.remote.pairs.find? (fun p => p.node == node && p.stream == stream) = some p) (hh : p.held = [h])
    (ht : { s with remote := { s.remote with pairs := s.remote.pairs.map (fun q =>
      if q.node == node && q.stream == stream then { p with nextSeq := h.sseq + 1, held := [] } else q) } } = t) :
    exec (.seqGapTimeout node stream) s = .next (drainHeld 1
      (admitAfterLoss (t.bump .formSeqLost 0 0 (h.sseq - p.nextSeq).toNat) h) node stream) := by
  have hnear : nearest p.nextSeq p.held = some h := by rw [hh]; rfl
  have hleft : p.held.filter (fun g => g.sseq != h.sseq) = [] := by simp [hh]
  change execSeqGapTimeout node stream s = _
  subst ht
  rw [execSeqGapTimeout, hp]
  simp only [hnear, hleft, List.length_nil, Nat.zero_add]

/-- Settles O24: each row finds what it acts on by the hypothesis and does the one thing. -/
theorem countedPutsAndQueues : Obligations.CountedPutsAndQueues := by
  unfold Obligations.CountedPutsAndQueues
  refine ⟨fun n s i hi => ⟨fun hr => ?inReset, fun u a hr hu => ?counted⟩,
    fun core cycle s op rest hq hused t old code hc => ?queued, fun core ctx s n pass hl => ?commandCounted,
    fun node stream s p h hp hh => ?gap, fun n s m hm => ?multicast⟩
  case inReset => exact exec_countedIncrement_inReset hi rfl hr
  case counted => exact exec_countedIncrement_answered hi rfl hr hu
  case queued => exact exec_suQueueApply_oldest hq hused hc
  case commandCounted =>
    change execCommandCounted core ctx s = _
    rw [execCommandCounted, hl]
  case gap => exact exec_seqGapTimeout_single hp hh rfl
  case multicast =>
    change execMulticastLanded n s = _
    rw [execMulticastLanded, hm]

/-! ## A guard of a row -/

theorem guard_passed {α : Type} {b : Bool} {x y : α} (h : b = true) : (if !b then x else y) = y :=
  if_neg (by rw [h]; exact Bool.false_ne_true)

theorem guard_failed {α : Type} {b : Bool} {x y : α} (h : b = false) : (if !b then x else y) = x :=
  if_pos (by rw [h]; rfl)

theorem test_failed {α : Type} {b : Bool} {x y : α} (h : b = false) : (if b then x else y) = y :=
  if_neg (by rw [h]; exact Bool.false_ne_true)

/-! ## The Management Port (R376, R377) -/

theorem ackI3c_mgmt (s : State) (a : Option (BitVec 7)) (ok : Bool) : (ackI3c s a ok).mgmt = s.mgmt := by
  cases a <;> rfl

/-- A directed read of a register of an addressed target sends it. -/
theorem readI3c_of_addressed {s : State} {addr : BitVec 7} (h : addressed s addr = true) (data : List Byte) :
    readI3c s addr data = s.emit (.i3cData data) := if_pos h

theorem exec_setdasa_fresh {s : State} {static : BitVec 7} (hs : static.toNat = s.ent .i3cStaticAddr)
    (hd : s.mgmt.i3c.dyn = 0) (addr : BitVec 7) : exec (.setdasa static addr) s =
      .next ((s.updI3c (fun i => { i with dyn := addr.toNat })).emit (.i3cAck true)) := by
  change execSetdasa static addr s = _
  simp only [execSetdasa, hs, hd, bne_self_eq_false, Bool.false_eq_true, if_false]

theorem exec_i3cPrivateWrite_at {s : State} {addr : BitVec 7} (h : addressed s addr = true) {bytes : List Byte} {env : Hdr}
    {got : Option Frame}
    (hg : (if s.mgmt.i3c.mwl < bytes.length then none else parseFrame { env with src := .mgmt, damaged := false } bytes) = got) :
    exec (.i3cPrivateWrite addr bytes env) s =
      .next (got.elim (s.bump .qmfnFrameErrors) (takeFrame s)) := by
  refine congrArg Host.Outcome.next ((guard_passed h).trans ?_)
  rw [hg]
  cases got <;> rfl

theorem exec_i3cPrivateRead_at {s : State} {addr : BitVec 7} (h : addressed s addr = true) :
    exec (.i3cPrivateRead addr) s = .next (match s.mgmt.i3c.resp with
      | none => s.emit (.i3cData [])
      | some r => (s.updI3c (fun i => { i with resp := none, respIbiHeld := false })).emit
          (.i3cData (r.take s.mgmt.i3c.mrl))) :=
  congrArg Host.Outcome.next (guard_passed h)

theorem exec_enec_on {s : State} {addr : Option (BitVec 7)} {events : Byte} (h : reaches s addr = true)
    (hb : bit events.toNat 0 = true) : exec (.enec addr events) s =
      .next (if s.mgmt.i3c.respIbiHeld then
          ((ackI3c s addr true).updI3c (fun i => { i with ibi := true, respIbiHeld := false })).emit (.ibi 0x01)
        else (ackI3c s addr true).updI3c (fun i => { i with ibi := true, respIbiHeld := false })).eventIbi := by
  refine congrArg Host.Outcome.next ((guard_passed h).trans ((guard_passed hb).trans ?_))
  extract_lets held t
  have hheld : held = s.mgmt.i3c.respIbiHeld := congrArg (fun m : Mgmt => m.i3c.respIbiHeld) (ackI3c_mgmt s addr true)
  rw [hheld]

/-- Settles O52: each code tests whom it is addressed to, and acts. -/
theorem managementBusCodes : Obligations.ManagementBusCodes := by
  unfold Obligations.ManagementBusCodes
  refine ⟨fun addr s hd => ⟨?entdaa, fun static hs => exec_setdasa_fresh hs hd addr⟩, fun s => rfl, fun addr s h => ?directed,
    fun addr s h => ?reached⟩
  case entdaa => exact congrArg Host.Outcome.next (if_neg (by rw [hd]; exact Bool.false_ne_true))
  case directed =>
    have hread : ∀ data, (.next (readI3c s addr data) : Host.Outcome State Fault Refusal) = .next (s.emit (.i3cData data)) :=
      fun data => congrArg _ (readI3c_of_addressed h data)
    refine ⟨fun new => congrArg Host.Outcome.next (guard_passed h), hread _, hread _, hread _, hread _, hread _, hread _,
      fun bytes env => ⟨fun f hf => ?frame, fun hf => ?malformed⟩, fun hr => ?empty, fun r hr => ?response⟩
    case frame => exact exec_i3cPrivateWrite_at h hf
    case malformed => exact exec_i3cPrivateWrite_at h hf
    case empty => rw [exec_i3cPrivateRead_at h, hr]
    case response => rw [exec_i3cPrivateRead_at h, hr]
  case reached =>
    refine ⟨fun len hlen => ⟨?setmwl, ?setmrl⟩, fun events => ⟨fun hb => ⟨?disec, exec_enec_on h hb⟩, fun hb => ⟨?enecNone, ?disecNone⟩⟩⟩
    case setmwl => exact congrArg Host.Outcome.next ((guard_passed h).trans (if_neg (Nat.not_lt.2 hlen)))
    case setmrl => exact congrArg Host.Outcome.next ((guard_passed h).trans (if_neg (Nat.not_lt.2 hlen)))
    case disec => exact congrArg Host.Outcome.next ((guard_passed h).trans (if_pos hb))
    case enecNone => exact congrArg Host.Outcome.next ((guard_passed h).trans (guard_failed hb))
    case disecNone => exact congrArg Host.Outcome.next ((guard_passed h).trans (test_failed hb))

/-! ## The Host Port (R310, R321, R400) -/

/-- A host request that an aperture in use maps to this block. -/
theorem hostRequest_local {s : State} {off : Nat} {e : Rwt} (ha : apertureAt s off = some e)
    (hl : isLocal s ((BitVec.ofNat 64 (e.base + (off - e.hostOff))).toNat / 2 ^ 48) = true) (mk : Nat → Kind) (r : Req) :
    hostRequest s off mk r = hostLocal s (mk ((e.base + (off - e.hostOff)) % 2 ^ 48))
      { r with target := BitVec.ofNat 64 (e.base + (off - e.hostOff)), tenant := BitVec.ofNat 12 (bits e.attr 18 12) }
      (BitVec.ofNat 8 e.attr) := by
  rw [hostRequest, ha]
  exact if_pos hl

/-- Settles O53: a ready port maps the offset and serves the request of this block; one that is not takes nothing. -/
theorem hostTransactions : Obligations.HostTransactions := by
  unfold Obligations.HostTransactions
  intro s
  refine ⟨fun hr off e ha => ?mapped, fun tag rid => ⟨fun hr => ?otherAtomic, fun off fa64 len operand poison hr hbad => ?unsupported⟩,
    fun hr => ⟨fun off data poison => ?noWrite, fun tag rid off len => ?noRead,
      fun tag rid off fa64 len operand poison => ?noAdd, fun tag rid => ?noAtomic⟩⟩
  case mapped =>
    intro target hl r we
    refine ⟨fun data => ?write, fun tag rid len => ?read, fun tag rid fa64 operand => ?fetchAdd⟩
    case write => exact congrArg Host.Outcome.next ((guard_passed hr).trans (hostRequest_local ha hl ..))
    case read => exact congrArg Host.Outcome.next ((guard_passed hr).trans (hostRequest_local ha hl ..))
    case fetchAdd =>
      refine congrArg Host.Outcome.next ((guard_passed hr).trans ((if_neg ?_).trans (hostRequest_local ha hl ..)))
      simp
  case otherAtomic => exact congrArg Host.Outcome.next (guard_passed hr)
  case unsupported =>
    refine congrArg Host.Outcome.next ((guard_passed hr).trans (if_pos ?_))
    rwa [Bool.or_eq_true, bne_iff_ne]
  case noWrite => exact congrArg Host.Outcome.next (guard_failed hr)
  case noRead => exact congrArg Host.Outcome.next (guard_failed hr)
  case noAdd => exact congrArg Host.Outcome.next (guard_failed hr)
  case noAtomic => exact congrArg Host.Outcome.next (guard_failed hr)

/-! ## Memory controllers and clocks (R395, R405, R408) -/

/-- The block after the report of the loss of clock k. -/
def clockLost (s : State) (k : Nat) : State :=
  (({ s with sys := { s.sys with ckPresent := s.sys.ckPresent &&& ~~~ (1#64 <<< k) } } : State).bump
    .ckLossEvents).raise .clockLoss 0 0 k

theorem exec_clockLoss_present {s : State} {k : Fin 64} (h : clockUp s k = true) :
    exec (.clockLoss k) s = .next (clockAction (clockLost s k) k) := congrArg Host.Outcome.next (guard_passed h)

section
variable {t : State} {k : Nat}

theorem clockAction_management (h : k = 4) : clockAction t k = { t with sys := { t.sys with
    rstReqN := false, rstCause := .clockLoss
    gov := { t.sys.gov with b := 0, bUnclipped := 0, allot := (List.range 32).map (fun c => (c, 0)) } } } := by
  subst h
  rfl

theorem clockAction_mcc (h8 : 8 ≤ k) (h32 : k < 32) (hs : (t.mcc (k - 8)).state = .up ∨ (t.mcc (k - 8)).state = .initialising) :
    clockAction t k = (t.updMcc (k - 8) (fun m => { m with state := .down })).raise .mcDown 3 (k - 8) 4 := by
  have hany : ((t.mcc (k - 8)).state = .up || (t.mcc (k - 8)).state = .initialising) = true := by
    rwa [Bool.or_eq_true, decide_eq_true_iff, decide_eq_true_iff]
  rw [clockAction, if_neg (by omega), if_neg (by omega), if_neg (by omega), if_pos h32]
  exact if_pos hany

theorem clockAction_port (h : 32 ≤ k) : clockAction t k = portDown t (k - 32) := by
  rw [clockAction, if_neg (by omega), if_neg (by omega), if_neg (by omega), if_neg (by omega)]

end

/-- The return of a clock sets its bit and no other. -/
theorem getLsbD_or_clockBit (present : U64) (k : Fin 64) (j : Nat) :
    (present ||| (clockBits &&& (1#64 <<< k.val))).getLsbD j =
      (present.getLsbD j || (clockBits.getLsbD j && decide (k.val = j))) := by
  have hbit : (1#64 <<< k.val).getLsbD j = decide (k.val = j) :=
    (BitVec.getLsbD_twoPow k.val j).trans (by rw [decide_eq_true k.isLt, Bool.true_and])
  rw [BitVec.getLsbD_or, BitVec.getLsbD_and, hbit]

/-- Settles O54: the controllers by their state, the loss of a clock by its number, its return by its bit, the host link by
its rows. -/
theorem memoryPortsClocksAndHostLink : Obligations.MemoryPortsClocksAndHostLink := by
  unfold Obligations.MemoryPortsClocksAndHostLink
  refine ⟨fun n s => ⟨fun hi => ⟨?up, fun cause hc => ?down⟩, fun hu => ⟨?phyError, fun temp => ?temperature⟩⟩, fun k s h => ?loss,
    fun k s h => ?lostAlready, fun k s h => ?returned, fun s => ⟨fun h => ?linkUp, rfl⟩⟩
  case up => exact congrArg Host.Outcome.next (if_pos hi)
  case down =>
    refine congrArg Host.Outcome.next ((if_neg (by omega)).trans (if_pos ?_))
    rw [Bool.and_eq_true, bne_iff_ne, decide_eq_true_iff]
    exact ⟨by omega, hi⟩
  case phyError => exact congrArg Host.Outcome.next ((if_pos rfl).trans (if_pos hu))
  case temperature => exact congrArg Host.Outcome.next (if_pos hu)
  case loss =>
    intro t
    have hlost : exec (.clockLoss k) s = .next (clockAction t k) := exec_clockLoss_present h
    clear_value t
    rw [hlost]
    refine ⟨fun hk => ?issueClock, fun hk => ?hostClock, fun hk => ?managementClock, fun h8 h32 hm => ?mccClock, fun hk => ?portClock⟩
    case issueClock => exact congrArg Host.Outcome.next (if_pos hk)
    case hostClock => exact congrArg Host.Outcome.next ((if_neg (by omega)).trans (if_pos hk))
    case managementClock => exact congrArg Host.Outcome.next (clockAction_management hk)
    case mccClock => exact congrArg Host.Outcome.next (clockAction_mcc h8 h32 hm)
    case portClock => exact congrArg Host.Outcome.next (clockAction_port hk)
  case lostAlready => exact congrArg Host.Outcome.next (guard_failed h)
  case returned =>
    refine ⟨_, rfl, ?_, fun j hj => ?_⟩
    · exact (getLsbD_or_clockBit s.sys.ckPresent k k).trans (by rw [h, decide_eq_true rfl, Bool.and_self, Bool.or_true])
    · exact (getLsbD_or_clockBit s.sys.ckPresent k j).trans
        (by rw [decide_eq_false fun e => hj e.symm, Bool.and_false, Bool.or_false]; rfl)
  case linkUp => exact congrArg Host.Outcome.next (guard_passed h)

/-! ## Telemetry and the period (R412, R417, R421) -/

/-- A change of a rail is what it makes of the rail as it stands. -/
theorem State.updRail_congr {s : State} {k : Nat} {f g : Rail → Rail} (h : f (s.rail k) = g (s.rail k)) :
    s.updRail k f = s.updRail k g :=
  congrArg (fun r => s.updGov (fun v => { v with rails := Map.put v.rails k r })) h

theorem exec_telemetrySample_valid {rail : Fin 4} {s : State} (h : (s.rail rail).tlmValid = true) (i : U16) (v : BitVec 12) :
    exec (.telemetrySample rail i v false) s = .next (s.updRail rail (fun q => { q with
      good := min 4 (q.good + 1), samples := q.samples ++ [(i.toNat, v.toNat)], last := some (i.toNat, v.toNat) })) := by
  change execTelemetrySample rail i v false s = _
  simp only [execTelemetrySample, h, Bool.not_true, Bool.false_and, Bool.false_eq_true, if_false]
  refine congrArg Host.Outcome.next (State.updRail_congr ?_)
  rw [h]
  rfl

/-- The fourth good sample in a row of a rail whose telemetry is invalid. -/
theorem exists_exec_telemetrySample_fourth {rail : Fin 4} {s : State} (h : (s.rail rail).tlmValid = false)
    (hg : (s.rail rail).good = 3) (i : U16) (v : BitVec 12) :
    ∃ t, exec (.telemetrySample rail i v false) s = .next t ∧ (t.rail rail).tlmValid = true ∧
      (t.rail rail).state = (if (s.rail rail).state = 2 then (s.rail rail).prior else (s.rail rail).state) := by
  refine ⟨_, rfl, ?_, ?_⟩ <;>
    simp only [h, hg, Bool.false_eq_true, if_false, Bool.not_false, Bool.true_and, Nat.reduceAdd, ge_iff_le, Nat.le_refl,
      decide_true, if_true, State.rail_updRail_same]

/-- The number of the period is as before. -/
structure PeriodKept (s t : State) : Prop where
  period : t.sys.gov.period = s.sys.gov.period

namespace PeriodKept

variable {s t u : State}

theorem refl (s : State) : PeriodKept s s := ⟨rfl⟩

theorem trans (a : PeriodKept s t) (b : PeriodKept t u) : PeriodKept s u := ⟨b.period.trans a.period⟩

theorem of_sys (h : t.sys = s.sys) : PeriodKept s t := ⟨congrArg (fun y : Sys => y.gov.period) h⟩

theorem bump (s : State) (n : Name) (u k b : Nat) : PeriodKept s (s.bump n u k b) := ⟨rfl⟩

theorem updGov (s : State) {f : Gov → Gov} (hf : ∀ g, (f g).period = g.period := by exact fun _ => rfl) :
    PeriodKept s (s.updGov f) := ⟨hf _⟩

theorem updRail (s : State) (k : Nat) (f : Rail → Rail) : PeriodKept s (s.updRail k f) := .updGov s

theorem cond {c : Prop} [Decidable c] {x y : State} (hx : PeriodKept s x) (hy : PeriodKept s y) :
    PeriodKept s (if c then x else y) := by
  split
  · exact hx
  · exact hy

theorem foldl {α : Type} {f : State → α → State} (hf : ∀ s a, PeriodKept s (f s a)) (l : List α) (s : State) :
    PeriodKept s (l.foldl f s) := by
  induction l generalizing s with
  | nil => exact .refl s
  | cons a l ih => exact (hf s a).trans (ih _)

theorem judge (s : State) (k : Nat) (v : Option Bool) : PeriodKept s (judge s k v) := by
  rcases judge_cases s k v with e | ⟨q, g, -⟩
  · rw [e]
    exact .refl s
  · exact (PeriodKept.updRail s k q).trans ⟨congrArg Gov.period g.gov⟩

theorem endRail (s : State) (events : List Nat) (k : Nat) : PeriodKept s (endRail s events k) := by
  unfold Machine.endRail
  dsimp only
  split
  · exact .updRail ..
  · exact (PeriodKept.updRail ..).trans (.judge ..)

theorem targetRail (s : State) (k : Nat) : PeriodKept s (targetRail s k) := by
  unfold Machine.targetRail
  exact .updRail ..

theorem allotPeriod (s : State) (newWindow : Bool) : PeriodKept s (allotPeriod s newWindow) := by
  unfold Machine.allotPeriod
  extract_lets n windowed
  have hwindow : PeriodKept s windowed := .cond (.updGov s) (.refl s)
  split
  extract_lets lending shown
  have hlend : PeriodKept windowed lending := .trans (.updGov windowed) (.bump ..)
  have hshow : PeriodKept lending shown := .updGov lending
  exact ((hwindow.trans hlend).trans hshow).trans (.foldl (fun s k => .cond (.refl s) (.bump ..)) _ shown)

end PeriodKept

/-- The samples of each rail of a list are dropped by a pass over them. -/
theorem foldl_clears_samples {l : List Nat} {k : Nat} (s : State) (h : k ∈ l ∨ (s.rail k).samples = []) :
    ((l.foldl (fun s k => s.updRail k (fun r => { r with samples := [] })) s).rail k).samples = [] := by
  induction l generalizing s with
  | nil => exact h.resolve_left (List.not_mem_nil)
  | cons j l ih =>
    refine ih _ ?_
    by_cases hk : k = j
    · subst hk
      exact .inr (by rw [State.rail_updRail_same])
    · rw [State.rail_updRail, if_neg hk]
      exact h.imp_left (List.mem_of_ne_of_mem hk)

/-- PERIOD_BOUNDARY begins the next period with no sample. -/
theorem exists_exec_periodBoundary (events : List Nat) (s : State) : ∃ t, exec (.periodBoundary events) s = .next t ∧
    t.sys.gov.period = s.sys.gov.period + 1 ∧ ∀ k, k < 4 → (t.rail k).samples = [] := by
  rw [exec_periodBoundary]
  unfold execPeriodBoundary
  extract_lets ended noted alerted written sustained last targeted budgeted holds held counted allotted
  have hended : PeriodKept s ended := .foldl (fun s k => .endRail s events k) _ s
  have hnoted : PeriodKept ended noted := .updGov ended
  have halerted : PeriodKept noted alerted := .cond (.bump ..) (.refl noted)
  have hwritten : PeriodKept alerted written := .of_sys (takePend_sys (fun _ _ => takeWrite_sys ..) alerted _)
  have hsustained : PeriodKept written sustained := .updGov written
  have htargeted : PeriodKept sustained targeted := .foldl PeriodKept.targetRail _ sustained
  have hbudgeted : PeriodKept targeted budgeted := .updGov targeted
  have hbefore : PeriodKept s budgeted := hended.trans <| hnoted.trans <| halerted.trans <| hwritten.trans <|
    hsustained.trans <| htargeted.trans hbudgeted
  have hheld : held.sys.gov.period = budgeted.sys.gov.period + 1 := rfl
  have hcounted : PeriodKept held counted := .cond (.bump ..) (.refl held)
  have hallotted : PeriodKept counted allotted := .allotPeriod counted last
  clear_value allotted counted held budgeted
  have hafter := hcounted.trans <| hallotted.trans <| .foldl
    (f := fun s k => s.updRail k (fun r => { r with samples := [] })) (fun s k => .updRail s k _) (List.range 4) allotted
  refine ⟨_, rfl, ?_, fun k hk => foldl_clears_samples allotted (.inl (List.mem_range.mpr hk))⟩
  rw [hafter.period, hheld, hbefore.period]

/-! ## Alerts and operating points (R394, R431 to R435) -/

/-- The block as a stuck alert leaves it once it is reported, before its request of point 3. -/
def stuckAlert (s : State) : State := clipNow ((s.updGov (fun g => { g with stuck := true })).setEnt .pgOpSelect 3)

theorem stuckAlert_opWaiting (s : State) : (stuckAlert s).sys.gov.opWaiting = s.sys.gov.opWaiting := rfl

theorem exec_alertStuck_low {s r : State} (hp : s.sys.gov.alertPin = true) (hs : s.sys.gov.stuck = false)
    (hr : s.raise .alertStuck = r) : exec .alertStuck s = .next (if s.sys.gov.opWaiting.isSome
      then (stuckAlert r).updGov (fun g => { g with opWaiting := some 3 })
      else (stuckAlert r).updGov (fun g => { g with opPending := some 3 })) := by
  have hgov : r.sys.gov = s.sys.gov := by
    rw [← hr]
    exact ((QuietKept.refl s).raise ..).gov
  rw [← hgov, ← stuckAlert_opWaiting r]
  change execAlertStuck s = _
  rw [execAlertStuck, hr]
  exact congrArg Host.Outcome.next (if_neg (by simp [hp, hs]))

/-- Settles O55: samples and alerts by their conditions; the period's number is kept up to the boundary's own increment. -/
theorem powerEvents : Obligations.PowerEvents := by
  unfold Obligations.PowerEvents
  refine ⟨fun rail i v s => ⟨fun h => exec_telemetrySample_valid h i v, congrArg Host.Outcome.next (if_pos rfl),
      fun h hg => exists_exec_telemetrySample_fourth h hg i v, fun h => ?invalid⟩,
    fun cycles s => ⟨fun h => congrArg Host.Outcome.next (if_pos h), fun h => congrArg Host.Outcome.next (if_neg (Nat.not_lt.2 h))⟩,
    fun held s => rfl, fun s hp hs hw => ?stuck, fun s hp hs hw => ?stuckWaiting, fun edges s he hc => ?chatter,
    fun fs s n hn => ?pointTaken, fun s hw ht => ?late, exists_exec_periodBoundary⟩
  case invalid => exact congrArg Host.Outcome.next (guard_passed h)
  case stuck =>
    rw [exec_alertStuck_low hp hs rfl, hw]
    rfl
  case stuckWaiting =>
    rw [exec_alertStuck_low hp hs rfl, if_pos hw]
    rfl
  case chatter => exact congrArg Host.Outcome.next (if_neg (by simp [hc, he]))
  case pointTaken =>
    change execCkHoldAck fs s = _
    rw [execCkHoldAck, pointChanged, hn]
  case late => exact congrArg Host.Outcome.next (if_neg (by simp [Option.ne_none_iff_isSome.mpr hw, ht]))

end Sys2Proof.Machine
end

section
/-!
The statements about the phases of the Control Complex (spec/18_reset_and_reliability.md), about flits and the loss of a
link (spec/14_forms_and_links.md), and about roll calls (spec/13_synchronisation.md), and the obligations that follow.
-/

namespace Sys2Proof.Machine

open Sys2Proof

/-! ## The Control Complex and its firmware (R445, R446, R454, R456, R457) -/

theorem exec_bootRomReady_due {s : State}
    (h : (s.sys.phase = 2 ∧ memorySettled s = true) ∨ (s.sys.phase = 5 ∧ s.sys.cc.active = [])) :
    exec .bootRomReady s = .next (cardPump (pumpFrames (ccRun { s.updCc (fun c => { c with
        restarting := false, activating := false, wdtRestart := false }) with
      sys := { (s.updCc (fun c => { c with restarting := false, activating := false, wdtRestart := false })).sys with
        phase := 3 } } .bootRom))) :=
  congrArg Host.Outcome.next (if_pos (by simpa using h))

theorem exec_fwReady_due {s : State} (hp : s.sys.phase = 5) (ha : s.sys.cc.active ≠ []) {t : State}
    (ht : (l2Read s l2Active s.sys.cc.active.length).1.updCc (fun c => { c with
      restarting := false, activating := false, wdtRestart := false, wdtWindow := c.wdtWindow || c.wdtRestart
      restartEnd := if c.wdtRestart then s.sys.uptime else c.restartEnd }) = t) :
    exec .fwReady s = .next (cardPump (forwardAssists (pumpFrames
      (ccRun { t with sys := { t.sys with phase := 4 } } .firmware)))) := by
  subst ht
  exact congrArg Host.Outcome.next (if_neg (by simp [hp, ha]))

/-- A staged image whose header gives a good length and whose bytes are fetched unmarked is judged by its own checks. -/
theorem exec_fwStageComplete_fetched {fs : List Fetched} {s t u : State} {slot : Nat} {head img : List Byte}
    {m0 m1 : List Bool} (hs : s.sys.cc.staging = some slot)
    (hhead : fetchGlobal s fs (s.ent .fwImageAddr) 32 = (t, .ok, head, m0)) (h0 : m0.any (fun b => b) = false)
    (h16 : fieldAt head 0 4 % 16 = 0) (hmin : 64 ≤ fieldAt head 0 4) (hmax : fieldAt head 0 4 ≤ 4194304)
    (himg : fetchGlobal t fs (s.ent .fwImageAddr) (fieldAt head 0 4) = (u, .ok, img, m1))
    (h1 : m1.any (fun b => b) = false) : exec (.fwStageComplete fs) s =
      .next ((l2Written (u.updCc (fun c => { c with
        staging := none, staged := if fwCode u slot img = .ok then img else [] })) l2Staged (fieldAt head 0 4)).setCnt
          .fwStatus (fwCode u slot img).value) := by
  change execFwStageComplete fs s = _
  have hlen : ¬ (fieldAt head 0 4 % 16 != 0 || fieldAt head 0 4 < 64 || 4194304 < fieldAt head 0 4) = true := by
    simp [h16, hmin, hmax]
  rw [execFwStageComplete, hs]
  simp only [hhead, if_neg hlen, himg, h0, h1, bne_self_eq_false, Bool.or_self, Bool.false_eq_true, if_false]

/-- Settles O58: each event by the phase or the flag that it tests. -/
theorem controlComplexPhases : Obligations.ControlComplexPhases := by
  unfold Obligations.ControlComplexPhases
  refine ⟨fun s h => exec_bootRomReady_due h, fun s hp ha => exec_fwReady_due hp ha rfl,
    fun fs s t slot img m0 head hs hhead h0 h16 hmin hmax u m1 himg h1 =>
      exec_fwStageComplete_fetched hs hhead h0 h16 hmin hmax himg h1,
    fun s hr => ⟨fun ha => ?activating, fun ha => ?running⟩⟩
  case activating => exact congrArg Host.Outcome.next ((guard_passed hr).trans (if_pos ha))
  case running => exact congrArg Host.Outcome.next ((guard_passed hr).trans (test_failed ha))

/-! ## Flits (R357, R358) -/

section
variable {s : State} {port : Nat} {f : Flit}

theorem receiveFlit_damaged (hu : (s.port port).state = .up) (hg : Flit.good f = false) :
    receiveFlit s port f = nakOnce (s.bump .linkCrcErrors port) port := by
  rw [receiveFlit, hu, hg]
  rfl

variable {t : State} (hu : (s.port port).state = .up) (hg : Flit.good f = true) (hc : Flit.get f 93 3 ≤ 3)
  (ht : takeControl s port f = t) (htu : (t.port port).state = .up)
include hu hg hc ht htu

/-- A good flit of a class of Table 14-3 is judged by its number, once its control fields are taken. -/
theorem receiveFlit_good : receiveFlit s port f =
    if Flit.get f 79 12 != (t.port port).rxNext.toNat then nakOnce t port else acceptFlit t port f := by
  have hidle : ¬ Flit.get f 93 3 = vcIdle := fun e => absurd (e ▸ hc) (by decide)
  simp only [receiveFlit, hu, hg, ht, htu, hidle, Nat.not_lt.2 hc, bne_self_eq_false, Bool.false_and, Bool.not_true,
    Bool.false_eq_true, decide_false, Bool.or_self, if_false, reduceCtorEq]

end

/-- Settles O50: a flit by its check and its number, the timer by what is unacknowledged, a loss by the port's state. -/
theorem flitsAndLinkLoss : Obligations.FlitsAndLinkLoss := by
  unfold Obligations.FlitsAndLinkLoss
  refine ⟨fun port f s hu => ⟨fun hg hc htu => ⟨fun hn => ?accepted, fun hn => ?discarded⟩, fun hg => ?damaged⟩,
    fun port s => ⟨fun hu hd => ?acknowledges, fun ha hd => ?nothingDue⟩, fun port phyUp s => ⟨fun hd => ?goesDown, fun hd => ?isDown⟩,
    fun s n m g => State.port_updPort s n m g⟩
  case accepted =>
    exact congrArg (fun t : State => Host.Outcome.next (linkPump t)) ((receiveFlit_good hu hg hc rfl htu).trans (if_neg (by simp [hn])))
  case discarded =>
    exact congrArg (fun t : State => Host.Outcome.next (linkPump t)) ((receiveFlit_good hu hg hc rfl htu).trans (if_pos (bne_iff_ne.mpr hn)))
  case damaged => exact congrArg (fun t : State => Host.Outcome.next (linkPump t)) (receiveFlit_damaged hu hg)
  case acknowledges => exact congrArg Host.Outcome.next (if_pos (by simpa [hu] using hd))
  case nothingDue => exact congrArg Host.Outcome.next (if_neg (by simp [ha, hd]))
  case goesDown =>
    exact congrArg (fun t : State => Host.Outcome.next (t.updPort port (fun q => { q with phyUp := phyUp }))) (if_neg hd)
  case isDown =>
    exact congrArg (fun t : State => Host.Outcome.next (t.updPort port (fun q => { q with phyUp := phyUp }))) (if_pos hd)

/-! ## Arm records (R337, Table 13-2) -/

theorem leNat_natLe (n v : Nat) : leNat (natLe n v) = v % 256 ^ n := by
  induction n generalizing v with
  | zero => simp [natLe, leNat, Nat.mod_one]
  | succ n ih =>
    have hstep : v % 256 ^ (n + 1) = v % 256 + 256 * (v / 256 % 256 ^ n) := by rw [Nat.pow_succ', Nat.mod_mul]
    rw [natLe, leNat, ih, BitVec.toNat_ofNat, hstep]

theorem natLe_length (n v : Nat) : (natLe n v).length = n := by
  induction n generalizing v with
  | zero => rfl
  | succ n ih => simp [natLe, ih]

/-- An agent's access to its own stop crosses no link of the fabric. -/
theorem crossFabric_self (s : State) (a : Agent) (data : List Byte) (poison : List Bool) :
    crossFabric s a a data poison = (s, data, poison) := if_pos (by simp)

/-- A request served at the requester's own stop is performed as it was sent. -/
theorem performVia_own {s t : State} {k : Kind} {r : Req} {ctr : Nat × Nat} {p : Option Nat} {a : Ans}
    (h : originAgent s r.origin = addressAgent s r.addr) (hp : performAt s k r ctr p = (t, some a)) :
    performVia s k r ctr p = (t, some a) := by
  simp only [performVia, h, crossFabric_self, ite_self, hp]

theorem addressAgent_of_counters {s : State} {a c : Nat} (h : regionAt s a = .counters c) :
    addressAgent s a = .cluster (c / 8) := by
  unfold regionAt at h
  rw [addressAgent, h]

/-- An accepted PUT of a wire's arm record (R324, R337). -/
theorem performAt_arm {s : State} {r : Req} {c : Nat} (hr : regionAt s r.addr = .counters c)
    (hi : insideCode s .put r = .ok) (he : effectCode s .put r = .ok) (ctr : Nat × Nat) (p : Option Nat) :
    performAt s .put r ctr p =
      (armWrite s c ((r.addr % 0x10000 - 0x3000) / 16) (leNat (fit r.data 16)), some { }) := by
  unfold performAt
  simp only [he, hr, counterBlockCode_of_insideCode hr hi]

/-- A stream's 16-byte PUT at the arm record of wire w. -/
def armPut (s : State) (core : Fin 32) (ctx : Fin 8) (stream w : Fin 16) (data : List Byte) : Req :=
  { origin := .inside (.stream core ctx stream)
    target := BitVec.ofNat 64 (s.form.node.toNat * 2 ^ 48 + counterBase + core.val * 0x10000 + 0x3000 + 16 * w.val)
    tenant := BitVec.ofNat 12 (s.ctx core ctx).tenant, len := 16, data := data }

section
variable (s : State) (core : Fin 32) (ctx : Fin 8) (stream w : Fin 16) (data : List Byte)

theorem armPut_addr : (armPut s core ctx stream w data).addr = counterBase + core.val * 0x10000 + 0x3000 + 16 * w.val := by
  have hnode := s.form.node.isLt
  simp only [armPut, Req.addr, BitVec.toNat_ofNat, counterBase]
  omega

theorem armPut_node : (armPut s core ctx stream w data).node = s.form.node.toNat := by
  have hnode := s.form.node.isLt
  simp only [armPut, Req.node, BitVec.toNat_ofNat, counterBase]
  omega

theorem armPut_local : isLocal s (armPut s core ctx stream w data).node = true := by
  rw [armPut_node, isLocal, beq_self_eq_true, Bool.true_or]

theorem armPut_region : regionAt s (armPut s core ctx stream w data).addr = .counters core := by
  rw [armPut_addr]
  exact regionAt_arm s core w

theorem armPut_wire : ((armPut s core ctx stream w data).addr % 0x10000 - 0x3000) / 16 = w.val := by
  rw [armPut_addr]
  simp only [counterBase]
  omega

theorem armPut_own : originAgent s (armPut s core ctx stream w data).origin =
    addressAgent s (armPut s core ctx stream w data).addr := by
  rw [addressAgent_of_counters (armPut_region s core ctx stream w data)]
  rfl

end

/-- Sixteen bytes hold a record whole. -/
theorem leNat_record (record : BitVec 128) : leNat (fit (natLe 16 record.toNat) 16) = record.toNat := by
  have hbound : record.toNat < 256 ^ 16 := Nat.lt_of_lt_of_eq record.isLt rfl
  rw [fit_of_length (natLe_length 16 _), leNat_natLe, Nat.mod_eq_of_lt hbound]

/-- The PUT of a record that the checks accept writes the wire's arm record. -/
theorem serveInside_armPut {s : State} {core : Fin 32} {ctx : Fin 8} {stream w : Fin 16} {data : List Byte}
    (hi : insideCode s .put (armPut s core ctx stream w data) = .ok)
    (he : effectCode s .put (armPut s core ctx stream w data) = .ok) :
    serveInside s .put (armPut s core ctx stream w data) = (armWrite s core w (leNat (fit data 16)), some { }) := by
  refine (serveInside_accepted hi).trans (performVia_own (armPut_own s core ctx stream w data) ?_)
  rw [performAt_arm (armPut_region s core ctx stream w data) hi he, armPut_wire]
  rfl

/-- Settles O46: the record is a PUT of the core's own stream; the other rows test the wire and the generation. -/
theorem rollCallArrivals : Obligations.RollCallArrivals := by
  unfold Obligations.RollCallArrivals
  refine ⟨fun core ctx stream w record s => ?arm, fun w s h => congrArg Host.Outcome.next (if_pos h), fun w s ha hl he => ?timeout,
    fun w gen node s => ⟨fun hf hg => ?arrives, fun hf hg => ?spurious, fun hf => congrArg Host.Outcome.next (guard_failed hf)⟩,
    fun w gen s => ⟨fun hf hg => ?releases, fun hf hg => ?spuriousRelease, fun hf => congrArg Host.Outcome.next (guard_failed hf)⟩⟩
  case arm =>
    obtain ⟨data, hdata⟩ : ∃ data, data = natLe 16 record.toNat := ⟨_, rfl⟩
    have hrecord : leNat (fit data 16) = record.toNat := by rw [hdata, leNat_record]
    change ∀ hi : insideCode s .put (armPut s core ctx stream w (natLe 16 record.toNat)) = .ok, _
    rw [← hdata]
    intro hi he
    have hput : exec (.rcArm core ctx stream w record) s = exec (.put (armPut s core ctx stream w data)) s := by
      rw [hdata]
      rfl
    rw [hput, exec_inside (k := .put) rfl (armPut_local s core ctx stream w data) (.inl ⟨rfl, rfl⟩),
      serveInside_armPut hi he, hrecord]
    rfl
  case timeout => exact congrArg Host.Outcome.next (if_neg (by simp [ha, hl, he]))
  case arrives => exact congrArg Host.Outcome.next ((guard_passed hf).trans (if_neg (by simp [hg])))
  case spurious => exact congrArg Host.Outcome.next ((guard_passed hf).trans (if_pos (bne_iff_ne.mpr hg)))
  case releases => exact congrArg Host.Outcome.next ((guard_passed hf).trans (if_neg (by simp [hg])))
  case spuriousRelease => exact congrArg Host.Outcome.next ((guard_passed hf).trans (if_pos (bne_iff_ne.mpr hg)))

end Sys2Proof.Machine
end

section
/-!
The statements about the command entries of Hall Passes, cores, wires and keys (spec/12_remote_memory_and_windows.md,
spec/13_synchronisation.md, spec/15_object_dictionary.md), and the obligations that follow.
-/

namespace Sys2Proof.Machine

open Sys2Proof

/-- Two choices agree where their conditions do and their branches do. -/
theorem ite_iff_congr {α : Type} {p q : Prop} [Decidable p] [Decidable q] {a b a' b' : α} (h : p ↔ q) (ha : a = a')
    (hb : b = b') : (if p then a else b) = if q then a' else b' :=
  ite_congr (propext h) (fun _ => ha) (fun _ => hb)

/-! ## A row that writes a command entry (R371, Table 15-4) -/

section
variable {c : Instr} {s t t' : State} {f : Frame} {n : Name} {u k v : Nat} {slot : Option Nat} {code : FC}
  (hc : exec c s = .next (takeFrame s f)) (h : CommandReaches s f n u k v slot t)
include hc h

theorem exec_of_accepted (hw : writeCommand t f.hdr slot n u k v f.payload = some (.ok, t')) :
    exec c s = .next (accepted t' f) := by
  rw [hc, takeFrame_accepted h hw]

theorem exec_of_answered (hw : writeCommand t f.hdr slot n u k v f.payload = some (code, t')) (hcode : code ≠ .ok) :
    exec c s = .next (answeredWith t' f code) := by
  rw [hc, takeFrame_answered h hw hcode]

end

/-! ## HP_CMD (R304, R306) -/

theorem openPass_ok {t : State} {n : Nat} (h : openCode t n = .ok) : openPass t n =
    (.ok, t.updPass n (fun p => { p with state := .opened, epoch := p.epoch + 1, lastOpen := some t.sys.uptime })) := by
  rw [openPass, h]

theorem openPass_refused {t : State} {n : Nat} (h : openCode t n ≠ .ok) : openPass t n = (openCode t n, t) := by
  unfold openPass
  split
  · exact absurd ‹_› h
  · rfl

/-- Settles O37: OPEN and CLOSE by their checks, the drain by what is in flight. -/
theorem hallPassCommands : Obligations.HallPassCommands := by
  unfold Obligations.HallPassCommands
  refine ⟨fun h s t u k v slot hr hv => ⟨fun ho => ?opened, fun ho => ?refused⟩, fun h s t u k v slot hr hv ho => ?closes,
    fun p s hd hi => ?drained, fun s n m g => State.pass_updPass s n m g⟩
  case opened =>
    subst hv
    exact exec_of_accepted rfl hr (congrArg some (openPass_ok ho))
  case refused =>
    subst hv
    exact exec_of_answered rfl hr (congrArg some (openPass_refused ho)) ho
  case closes =>
    subst hv
    exact exec_of_accepted rfl hr (congrArg some (if_pos ho))
  case drained => exact congrArg Host.Outcome.next (if_pos (by simp [hd, hi]))

/-! ## SFU_LOAD_CMD and CTX_CTL (R161, R163, R439) -/

/-- A table load as it begins. -/
def sfuLoadBegun (t : State) (c table row : Nat) (factory : Bool) : State :=
  (if shadowFree t c table then t else t.bump .sfuLoadWaits c).updCore c (fun k => { k with
    sfuLoads := Map.put k.sfuLoads table { factory := factory, row := row } })

section
variable {t : State} {c : Nat} {table : Fin 2} (h : Map.has (t.core c).sfuLoads table.val = false)
include h

theorem sfuLoad_image {row : Nat} (hrow : row + ceilDiv (tableSize table.val) 1024 ≤ 12288) :
    sfuLoad t c (1 + table.val) row = (.ok, sfuLoadBegun t c table row false) := by
  have htable : (1 + table.val - 1) % 2 = table.val := by omega
  have hv : ¬ (1 + table.val = 0 || 1 + table.val > 4) = true := by simp; omega
  have hfits : ¬ (1 + table.val ≤ 2 && row + ceilDiv (tableSize table.val) 1024 > 12288) = true := by simp; omega
  have hkind : decide (1 + table.val > 2) = false := decide_eq_false (by omega)
  simp only [sfuLoad, htable, if_neg hv, if_neg hfits, h, hkind, Bool.false_eq_true, if_false, sfuLoadBegun]

theorem sfuLoad_factory (row : Nat) : sfuLoad t c (3 + table.val) row = (.ok, sfuLoadBegun t c table row true) := by
  have htable : (3 + table.val - 1) % 2 = table.val := by omega
  have hv : ¬ (3 + table.val = 0 || 3 + table.val > 4) = true := by simp; omega
  have hfits : ¬ (3 + table.val ≤ 2 && row + ceilDiv (tableSize table.val) 1024 > 12288) = true := by simp; omega
  have hkind : decide (3 + table.val > 2) = true := decide_eq_true (by omega)
  simp only [sfuLoad, htable, if_neg hv, if_neg hfits, h, hkind, Bool.false_eq_true, if_false, sfuLoadBegun]

end

theorem writeCtxCtl_faulted {t : State} {c x op : Nat} (h : (t.ctx c x).state = .faulted) (hop : op = 1 ∨ op = 2) :
    writeCtxCtl t c x op = (.ok, ctxSettle (t.updCtx c x (fun q => { q with ctl := op })) c x) :=
  if_pos (by simp [h, hop])

/-- Settles O38: each write is the one command of its entry. -/
theorem coreAndClusterCommands : Obligations.CoreAndClusterCommands := by
  unfold Obligations.CoreAndClusterCommands
  refine ⟨fun h cluster s t u k v slot hr => exec_of_accepted rfl hr rfl, fun h core table s t u k v slot hr hv hl => ?image,
    fun h core table s t u k v slot hr hv hl => ?factory, fun h core ctx s t u k v slot op c hc => ?control⟩
  case image =>
    intro row hrow
    subst hv
    exact exec_of_accepted rfl hr (congrArg some (sfuLoad_image hl hrow))
  case factory =>
    subst hv
    exact exec_of_accepted rfl hr (congrArg some (sfuLoad_factory hl _))
  case control =>
    intro f hr hv hf
    subst hv
    have hexec : exec c s = .next (takeFrame s (writeNum h .ctxCtl v core ctx)) := by
      rcases hc with ⟨rfl, rfl⟩ | ⟨rfl, rfl⟩ <;> rfl
    exact exec_of_accepted hexec hr (congrArg some (writeCtxCtl_faulted hf (hc.imp And.left And.left)))

/-! ## RC_CC_ARRIVE and REPORT_CMD (R338, R344) -/

/-- Settles O39: an arrival by the wire's generation and mask, a report by REPORT_BASE. -/
theorem controlComplexArrivesAndReports : Obligations.ControlComplexArrivesAndReports := by
  unfold Obligations.ControlComplexArrivesAndReports
  refine ⟨fun h w gen s t u k v slot hr => ⟨fun hv hm => ?arrives, fun hbad => ?refused⟩,
    fun h s t u k v slot hr => ⟨fun hb => ?report, fun hb => ?noBase⟩⟩
  case arrives => exact exec_of_accepted rfl hr (congrArg some (if_neg (by rw [hm]; simp [hv])))
  case refused => exact exec_of_answered rfl hr (congrArg some (if_pos (by simpa using hbad))) (by decide)
  case report => exact exec_of_accepted rfl hr (congrArg some (if_neg hb))
  case noBase => exact exec_of_answered rfl hr (congrArg some (if_pos hb)) (by decide)

/-! ## SYNC_SET (R345, Table 13-10) -/

/-- The value of a SYNC_SET write by its fields. -/
def syncWord (value kind core idx : Nat) : Nat := value * 2 ^ 32 + kind * 2 ^ 29 + core * 2 ^ 24 + idx

section
variable {value kind core idx : Nat} (hv : value < 2 ^ 32) (hk : kind ≤ 2) (hc : core < 32) (hi : idx < 256)
include hv hk hc hi

theorem syncWord_fields : bits (syncWord value kind core idx) 0 8 = idx ∧ bits (syncWord value kind core idx) 24 5 = core ∧
    bits (syncWord value kind core idx) 29 3 = kind ∧ bits (syncWord value kind core idx) 8 16 = 0 ∧
    bits (syncWord value kind core idx) 32 32 = value := by
  simp only [bits, syncWord, Nat.shiftRight_eq_div_pow]
  omega

theorem syncWord_value : bits (syncWord value kind core idx) 33 31 = value / 2 ∧
    bits (syncWord value kind core idx) 40 24 = value / 256 ∧ bits (syncWord value kind core idx) 32 8 = value % 256 ∧
    bit (syncWord value kind core idx) 32 = (value % 2 == 1) := by
  have hbit : syncWord value kind core idx >>> 32 % 2 = value % 2 := by
    simp only [syncWord, Nat.shiftRight_eq_div_pow]
    omega
  refine ⟨?_, ?_, ?_, congrArg (· == 1) hbit⟩ <;>
  · simp only [bits, syncWord, Nat.shiftRight_eq_div_pow]
    omega

/-- The checks of SYNC_SET on a value given by its fields. -/
theorem syncSetCode_word (s : State) : syncSetCode s (syncWord value kind core idx) =
    if (kind = 1 ∧ 2 ≤ value) ∨ (kind = 2 ∧ 256 ≤ value) then .reservedNonzero
    else if kind ≠ 2 ∧ s.corePresent core = false then .unitAbsent
    else if (kind = 1 ∧ 64 ≤ idx) ∨ (kind = 2 ∧ (16 ≤ idx ∨ value % 256 ≠ (s.wire idx).gen.toNat)) then .valueRange
    else .ok := by
  obtain ⟨fidx, fcore, fkind, fzero, -⟩ := syncWord_fields hv hk hc hi
  obtain ⟨fhigh1, fhigh2, fgen, -⟩ := syncWord_value hv hk hc hi
  have hhigh1 : value / 2 ≠ 0 ↔ 2 ≤ value := by omega
  have hhigh2 : value / 256 ≠ 0 ↔ 256 ≤ value := by omega
  simp only [syncSetCode, fidx, fcore, fkind, fzero, fhigh1, fhigh2, fgen, bne_self_eq_false, Bool.false_or,
    Bool.or_eq_true, Bool.and_eq_true, beq_iff_eq, bne_iff_ne, decide_eq_true_eq, Bool.not_eq_true', hhigh1, hhigh2,
    Nat.lt_iff_add_one_le, Nat.reduceAdd]
  rw [if_neg (Nat.not_le.2 (Nat.lt_succ_of_le hk))]
  refine ite_iff_congr Iff.rfl rfl (ite_iff_congr Iff.rfl rfl ?_)
  by_cases h1 : kind = 1 ∧ 64 ≤ idx
  · rw [if_pos h1, if_pos (.inl h1)]
  · rw [if_neg h1]
    exact ite_iff_congr (or_iff_right h1).symm rfl rfl

/-- A SYNC_SET that the checks accept: the object takes its value, the write counts and is reported. -/
theorem syncSet_accepted {s : State} (h : syncSetCode s (syncWord value kind core idx) = .ok) {r : State}
    (hr : syncSetApply s (syncWord value kind core idx) = r) : syncSet s (syncWord value kind core idx) =
      (.ok, (r.bump .syncSets).raise .syncManual (if kind = 2 then 0 else 1) (if kind = 2 then 0 else core)
        (syncWord value kind core idx % 2 ^ 32)) := by
  obtain ⟨-, fcore, fkind, -⟩ := syncWord_fields hv hk hc hi
  subst hr
  rw [syncSet, h]
  simp only [fcore, fkind, beq_iff_eq]

theorem syncSetApply_counter (h : kind = 0) (s : State) : syncSetApply s (syncWord value kind core idx) =
    rcCheck (leaveRecess (setCounter s core idx (BitVec.ofNat 32 value)) core) core := by
  obtain ⟨fidx, fcore, fkind, -, fvalue⟩ := syncWord_fields hv hk hc hi
  subst h
  simp only [syncSetApply, fidx, fcore, fkind, fvalue]

theorem syncSetApply_flag (h : kind = 1) (s : State) : syncSetApply s (syncWord value kind core idx) =
    syncFlag (leaveRecess s core) core idx (value % 2 == 1) := by
  obtain ⟨fidx, fcore, fkind, -⟩ := syncWord_fields hv hk hc hi
  obtain ⟨-, -, -, fbit⟩ := syncWord_value hv hk hc hi
  subst h
  simp only [syncSetApply, fidx, fcore, fkind, fbit]

theorem syncSetApply_wire (h : kind = 2) (s : State) :
    syncSetApply s (syncWord value kind core idx) = rcComplete s idx := by
  obtain ⟨fidx, fcore, fkind, -⟩ := syncWord_fields hv hk hc hi
  subst h
  simp only [syncSetApply, fidx, fkind]

end

theorem syncSet_refused {s : State} {v : Nat} {code : FC} (h : syncSetCode s v = code) (hc : code ≠ .ok) :
    syncSet s v = (code, s) := by
  subst h
  unfold syncSet
  split
  · exact absurd ‹_› hc
  · rfl

/-- A flag set or cleared by hand, by whether a Lesson holds it. -/
theorem syncFlag_none {s r : State} {c i : Nat} {b : Bool} (hr : s.updCore c (fun k => { k with
      flags := if b then k.flags ||| BitVec.ofNat 64 (2 ^ i) else k.flags &&& ~~~ (BitVec.ofNat 64 (2 ^ i)) }) = r)
    (h : Map.get? (r.core c).flagOwner i = none) : syncFlag s c i b = r := by
  subst hr
  rw [syncFlag]
  simp only [h]

theorem syncFlag_some {s r : State} {c i : Nat} {b : Bool} {o : FlagOwner} (hr : s.updCore c (fun k => { k with
      flags := if b then k.flags ||| BitVec.ofNat 64 (2 ^ i) else k.flags &&& ~~~ (BitVec.ofNat 64 (2 ^ i)) }) = r)
    (h : Map.get? (r.core c).flagOwner i = some o) : syncFlag s c i b = if b then handSet r c o else handClear r c o := by
  subst hr
  rw [syncFlag]
  simp only [h]

/-- Settles O40: the checks of the written fields first, then the object that the kind names. -/
theorem syncSetCommands : Obligations.SyncSetCommands := by
  unfold Obligations.SyncSetCommands
  intro h core idx value s t u k v slot kind c hc f done refused hr
  have hvalue : value.toNat < 2 ^ 32 := value.isLt
  have hcore : core.toNat < 32 := core.isLt
  have hidx : idx.toNat < 256 := idx.isLt
  have hkind : kind ≤ 2 := by omega
  have hword : v = syncWord value.toNat kind core.toNat idx.toNat := by
    unfold syncWord
    omega
  have hexec : exec c s = .next (takeFrame s f) := by
    change exec c s = .next (takeFrame s (writeNum h .syncSet v))
    rcases hc with ⟨-, rfl, hv⟩ | ⟨-, rfl, hv⟩ | ⟨-, rfl, hv⟩ <;> rw [hv] <;> rfl
  clear hc
  subst hword
  have hcode := syncSetCode_word hvalue hkind hcore hidx t
  have hdone : ∀ r : State, syncSetCode t (syncWord value.toNat kind core.toNat idx.toNat) = .ok →
      syncSetApply t (syncWord value.toNat kind core.toNat idx.toNat) = r →
      done r (if kind = 2 then 0 else 1) (if kind = 2 then 0 else core.toNat) := fun r hok ha =>
    exec_of_accepted hexec hr (congrArg some (syncSet_accepted hvalue hkind hcore hidx hok ha))
  have hrefused : ∀ code, code ≠ .ok → syncSetCode t (syncWord value.toNat kind core.toNat idx.toNat) = code →
      refused code := fun code hne he =>
    exec_of_answered hexec hr (congrArg some (syncSet_refused he hne)) hne
  clear_value f done refused
  have hbit : value.toNat < 2 → ((value.toNat % 2 == 1) = true ↔ value.toNat = 1) := by
    intro hval
    rw [beq_iff_eq]
    omega
  have hflag : value.toNat < 2 → (leaveRecess t core.toNat).updCore core.toNat (fun k => { k with
      flags := if value.toNat % 2 == 1 then k.flags ||| BitVec.ofNat 64 (2 ^ idx.toNat)
        else k.flags &&& ~~~ (BitVec.ofNat 64 (2 ^ idx.toNat)) }) =
      (leaveRecess t core.toNat).updCore core.toNat (fun k => { k with
        flags := if value.toNat = 1 then k.flags ||| BitVec.ofNat 64 (2 ^ idx.toNat)
          else k.flags &&& ~~~ (BitVec.ofNat 64 (2 ^ idx.toNat)) }) := by
    intro hval
    simp only [hbit hval]
  refine ⟨fun hk hp => ?counter, fun hk hp hi hval => ⟨fun ho => ?freeFlag, fun o ho => ?heldFlag⟩, fun hk hi hg => ?wire,
    fun hbad => ?reserved, fun hbad hp => ?absent, fun hbad => ?range⟩
  case reserved => exact hrefused _ (by decide) (hcode.trans (if_pos hbad))
  case absent =>
    refine hrefused _ (by decide) (hcode.trans ((if_neg (by omega)).trans (if_pos ⟨by omega, hp⟩)))
  case range =>
    refine hrefused _ (by decide) (hcode.trans ((if_neg (by omega)).trans ((if_neg ?_).trans (if_pos (by omega)))))
    rintro ⟨hne, hp⟩
    rcases hbad with ⟨-, -, hpresent, -⟩ | ⟨hk, -⟩
    · exact Bool.false_ne_true (hp.symm.trans hpresent)
    · exact hne hk
  case counter =>
    subst hk
    refine hdone _ (hcode.trans ((if_neg (by omega)).trans ((if_neg (by simp [hp])).trans (if_neg (by omega))))) ?_
    rw [syncSetApply_counter hvalue hkind hcore hidx rfl, BitVec.ofNat_toNat, BitVec.setWidth_eq]
  case wire =>
    subst hk
    exact hdone _ (hcode.trans ((if_neg (by omega)).trans ((if_neg (by omega)).trans (if_neg (by omega)))))
      (syncSetApply_wire hvalue hkind hcore hidx rfl t)
  case freeFlag =>
    subst hk
    refine hdone _ (hcode.trans ((if_neg (by omega)).trans ((if_neg (by simp [hp])).trans (if_neg (by omega))))) ?_
    exact (syncSetApply_flag hvalue hkind hcore hidx rfl t).trans (syncFlag_none (hflag hval) ho)
  case heldFlag =>
    subst hk
    refine hdone _ (hcode.trans ((if_neg (by omega)).trans ((if_neg (by simp [hp])).trans (if_neg (by omega))))) ?_
    refine (syncSetApply_flag hvalue hkind hcore hidx rfl t).trans ((syncFlag_some (hflag hval) ho).trans ?_)
    exact ite_iff_congr (hbit hval) rfl rfl

/-! ## Keys (R382 to R384) -/

theorem writeWrapped_other {t : State} {a : Nat} {kek key : BitVec 128} {payload : List Byte} {next : Bool}
    (ha : a ≠ keySel t) (hk : (keySlot t a).cur = some kek) (hu : unwrapKey kek (fit payload 24) = some key) :
    writeWrapped t (some a) next payload =
      if next then
        if (keySlot t (keySel t)).state = 0 then (.valueRange, t)
        else (.ok, updKey t (keySel t) (fun q => { q with next := some key }))
      else (.ok, updKey t (keySel t) (fun q => { q with cur := some key })) := by
  refine (if_neg ha).trans ?_
  rw [hk]
  simp only [hu]

theorem exec_keyRotation_asked {slot : Fin 16} {s r : State} (hd : rotationDue s slot = true)
    (hm : s.ent .fnModeKeyRotation ≠ 0) (ho : assistOpen s (.keySlot slot.val) = false)
    (hr : raiseAssist s .keyRotation (s.ent .fnModeKeyRotation) (.keySlot slot) slot (keySlot s slot).rotateAt [] = (.ok, r)) :
    exec (.keyRotation slot) s = .next (forwardAssists r) := by
  refine congrArg Host.Outcome.next ((guard_passed hd).trans ((if_neg hm).trans ((test_failed ho).trans ?_)))
  rw [hr]

/-- Settles O41: a wrapped key by the slot that authenticated it, a rotation by its mode. -/
theorem keyCommands : Obligations.KeyCommands := by
  unfold Obligations.KeyCommands
  refine ⟨fun h payload s t u k v a kek key hr ha hk hu => ?current, fun h payload s t u k v a kek key hr ha hk hu hs => ?next,
    fun h s t u k v slot hr hs => ?zeroise, fun slot s hd hm => ?rotates, fun slot s r hd hm ho hr => exec_keyRotation_asked hd hm ho hr⟩
  case current =>
    exact exec_of_accepted (exec_keyWrapped h payload s) hr (congrArg some (writeWrapped_other (next := false) ha hk hu))
  case next =>
    exact exec_of_accepted (exec_keyNextWrapped h payload s) hr
      (congrArg some ((writeWrapped_other (next := true) ha hk hu).trans (if_neg hs)))
  case zeroise => exact exec_of_accepted (exec_keyZeroise h s) hr (congrArg some (if_neg hs))
  case rotates => exact congrArg Host.Outcome.next ((guard_passed hd).trans (if_pos hm))

end Sys2Proof.Machine
end

section
/-!
The statements about the command entries of overlays and base images, of the block and of resets
(spec/14_forms_and_links.md, spec/15_object_dictionary.md, spec/17_power.md, spec/18_reset_and_reliability.md,
spec/19_debug_and_counters.md), and the obligations that follow.
-/

namespace Sys2Proof.Machine

open Sys2Proof

/-! ## OVL_CMD (R387, R388) -/

/-- The value of an OVL_CMD write holds the command and the overlay's number. -/
theorem overlayWord_fields (number : U16) {op : Nat} (hop : op < 256) :
    bits (number.toNat * 256 + op) 0 8 = op ∧ bits (number.toNat * 256 + op) 8 16 = number.toNat := by
  have hnumber := number.isLt
  simp only [bits, Nat.shiftRight_eq_div_pow]
  omega

theorem overlay_number {number : U16} (h : number ≠ 0xFFFF) : number.toNat ≠ 0xFFFF := fun e =>
  h (BitVec.eq_of_toNat_eq e)

/-- A command of OVL_CMD that its value's checks let pass. -/
theorem overlayCommand_word {number : U16} {op : Nat} (h1 : 1 ≤ op) (h5 : op ≤ 5) (hn : op = 3 ∨ number ≠ 0xFFFF)
    (t : State) (fs : List Fetched) : overlayCommand t fs (number.toNat * 256 + op) =
      if op = 1 then loadOverlay t fs number.toNat
      else if op = 2 then unloadOverlay t number.toNat
      else if 64 ≤ t.mgmt.ovl.pending.length then (.ovlBusy, t)
      else (.ok, t.updOvl (fun o => { o with pending := o.pending ++ [{ op := op, num := number.toNat }] })) := by
  obtain ⟨fop, fnumber⟩ := overlayWord_fields number (op := op) (by omega)
  have hgood : ¬ (op = 0 || 5 < op || (number.toNat = 0xFFFF && op != 3)) = true := by
    rcases hn with rfl | hn
    · simp
    · simp [overlay_number hn]
      omega
  simp only [overlayCommand, fop, fnumber, if_neg hgood]

theorem loadOverlay_valid {t r : State} {fs : List Fetched} {n : Nat} {img : List Byte}
    (hf : fetchImage t fs (t.ent .ovlLoadAddr) 4096 = (r, .ok, img)) (hc : overlayCode r img n = .ok)
    (hu : overlayInUse r n = false)
    (hroom : Map.has r.mgmt.ovl.store n = true ∨ r.mgmt.ovl.store.length < 1024) : loadOverlay t fs n =
      (.ok, l2Written (r.updOvl (fun o => { o with store := Map.put o.store n img })) (l2Overlay n) img.length) := by
  have hstore : ¬ (!Map.has r.mgmt.ovl.store n && 1024 ≤ r.mgmt.ovl.store.length) = true := by
    rcases hroom with h | h
    · simp [h]
    · simp [Nat.not_le.2 h]
  simp only [loadOverlay, hf, hc, hu, if_neg hstore, bne_self_eq_false, Bool.false_eq_true, if_false]

/-! ## BASE_CMD (R389) -/

section
variable {t r : State} {fs : List Fetched} {img : List Byte}
  (hf : fetchImage t fs (t.ent .baseAddr) 65536 = (r, .ok, img)) (hh : headerCode img 0xFFFF [2] = .ok)
  (hr : recordsCode r true [] (imgBody img) = .ok) (hb : baseCode r (imgBody img) = .ok)
include hf hh hr hb

/-- A base image that validates. -/
theorem baseApply_valid : baseApply t fs = if r.sched.step = 0 && !r.sched.begun then
      ((applyBase r img).1, (applyBase r img).2.setCnt .baseStatus (applyBase r img).1.value)
    else (.ok, r.updOvl (fun o => { o with base := some img })) := by
  simp only [baseApply, hf, hh, hr, hb, bne_self_eq_false, Bool.false_eq_true, if_false]

end

/-- Settles O43: each command by its checks on the image, the store and the pending list. -/
theorem overlayAndBaseCommands : Obligations.OverlayAndBaseCommands := by
  unfold Obligations.OverlayAndBaseCommands
  refine ⟨fun h number s t r img u k slot hreach hn hf hc hu hroom => ?load, fun h number s t u k slot hreach hn hs hu => ?unload,
    fun h number s t u k slot op c hc => ?pending, fun h s t r img u k v slot hreach hv hf hh hr hb => ⟨fun hstarted => ?baseWaits, fun r' hs hg ha => ?baseApplies⟩,
    fun h s t r u k v slot c => ?save⟩
  case load =>
    refine exec_of_accepted rfl hreach (congrArg some ?_)
    exact (overlayCommand_word (by decide) (by decide) (.inr hn) t _).trans (loadOverlay_valid hf hc hu hroom)
  case unload =>
    refine exec_of_accepted rfl hreach (congrArg some ?_)
    exact (overlayCommand_word (by decide) (by decide) (.inr hn) t _).trans
      ((guard_passed hs).trans (test_failed hu))
  case pending =>
    intro f hreach hroom
    have hop : 3 ≤ op ∧ op ≤ 5 ∧ (op = 3 ∨ number ≠ 0xFFFF) := by
      rcases hc with ⟨rfl, -⟩ | ⟨rfl, -, hn⟩ | ⟨rfl, -, hn⟩
      · exact ⟨Nat.le_refl 3, by decide, .inl rfl⟩
      · exact ⟨by decide, by decide, .inr hn⟩
      · exact ⟨by decide, by decide, .inr hn⟩
    obtain ⟨h3, h5, hn⟩ := hop
    have hexec : exec c s = .next (takeFrame s (ovlFrame h op number)) := by
      rcases hc with ⟨rfl, rfl⟩ | ⟨rfl, rfl, -⟩ | ⟨rfl, rfl, -⟩ <;> rfl
    refine exec_of_accepted hexec hreach (congrArg some ?_)
    rw [overlayCommand_word (by omega) h5 hn, if_neg (by omega), if_neg (by omega), if_neg (Nat.not_le.2 hroom)]
  case baseWaits =>
    subst hv
    refine exec_of_accepted rfl hreach (congrArg some ((if_pos rfl).trans ((baseApply_valid hf hh hr hb).trans (if_neg ?_))))
    rcases hstarted with hstep | hbegun
    · simp [hstep]
    · simp [hbegun]
  case baseApplies =>
    subst hv
    refine exec_of_accepted rfl hreach (congrArg some ((if_pos rfl).trans ((baseApply_valid hf hh hr hb).trans ((if_pos ?_).trans ?_))))
    · simp [hs, hg]
    · rw [ha]
  case save =>
    intro f hreach hv hput
    subst hv
    have hsave : baseSave t = (c, if c = .ok then (r.setCnt .baseStatus c.value).setCnt .baseLength (baseImage t).length
        else r.setCnt .baseStatus c.value) := by
      rw [baseSave]
      simp only [hput]
    by_cases hc : c = .ok
    · subst hc
      rw [if_pos rfl]
      exact exec_of_accepted rfl hreach (congrArg some hsave)
    · rw [if_neg hc]
      rw [if_neg hc] at hsave
      exact exec_of_answered rfl hreach (congrArg some hsave) hc

/-! ## ENUM_CMD (R351, R352) -/

/-- A block that may enumerate. -/
theorem not_barred {t : State} (h : alone t = true ∨ isTopHead t = true) : ¬ (!alone t && !isTopHead t) = true := by
  rcases h with h | h
  · simp [h]
  · simp [h]

section
variable {t : State} {peers : List EnumPeer} (ha : alone t = true ∨ isTopHead t = true)
include ha

theorem enumStart_numbered (hn : t.form.node ≠ 0) : enumStart t peers = (.ok, setEnumStatus t .enumBusy) :=
  (if_neg (not_barred ha)).trans (if_pos (bne_iff_ne.mpr hn))

variable (hn : t.form.node = 0)
include hn

theorem enumStart_unplanned {c : FC} {p : Plan} (hp : makePlan t peers = (c, p)) (hc : c ≠ .ok) :
    enumStart t peers = (.ok, setEnumStatus t c) := by
  refine (if_neg (not_barred ha)).trans ((if_neg (by simp [hn])).trans ?_)
  rw [hp]
  exact if_pos (bne_iff_ne.mpr hc)

theorem enumStart_planned {p : Plan} (hp : makePlan t peers = (.ok, p))
    (hpeers : peers.any (fun q => q.assignCode != .ok) = false) {r w : State}
    (hr : (List.range p.missing).foldl (fun s _ => s.raise .formDegraded)
      (peers.foldl (fun s q => s.emit (.enumAssign q.identity (p.assign q.identity.toNat))) t) = r)
    (hw : { r with form := { r.form with staged := some (p.assign r.fuses.identity.toNat) } } = w) :
    enumStart t peers =
      (.ok, setEnumStatus (commitForm (if peers.isEmpty then w else w.emit (.enumCommit true))) .ok) := by
  refine (if_neg (not_barred ha)).trans ((if_neg (by simp [hn])).trans ?_)
  rw [hp]
  refine (if_neg (by simp)).trans ((test_failed hpeers).trans ?_)
  subst hw
  rw [hr]

end

/-! ## FN_ASSIST_ANSWER, TRACE_CTL and WFG_CMD (R97, R465, R468) -/

/-- The value of an FN_ASSIST_ANSWER write holds the request's number, the length in 16-byte words and the code. -/
theorem answerWord_fields (num : U32) (len16 code : U16) :
    bits (num.toNat * 2 ^ 32 + len16.toNat * 2 ^ 16 + code.toNat) 32 32 = num.toNat ∧
    bits (num.toNat * 2 ^ 32 + len16.toNat * 2 ^ 16 + code.toNat) 16 16 = len16.toNat ∧
    bits (num.toNat * 2 ^ 32 + len16.toNat * 2 ^ 16 + code.toNat) 0 16 = code.toNat := by
  have hnum := num.isLt
  have hlen := len16.isLt
  have hcode := code.isLt
  simp only [bits, Nat.shiftRight_eq_div_pow]
  omega

section
variable {t : State} {fs : List Fetched} {v num len n addr : Nat} {a : Assist} {c : FC} {value : Nat}
  (hnum : bits v 32 32 = num) (hlen : 16 * bits v 16 16 = len) (hvalue : bits v 0 16 = value)
  (ha : t.mgmt.assists.find? (fun a => a.num == num) = some a) (hc : FC.ofValue? value = some c)
  (hp : a.place = some n) (hmax : len ≤ answerMax t a.fn)
  (haddr : t.ent .fnAnswerBase + n * t.ent .fnAnswerSize = addr)
include hnum hlen hvalue ha hc hp hmax haddr

/-- A host answer whose bytes are read: poison is its code where it had none. -/
theorem hostAssistAnswer_read {r : State} {data : List Byte} {marks : List Bool} (hd : mcDown t addr len = false)
    (hr : t.read addr len = (r, data, marks)) : hostAssistAnswer t fs v =
      (.ok, endAssist r num fs (if c = .ok ∧ marks.any (fun b => b) = true then .dataPoisoned else c) data) := by
  subst hnum hlen hvalue haddr
  simp only [hostAssistAnswer, ha, hc, hp, if_neg (Nat.not_lt.2 hmax), hd, hr, Bool.false_eq_true, if_false,
    Bool.and_eq_true, decide_eq_true_eq]

theorem hostAssistAnswer_down (hd : mcDown t addr len = true) : hostAssistAnswer t fs v =
    (.ok, endAssist t num fs (if c = .ok then .mcDown else c) []) := by
  subst hnum hlen hvalue haddr
  simp only [hostAssistAnswer, ha, hc, hp, if_neg (Nat.not_lt.2 hmax), hd, if_true]

end

/-- An assembly that the hardware does asks for the cards (R468). -/
theorem wfgCommand_hardware {t : State} {v : Nat} (hw : t.sys.wfg = none) (hv : v = 2 → headOf t ≠ 0)
    (hm : t.ent .fnModeWaitGraph = 0) :
    wfgCommand t v = (.ok, wfgRequest { t with sys := { t.sys with wfg := some v } } v) := by
  have hfree : ¬ (t.sys.wfg.isSome || (v = 2 && headOf t = 0)) = true := by simpa [hw] using hv
  simp only [wfgCommand, if_neg hfree, hm, if_true, bne_self_eq_false, Bool.false_eq_true, if_false,
    Nat.reduceEqDiff]

/-- Settles O44: each write is the one command of its entry, by what that command tests. -/
theorem blockCommands : Obligations.BlockCommands := by
  unfold Obligations.BlockCommands
  refine ⟨fun h s t u k v slot hr hv hphase ha => ⟨fun hn => ?numbered, fun c p hn hp hc => ?unplanned, fun p hn hp hpeers => ?planned⟩,
    fun h s t u k v slot hr hv => ?release, fun h point s t u k v slot hr => exec_of_accepted rfl hr rfl,
    fun h num len16 code s t r u k slot a c n v data marks hv => ?answer,
    fun h value s t u k v slot hr => ⟨fun hon hring => ?traceOn, fun hoff => ?traceOff⟩,
    fun h s t u k v slot hr hv hw hm => ?block, fun h s t u k v slot hr hv hw hhead hm => ?form⟩
  case numbered =>
    subst hv
    exact exec_of_accepted rfl hr (congrArg some ((if_pos rfl).trans ((if_neg hphase).trans (enumStart_numbered ha hn))))
  case unplanned =>
    subst hv
    exact exec_of_accepted rfl hr (congrArg some ((if_pos rfl).trans ((if_neg hphase).trans (enumStart_unplanned ha hn hp hc))))
  case planned =>
    subst hv
    exact exec_of_accepted rfl hr
      (congrArg some ((if_pos rfl).trans ((if_neg hphase).trans (enumStart_planned ha hn hp hpeers rfl rfl))))
  case release =>
    subst hv
    exact exec_of_accepted rfl hr rfl
  case answer =>
    intro f hr ha hc hp hmax addr
    obtain ⟨fnum, flen, fcode⟩ := answerWord_fields num len16 code
    subst hv
    exact ⟨fun hd hread => exec_of_accepted rfl hr
        (congrArg some (hostAssistAnswer_read fnum (congrArg (16 * ·) flen) fcode ha hc hp hmax rfl hd hread)),
      fun hd => exec_of_accepted rfl hr
        (congrArg some (hostAssistAnswer_down fnum (congrArg (16 * ·) flen) fcode ha hc hp hmax rfl hd))⟩
  case traceOn => exact exec_of_accepted rfl hr (congrArg some ((if_pos hon).trans (guard_passed hring)))
  case traceOff => exact exec_of_accepted rfl hr (congrArg some (test_failed hoff))
  case block =>
    subst hv
    exact exec_of_accepted rfl hr (congrArg some (wfgCommand_hardware hw (fun e => absurd e (by decide)) hm))
  case form =>
    subst hv
    exact exec_of_accepted rfl hr (congrArg some (wfgCommand_hardware hw (fun _ => hhead) hm))

/-! ## RST_CMD and FW_CMD (R449 to R453, R456, R457) -/

theorem rstUnitCode_lt (unit : RstUnit) : rstUnitCode unit < 16 := by
  cases unit with
  | reserved v => exact Nat.add_lt_add_left v.isLt 4
  | _ => decide

/-- The value of an RST_CMD write holds the operation, the unit and its index. -/
theorem rstWord_fields (index : BitVec 6) (unit : RstUnit) {op : Nat} (hop : op < 256) :
    bits (index.toNat * 2 ^ 16 + rstUnitCode unit * 2 ^ 8 + op) 0 8 = op ∧
    bits (index.toNat * 2 ^ 16 + rstUnitCode unit * 2 ^ 8 + op) 8 4 = rstUnitCode unit ∧
    bits (index.toNat * 2 ^ 16 + rstUnitCode unit * 2 ^ 8 + op) 16 6 = index.toNat := by
  have hindex := index.isLt
  have hunit := rstUnitCode_lt unit
  simp only [bits, Nat.shiftRight_eq_div_pow]
  omega

section
variable {t : State} {v op unit index : Nat} (hop : bits v 0 8 = op) (hunit : bits v 8 4 = unit)
  (hindex : bits v 16 6 = index) (hcode : rstCode t op unit index = .ok)
include hop hunit hindex hcode

/-- RST_CMD once its checks pass, by the unit and the operation. -/
theorem rstCommand_checked : rstCommand t v = (.ok, if unit = 3 then requestReset (freeCode t).2 (freeCode t).1
    else if unit = 2 then setRstStatus (resetCc t) .ok
    else if op = 4 then ungate t unit index
    else if op = 2 && !actionOpen t then
      beginReset { t with sys := { t.sys with rstJobs := t.sys.rstJobs.filter (fun q => !(!q.running &&
        ((q.unit == unit && q.index == index) || (unit == 1 && q.unit == 0 && q.index / 8 == index)))) } }
        { op := op, unit := unit, index := index, value := v }
    else withRstJob t { op := op, unit := unit, index := index, value := v }) := by
  subst hop hunit hindex
  simp only [rstCommand, hcode]
  split
  · rfl
  · split
    · rfl
    · split
      · rfl
      · by_cases hq : (decide (bits v 0 8 = 2) && !actionOpen t) = true
        · rw [if_pos hq]
          exact if_pos hq
        · rw [if_neg hq]
          exact if_neg hq

end

/-- Settles O45: RST_CMD by its unit and operation, FW_CMD by what is in progress. -/
theorem resetCommands : Obligations.ResetCommands := by
  unfold Obligations.ResetCommands
  refine ⟨fun h unit index s t u k v slot op c hc => ?reset, fun h s t u k v slot hr hv hs ha hre => ?stage,
    fun h s t u k v slot hr hv hs ha hre himg hst => ?activate⟩
  case stage =>
    subst hv
    exact exec_of_accepted rfl hr (congrArg some ((if_neg (by simp [hs, ha, hre])).trans (if_pos rfl)))
  case activate =>
    subst hv
    exact exec_of_accepted rfl hr (congrArg some ((if_neg (by simp [hs, ha, hre])).trans
      ((if_neg (by decide)).trans (if_neg (by simp [himg, hst])))))
  case reset =>
    intro f hv j hr hcode
    have hop : op < 256 := by omega
    have hexec : exec c s = .next (takeFrame s f) := by
      rcases hc with ⟨rfl, rfl⟩ | ⟨rfl, rfl⟩ | ⟨rfl, rfl⟩ | ⟨rfl, rfl⟩ <;> rfl
    obtain ⟨fop, funit, findex⟩ := rstWord_fields index unit hop
    rw [← hv] at fop funit findex
    have hdone := exec_of_accepted hexec hr (congrArg some (rstCommand_checked fop funit findex hcode))
    have hother : unit = .core ∨ unit = .cluster → ¬ rstUnitCode unit = 3 ∧ ¬ rstUnitCode unit = 2 := by
      rintro (rfl | rfl) <;> decide
    refine ⟨fun hu ho => ?waits, fun hu ho hopen => ?begins, fun hu ho => ?ungated, fun hu => ?complex, fun hu => ?block⟩
    case waits =>
      obtain ⟨h3, h2⟩ := hother hu
      have hwait : ¬ (decide (op = 2) && !actionOpen t) = true := by
        rcases ho with rfl | rfl | ⟨rfl, hopen⟩
        · simp
        · simp
        · simp [hopen]
      rw [hdone, if_neg h3, if_neg h2, if_neg (by omega), if_neg hwait]
    case begins =>
      obtain ⟨h3, h2⟩ := hother hu
      rw [hdone, if_neg h3, if_neg h2, if_neg (by omega), if_pos (by simp [ho, hopen])]
    case ungated =>
      obtain ⟨h3, h2⟩ := hother hu
      rw [hdone, if_neg h3, if_neg h2, if_pos ho]
    case complex =>
      subst hu
      rw [hdone, if_neg (by decide), if_pos (show rstUnitCode .cc = 2 from rfl)]
    case block =>
      subst hu
      rw [hdone, if_pos (show rstUnitCode .block = 3 from rfl)]

end Sys2Proof.Machine
end

section
/-!
The statements about reports and assists (spec/03_sequences_and_scheduling.md, spec/13_synchronisation.md,
spec/19_debug_and_counters.md), about enumeration (spec/14_forms_and_links.md) and about the frames of the dictionary
(spec/15_object_dictionary.md), and the obligations that follow.
-/

namespace Sys2Proof.Machine

open Sys2Proof

/-! ## Cards and aggregates (R344, R463, R464) -/

theorem exec_reportCardLanded_at {s t : State} {j : CardJob} {rest : List CardJob} {code : FC} (hj : s.sys.cards = j :: rest)
    (hl : landCard s j = (t, code)) : exec .reportCardLanded s =
      .next (cardPump (if code = .ok then
        ((({ t with sys := { t.sys with cards := rest } } : State).bump .reportCount).setCnt .reportTrigger
          j.trigger.value).setCnt .reportSize (cardWhole s j).length
        else ({ t with sys := { t.sys with cards := rest } } : State).raise code)) := by
  change execReportCardLanded s = _
  rw [execReportCardLanded, hj]
  simp only [hl]
  by_cases hc : code = .ok
  · rw [if_pos hc, if_neg (by simp [hc])]
  · rw [if_neg hc, if_pos (bne_iff_ne.mpr hc)]

theorem exec_aggRun_hardware {members : List MemberAgg} {s t : State} (hm : s.ent .fnModeCounterAgg = 0)
    (ht : (aggBlock s (aggSample s)).setCnt .aggLastUs s.sys.uptime = t) : exec (.aggRun members) s =
      .next ((if headOf t = 0 then t else (myMembers t).foldl (fun s n => s.emit (.mgmtAsk n 2))
        (aggForm t (ownIncrease s t :: members))).bump .aggRuns) := by
  subst ht
  change execAggRun members s = _
  rw [execAggRun, hm]
  rfl

/-! ## Wait-for graphs (R468 to R470) -/

/-- A non-empty list is of one value where no two of its members differ. -/
theorem all_eq_head {α : Type} (f : α → Nat) (a : α) (rest : List α) : rest.all (fun c => f c == f a) =
    !((a :: rest).any fun c => (a :: rest).any fun d => f c != f d) := by
  rw [Bool.eq_iff_iff]
  simp only [List.all_eq_true, beq_iff_eq, Bool.not_eq_true', Bool.eq_false_iff, ne_eq, List.any_eq_true, bne_iff_ne,
    not_exists, not_and, Classical.not_not]
  constructor
  · intro h c hc d hd
    have hall : ∀ x ∈ a :: rest, f x = f a := by
      intro x hx
      rcases List.mem_cons.mp hx with rfl | hx
      · rfl
      · exact h x hx
    rw [hall c hc, hall d hd]
  · intro h x hx
    exact h x (List.mem_cons_of_mem a hx) a List.mem_cons_self

theorem wfgConsistent_eq (set : List WfgBlock) : wfgConsistent set =
    !((set.filterMap (·.card)).any fun c => (set.filterMap (·.card)).any fun d => fieldAt c 8 8 != fieldAt d 8 8) := by
  unfold wfgConsistent
  cases set.filterMap (fun b => b.card) with
  | nil => rfl
  | cons a rest => exact all_eq_head (fun c => fieldAt c 8 8) a rest

section
variable {s : State} {v : Nat} (cards : List RemoteCard) (hv : s.sys.wfg = some v)
  (ha : s.mgmt.assists.any (fun a => a.fn == .waitGraph && a.toHost) = false) (hc : s.sys.cards = [])
  (hw : s.sys.cardWait = []) {set : List WfgBlock} (hset : wfgBlocks s v cards = set)
include hv ha hc hw hset

/-- WFG_DONE once the cards of this block have landed. -/
theorem exec_wfgDone_at : exec (.wfgDone cards) s = .next
    (if !wfgConsistent set && s.sys.wfgSets < 3 then
      wfgRequest { s with sys := { s.sys with wfgSets := s.sys.wfgSets + 1 } } v
    else if (landAt s (s.ent .wfgBase) (fitRecords (s.ent .wfgSize) (wfgBytes set)).1).2 != .ok then
      wfgEnd (landAt s (s.ent .wfgBase) (fitRecords (s.ent .wfgSize) (wfgBytes set)).1).1
        (landAt s (s.ent .wfgBase) (fitRecords (s.ent .wfgSize) (wfgBytes set)).1).2 false
    else wfgEnd (landAt s (s.ent .wfgBase) (fitRecords (s.ent .wfgSize) (wfgBytes set)).1).1
      (if (fitRecords (s.ent .wfgSize) (wfgBytes set)).2 then .ok else .valueRange) true) := by
  subst hset
  change execWfgDone cards s = _
  rw [execWfgDone, hv]
  refine congrArg Host.Outcome.next (if_neg ?_)
  simp [ha, hc, hw]

end

/-! ## Assists (R71, R95, R97) -/

theorem endAssist_found {s : State} {num : Nat} {a : Assist} (h : s.mgmt.assists.find? (fun a => a.num == num) = some a)
    (fs : List Fetched) (code : FC) (data : List Byte) : endAssist s num fs code data =
      forwardAssists (applyAnswer (unstall { s with mgmt := { s.mgmt with
        assists := s.mgmt.assists.filter (fun b => b.num != num) } }) a fs code data) := by
  rw [endAssist, h]

/-- Settles O48: a landed card, a run and a graph by what they test; an answer and a timeout end the request they find. -/
theorem reportsAndAssists : Obligations.ReportsAndAssists := by
  unfold Obligations.ReportsAndAssists
  refine ⟨fun s t j rest code hj hl => exec_reportCardLanded_at hj hl, fun members s hm => ⟨fun hh => ?own, fun hh => ?form⟩,
    fun cards s v hv ha hc hw => ?graph, fun num fs s a hfind => ⟨fun code data hhost hphase hfn => ?answer, fun hhost hcc => ?timeout⟩⟩
  case own => rw [exec_aggRun_hardware hm rfl, if_pos hh]
  case form => rw [exec_aggRun_hardware hm rfl, if_neg hh]
  case graph =>
    intro own set skewed
    have hskew : wfgConsistent set = !skewed := wfgConsistent_eq set
    have hdone := exec_wfgDone_at cards hv ha hc hw (set := set) rfl
    rw [hskew] at hdone
    clear_value skewed
    refine ⟨fun hs hsets => ?again, fun bs whole t code hs hfit hland => ?written⟩
    case again => rw [hdone, if_pos (by simp [hs, hsets])]
    case written =>
      have henough : ¬ (!!skewed && decide (s.sys.wfgSets < 3)) = true := by
        rcases hs with hs | hs
        · simp [hs]
        · simp [Nat.not_lt.2 hs]
      rw [hdone, if_neg henough, hfit, hland]
      by_cases hcode : code = .ok
      · rw [if_pos hcode, if_neg (by simp [hcode])]
      · rw [if_neg hcode, if_pos (bne_iff_ne.mpr hcode)]
  case answer =>
    change execAssistAnswer num code data fs s = _
    rw [execAssistAnswer, hfind]
    refine congrArg Host.Outcome.next ((if_neg ?_).trans (endAssist_found hfind fs code data))
    rcases hfn with hfn | hcode
    · simp [hhost, hphase, hfn]
    · simp [hhost, hphase, hcode]
  case timeout =>
    change execAssistTimeout num fs s = _
    rw [execAssistTimeout, hfind]
    refine congrArg Host.Outcome.next ((if_neg ?_).trans (endAssist_found hfind fs _ _))
    cases hh : a.toHost with
    | true => simp [Option.ne_none_iff_isSome.mpr (hhost hh)]
    | false => simp [hcc hh]

/-! ## Enumeration and HELLO (R350, R351, R365) -/

section
variable {s : State} {port : Fin 24} {identity : U64} {peerPort role : BitVec 8} {req rsp sync mgmt : Nat}
  (hq : (s.port port).state = .training)
include hq

theorem exec_hello_wrong (hbad : role.toNat ≠ roleOf s port ∨ (s.form.committed = true ∧ (s.port port).known = true ∧
      ¬ ((s.port port).peerId = identity ∧ (s.port port).peerPort = peerPort.toNat ∧ (s.port port).peerRole = role.toNat))) :
    exec (.hello port identity peerPort role req rsp sync mgmt) s =
      .next ((s.updPort port (fun q => { q with state := .heldDown })).raise .linkRole 4 port) := by
  refine congrArg Host.Outcome.next ((if_neg (by simp [hq])).trans (if_pos ?_))
  rcases hbad with hrole | ⟨hf, hk, hsame⟩
  · simp [hrole]
  · have hdiff : ((s.port port).peerId = identity && (s.port port).peerPort = peerPort.toNat &&
        (s.port port).peerRole = role.toNat) = false := by
      rw [Bool.eq_false_iff]
      simpa [and_assoc] using hsame
    simp only [hf, hk, hdiff, Bool.true_and, Bool.not_false, Bool.or_true]

theorem exec_hello_expected {taken : State} (ht : s.updPort port (fun q => { q with
      state := .up, known := true, peerId := identity, peerPort := peerPort.toNat, peerRole := role.toNat
      credits := [(0, req), (1, rsp), (2, sync), (3, mgmt)] }) = taken) (hr : role.toNat = roleOf s port)
    (hsame : s.form.committed = false ∨ (s.port port).known = false ∨ ((s.port port).peerId = identity ∧
      (s.port port).peerPort = peerPort.toNat ∧ (s.port port).peerRole = role.toNat)) :
    exec (.hello port identity peerPort role req rsp sync mgmt) s = .next
      (if s.form.committed && ((s.port port).known ||
          s.form.routes.any (fun r => usesPort r.2.toNat port.val && bit r.2.toNat 30)) then
        { taken with form := { s.form with upPending := insertNat port.val s.form.upPending } }
      else taken) := by
  subst ht
  refine congrArg Host.Outcome.next ((if_neg (by simp [hq])).trans (if_neg ?_))
  rcases hsame with hf | hk | ⟨h1, h2, h3⟩
  · simp [hr, hf]
  · simp [hr, hk]
  · simp [hr, h1, h2, h3]

end

/-- Settles O49: the assignment waits and is committed; a link comes up by its role, HELLO by the peer it names. -/
theorem enumerationAndHello : Obligations.EnumerationAndHello := by
  unfold Obligations.EnumerationAndHello
  refine ⟨fun a s => rfl, fun s hs => congrArg Host.Outcome.next (if_neg (by simpa using Option.isSome_iff_ne_none.mp hs)),
    fun port s hu hck => ⟨fun hrole => ?trains, fun hrole => ?heldDown⟩, fun port identity peerPort role req rsp sync mgmt s => ?hello⟩
  case trains =>
    refine congrArg Host.Outcome.next ((if_neg (by simp [hu, hck])).trans ((if_neg hrole).trans ?_))
    rw [if_neg hrole]
    rfl
  case heldDown =>
    refine congrArg Host.Outcome.next ((if_neg (by simp [hu, hck])).trans ((if_pos hrole).trans ?_))
    rw [if_pos hrole]
  case hello =>
    intro q same back taken hq
    refine ⟨fun hr hsame => ⟨fun hb => ?first, fun hb => ?returns⟩, fun hbad => exec_hello_wrong hq hbad⟩
    case first =>
      rw [exec_hello_expected hq (taken := taken) rfl hr hsame, if_neg]
      rwa [Bool.and_eq_true, Bool.or_eq_true]
    case returns =>
      rw [exec_hello_expected hq (taken := taken) rfl hr hsame, if_pos]
      rwa [Bool.and_eq_true, Bool.or_eq_true]

/-! ## Frames of the dictionary (R371 to R375, R378) -/

section
variable {s r : State} {f : Frame} {e : Entry} {u k : Nat} {slot : Option Nat} {priv : Bool}
  (hf : findTarget (frameIn s f.hdr.src) f.index f.sub = (.ok, some (.entry e u k)))
include hf

/-- A READ of an entry that may be read. -/
theorem takeFrame_read (hs : ServedAtOnce s f) (ho : f.op = opRead) (hp : f.payload = [])
    (ha : authFrame (frameIn s f.hdr.src) f none = (.ok, r, slot, priv))
    (hr : readAccess r (.entry e u k) priv f.hdr.tenant = .ok) :
    takeFrame s f = deliverFrame r f.hdr.src (responseBytes r f .ok (readBytes r e u k)) := by
  have hread : (f.op == opWrite) = false := by rw [ho]; rfl
  have hserve : serveLocal (frameIn s f.hdr.src) f = (.ok, readBytes r e u k, r) := by
    unfold serveLocal
    rw [if_neg (by rw [ho]; decide), if_neg (by rw [ho]; decide), hf]
    simp only [serveEntry, hread, Bool.false_and, Bool.false_eq_true, if_false, ha, hr, hp, bne_self_eq_false,
      List.isEmpty_nil, if_true]
  rw [takeFrame_served hs, hserve]

variable {n : Name} {v : Nat} {t t' : State}

/-- A WRITE that reaches its entry and passes check 8 there is noted and answered. -/
theorem takeFrame_written (h : CommandReaches s f n u k v slot t)
    (hw : (match writeCommand t f.hdr slot n u k v f.payload with
      | some q => q
      | none => writePlain t e u k v) = (.ok, t')) : takeFrame s f = accepted t' f := by
  obtain ⟨hs, ho, e', r, priv, hf', hname, hauth, haccess, hlen, hv, ht, hown, hpre⟩ := h
  have he : e' = e := by
    rw [hf] at hf'
    cases hf'
    rfl
  subst he hv ht
  have hwrite : (f.op == opWrite) = true := by rw [ho]; rfl
  have hentry : writeEntry (enterTick r f.hdr.tick) f.hdr slot e' u k f.payload = (.ok, t') := by
    have hcheck : (if (match e'.typ with | .bytes _ => true | _ => false) then FC.ok
        else ownCode (enterTick r f.hdr.tick) e' k (leNat f.payload)) = .ok := by
      rcases hown with ⟨m, hm⟩ | hm
      · rw [hm]
        rfl
      · rw [hm, ite_self]
    have hpass : ∀ c : FC, c = .ok → ¬ (c != .ok) = true := fun c hc => by rw [hc]; decide
    rw [← hname] at hw
    exact (if_neg (hpass _ hcheck)).trans hw
  have hticked : tickedWrite r f.hdr slot (ekey f.index f.sub) e' u k f.payload =
      (.ok, noteWrite t' (ekey f.index f.sub) (srcRank f.hdr.src)) := by
    unfold tickedWrite
    simp only [hentry, hpre, Bool.and_false, Bool.false_eq_true, if_false, bne_self_eq_false]
  have hclass : (if e'.acc = .aw then some e'.cls else none) =
      (if true && decide (e'.acc = .aw) then some e'.cls else none) := by simp
  rw [hclass] at hauth
  have hserve : serveLocal (frameIn s f.hdr.src) f =
      (.ok, [], noteWrite t' (ekey f.index f.sub) (srcRank f.hdr.src)) := by
    unfold serveLocal
    rw [if_neg (by rw [ho]; decide), if_neg (by rw [ho]; decide), hf]
    simp only [serveEntry, hwrite, hauth, if_true, haccess, hlen, hticked, bne_self_eq_false, Bool.false_eq_true, if_false]
  rw [takeFrame_served hs, hserve]
  rfl

end

/-- An entry without behaviour of its own, in no set and of no wire, takes a value in its bounds at its moment. -/
theorem writePlain_bounded {t : State} {e : Entry} {u k v : Nat} (hb : boundCode (futureAt t) e u k v = .ok)
    (hs : inSets e.name = false) (hm : e.name ≠ .rcMask) (hc : e.name ≠ .rcScope) : writePlain t e u k v =
      (.ok, match e.at_ with
        | some w => waitWrite t (e.name.key u k) (if e.selected then selOf t e.name else 0) v w
        | none => takeWrite t (e.name.key u k) v) := by
  have hwire : ¬ ((decide (e.name = .rcMask) || decide (e.name = .rcScope)) && (t.wire u).armed) = true := by simp [hm, hc]
  simp only [writePlain, hb, hs, if_neg hwire, bne_self_eq_false, Bool.false_eq_true, if_false]
  cases e.at_ <;> rfl

/-- An EVENT_POLL of a privileged source. -/
theorem takeFrame_poll {s r t : State} {f : Frame} {slot : Option Nat} {out : List Byte} (hs : ServedAtOnce s f)
    (ho : f.op = opPoll) (ha : authFrame (frameIn s f.hdr.src) f none = (.ok, r, slot, true)) (hl : f.payload.length = 4)
    (hp : servePoll r f.hdr.src (leNat f.payload) = (out, t)) :
    takeFrame s f = deliverFrame t f.hdr.src (responseBytes t f .ok out) := by
  have hserve : serveLocal (frameIn s f.hdr.src) f = (.ok, out, t) := by
    unfold serveLocal
    rw [if_pos ho]
    simp only [serveEvents, ha, hl, hp, bne_self_eq_false, Bool.not_true, Bool.false_eq_true, if_false]
  rw [takeFrame_served hs, hserve]

/-- Settles O35: a frame that is served at once by its operation; a forwarded one ends with what came back. -/
theorem framesServed : Obligations.FramesServed := by
  unfold Obligations.FramesServed
  refine ⟨fun h index sub s => ?read, fun h index sub payload s t n u k v slot e => ?write,
    fun h payload s r t slot out hs ha hl hp => congrArg Host.Outcome.next (takeFrame_poll hs rfl ha hl hp),
    fun id s w hw => ⟨fun frame => ?response, ?timeout⟩⟩
  case read =>
    intro f hs e u k r slot priv hf ha hr
    exact congrArg Host.Outcome.next (takeFrame_read hf hs rfl rfl ha hr)
  case write =>
    intro f hreach hf hcommand hbound hsets hmask hscope
    have hname : e.name = n := by
      obtain ⟨-, -, e', -, -, hf', hname, -⟩ := hreach
      rw [show findTarget (frameIn s f.hdr.src) f.index f.sub = (.ok, some (.entry e u k)) from hf] at hf'
      cases hf'
      exact hname
    subst hname
    have hplain := writePlain_bounded hbound hsets hmask hscope
    have hdone : ∀ t', writePlain t e u k v = (.ok, t') → exec (.dictWrite h index sub payload) s = .next (accepted t' f) := by
      intro t' ht'
      rw [exec_dictWrite]
      refine congrArg Host.Outcome.next (takeFrame_written (f := f) hf hreach ?_)
      rw [show writeCommand t f.hdr slot e.name u k v f.payload = none from hcommand]
      exact ht'
    exact ⟨fun hat => hdone _ (hplain.trans (by rw [hat])), fun w hat => hdone _ (hplain.trans (by rw [hat]))⟩
  case response =>
    change execQmfnResponse id frame s = _
    rw [execQmfnResponse, hw]
  case timeout =>
    change execQmfnFwdTimeout id s = _
    rw [execQmfnFwdTimeout, hw]

end Sys2Proof.Machine
end

section
/-!
The statements about the memory-side unit (spec/07_scratchpad.md) and about remote operation commands and the commands taken
from a window (spec/12_remote_memory_and_windows.md), and the obligations that follow.
-/

namespace Sys2Proof.Machine

open Sys2Proof

/-! ## The memory-side unit (R179 to R182) -/

/-- A memory-side command that is accepted and has its slot and its place. -/
theorem issueMsu_free {s t : State} {c x : Nat} {num : U32} {d : BitVec 1024} {compl : Compl} {m : MsuCmd}
    (hm : msuOf x num d compl = m) (hc : msuCode d m = .ok) (hslot : portSlots s c 7 ≠ 0 ∨ hasOpenSlot s c = true)
    (hsb : sbFree s c (msuReads m) (msuWrites m) = true)
    (ht : issued (sbTake s c x num (msuReads m) (msuWrites m)) c x { num := num, kind := .msu, compl := compl, trap := m.trap } = t) :
    issueMsu s c x num d compl =
      if (t.core c).msu.isNone then msuStart t c m else t.updCore c (fun k => { k with msuQ := k.msuQ ++ [m] }) := by
  have hport : ¬ (portSlots s c 7 = 0 && !hasOpenSlot s c) = true := by
    rcases hslot with h | h
    · simp [h]
    · simp [h]
  subst hm ht
  simp only [issueMsu, hc, if_neg hport, hsb, Bool.not_true, Bool.false_eq_true, if_false]

section
variable {s t : State} {c : Nat} {m : MsuCmd} {data : List Byte} {marks : List Bool} (ht : m.trap = false)
  (hr : msuRead s c m = (t, data, marks))
include ht hr

/-- A COPY without a trap lands what it reads with its marks. -/
theorem msuStart_copy (ho : m.op = 2) (hd : data ≠ []) : msuStart s c m =
    (landLocal t c m.dst data marks).updCore c (fun k => { k with msu := some { cmd := m, code := .ok, count := 0 } }) := by
  simp only [msuStart, ho, hr, ht, List.isEmpty_eq_false_iff.mpr hd, Nat.reduceEqDiff, Bool.false_and, Bool.false_eq_true,
    if_false, if_true]

/-- A CMPCNT without a trap counts what it reads. -/
theorem msuStart_cmpcnt (ho : m.op = 3) : msuStart s c m = t.updCore c (fun k => { k with
    msu := some { cmd := m, code := if marks.any id then .dataPoisoned else .ok
                  count := countWords m.elem m.pred m.value.toNat m.mask.toNat data marks } }) := by
  simp only [msuStart, ho, hr, ht, Nat.reduceEqDiff, Bool.false_and, Bool.false_eq_true, if_false]

end

/-- A running command without a trap ends, and none waits. -/
theorem exec_msuCommandEnd_last {core : Fin 32} {s t : State} {run : MsuRun} (h : (s.core core).msu = some run)
    (htrap : run.cmd.trap = false)
    (ht : unissue (sbRelease (completeCmd (s.updCore core (fun k => { k with msu := none })) core run.cmd.ctx run.cmd.compl
      run.code run.count) core run.cmd.ctx run.cmd.num) core run.cmd.ctx run.cmd.num = t) (hq : (t.core core).msuQ = []) :
    exec (.msuCommandEnd core) s = .next t := by
  change execMsuCommandEnd core s = _
  rw [execMsuCommandEnd, h]
  simp only [htrap, Bool.and_false, Bool.false_eq_true, if_false]
  rw [ht, hq]

/-- Settles O21: the three commands issue alike; what each does as it starts is its own. -/
theorem memorySideCommands : Obligations.MemorySideCommands := by
  unfold Obligations.MemorySideCommands
  refine ⟨fun core ctx num d s op c hc hissue => ?issue, fun s c m hm => if_pos hm,
    fun s c m t data marks htrap hr => ⟨fun ho hd => msuStart_copy htrap hr ho hd, fun ho => msuStart_cmpcnt htrap hr ho⟩,
    fun core s run h htrap => ?ends⟩
  case issue =>
    intro d' compl m hcode hslot hsb t
    have hexec : exec c s = .next (issueMsu s core ctx num d' compl) := by
      rcases hc with ⟨rfl, rfl⟩ | ⟨rfl, rfl⟩ | ⟨rfl, rfl⟩ <;> exact congrArg Host.Outcome.next (if_pos hissue)
    have hfree := issueMsu_free (m := m) (t := t) rfl hcode hslot hsb rfl
    rw [hexec, hfree]
    exact ⟨fun hidle => by rw [hidle]; rfl, fun hbusy => by rw [if_neg (by simpa using hbusy)]⟩
  case ends =>
    intro m t hq
    exact exec_msuCommandEnd_last h htrap rfl hq

/-! ## Remote operation commands and their replies (R302, R315, R316) -/

theorem issueRop_free {s t : State} {c : Fin 32} {x : Fin 8} {num : U32} {d : BitVec 1024} {k : Kind} {r : Req}
    (hc : ropCode d = .ok) (hk : Kind.ofCode? (ropOp d) = some k) (hsb : sbFree s c (ropReads d) (ropWrites d) = true)
    (hr : ropRequest s c x num d = (t, r)) (compl : Compl) : issueRop s c x num d compl =
      issueInside (issued (sbTake t c x num (ropReads d) (ropWrites d)) c x
        { num := num, kind := .remoteOp, compl := compl, trap := bit (cmdWord d 0) 21
          rop := some (ropOp d, ropLocal d, bnat r.fetch) }) k r (.remoteOp c x) := by
  simp only [issueRop, hc, hk, hsb, hr, Bool.not_true, Bool.false_eq_true, if_false]

theorem issueRop_refused {s : State} {c : Fin 32} {x : Fin 8} {num : U32} {d : BitVec 1024} (hc : ropCode d ≠ .ok)
    (compl : Compl) : issueRop s c x num d compl = refuseCmd s c x compl (ropCode d) := by
  unfold issueRop
  split
  · exact absurd ‹_› hc
  · exact absurd ‹_› hc
  · rfl

/-- An outstanding request of the current run of its unit ends with its answer. -/
theorem endRequest_current {s t : State} {num : Nat} {o : OutReq} (hf : s.remote.out.find? (fun o => o.num == num) = some o)
    (ht : { s with remote := { s.remote with out := s.remote.out.filter (fun p => p.num != num) } } = t)
    (hr : replyCurrent t o = true) (ans : Ans) : endRequest s num ans = takeReply t o ans := by
  subst ht
  rw [endRequest, hf]
  exact if_pos hr

/-- A context that takes the next counted command, whose slot carries no mark. -/
theorem exec_cmdTake_next {core : Fin 32} {ctx : Fin 8} {fs : List Fetched} {s t u : State} {bytes : List Byte}
    {marks : List Bool} (hc : canTake s core ctx = true) (hw : (s.ctx core ctx).waiting = none)
    (h0 : (s.ctx core ctx).untaken ≠ 0) (h32 : (s.ctx core ctx).untaken ≤ 32)
    (hr : s.read (slotAddr core ctx ((s.ctx core ctx).done.toNat % 32)) 128 = (t, bytes, marks))
    (hm : marks.any id = false) (hu : t.updCtx core ctx (fun q => { q with done := q.done + 1 }) = u) :
    exec (.cmdTake core ctx fs) s = .next (ctxSettle (runTaken u core ctx (s.ctx core ctx).done
      (BitVec.ofNat 1024 (leNat bytes)) (complOf u core ctx (BitVec.ofNat 1024 (leNat bytes))) fs false) core ctx) := by
  subst hu
  have hcount : ¬ ((s.ctx core ctx).untaken = 0 || 32 < (s.ctx core ctx).untaken) = true := by simp [h0, h32]
  refine congrArg Host.Outcome.next ((guard_passed hc).trans ?_)
  extract_lets q
  rw [show q.waiting = none from hw]
  refine (if_neg hcount).trans ?_
  rw [hr]
  exact test_failed hm

/-- Settles O25: the command by its checks and rows, a reply by the request it answers, a taken command by its slot. -/
theorem remoteOperationCommands : Obligations.RemoteOperationCommands := by
  unfold Obligations.RemoteOperationCommands
  refine ⟨fun core ctx num d s t k r hissue hc hk hsb hr => ?issues, fun core ctx num d s hissue hc => ?refused,
    fun num s o hf => ?reply, fun core ctx fs s t bytes marks hc hw h0 h32 hr hm => exec_cmdTake_next hc hw h0 h32 hr hm rfl⟩
  case issues => exact congrArg Host.Outcome.next ((if_pos hissue).trans (issueRop_free hc hk hsb hr _))
  case refused => exact congrArg Host.Outcome.next ((if_pos hissue).trans (issueRop_refused hc _))
  case reply =>
    intro t hcurrent
    have hends := endRequest_current hf rfl hcurrent
    exact ⟨fun code data poison => ⟨fun hform => congrArg Host.Outcome.next ((if_pos hform).trans (hends _)),
      fun hform => congrArg Host.Outcome.next (test_failed hform)⟩, congrArg Host.Outcome.next (hends _)⟩

end Sys2Proof.Machine
end

section
/-!
The statements about multicasts, rings, weight lines and table loads (spec/06_special_functions.md, spec/07_scratchpad.md,
spec/08_streams.md) and about the end of a Lesson and the switch of a context (spec/09_lessons.md), and the obligations that
follow.
-/

namespace Sys2Proof.Machine

open Sys2Proof

/-! ## Ring passes (R211) -/

/-- A pass that is found has the key it was looked up by, and so has a new one of that key. -/
theorem ringPass_getD_key (s : State) (c rep layer lesson : Nat) :
    ((ringPass s c rep layer).getD { rep := rep, layer := layer, lesson := lesson, begun := false }).rep = rep ∧
    ((ringPass s c rep layer).getD { rep := rep, layer := layer, lesson := lesson, begun := false }).layer = layer := by
  cases h : ringPass s c rep layer with
  | none => exact ⟨rfl, rfl⟩
  | some p =>
    have hkey := List.find?_some h
    rw [Bool.and_eq_true, beq_iff_eq, beq_iff_eq] at hkey
    exact hkey

/-- RING_PASS of a Lesson whose stage has its slice, to a successor that takes it. -/
theorem exec_ringPass_sends {core : Fin 32} {lesson : Nat} {s : State} {l : LessonRun} {e : RingEnt} {h d : Nat} {p p' : RingPass}
    {t u v : State} (hl : lessonAt s core lesson = some l)
    (hh : (heavies l.stages).find? (fun h => (operandSrc l.stages h false).isRing && !ringStageDone s core lesson h) = some h)
    (he : ringEntry s core (lrep l.desc) (llayer l.desc) = some e)
    (hp : (ringPass s core (lrep l.desc) (llayer l.desc)).getD
      { rep := lrep l.desc, layer := llayer l.desc, lesson := lesson, begun := false } = p)
    (hb : p.begun = false ∨ (p.lesson = lesson ∧ p.stage = h ∧ p.sent = false))
    (ht : setPass s core { p with begun := true, lesson := lesson, stage := h } = t) (hd : ringNext t core = d)
    (hr : (t.core d).inReset = false) (hg : (t.core d).gated = false)
    (ha : (t.core d).ringPasses.all (fun q => q.arrived.isNone) = true)
    (hu : sendSlice t core (ringOff t core e.buf) d (ringOff t d (t.core d).ringSpare) e.len = u)
    (hv : setPass u d { (ringPass u d p.rep p.layer).getD { rep := p.rep, layer := p.layer, lesson := 0, begun := false } with
      arrived := some { e with buf := (t.core d).ringSpare } } = v)
    (hp' : ringPass v core p.rep p.layer = some p') :
    exec (.ringPass core lesson) s = .next (setPass v core { p' with sent := true }) := by
  obtain ⟨hrep, hlayer⟩ := hp ▸ ringPass_getD_key s core (lrep l.desc) (llayer l.desc) lesson
  rw [hrep, hlayer] at hv hp'
  have hfree : ¬ (p.begun && (p.lesson != lesson || p.stage != h || p.sent)) = true := by
    rcases hb with hb | ⟨h1, h2, h3⟩
    · simp [hb]
    · simp [h1, h2, h3]
  have hup : ¬ ((t.core d).inReset || (t.core d).gated) = true := by simp [hr, hg]
  have hspare : ¬ (t.core d).ringPasses.any (fun q => q.arrived.isSome) = true := by
    simpa [List.all_eq_true] using ha
  change execRingPass core lesson s = _
  simp only [execRingPass, hl, hh, he, hp, if_neg hfree, ht, hd, if_neg hup, if_neg hspare, hu, hv, hp']

theorem exec_ringPassComplete_arrived {core : Fin 32} {rep : BitVec 12} {layer : BitVec 8} {s : State} {p : RingPass}
    {e a : RingEnt} (hp : ringPass s core rep.toNat layer.toNat = some p)
    (he : ringEntry s core rep.toNat layer.toNat = some e) (ha : p.arrived = some a) (hb : p.begun = true)
    (hs : p.sent = true) (hd : ringStageDone s core p.lesson p.stage = true) :
    exec (.ringPassComplete core rep layer) s = .next ((s.updCore core (fun k => { k with
      ring := k.ring.map (fun r => if r.rep == p.rep && r.layer == p.layer then a else r)
      ringSpare := e.buf
      ringPasses := k.ringPasses.filter (fun q => !(q.rep == p.rep && q.layer == p.layer)) })).bump .ringPasses
        (core.val / 8)) := by
  change execRingPassComplete core rep layer s = _
  simp only [execRingPassComplete, hp, he, ha, hb, hs, hd, Bool.not_true, Bool.or_self, Bool.false_eq_true, if_false]

/-! ## Multicasts, scrubbing and table loads (R161, R187, R193) -/

theorem exec_multicastRequest_local {core : Fin 32} {ctx : Fin 8} {stream : Fin 16} {mask : BitVec 8} {addr : U64}
    {len : BitVec 13} {off : BitVec 24} {ctr : BitVec 8} {weight cache : Bool} {s t : State} {code : FC} {r : Req}
    (hr : { origin := .inside (.stream core ctx stream), target := addr, len := len.toNat } = r)
    (hl : isLocal s r.node = true) (hs : sizeCode .get r = .ok)
    (hm : multicast s core mask.toNat r.addr len.toNat off.toNat ctr.toNat weight cache = (t, code)) :
    exec (.multicastRequest core ctx stream mask addr len off ctr weight cache) s =
      .next (t.emit (replyOut r.origin 0 { code := code })) := by
  change execMulticastRequest core ctx stream mask addr len off ctr weight cache s = _
  have ho : r.origin = .inside (.stream core ctx stream) := by rw [← hr]
  simp only [execMulticastRequest, hr, ho, hl, hs, hm, Bool.not_true, Bool.false_eq_true, if_false, bne_self_eq_false]

/-- A scrub visit of a line that is not the last of its pass. -/
theorem exec_scrubVisit_ahead {core : Fin 32} {s t : State} {o p : Nat} {rest : List Nat} (hs : hasOpenSlot s core = true)
    (hl : (weightLines s core).filter (fun o => (s.core core).scrubAt ≤ o) = o :: p :: rest)
    (ht : s.settle (scratchAddr core o) 256 = t) : exec (.scrubVisit core) s =
      .next ((if lineDamaged t (scratchAddr core o) then refetchLine t (scratchAddr core o) else t).updCore core
        (fun k => { k with scrubAt := o + 256 })) := by
  change execScrubVisit core s = _
  simp only [execScrubVisit, hs, hl, ht, Bool.not_true, List.isEmpty_cons, Bool.false_eq_true, if_false]

section
variable {core : Fin 32} {table : Fin 2} {s u : State} {l : SfuLoad} (hl : Map.get? (s.core core).sfuLoads table.val = some l)
  (hf : shadowFree s core table = true) (hr : (s.core core).inReset = false)
  (hu : s.updCore core (fun k => { k with sfuLoads := Map.erase k.sfuLoads table }) = u)
include hl hf hr hu

theorem exec_sfuLoadComplete_factory (h : l.factory = true) : exec (.sfuLoadComplete core table) s =
    .next ((u.updCore core (fun k => { k with
      sfuBanks := Map.erase k.sfuBanks (2 * table.val + (1 - activeBank u core table))
      sfuActive := putBits k.sfuActive table 1 (1 - activeBank u core table) })).setCnt .sfuLoadStatus 0 core) := by
  change execSfuLoadComplete core table s = _
  simp only [execSfuLoadComplete, hl, hf, hr, hu, h, Bool.not_true, Bool.or_self, Bool.false_eq_true, if_false, if_true]

theorem exec_sfuLoadComplete_image {t : State} {data : List Byte} {marks : List Bool} {code : FC} (h : l.factory = false)
    (hread : u.read (scratchAddr core (1024 * l.row)) (tableSize table) = (t, data, marks))
    (hc : code = tableCode table data (marks.any id)) : exec (.sfuLoadComplete core table) s = .next (if code = .ok then
      ((t.updCore core (fun k => { k with
        sfuBanks := Map.put k.sfuBanks (2 * table.val + (1 - activeBank u core table)) data
        sfuActive := putBits k.sfuActive table 1 (1 - activeBank u core table) })).setCnt .sfuLoadStatus 0 core)
      else (t.setCnt .sfuLoadStatus code.value core).raise code 1 core) := by
  subst hc
  change execSfuLoadComplete core table s = _
  simp only [execSfuLoadComplete, hl, hf, hr, hu, h, hread, Bool.not_true, Bool.or_self, Bool.false_eq_true, if_false]
  split <;> rfl

end

/-- Settles O34: each row finds what it acts on, and does the one thing. -/
theorem multicastRingsAndWeights : Obligations.MulticastRingsAndWeights := by
  unfold Obligations.MulticastRingsAndWeights
  refine ⟨fun core ctx stream mask addr len off ctr weight cache s t code => ?multicast, fun core lesson s l e hl h hh he => ?pass,
    fun core rep layer s p e a hp he ha hb hs hd => exec_ringPassComplete_arrived hp he ha hb hs hd, fun core line s => rfl,
    fun core s o p rest hs hl => exec_scrubVisit_ahead hs hl rfl, fun core table s l hl hf hr => ?load⟩
  case multicast =>
    intro r hl hs hm
    exact exec_multicastRequest_local (r := r) rfl hl hs hm
  case pass =>
    intro p hb t d hr hg ha u q v p' hp'
    exact exec_ringPass_sends hl hh he rfl hb rfl rfl hr hg ha rfl rfl hp'
  case load =>
    intro u shadow
    exact ⟨fun h => exec_sfuLoadComplete_factory hl hf hr rfl h,
      fun t data marks code h hread hc => exec_sfuLoadComplete_image hl hf hr rfl h hread hc⟩

/-! ## The end of a Lesson (R235) -/

/-- What is left of a retirement once DONE_CTR is served: the completion word, the count, the Lesson's leave. -/
def retired (u : State) (core lesson : Nat) (l : LessonRun) : State :=
  let v := completeCmd u core l.ctx l.compl .ok u.sched.step
  lessonDrop (lessonEnded (if isBackward l.desc then v.bump .bwdLessons core else v) core l .ok) core lesson l

/-- A finished Lesson that is no UPDATE. -/
theorem exec_lessonRetire_finished {core : Fin 32} {lesson : Nat} {s u : State} {l : LessonRun} {code : FC}
    (hl : lessonAt s core lesson = some l) (hf : lessonFinished s core lesson l = true)
    (hb : isBackward l.desc = false ∨ lbop l.desc ≠ 5)
    (hu : (bit (cmdWord l.desc 0) 23 = false ∧ u = addSaturation s l ∧ code = .ok) ∨
      (bit (cmdWord l.desc 0) 23 = true ∧
        ∃ old, counterApply (addSaturation s l) core (bits (cmdWord l.desc 0) 24 8) false 1 = (u, old, code))) :
    exec (.lessonRetire core lesson) s =
      .next (if code = .ok then retired u core lesson l else faultCtx (retired u core lesson l) core l.ctx code) := by
  have hupd : (isBackward l.desc && decide (lbop l.desc = 5)) = false := by
    rcases hb with hb | hb
    · rw [hb, Bool.false_and]
    · rw [decide_eq_false hb, Bool.and_false]
  change execLessonRetire core lesson s = _
  rcases hu with ⟨hdone, rfl, rfl⟩ | ⟨hdone, old, hc⟩
  · simp only [execLessonRetire, hl, hf, hupd, hdone, Bool.not_true, Bool.false_eq_true, if_false]
    rfl
  · simp only [execLessonRetire, hl, hf, hupd, hdone, hc, Bool.not_true, Bool.false_eq_true, if_false, if_true]
    rfl

/-! ## Context switches and Recess (R331 to R335) -/

theorem ite_bne {α : Type} (a b : Nat) (x y : α) : (if a != b then x else y) = if a = b then y else x := by
  by_cases h : a = b
  · rw [if_pos h, if_neg (by simp [h])]
  · rw [if_neg h, if_pos (bne_iff_ne.mpr h)]

theorem not_bne (a b : Nat) : (!(a != b)) = decide (a = b) := Bool.not_not _

/-- The image of the tile that a switch takes from an array, with the K-steps that had entered. -/
def switchedImage (s : State) (core a ix steps : Nat) (lx : LessonRun) : Nat × List Nat :=
  match lx.att with
  | some r => (0, if a = 1 then attendImage s (attCfg s core lx) lx r else tileImage 0 0 s.free (fun _ _ _ => 0) none)
  | none => openImage s core ix lx ((heavyOn lx a).getD 0) a steps

/-- The core once the tile of context x's Lesson is held: in its row of the save area, or in accumulator memory. -/
def tileHeld (s : State) (core a x ix row steps : Nat) (lx : LessonRun) : State × HeldTile :=
  let q := switchedImage s core a ix steps lx
  let t : State := { s with free := s.free + 66560 }
  let u := if row = 0xFFFF then t else saveImage t core (row + 520 * a) q.2
  (match lx.att with
    | some r => if row = 0xFFFF then u else saveSoftmax u core row (attCfg u core lx) r
    | none => u,
   { array := a, ctx := x, lesson := ix, inMem := decide (row = 0xFFFF), steps := q.1
     image := if row = 0xFFFF then q.2.map (fun w => (w, false)) else [] })

/-- A switch whose tile has a place where it is held. -/
theorem exec_contextSwitch_held {core : Fin 32} {vArray : Bool} {x y : Fin 8} {steps : Nat} {s : State} {a ix iy row : Nat}
    {lx ly : LessonRun} (ha : (if vArray then 1 else 0) = a) (hx : openOn s core a x = some (ix, lx))
    (hy : readyOn s core a y = some (iy, ly)) (hxy : x ≠ y)
    (hstate : (s.ctx core x).state = .blocked ∨ (s.ctx core x).state = .switched)
    (hlive : (hrec lx.desc (heavyIdx lx.stages ((heavyOn lx a).getD 0))).tlive = 1) (hres : lresident lx.desc = false)
    (hrow : s.ent .ctxSaveRow core x.val = row)
    (hplace : row ≠ 0xFFFF ∨ ((lx.att = none ∨ vArray = false) ∧
      ((s.core core).heldTiles.filter (fun t => t.array == a && t.inMem)).length < 4)) :
    exec (.contextSwitch core vArray x y steps) s = .next ((resumeTile (setCtxState
      ((tileHeld s core a x ix row steps lx).1.updCore core (fun k => { k with
        heldTiles := k.heldTiles ++ [(tileHeld s core a x ix row steps lx).2]
        flagOwner := k.flagOwner.filter (fun p => p.2.ctx != x.val)
        holder := Map.put k.holder a iy })) core x .switched) core a iy).bump .ctxSwitches core) := by
  have hwas : ((s.ctx core x).state != .blocked && (s.ctx core x).state != .switched) = false := by
    rcases hstate with h | h
    · rw [h]
      rfl
    · rw [h]
      rfl
  have hsave : (lx.att.isSome && decide (a = 1) && decide (row = 0xFFFF)) = false := by
    rcases hplace with h | ⟨h | h, -⟩
    · simp [h]
    · simp [h]
    · simp [← ha, h]
  have hroom : (decide (row = 0xFFFF) &&
      decide (((s.core core).heldTiles.filter (fun t => t.array == a && t.inMem)).length ≥ 4)) = false := by
    rcases hplace with h | ⟨-, h⟩
    · simp [h]
    · simp [h]
  change execContextSwitch core vArray x y steps s = _
  simp only [execContextSwitch, ha, hx, hy, hrow, hwas, hlive, hres, hsave, hroom, decide_eq_false hxy, bne_self_eq_false,
    Bool.or_self, Bool.false_eq_true, if_false, ite_bne, not_bne]
  rfl

theorem exec_recessEntry_idle {core : Fin 32} {s : State} (hr : (s.core core).recess = false)
    (hp : s.corePresent core = true) (hreset : (s.core core).inReset = false)
    (hx : ∀ x, x < 8 → (s.ctx core x).state ≠ .running) : exec (.recessEntry core) s =
      .next ((s.updCore core (fun k => { k with recess := true })).bump .recessEntries core) := by
  have hidle : (List.range 8).any (fun x => decide ((s.ctx core x).state = .running)) = false := by
    rw [List.any_eq_false]
    intro x hmem
    simpa using hx x (List.mem_range.mp hmem)
  refine congrArg Host.Outcome.next (if_neg ?_)
  simp only [hr, hp, hreset, hidle, Bool.not_true, Bool.or_self, Bool.false_eq_true, not_false_eq_true]

/-- Settles O33: a Lesson retires by its DONE_EN, a context switches by where its tile is held, an idle core enters Recess. -/
theorem lessonsEndAndContextsSwitch : Obligations.LessonsEndAndContextsSwitch := by
  unfold Obligations.LessonsEndAndContextsSwitch
  refine ⟨fun core lesson s l hl hf hb => ?retire, fun core vArray x y steps s ix lx iy ly => ?switch,
    fun core s hr hp hreset hx => exec_recessEntry_idle hr hp hreset hx⟩
  case retire =>
    intro t u code hu v w x
    exact exec_lessonRetire_finished hl hf hb hu
  case switch =>
    intro a hx hy hxy hstate hlive hres row hplace q t u v held
    exact exec_contextSwitch_held (a := a) rfl hx hy hxy hstate hlive hres (row := row) rfl hplace

end Sys2Proof.Machine
end

section
/-!
The statements about tiles and combines and about the issue of a Lesson (spec/05_arrays.md, spec/07_scratchpad.md,
spec/09_lessons.md, spec/10_attend.md, spec/11_backward_and_adaptation.md), and the obligations that follow.
-/

namespace Sys2Proof.Machine

open Sys2Proof

/-! ## Tiles and steps of an Attend (R250, R256, R257) -/

section
variable {core : Fin 32} {vArray : Bool} {bad : BitVec 4} {s : State} {a id i : Nat} {l : LessonRun}
  (ha : (if vArray then 1 else 0) = a) (hturn : arrayTurn s core a = some id) (hl : lessonAt s core id = some l)
  (hd : heavyDone s core l a = false) (hi : heavyOn l a = some i)
include ha hturn hl hd hi

theorem exec_tileRelease_chain (hatt : l.att = none) (hready : tileReady s core id l i = true) :
    exec (.tileRelease core vArray bad) s =
      .next (pumpSource (chainTile (resumeTile s core a id) core id i a bad) core id) := by
  change execTileRelease core vArray bad s = _
  simp only [execTileRelease, ha, hturn, hl, hd, hi, hatt, hready, Bool.false_eq_true, if_false, if_true]

theorem exec_tileRelease_attend {r : AttRun} (hatt : l.att = some r)
    (hv : vArray = true ∨ arrayTurn s core 1 = some id) : exec (.tileRelease core vArray bad) s =
      .next (attRelease (resumeTile s core a id) core id a bad) := by
  have htakes : (decide (a = 1) || decide (arrayTurn s core 1 = some id)) = true := by
    rcases hv with h | h
    · simp [← ha, h]
    · simp [h]
  change execTileRelease core vArray bad s = _
  simp only [execTileRelease, ha, hturn, hl, hd, hi, hatt, htakes, Bool.false_eq_true, if_false, if_true]

end

section
variable {s : State} {c id : Nat} {l : LessonRun} {r : AttRun} (hl : lessonAt s c id = some l) (hr : l.att = some r)
include hl hr

theorem attRelease_s {st : AttStep} {rest : List AttStep} (hs : r.steps = st :: rest) (bad : BitVec 4) :
    attRelease s c id 0 bad = if st.select then attSelect s c id l r st else attStep s c id l r st bad := by
  simp only [attRelease, hl, hr, hs, Nat.zero_ne_one, if_false]

theorem attRelease_v_open {st : AttStep} {rest : List AttStep} (hs : r.steps = st :: rest) (bad : BitVec 4) :
    attRelease s c id 1 bad = attDrain s c id l r false := by
  simp only [attRelease, hl, hr, hs, List.isEmpty_cons, Bool.false_eq_true, if_false, if_true]

theorem attRelease_v_last (hs : r.steps = []) (bad : BitVec 4) : attRelease s c id 1 bad =
    attDrain (checksum s c 1 0 [] bad).1 c id l r (checksum s c 1 0 [] bad).2 := by
  simp only [attRelease, hl, hr, hs, List.isEmpty_nil, if_true]

end

/-! ## Second sweeps and combines (R232, R237, R262) -/

theorem exec_secondSweep_complete {core : Fin 32} {lesson m : Nat} {s : State} {l : LessonRun} {i p : Nat}
    (hl : lessonAt s core lesson = some l) (hi : (heavies l.stages).getLast? = some i) (hp : deferredIn l i = some p)
    {ts : List Nat} (hts : sweepTiles l i m = ts) (hne : ts ≠ []) (hb : blockDone l i m = true)
    (hs : l.swept.contains m = false) (ht : l.tiles = [])
    (hres : residualsReady l p l.stages.length (shapeAt l.desc l.stages p).rows ts.length
      (fun j => (shapeAt l.desc l.stages j).width) = true) :
    exec (.secondSweep core lesson m) s = .next (ts.foldl (fun s t =>
      if (lessonAt s core lesson).isNone then s
      else match heldTile s core lesson l p (tilePlace l i t) with
        | (s, some tile) => runFrom s core lesson p (tilePlace l i t) (.f32 tile)
        | (s, none) => s) (updLesson s core lesson (fun l => { l with swept := l.swept ++ [m] }))) := by
  have hts' : ts.isEmpty = false := List.isEmpty_eq_false_iff.mpr hne
  change execSecondSweep core lesson m s = _
  simp only [execSecondSweep, hl, hi, hp, hts, hts', hb, hs, ht, hres, List.isEmpty_nil, Bool.not_true, Bool.or_self,
    Bool.false_eq_true, if_false] <;> rfl

theorem exec_splitCombine_here {core : Fin 32} {lesson : Nat} {s u : State} {l : LessonRun} {i t : Nat} {tile : CTile}
    {rest : List (Nat × Nat × CTile)} {us : List CTile} {g : Stage} {hi : Nat} {h : Heavy}
    (hl : lessonAt s core lesson = some l) (ht : l.tiles = (i, t, tile) :: rest) (hg : stageAt l.stages i = g)
    (hhi : heavyIdx l.stages i = hi) (hh : hrec l.desc hi = h)
    (hc : (List.range h.um1).all (fun u => t + 1 ≤ (s.counter core (h.cctr + u)).toNat) = true)
    (hres : residualsReady l (i + 1) ((deferredIn l i).getD (segmentEnd l.stages (i + 1)))
      (if h.drain && isBackward l.desc then h.nt else h.mt) 1 (fun j => (shapeAt l.desc l.stages j).width) = true)
    (hu : unitTiles s core l h t (g.tilesM * g.tilesN) = (u, some us)) {v w : State}
    (hv : updLesson u core lesson (fun l => { l with tiles := rest, combined := Map.put l.combined hi (t + 1) }) = v)
    (hw : (if rest.any (fun q => q.1 == i) then v else setFlag v core lesson (g.kind - 4) i false) = w) :
    exec (.splitCombine core lesson) s = .next (runFrom (w.updCore core (fun k => { k with
        combineWaits := k.combineWaits.filter (fun p =>
          !(p.1 == lesson && h.cctr ≤ p.2.1 && p.2.1 < h.cctr + h.um1 && p.2.2 == t + 1)) }))
      core lesson (i + 1) (tilePlace l i t) (.f32 (chainTurn l.desc h (combineUnits (heavyOp s core l i) tile us)))) := by
  change execSplitCombine core lesson s = _
  simp only [execSplitCombine, hl, ht, hg, hhi, hh, hc, hres, hu, hv, hw, Bool.not_true, Bool.or_self, Bool.false_eq_true,
    if_false]

theorem exec_attendCombine_at {core : Fin 32} {lesson : Nat} {s : State} {l : LessonRun} {r : AttRun}
    (hl : lessonAt s core lesson = some l) (hr : l.att = some r) :
    exec (.attendCombine core lesson) s = .next (attCombineHead s core lesson l r) := by
  change execAttendCombine core lesson s = _
  rw [execAttendCombine, hl]
  simp only [hr]

/-- Settles O32: a tile by its array's turn, a sweep and a combine by what has come. -/
theorem tilesAndCombines : Obligations.TilesAndCombines := by
  unfold Obligations.TilesAndCombines
  refine ⟨fun core vArray bad s id l i => ?tile, fun s c id l r bad hl hr =>
      ⟨fun st rest hs => ⟨attRelease_s hl hr hs bad, attRelease_v_open hl hr hs bad⟩, fun hs => attRelease_v_last hl hr hs bad⟩,
    fun core lesson m s l i p hl hi hp => ?sweep, fun core lesson s l i t tile rest u us hl ht => ?combine,
    fun core lesson s l r hl hr _ => exec_attendCombine_at hl hr⟩
  case tile =>
    intro a hturn hl hd hi
    exact ⟨fun hatt hready => exec_tileRelease_chain (a := a) rfl hturn hl hd hi hatt hready,
      fun r hatt hv => exec_tileRelease_attend (a := a) rfl hturn hl hd hi hatt hv⟩
  case sweep =>
    intro ts hne hb hs ht hres
    exact exec_secondSweep_complete hl hi hp (ts := ts) rfl hne hb hs ht hres
  case combine =>
    intro g hi h rows hc hres hu v w
    exact exec_splitCombine_here hl ht (g := g) (hi := hi) (h := h) rfl rfl rfl hc hres hu rfl rfl

/-! ## The issue of a Lesson (R224, Table 7-4) -/

/-- Whether anything but rows hinders a Lesson: a place, its flags, its streams, its sequences, or leave to issue. -/
def lessonHindered (t : State) (c : Nat) (e : BitVec 1024) (l : LessonRun) : Bool :=
  lkind e = 1 && l.seqs.any (fun q => (t.desc q).held) || groupFaulted t l.seqs || sbFull t c ||
    (lkind e = 1 && [14, 15].any (fun n => (streamAt t c n).bound)) || issueHeld t c ||
    (freeFlags t c).length < (flagNeeds t c l).length

theorem decide_and_eq_false_iff {p : Prop} [Decidable p] {b : Bool} : (decide p && b) = false ↔ (p → b = false) := by
  by_cases h : p
  · simp only [h, decide_true, Bool.true_and, forall_const]
  · simp only [h, decide_false, Bool.false_and, false_implies]

theorem lessonHindered_eq_false_iff (t : State) (c : Nat) (e : BitVec 1024) (l : LessonRun) : lessonHindered t c e l = false ↔
    sbFull t c = false ∧ issueHeld t c = false ∧ groupFaulted t l.seqs = false ∧
      (lkind e = 1 → (∀ n ∈ [14, 15], (streamAt t c n).bound = false) ∧ ∀ n ∈ l.seqs, (t.desc n).held = false) ∧
      (flagNeeds t c l).length ≤ (freeFlags t c).length := by
  have hseqs : (decide (lkind e = 1) && l.seqs.any (fun q => (t.desc q).held)) = false ↔
      (lkind e = 1 → ∀ n ∈ l.seqs, (t.desc n).held = false) := by
    simp only [decide_and_eq_false_iff, List.any_eq_false, Bool.not_eq_true]
  have hstreams : (decide (lkind e = 1) && [14, 15].any (fun n => (streamAt t c n).bound)) = false ↔
      (lkind e = 1 → ∀ n ∈ [14, 15], (streamAt t c n).bound = false) := by
    simp only [decide_and_eq_false_iff, List.any_eq_false, Bool.not_eq_true]
  unfold lessonHindered
  rw [Bool.or_eq_false_iff, Bool.or_eq_false_iff, Bool.or_eq_false_iff, Bool.or_eq_false_iff, Bool.or_eq_false_iff, hseqs,
    hstreams, decide_eq_false_iff_not, Nat.not_lt]
  constructor
  · rintro ⟨⟨⟨⟨⟨hheld, hgroup⟩, hfull⟩, hbound⟩, hhold⟩, hflags⟩
    exact ⟨hfull, hhold, hgroup, fun hk => ⟨hbound hk, hheld hk⟩, hflags⟩
  · rintro ⟨hfull, hhold, hgroup, hattend, hflags⟩
    exact ⟨⟨⟨⟨⟨fun hk => (hattend hk).2, hgroup⟩, hfull⟩, fun hk => (hattend hk).1⟩, hhold⟩, hflags⟩

/-- A Lesson as it enters its core: its number, its place and its flags. -/
def lessonListed (w : State) (c x : Nat) (num : U32) (e : BitVec 1024) (compl : Compl) (l : LessonRun) : State :=
  let nh := (heavies l.stages).length
  let id := (w.core c).nextLesson
  let u := issued ((sbTake w c x num (lreads e nh) (lwrites e nh)).updCore c (fun k => { k with
    nextLesson := id + 1, lessons := Map.put k.lessons id l })) c x
    { num := num, kind := .lesson id, compl := compl, trap := ltrap e }
  (giveFlags u c id l).trace 1 { unit := c, core := some c, ctx := x, tenant := ((giveFlags u c id l).ctx c x).tenant
                                 arg0 := num.toNat, arg1 := lkind e * 16 + nstages e, arg2 := compl.addr.toNat }

/-- A Lesson that issues; an Attend also binds its page streams and starts. -/
def lessonEntered (w : State) (c x : Nat) (num : U32) (e : BitVec 1024) (compl : Compl) (l : LessonRun) : State :=
  if lkind e ≠ 1 then lessonListed w c x num e compl l
  else
    let q := attStart (bindPageStreams (lessonListed w c x num e compl l) c (w.core c).nextLesson l) c
      (w.core c).nextLesson l
    updLesson q.1 c (w.core c).nextLesson (fun l => { l with att := some q.2 })

/-- The report that a scheduled Lesson conflicts with row r. -/
def hazardNoted (t : State) (c x r : Nat) : State := (t.raise .schedHazard 1 c (x * 65536 + r)).bump .ttHazards c

/-- A Lesson that the checks accept, by what it waits for, its marking and the hazard mode. -/
def lessonPresented (t : State) (c x : Nat) (num : U32) (e : BitVec 1024) (compl : Compl) (l : LessonRun) : State :=
  let clash := sbConflict t c (lreads e (heavies l.stages).length) (lwrites e (heavies l.stages).length)
  if lessonHindered t c e l || (clash.isSome && (lunsched e || false)) then parkCmd t c x num e compl false
  else
    let wrong := clash.isSome && t.ent .ttHazardMode c != 0
    let w := if wrong then hazardNoted t c x (clash.getD 0) else t
    if wrong && t.ent .ttHazardMode c = 2 then parkCmd w c x num e compl true else lessonEntered w c x num e compl l

section
variable {s t : State} {c x : Nat} {num : U32} {e : BitVec 1024} {compl : Compl} {fs : List Fetched} {st : List Stage}
  (ht : settleControl s c e = t) (hst : (if layerEn e && isEscalated t (lrep e) (llayer e) then
    escalate (isBackward e) (lkind e = 1) (readStages t c e) else readStages t c e) = st)
include ht hst

theorem issueLesson_refused (hc : lessonCode t c x e (readStages t c e) st ≠ .ok) :
    issueLesson s c x num e compl fs false = refuseCmd t c x compl (lessonCode t c x e (readStages t c e) st) := by
  subst ht hst
  unfold issueLesson
  extract_lets t st0 esc st
  split
  · exact absurd ‹_› hc
  · rfl

theorem issueLesson_accepted (hc : lessonCode t c x e (readStages t c e) st = .ok) {l : LessonRun}
    (hl : { ctx := x, num := num, desc := e, compl := compl, stages := st
            escalated := layerEn e && isEscalated t (lrep e) (llayer e), fusedDeriv := takesFused t c x e, fetched := fs
            seqs := mapSeqs t c e
            arms := (List.range st.length).filter (fun i => namesArm (lkind e = 1) (stageAt st i)) } = l) :
    issueLesson s c x num e compl fs false = lessonPresented t c x num e compl l := by
  have hseqs : mapSeqs t c e = l.seqs := by rw [← hl]
  have hstages : st = l.stages := by rw [← hl]
  unfold issueLesson
  extract_lets t' st0 esc st'
  have ht' : t' = t := ht
  clear_value t'
  subst ht'
  have hst' : st' = st := hst
  clear_value st'
  subst hst'
  rw [show lessonCode t' c x e st0 st' = .ok from hc]
  dsimp -zeta only
  rename_i seqs nh reads writes l0 busy heldSeq clash mode wrong w id taken listed entered flagged traced bound
  have hseqs' : seqs = l.seqs := hseqs
  have hnh : nh = (heavies l.stages).length := congrArg (fun v => (heavies v).length) hstages
  have hl0 : l0 = l := hl
  clear_value l0 nh seqs
  subst hseqs' hnh hl0
  have hlisted : traced = lessonListed w c x num e compl l0 := rfl
  have hbound : bound = bindPageStreams traced c id l0 := rfl
  have hid : id = (w.core c).nextLesson := rfl
  clear_value bound traced flagged entered listed taken id
  subst hbound hlisted hid
  refine ite_iff_congr Iff.rfl rfl (ite_iff_congr Iff.rfl rfl (Eq.trans (b := lessonEntered w c x num e compl l0) ?_ rfl))
  clear_value w
  unfold lessonEntered
  exact ite_iff_congr bne_iff_ne rfl rfl

end

section
variable {t : State} {c x : Nat} {num : U32} {e : BitVec 1024} {compl : Compl} {l : LessonRun}

theorem lessonPresented_hindered (h : lessonHindered t c e l = true) :
    lessonPresented t c x num e compl l = parkCmd t c x num e compl := if_pos (by rw [h, Bool.true_or])

variable (h : lessonHindered t c e l = false)
include h

theorem lessonPresented_clear
    (hs : sbConflict t c (lreads e (heavies l.stages).length) (lwrites e (heavies l.stages).length) = none) :
    lessonPresented t c x num e compl l = lessonEntered t c x num e compl l := by
  simp only [lessonPresented, h, hs, Option.isSome_none, Bool.false_and, Bool.or_self, Bool.false_eq_true, if_false]

variable {r : Nat} (hs : sbConflict t c (lreads e (heavies l.stages).length) (lwrites e (heavies l.stages).length) = some r)
include hs

theorem lessonPresented_unscheduled (hu : lunsched e = true) :
    lessonPresented t c x num e compl l = parkCmd t c x num e compl := by
  simp only [lessonPresented, h, hs, hu, Option.isSome_some, Bool.true_or, Bool.and_self, Bool.or_true, if_true]

variable (hu : lunsched e = false)
include hu

/-- A scheduled Lesson with a row in conflict, by the hazard mode. -/
theorem lessonPresented_scheduled : lessonPresented t c x num e compl l =
    if t.ent .ttHazardMode c = 0 then lessonEntered t c x num e compl l
    else if t.ent .ttHazardMode c = 2 then parkCmd (hazardNoted t c x r) c x num e compl true
    else lessonEntered (hazardNoted t c x r) c x num e compl l := by
  simp only [lessonPresented, h, hs, hu, Option.isSome_some, Option.getD_some, Bool.true_and, Bool.or_self, Bool.false_eq_true,
    if_false]
  by_cases h0 : t.ent .ttHazardMode c = 0
  · simp only [h0, bne_self_eq_false, Bool.false_and, Bool.false_eq_true, if_false, if_true]
  · simp only [bne_iff_ne.mpr h0, Bool.true_and, decide_eq_true_eq, if_neg h0, if_true]

end

theorem exec_of_presented {c : Instr} {core : Fin 32} {ctx : Fin 8} {num : U32} {d e : BitVec 1024} {fs : List Fetched}
    {s : State} {kind : Nat} {bwd : Option Nat} (he : asLesson kind bwd d = e) (h : canIssue s core ctx = true)
    (hc : (kind = 0 ∧ bwd = (if isBackward d then some 0 else none) ∧ c = .lesson core ctx num d fs) ∨
      (kind = 1 ∧ bwd = none ∧ c = .attend core ctx num d fs) ∨ (kind = 2 ∧ bwd = none ∧ c = .ringLoad core ctx num d fs) ∨
      (kind = 0 ∧ bwd = some 1 ∧ c = .actGrad core ctx num d fs) ∨
      (kind = 0 ∧ bwd = some 2 ∧ c = .gateGrad core ctx num d fs) ∨
      (kind = 0 ∧ bwd = some 3 ∧ c = .normGrad core ctx num d fs) ∨
      (kind = 1 ∧ bwd = some 4 ∧ c = .attGrad core ctx num d fs) ∨
      (kind = 0 ∧ bwd = some 5 ∧ c = .update core ctx num d fs)) :
    exec c s = .next (issueLesson s core ctx num e (complOf s core ctx e) fs false) := by
  have hpresent : exec c s = .next (presentLesson s core ctx num e fs) := by
    subst he
    rcases hc with ⟨rfl, rfl, rfl⟩ | ⟨rfl, rfl, rfl⟩ | ⟨rfl, rfl, rfl⟩ | ⟨rfl, rfl, rfl⟩ | ⟨rfl, rfl, rfl⟩ |
      ⟨rfl, rfl, rfl⟩ | ⟨rfl, rfl, rfl⟩ | ⟨rfl, rfl, rfl⟩ <;> rfl
  exact hpresent.trans (congrArg Host.Outcome.next (if_pos h))

/-- Settles O26: every kind presents its Lesson alike; what follows depends on the checks, what hinders it and its rows. -/
theorem lessonsIssue : Obligations.LessonsIssue := by
  unfold Obligations.LessonsIssue
  intro core ctx num d fs s kind bwd c hc hissue e compl t esc st
  have hexec : exec c s = .next (issueLesson s core ctx num e compl fs false) := exec_of_presented rfl hissue hc
  refine ⟨fun hcode => ?refused, fun hcode => ?checked⟩
  case refused => exact hexec.trans (congrArg Host.Outcome.next (issueLesson_refused rfl rfl hcode))
  case checked =>
    intro nh seqs l clash free id issues noted
    have hpresented : exec c s = .next (lessonPresented t core ctx num e compl l) :=
      hexec.trans (congrArg Host.Outcome.next (issueLesson_accepted rfl rfl hcode rfl))
    have hfree : lessonHindered t core e l = false ↔ free := lessonHindered_eq_false_iff t core e l
    have hissues : ∀ w, lessonEntered w core ctx num e compl l = issues w := by
      intro w
      rfl
    refine ⟨fun hf => ?hindered, fun hf hs => ?clear, fun hf r hs => ⟨fun hu => ?unscheduled, fun hu => ?scheduled⟩⟩
    case hindered =>
      rw [hpresented, lessonPresented_hindered (Bool.of_not_eq_false fun h => hf (hfree.mp h))]
    case clear => rw [hpresented, lessonPresented_clear (hfree.mpr hf) hs, hissues]
    case unscheduled => rw [hpresented, lessonPresented_unscheduled (hfree.mpr hf) hs hu]
    case scheduled =>
      rw [hpresented, lessonPresented_scheduled (hfree.mpr hf) hs hu]
      refine ⟨fun h0 => ?_, fun h2 => ?_, fun h0 h2 => ?_⟩
      · rw [if_pos h0, hissues]
      · rw [if_neg (by omega), if_pos h2]
        rfl
      · rw [if_neg h0, if_neg h2, hissues]
        rfl

end Sys2Proof.Machine
end
